-- ==== Sys2Proof/Word.lean ====
section
/-!
DEFINITION. The word types of the JL8064: bytes, 64-bit registers, and the name of one sparse cell.
Field extraction, sign extension and byte order live in Machine/Bits.lean.
-/

namespace Sys2Proof

/-- One byte of memory. -/
abbrev Byte := BitVec 8

/-- One 64-bit register or address (R61). -/
abbrev Word := BitVec 64

/-- One 16-byte instruction word (R106). -/
abbrev InsWord := BitVec 128

end Sys2Proof
end

