-- ==== Sys2Proof/Syntax.lean ====
section
/-!
DEFINITION. The commands the block takes, one constructor of `Instr` per row of spec/opcode_table.json, and the operand
records they carry. The table gives the rows no bits, so the operands are the model's own choice (assumption log 1).
-/

namespace Sys2Proof

/-- Who makes a register access (R36, R37): a stove context, a Mantel core, or the debug path. -/
inductive Src where
  | context
  | north
  | south
  | debug
  deriving DecidableEq, Repr

/-- The waits of R273 that something outside the model decides: an absent line, an instruction line, a line, claim or
SM3 unit that another party holds, store-buffer space or drain, and a device access in progress. -/
inductive ExtWait where
  | line
  | fetch
  | claim
  | sm3
  | storeSpace
  | drain
  | device
  deriving DecidableEq, Repr

/-- What device memory behind a flexible port answers a load with (R430). -/
inductive Completion where
  /-- the bytes, as a little-endian number -/
  | data (v : BitVec 256)
  /-- Unsupported Request or Completer Abort -/
  | refused
  /-- a poisoned completion -/
  | poisoned
  /-- no completion within CTO -/
  | timeout
  deriving DecidableEq, Repr

/-- What the pins of a group deliver wrong as a near line is read: by pin of the group, 16 × channel + DQ, the bits inverted in its
symbol (R410); and, for a line that proves uncorrectable, whether no other line of the frame gives its key byte (R391). -/
structure Misread where
  flips   : List (BitVec 7 × Byte) := []
  keyGone : Bool := false
  deriving DecidableEq, Repr

/-- What the memory controller or a flexible port finds on a line that an access fills, or on its channel (R412, R418, R421,
R424): how a near line is read, retried bursts, a burst that failed all its retries, and a far line that arrives poisoned. -/
inductive MemFinding where
  | filled (line : BitVec 30) (m : Misread)
  | retried (count : BitVec 3)
  | burst (channel : BitVec 6)
  | farPoison (line : BitVec 42)
  deriving DecidableEq, Repr

/-- What an upset in one pass does to a compare item (R361, R363). -/
inductive FlipKind where
  /-- it inverts bits of the value that the pass delivers -/
  | value (mask : BitVec 256)
  /-- it inverts bits of the destination: an address, a register number, or what the item concerns -/
  | dest (mask : Word)
  /-- the pass delivers no such item -/
  | lost
  deriving DecidableEq, Repr

/-- An upset of one compare item: which item of the pass, in the order the pass delivers them, and what happens to it. -/
structure Flip where
  item : Nat
  kind : FlipKind
  deriving DecidableEq, Repr

/-- What the physical world does to one try of a refire pair: upsets in the units of pass A, in those of pass B, and inverted bits
of shelf entries, by entry (R361, R365). -/
structure Upset where
  a     : List Flip := []
  b     : List Flip := []
  shelf : List (Nat × BitVec 256) := []
  deriving DecidableEq, Repr

/-- A line that has left a cache since the stove's last access: the hob of the stove that the command names, or the hearth cache of
its hearth (R291). What a cache evicts, and when, is for the physical world to say. -/
inductive Evicted where
  | hob (line : Nat)
  | hearth (line : Nat)
  deriving DecidableEq, Repr

/-- An access that overran its charge in open timing: its address and the excess in cc (R293). -/
structure Excess where
  addr   : Word
  excess : BitVec 32
  deriving DecidableEq, Repr

/-- What the physical world does during one issue: nothing, in the ordinary case. -/
structure Env where
  /-- the first wait of R273 that the microwords meet, if any -/
  wait   : Option ExtWait := none
  /-- the wait that a refired pair meets between its two passes, if any -/
  between : Option ExtWait := none
  /-- what happens to the tries of a refired pair, in order -/
  upsets : List Upset := []
  /-- by how much TOD has advanced at each pass of a pair after the first (R366) -/
  elapsed : Nat := 0
  /-- the completions of the loads from device memory, in order -/
  device : List Completion := []
  /-- what the fills find -/
  mem    : List MemFinding := []
  /-- the accesses that overran their charges in open timing -/
  excess : List Excess := []
  /-- the lines that have left the caches -/
  evicted : List Evicted := []
  /-- the lines whose ownership the fabric grants without data, where it may (R439) -/
  bare   : List Nat := []
  deriving DecidableEq, Repr

/-- The fields of an instruction word below its opcode (R106). -/
structure Word112 where
  fmt  : BitVec 4
  len  : BitVec 16
  opd1 : BitVec 32
  opd2 : BitVec 32
  opd3 : BitVec 32
  deriving DecidableEq, Repr

/-- One issue of an instruction: the flue whose context issues it, the word below the opcode, and the physical world. -/
structure Issue where
  stove : BitVec 6
  flue  : BitVec 2
  word  : Word112
  env   : Env
  deriving DecidableEq, Repr

/-- A micro-trap (R328, R330): the instruction in progress and how many of its microwords have retired. -/
structure MicroTrap where
  op   : BitVec 12
  word : Word112
  done : BitVec 16
  deriving DecidableEq, Repr

/-- What the write-back of a modified line meets (R441). -/
inductive WriteBack where
  | written
  /-- how the near read-modify-write of a partly valid line reads it (R440) -/
  | merged (m : Misread)
  /-- a CXL link error after retry, or an error response, with the line as the device holds it, and whether it holds it poisoned -/
  | farError (held : List Byte) (poisoned : Bool)
  deriving DecidableEq, Repr

/-- How a re-kindle of an Ember store ends (R512). -/
inductive Reload where
  | good
  | bad
  deriving DecidableEq, Repr

/-- The head of a RoCE packet whose destination is this device (R466): port, destination QP, PSN, whether its ICRC holds,
and its acknowledge request. -/
structure RoceHead where
  port   : BitVec 3
  qp     : BitVec 24
  psn    : BitVec 24
  icrcOk : Bool
  ackReq : Bool
  deriving DecidableEq, Repr

/-- What a UD SEND carries besides (R455, R456): its Q_Key, its source QP, and the frame without ICRC with the offset of its
payload. -/
structure UdInfo where
  qkey  : BitVec 32
  srcQp : BitVec 24
  frame : List Byte
  doff  : BitVec 16
  deriving DecidableEq, Repr

/-- A SEND packet: its place in the message, immediate data, UD part and payload. -/
structure RoceSend where
  first   : Bool
  last    : Bool
  imm     : Option (BitVec 32)
  ud      : Option UdInfo
  payload : List Byte
  deriving DecidableEq, Repr

/-- An RDMA WRITE packet: its place, and the address, R_Key and length that the first packet carries. -/
structure RoceWrite where
  first   : Bool
  last    : Bool
  va      : Word
  rkey    : BitVec 32
  len     : BitVec 32
  payload : List Byte
  deriving DecidableEq, Repr

/-- What a RoCE packet asks for or answers. -/
inductive RoceKind where
  | send (x : RoceSend)
  | write (x : RoceWrite)
  | read (va : Word) (rkey len : BitVec 32)
  | ack (syndrome : BitVec 8)
  deriving DecidableEq, Repr

/-- A RoCE packet. -/
structure RocePacket where
  head : RoceHead
  kind : RoceKind
  deriving DecidableEq, Repr

/-- A mirror message as the transport delivers it (R471): the queue pair, CTR, and whether its tag holds when the set is
encrypted. -/
structure MirrorHead where
  qp    : BitVec 16
  ctr   : Word
  tagOk : Bool
  deriving DecidableEq, Repr

/-- A mirror message (R471, R472, R474): what a primary and a shadow send each other. -/
inductive MirrorMsg where
  | hello (na : BitVec 256) (pub : BitVec 512) (eph : BitVec 512)
  | helloReply (nb : BitVec 256) (pub : BitVec 512) (eph : BitVec 512) (sig : BitVec 512)
  | confirm (sig : BitVec 512)
  | resume (ring : BitVec 12) (seq : Word) (chain : BitVec 256)
  | records (ring : BitVec 12) (seq : Word) (records : List (BitVec 1024))
  | ack (ring : BitVec 12) (seq : Word) (chain : BitVec 256)
  | close (reason : BitVec 32)
  deriving DecidableEq, Repr

/-- What the flash and the non-volatile store do when COMMIT writes a record (R524): all writes succeed, or the first flash
copy, the store, or the other copy fails. -/
inductive StoreFault where
  | none
  | flash
  | store
  | other
  deriving DecidableEq, Repr

/-- What a flexible port's link partner is (R428, R433): the width and generation it offers, whether a CXL device is Type 3,
its capacity, and the memory it holds when it did not keep what was written: bytes by window offset, and poisoned lines. -/
structure LinkPartner where
  width    : BitVec 3
  gen      : BitVec 3
  type3    : Bool
  capacity : Word
  memory   : Option (List (BitVec 40 × Byte))
  poison   : List (BitVec 34)
  deriving DecidableEq, Repr

/-- What an inbound request names (R431, R432): a physical address below a root port, or an offset in a BAR of the endpoint. -/
inductive Target where
  | phys (a : Word)
  | bar0 (off : Word)
  | bar2 (off : BitVec 22)
  | bar4 (off : BitVec 14)
  deriving DecidableEq, Repr

/-- An inbound request: a read of a length, a write and whether it is poisoned, or a configuration request with the value of a
write. -/
inductive Inbound where
  | read (t : Target) (len : BitVec 13)
  | write (t : Target) (bytes : List Byte) (poisoned : Bool)
  | config (reg : BitVec 12) (value : Option (BitVec 32))
  deriving DecidableEq, Repr

/-- R506: one boot flash device: whether it is fitted, its image from offset 0x1_0000, and its two sealed-configuration copies. -/
structure Flash where
  present : Bool
  image   : List Byte
  copy0   : List Byte
  copy1   : List Byte
  deriving DecidableEq, Repr

/-- What start-up meets (R555): whether the rails and the root PLL come up good, the straps, the random source, channels that
fail training, and stoves whose Ember load fails twice. -/
structure BootEnv where
  rails    : Bool := true
  lock     : Bool := true
  bootsel  : BitVec 2 := 0
  random   : Bool := true
  channels : BitVec 40 := 0
  embers   : BitVec 64 := 0
  deriving DecidableEq, Repr

/-- The three management interfaces (R560). -/
inductive Iface where
  | i3c
  | uart
  | jtag
  deriving DecidableEq, Repr

/-- A management request whose frame and CRC are good (R561): its interface, TAG and payload. -/
structure Mgmt where
  iface   : Iface
  tag     : BitVec 8
  payload : List Byte
  deriving DecidableEq, Repr

/-- The sensors the Mantel reads (R547): one per hearth, four on the base die, in signed °C; and VIN as VINMON reports it. -/
structure Readings where
  hearths : Vector (BitVec 8) 8
  bases   : Vector (BitVec 8) 4
  vin     : BitVec 48
  deriving DecidableEq, Repr

/-- An access of the debug path (R528): a register, or memory as a supervisor-state access with key 0. -/
inductive DebugAccess where
  | readReg (addr : BitVec 20)
  | writeReg (addr : BitVec 20) (value : Word)
  | readMem (addr : Word) (len : BitVec 13)
  | writeMem (addr : Word) (bytes : List Byte)
  deriving DecidableEq, Repr

/-- An issue of a MOV, or of a word that no row of the table names: `other` is an OP that R109 does not assign, and none in a MOV
(assumption log 65). -/
structure MovIssue where
  issue : Issue
  other : Option (BitVec 12)
  deriving DecidableEq, Repr

/-- A WBINV of a hearth, and what the write-backs of its modified lines meet, by line (R440, R441). -/
structure Wbinv where
  hearth : BitVec 3
  found  : List (BitVec 42 × WriteBack)
  deriving DecidableEq, Repr

/-- What an inbound write carries: its bytes, and whether it is poisoned (R427, R432). -/
structure InWrite where
  bytes    : List Byte
  poisoned : Bool
  deriving DecidableEq, Repr

/-- The commands of the block, one constructor per row of the opcode table (R109 and the rules named). -/
inductive Instr where
  /-- MOV (R147). Copies the source operand to the destination at the FMT width, leaving CC unchanged; or a word that no
  row of the table names. -/
  | mov (m : MovIssue)
  /-- MOV_PSW (R69). Reads the PSW control word, bits 127 to 64, into a G register. -/
  | movPsw (i : Issue)
  /-- AND_PSW (R69). ANDs a value into the PSW control word after checking which fields the current state may change. -/
  | andPsw (i : Issue)
  /-- OR_PSW (R69). ORs a value into the PSW control word after checking which fields the current state may change. -/
  | orPsw (i : Issue)
  /-- LEA (R119). Writes the effective address of its source specifier to a G register without accessing the operand. -/
  | lea (i : Issue)
  /-- ADD (R147). Adds two binary integers modulo 2^w and sets the arithmetic CC, trapping on overflow when FOM is 1. -/
  | add (i : Issue)
  /-- SUB (R147). Subtracts two binary integers modulo 2^w and sets the arithmetic CC, trapping on overflow when FOM is 1. -/
  | sub (i : Issue)
  /-- MUL (R147). Writes the low w bits of the signed product and detects overflow. -/
  | mul (i : Issue)
  /-- MULH (R147). Writes the high w bits of the signed or unsigned double-width product. -/
  | mulh (i : Issue)
  /-- DIV (R149). Performs signed division truncated toward zero, raising 0x07 on a zero divisor. -/
  | div (i : Issue)
  /-- DIVU (R149). Performs unsigned division, raising 0x07 on a zero divisor. -/
  | divu (i : Issue)
  /-- REM (R149). Writes the remainder of a signed or unsigned division, raising 0x07 on a zero divisor. -/
  | rem (i : Issue)
  /-- NEG (R147). Negates the source modulo 2^w and overflows on MIN. -/
  | neg (i : Issue)
  /-- ABS (R147). Writes the absolute value of the source modulo 2^w and overflows on MIN. -/
  | abs (i : Issue)
  /-- AND (R153). Writes the bitwise AND and sets CC to zero or nonzero. -/
  | and (i : Issue)
  /-- OR (R153). Writes the bitwise OR and sets CC to zero or nonzero. -/
  | or (i : Issue)
  /-- XOR (R153). Writes the bitwise exclusive OR and sets CC to zero or nonzero. -/
  | xor (i : Issue)
  /-- NOT (R153). Writes the bitwise complement of the source and sets CC to zero or nonzero. -/
  | not (i : Issue)
  /-- SHL (R152). Shifts left logically by a count of 0 to 255. -/
  | shl (i : Issue)
  /-- SHR (R152). Shifts right logically by a count of 0 to 255. -/
  | shr (i : Issue)
  /-- SHA (R152). Shifts arithmetically left or right, with overflow detection on left shifts. -/
  | sha (i : Issue)
  /-- ROT (R152). Rotates left or right by the count modulo w. -/
  | rot (i : Issue)
  /-- CMP (R154). Compares two values, signed or unsigned, and sets CC without writing anything. -/
  | cmp (i : Issue)
  /-- TST (R153). Tests the AND of two values and sets CC without writing anything. -/
  | tst (i : Issue)
  /-- BR (R156). Sets IA to a 16-byte-aligned target. -/
  | br (i : Issue)
  /-- BRC (R156). Branches to the target when the LEN mask bit selected by CC is 1, and otherwise advances IA by 16. -/
  | brc (i : Issue)
  /-- CALL (R157). Pushes the return address through G15 and branches to the target. -/
  | call (i : Issue)
  /-- RET (R157). Pops a 16-byte-aligned return address through G15 into IA. -/
  | ret (i : Issue)
  /-- REP (R139). Loads PSW.RCNT so that the following instruction repeats n times, or skips it when n is 0. -/
  | rep (i : Issue)
  /-- ADDP (R186). Adds two checked packed decimal operands and delivers the sum under the overflow rule. -/
  | addp (i : Issue)
  /-- SUBP (R186). Subtracts two checked packed decimal operands and delivers the difference under the overflow rule. -/
  | subp (i : Issue)
  /-- ZAPP (R186). Delivers the checked packed source into the destination with its preferred sign. -/
  | zapp (i : Issue)
  /-- CMPP (R186). Compares two checked packed decimal values and sets CC. -/
  | cmpp (i : Issue)
  /-- MULP (R188). Multiplies packed decimal operands exactly and delivers the product, taking damper leave for long operands. -/
  | mulp (i : Issue)
  /-- DIVP (R190). Divides packed decimals, writing the remainder and then the quotient after taking damper leave. -/
  | divp (i : Issue)
  /-- SRPP (R194). Scales a packed operand by a power of ten and rounds right shifts by the selected mode. -/
  | srpp (i : Issue)
  /-- TSTP (R195). Reports the validity of a packed operand's digits and sign through CC. -/
  | tstp (i : Issue)
  /-- CVBP (R196). Converts a packed value to 64-bit signed binary, with fixed-point overflow. -/
  | cvbp (i : Issue)
  /-- CVDP (R197). Converts a signed 64-bit binary value to packed decimal. -/
  | cvdp (i : Issue)
  /-- PACK (R198). Converts a signed or unsigned zoned operand into packed decimal. -/
  | pack (i : Issue)
  /-- UNPK (R199). Converts packed decimal into zoned digits with zone 0x3. -/
  | unpk (i : Issue)
  /-- LDA (R201). Loads bytes into an accumulator, zero-filled and unchecked. -/
  | lda (i : Issue)
  /-- STA (R201). Stores the last bytes of an accumulator to memory, unchecked. -/
  | sta (i : Issue)
  /-- MOVL (R223). Moves a long source into a destination in units, padding and refusing destructive overlap. -/
  | movl (i : Issue)
  /-- CMPL (R225). Compares two long operands with padding and stops at the first unequal byte. -/
  | cmpl (i : Issue)
  /-- TRL (R226). Translates each operand byte in place through a 256-byte table. -/
  | trl (i : Issue)
  /-- TRTL (R227). Scans an operand through a function table and stops at the first nonzero function byte. -/
  | trtl (i : Issue)
  /-- SRCH (R228). Scans an operand for the first byte equal, or not equal, to TARGET. -/
  | srch (i : Issue)
  /-- EDIT (R231). Edits a packed source into printable bytes under a pattern. -/
  | edit (i : Issue)
  /-- EDMK (R231). Edits like EDIT, tracks the float position in a mark register, and stores the float character. -/
  | edmk (i : Issue)
  /-- POST (R244). Moves an amount between two packed balances, checks the limit, and appends a chained journal record in one instruction. -/
  | post (i : Issue)
  /-- JAPP (R262). Appends a software-payload record to a journal ring and returns its sequence number. -/
  | japp (i : Issue)
  /-- DURW (R267). Waits uncharged until a ring record is durable, not yet appended, or in fault. -/
  | durw (i : Issue)
  /-- FADD (R163). Adds floating-point values rounded by BRM. -/
  | fadd (i : Issue)
  /-- FSUB (R163). Subtracts floating-point values rounded by BRM. -/
  | fsub (i : Issue)
  /-- FMUL (R163). Multiplies floating-point values rounded by BRM. -/
  | fmul (i : Issue)
  /-- FMA (R163). Computes a + b × c rounded once. -/
  | fma (i : Issue)
  /-- FDIV (R163). Divides floating-point values after taking damper leave. -/
  | fdiv (i : Issue)
  /-- FSQRT (R163). Computes a binary64 square root after taking damper leave. -/
  | fsqrt (i : Issue)
  /-- FCMP (R163). Compares floating-point values and sets CC, unordered included. -/
  | fcmp (i : Issue)
  /-- FCVT (R164). Converts between binary32, binary64 and integer formats. -/
  | fcvt (i : Issue)
  /-- DOT (R166). Accumulates a fused inner product of two vectors in units of up to 256 elements. -/
  | dot (i : Issue)
  /-- SAVEH (R92). Stores selected register groups into a sealed save frame taken from the free list. -/
  | saveh (i : Issue)
  /-- RESTH (R95). Verifies the most recent save frame, reloads its groups, and returns the frame to the free list. -/
  | resth (i : Issue)
  /-- SEALF (R90). Checks a software-built frame and seals it as software origin for its owner. -/
  | sealf (i : Issue)
  /-- RETX (R103). Checks and verifies an exception frame and loads its OLDPSW, long-instruction state and ember state. -/
  | retx (i : Issue)
  /-- SVC (R336). Raises supervisor call 0x19 with the call number in FADDR. -/
  | svc (i : Issue)
  /-- WAIT (R316). Takes pending events or group counts in the mask, or waits for one or for the deadline. -/
  | wait (i : Issue)
  /-- SIGNAL (R318). Fences, then delivers an SG event to a context or a wake group. -/
  | signal (i : Issue)
  /-- SEND (R461). Posts a send descriptor to a queue's send ring and releases the current message. -/
  | send (i : Issue)
  /-- RECV (R460). Releases the current message and takes the oldest message of a queue into MSG. -/
  | recv (i : Issue)
  /-- PIN (R323). Pins up to 32 lines in the stove's hob for the context. -/
  | pin (i : Issue)
  /-- UNPIN (R323). Ends the context's pins on the named lines. -/
  | unpin (i : Issue)
  /-- SAMPLE (R320). Reads one volatile value, such as TOD, queue depth, ring state or EVPEND, into a G register. -/
  | sample (i : Issue)
  /-- FENCE (R436). Waits until every earlier load is performed and every earlier store is visible. -/
  | fence (i : Issue)
  /-- SETKEY (R398). Reserves a frame's lines, writes its key byte, and optionally clears REF and CHG. -/
  | setkey (i : Issue)
  /-- TESTKEY (R402). Reports whether a load and a store would be allowed at an address, with the frame's key byte. -/
  | testkey (i : Issue)
  /-- MICROWORD_REISSUE (R273). A withdrawn microword is reissued unchanged once its wait has ended and the context holds a flue. -/
  | microwordReissue (stove : BitVec 6) (flue : BitVec 2) (env : Env)
  /-- DAMPER_LEAVE_GRANT (R543). The damper grants leave to the head of a bucket's queue and subtracts the cost. -/
  | damperLeaveGrant (bucket : BitVec 4)
  /-- LINE_RESERVATION_GRANT (R249). The fabric grants the next line of a reservation set in ascending address order. -/
  | lineReservationGrant (ctx : BitVec 20)
  /-- STORE_BUFFER_DRAIN (R438). A completed buffered store is written into the hob in program order. -/
  | storeBufferDrain (ctx : BitVec 20)
  /-- LINE_WRITE_BACK (R440). A modified line is written back on eviction, WBINV or coherence demand. -/
  | lineWriteBack (line : BitVec 42) (found : WriteBack)
  /-- TIMER_ALARM (R326). The time of day reaches a context's nonzero ALARM, which is cleared, and 0x22 becomes pending. -/
  | timerAlarm (ctx : BitVec 20)
  /-- WAIT_DEADLINE (R316). The time of day reaches the deadline of a WAIT whose mask holds TM. -/
  | waitDeadline (ctx : BitVec 20)
  /-- ALARM_TAKEN (R340). A pending, enabled alarm is delivered at a boundary point or at a trap-safe microword. -/
  | alarmTaken (ctx : BitVec 20) (micro : Option MicroTrap) (env : Env)
  /-- FLUE_BIND (R308). At an empty flue's issue cycle, binds the highest-priority, earliest-ready resident context. -/
  | flueBind (stove : BitVec 6) (flue : BitVec 2)
  /-- TIME_SLICE_DUE (R309). A TSE context that has retired TSLICE × 64 cc since it was bound becomes due for preemption. -/
  | timeSliceDue (stove : BitVec 6) (flue : BitVec 2)
  /-- PREEMPTION (R311). A context leaves its flue at a boundary point and joins the tail of its priority. -/
  | preemption (ctx : BitVec 20)
  /-- SPILL (R306). Writes a context's stale groups into its sealed spill frame and releases its bank. -/
  | spill (ctx : BitVec 20)
  /-- REFILL (R307). Verifies a spill frame and loads it into a free bank, making the context resident. -/
  | refill (ctx : BitVec 20)
  /-- CTXCMD_START (R302). Makes a stopped or held context ready and clears HREASON. -/
  | ctxcmdStart (src : Src) (ctx : BitVec 20)
  /-- CTXCMD_STOP (R302). Spills a resident context at its next boundary point and sets it stopped. -/
  | ctxcmdStop (src : Src) (ctx : BitVec 20)
  /-- CTXCMD_EVICT (R302). Spills a resident context at its next boundary point, leaving it ready or waiting. -/
  | ctxcmdEvict (src : Src) (ctx : BitVec 20)
  /-- CTXCMD_PREEMPT (R302). Makes a resident context leave its flue at its next boundary point. -/
  | ctxcmdPreempt (src : Src) (ctx : BitVec 20)
  /-- CTXCMD_ALARM (R302). Sets a context's ALARM deadline from CTXARG. -/
  | ctxcmdAlarm (src : Src) (ctx : BitVec 20)
  /-- CTXCMD_ATTN (R302). Makes an attention alarm 0x23 pending for a context. -/
  | ctxcmdAttn (src : Src) (ctx : BitVec 20)
  /-- CTXCMD_RESET (R302). Resets a context: releases its bank, discards its alarms and ember state, and stops it. -/
  | ctxcmdReset (src : Src) (ctx : BitVec 20)
  /-- WGCMD_ENABLE (R313). Sets EN of a wake group. -/
  | wgcmdEnable (src : Src) (wg : BitVec 12)
  /-- WGCMD_DISABLE (R313). Clears EN of a wake group. -/
  | wgcmdDisable (src : Src) (wg : BitVec 12)
  /-- WGCMD_CLEAR_COUNTS (R313). Clears QCNT, SCNT and ACNT of a wake group. -/
  | wgcmdClearCounts (src : Src) (wg : BitVec 12)
  /-- MAN_DUMPCMD (R565). Starts the scan-dump of a named locked stove. -/
  | manDumpcmd (src : Src) (stove : BitVec 6)
  /-- RFCMD_QUAR (R372). Quarantines a stove on command, with RFLAST.ITEM 0xF. -/
  | rfcmdQuar (src : Src) (stove : BitVec 6)
  /-- EMBER_PARITY_ERROR (R512). A microword parity failure stops the stove and re-kindles its Ember store from the retained copy. -/
  | emberParityError (stove : BitVec 6) (upc : BitVec 14) (reload : Reload)
  /-- REKCMD (R512). Re-kindles a named stove as though a parity error had been found. -/
  | rekcmd (src : Src) (stove : BitVec 6) (reload : Reload)
  /-- QUIESCE_REQUEST (R52). Setting QREQ makes a block stop accepting work and park its operations in progress. -/
  | quiesceRequest (src : Src) (slot : BitVec 8)
  /-- QUIESCE_ACK (R52). The block becomes Quiesced and sets QACK. -/
  | quiesceAck (slot : BitVec 8)
  /-- QUIESCE_RELEASE (R52). Clearing QREQ withdraws the request or resumes the block and applies the Q fields written meanwhile. -/
  | quiesceRelease (src : Src) (slot : BitVec 8)
  /-- QUIESCE_TIMEOUT (R55). A block that misses its quiesce bound logs a quiesce timeout and keeps trying. -/
  | quiesceTimeout (slot : BitVec 8)
  /-- REGISTER_WRITE (R50). A write to a register with no row of its own acts on each field by its class. -/
  | registerWrite (src : Src) (addr : BitVec 20) (value : Word)
  /-- RC_READ (R45). A stove-context load of an RC field returns it and clears it. -/
  | rcRead (addr : BitVec 20)
  /-- CACHECTL_WBINV (R440). Writes back and invalidates the whole hearth cache. -/
  | cachectlWbinv (src : Src) (w : Wbinv)
  /-- FKTEN_CHANGE (R390). A change of KEYCTL.FKTEN takes effect after every cached far line has been written back and invalidated. -/
  | fktenChange (src : Src) (on : Bool)
  /-- FRAME_RECEIVE (R444). An Ethernet frame arrives on a port and is filtered, steered and placed in a receive ring. -/
  | frameReceive (port : BitVec 3) (fcsOk : Bool) (bytes : List Byte)
  /-- SEND_DESCRIPTOR (R463). Chimney reads a posted descriptor's bytes, transmits the frame, writes status, and advances TXCONS. -/
  | sendDescriptor (queue : BitVec 19)
  /-- DOORBELL_SEND_PRODUCER (R464). A doorbell store with KIND 0 advances a doorbell-owned send ring's TXPROD. -/
  | doorbellSendProducer (queue : BitVec 19) (index : BitVec 32)
  /-- DOORBELL_RECEIVE_TAIL (R464). A doorbell store with KIND 1 advances a doorbell-owned receive ring's RXTAIL. -/
  | doorbellReceiveTail (queue : BitVec 19) (index : BitVec 32)
  /-- QCMD_ENABLE (R453). Reads and checks a queue's state, caches it, and sets ACTIVE. -/
  | qcmdEnable (src : Src) (queue : BitVec 19)
  /-- QCMD_DISABLE (R453). Clears ACTIVE, waits for placements and sends in progress, and writes the state back. -/
  | qcmdDisable (src : Src) (queue : BitVec 19)
  /-- QCMD_FLUSH (R453). Writes a queue's cached state back to memory and leaves the queue active. -/
  | qcmdFlush (src : Src) (queue : BitVec 19)
  /-- QCMD_RELEASE (R453). Releases the message whose header lies at QARG, whoever took it. -/
  | qcmdRelease (src : Src) (queue : BitVec 19)
  /-- QCMD_RESTART (R453). Clears ROCE.ERR of an RC queue pair and begins a new mirror session where a set names it. -/
  | qcmdRestart (src : Src) (queue : BitVec 19)
  /-- RULECMD_LOAD (R448). Copies wildcard rule images FIRST to LAST from memory into the on-chip rules. -/
  | rulecmdLoad (src : Src) (first : BitVec 10) (last : BitVec 10)
  /-- RULECMD_DUMP (R448). Writes each rule's hit count into its HITS field in memory. -/
  | rulecmdDump (src : Src) (first : BitVec 10) (last : BitVec 10)
  /-- STATSEL_CLR (R442). Clears the selected Chimney port counter. -/
  | statselClr (src : Src) (port : BitVec 3) (cnt : BitVec 4)
  /-- ROCE_SEND_RECEIVE (R467). A RoCE SEND packet is checked, reassembled, and placed in the receive ring. -/
  | roceSendReceive (head : RoceHead) (part : RoceSend)
  /-- RDMA_WRITE_RECEIVE (R466). An RDMA WRITE is applied within the queue pair's region under RKEY and RWR. -/
  | rdmaWriteReceive (head : RoceHead) (part : RoceWrite)
  /-- RDMA_READ_RECEIVE (R466). An RDMA READ is answered from the queue pair's region under RKEY and RRD. -/
  | rdmaReadReceive (head : RoceHead) (va : Word) (rkey : BitVec 32) (len : BitVec 32)
  /-- ROCE_ACK_RECEIVE (R467). An RC acknowledgement or NAK completes, retransmits or retries outstanding sends. -/
  | roceAckReceive (head : RoceHead) (syndrome : BitVec 8)
  /-- RC_ACK_TIMEOUT (R467). ACKTO expires, so the requester retransmits go-back-N, and enters the error state after RETRY timeouts. -/
  | rcAckTimeout (qp : BitVec 16)
  /-- MIRROR_SESSION_START (R472). The primary sends HELLO on an active queue pair of an enabled set whose link is up. -/
  | mirrorSessionStart (set : BitVec 3) (peer : Bool)
  /-- HELLO (R472). The shadow checks the primary's identity digest and replies with a signed HELLO-REPLY. -/
  | hello (head : MirrorHead) (na : BitVec 256) (pub : BitVec 512) (eph : BitVec 512)
  /-- HELLO_REPLY (R472). The primary checks the peer digest and signature and sends CONFIRM. -/
  | helloReply (head : MirrorHead) (nb : BitVec 256) (pub : BitVec 512) (eph : BitVec 512) (sig : BitVec 512)
  /-- CONFIRM (R472). The shadow verifies CONFIRM, both sides agree session keys, and the shadow sends RESUME. -/
  | confirm (head : MirrorHead) (sig : BitVec 512)
  /-- RESUME (R473). The primary checks the shadow's HEAD and chain and resumes mirroring, or declares a chain break. -/
  | resume (head : MirrorHead) (ring : BitVec 12) (seq : Word) (chain : BitVec 256)
  /-- RECORDS (R476). The shadow verifies and writes mirrored records, advances its ring, and sends ACK. -/
  | records (head : MirrorHead) (ring : BitVec 12) (seq : Word) (records : List (BitVec 1024))
  /-- ACK (R474). The primary checks a cumulative acknowledgement's chain and advances the peer's acknowledged sequence. -/
  | ack (head : MirrorHead) (ring : BitVec 12) (seq : Word) (chain : BitVec 256)
  /-- CLOSE (R474). A received CLOSE ends the session and marks the peer lost. -/
  | close (head : MirrorHead) (reason : BitVec 32)
  /-- MIRROR_RECORDS_SEND (R474). When no RECORDS message of a ring is waiting, the primary sends up to 32 committed records to a peer. -/
  | mirrorRecordsSend (set : BitVec 3) (peer : Bool) (ring : BitVec 12)
  /-- MIRROR_LOSS_TIMEOUT (R474). A peer without acknowledgement progress for LOSSMS is declared lost. -/
  | mirrorLossTimeout (set : BitVec 3) (peer : Bool)
  /-- PTP_PPS_IN (R469). A rising edge on PTP_PPS_IN latches the time-of-day counter into CHM0.PPSIN. -/
  | ptpPpsIn
  /-- PTP_PPS_OUT (R469). PTP_PPS_OUT rises as the counter crosses each second when PPSOUT is 1. -/
  | ptpPpsOut
  /-- BEL_DOORBELL (R482). Extends INDEX and advances a Bellows channel's PROD, or ignores the store. -/
  | belDoorbell (src : Src) (chan : BitVec 6) (index : BitVec 32)
  /-- CHCMD_ENABLE (R481). Reads and checks a channel table entry, caches it, and sets ACTIVE. -/
  | chcmdEnable (src : Src) (chan : BitVec 6)
  /-- CHCMD_DISABLE (R480). Stops the channel's descriptor in progress with STATUS 0x06 and clears ACTIVE. -/
  | chcmdDisable (src : Src) (chan : BitVec 6)
  /-- COPY (R484). Bellows copies LEN bytes from SRC to DST, refusing overlap. -/
  | copy (chan : BitVec 6) (limit : Option Nat)
  /-- FILL (R484). Bellows fills LEN bytes at DST with the ARG pattern. -/
  | fill (chan : BitVec 6) (limit : Option Nat)
  /-- GATHER (R484). Bellows writes the bytes of a source list contiguously from DST. -/
  | gather (chan : BitVec 6) (limit : Option Nat)
  /-- SCATTER (R484). Bellows writes contiguous source bytes into the entries of a destination list. -/
  | scatter (chan : BitVec 6) (limit : Option Nat)
  /-- COMPARE (R486). Bellows compares two ranges and reports the first unequal offset. -/
  | compare (chan : BitVec 6) (limit : Option Nat)
  /-- DIGEST (R486). Bellows computes the SM3 digest of the source bytes into ARG. -/
  | digest (chan : BitVec 6) (limit : Option Nat)
  /-- CRC32C (R486). Bellows computes a CRC-32C of the source bytes from a starting value. -/
  | crc32c (chan : BitVec 6) (limit : Option Nat)
  /-- BEL_DESCRIPTOR_COMPLETE (R492). Makes a descriptor's writes visible, writes ARG and CTL, advances CONS, and optionally sends BC. -/
  | belDescriptorComplete (chan : BitVec 6)
  /-- SEC_RANDOM (R501). The security engine writes ALEN random bytes. -/
  | secRandom
  /-- SEC_VERIFY (R501). The security engine verifies an SM2 signature over a 32-byte message. -/
  | secVerify
  /-- SEC_QUOTE (R515). The security engine produces a signed 304-byte attestation quote over a nonce. -/
  | secQuote
  /-- SEC_ENCRYPT (R501). The security engine SM4-GCM encrypts a buffer and appends the tag. -/
  | secEncrypt
  /-- SEC_DECRYPT (R501). The security engine SM4-GCM decrypts and authenticates a buffer. -/
  | secDecrypt
  /-- SEC_READCFG (R501). The security engine writes the 1,536-byte sealed configuration record. -/
  | secReadcfg
  /-- SEC_OP_COMPLETE (R502). The engine writes STATUS and then DONE for a software operation. -/
  | secOpComplete
  /-- STAGE (R521). Copies and checks a change block, draws a nonce, sets EXPIRY, and enters STAGED. -/
  | stage (src : Src)
  /-- SIGN (R523). Verifies one officer's signature over the staged change and advances to ONE or TWO. -/
  | sign (src : Src)
  /-- COMMIT (R524). Stores the new sealed record, rekeys VKEY frames, and changes every D field at one instant. -/
  | commit (src : Src) (fault : StoreFault)
  /-- CLEAR (R521). Discards the staged change and its signatures and returns to IDLE. -/
  | clear (src : Src)
  /-- TPC_EXPIRY (R525). The time of day reaches EXPIRY, so the staged change is cleared and EXPIRED is set. -/
  | tpcExpiry
  /-- RNG_HEALTH_FAIL (R498). A random source health test fails, so HEALTHY is cleared and random operations are refused. -/
  | rngHealthFail
  /-- DBGCMD_HALT (R529). Stops a context as STOP does, with the refire-broken effects. -/
  | dbgcmdHalt (src : Src) (ctx : BitVec 20)
  /-- DBGCMD_RESUME (R529). Starts a halted context. -/
  | dbgcmdResume (src : Src) (ctx : BitVec 20)
  /-- DBGCMD_STEP (R529). Starts a context with PSW.DBG set so that debug steps are delivered. -/
  | dbgcmdStep (src : Src) (ctx : BitVec 20)
  /-- DEBUG_SESSION_OPEN (R529). A debug session opens, so EVER is set and the event is logged. -/
  | debugSessionOpen
  /-- DEBUG_ACCESS (R528). A debug path access to a register page or memory is applied within the DBGEN level. -/
  | debugAccess (access : DebugAccess)
  /-- SCRUB_LINE (R419). The patrol scrubber visits a line pair, corrects, rewrites or poisons it. -/
  | scrubLine (pair : BitVec 29) (lo : Misread) (hi : Misread)
  /-- PINCTL_CLR (R416). Clears the selected pin's correction count. -/
  | pinctlClr (src : Src)
  /-- PINCTL_ERASE (R417). Erases the selected pin when no pin of its class in the group is erased. -/
  | pinctlErase (src : Src)
  /-- PINCTL_UNERASE (R417). Ends the selected pin's erasure. -/
  | pinctlUnerase (src : Src)
  /-- FAILCMD (R424). Declares a channel failed on command. -/
  | failcmd (src : Src) (channel : BitVec 6)
  /-- MEM_RETRAIN (R424). Periodic retraining of a channel, whose failure fails the channel. -/
  | memRetrain (channel : BitVec 6) (ok : Bool)
  /-- FXP_LINK_UP (R428). A flexible port's link comes up and the port brings up its CXL device and CAP. -/
  | fxpLinkUp (port : BitVec 2) (partner : LinkPartner)
  /-- FXP_LINK_DOWN (R433). A flexible port's link goes down, its window becomes unpopulated, and CXL lines are invalidated. -/
  | fxpLinkDown (port : BitVec 2)
  /-- CXL_DEVICE_EVENT (R428). A CXL device event record appears and is copied into the ash log. -/
  | cxlDeviceEvent (port : BitVec 2)
  /-- INBOUND_READ (R432). An inbound PCIe read is served from the inbound window under INCTL.KEY, or refused. -/
  | inboundRead (port : BitVec 2) (target : Target) (len : BitVec 13)
  /-- INBOUND_WRITE (R432). An inbound PCIe write is applied in the inbound window or doorbells, or dropped. -/
  | inboundWrite (port : BitVec 2) (target : Target) (w : InWrite)
  /-- INBOUND_CONFIG_REQUEST (R431). A host configuration request to port 0 in endpoint mode is answered or retried. -/
  | inboundConfigRequest (reg : BitVec 12) (value : Option (BitVec 32))
  /-- COMPLETION_TIMEOUT (R430). No completion arrives within CTO, so the waiting load raises 0x21. -/
  | completionTimeout (ctx : BitVec 20) (env : Env)
  /-- MSIXCMD (R431). Sends an MSI-X vector to the host, or sets its pending bit while masked. -/
  | msixcmd (src : Src) (vec : BitVec 6)
  /-- CLAIM_BEAT (R532). The holder core writes its heartbeat. -/
  | claimBeat (src : Src)
  /-- CLAIM_CLAIM (R532). A core claims mastership when none is held or the holder's beat has expired. -/
  | claimClaim (src : Src)
  /-- CLAIM_RELEASE (R533). The holder gives up mastership, so HOLDER becomes none. -/
  | claimRelease (src : Src)
  /-- TODSET (R540). Loads the time-of-day counter forward, or slews it toward a lower value. -/
  | todset (src : Src) (value : Word)
  /-- TODSTEP (R539). Adds a signed step to STEPREM to be applied or slewed. -/
  | todstep (src : Src) (value : Word)
  /-- DAMPER_REFILL (R542). Every microsecond the damper forms the pool and refills the nine buckets. -/
  | damperRefill
  /-- THERMAL_SAMPLE (R547). Every 100 µs the Mantel reads the sensors and adjusts each hearth's issue duty. -/
  | thermalSample (r : Readings)
  /-- OVERTEMP_TIMEOUT (R548). A sensor above 105 °C for 10 ms forces a power-down. -/
  | overtempTimeout
  /-- THERMAL_TRIP (R549). At 115 °C the comparator drives THERMTRIP_N low and switches off the core regulators. -/
  | thermalTrip
  /-- BROWNOUT (R546). VIN below BROWN.MV for 2 µs stops damper granting. -/
  | brownout (mv : BitVec 16)
  /-- BROWNOUT_RECOVERY (R546). VIN above BROWN.MV plus 100 mV for 100 µs resumes granting. -/
  | brownoutRecovery (mv : BitVec 16)
  /-- RAILFAIL (R546). VIN below 2.45 V for 10 µs, or a rail out of regulation, forces a power-down. -/
  | railfail (vin : Option (BitVec 16))
  /-- REFLOSS (R537). REFCLK fails or the root PLL unlocks, so the PLL enters holdover. -/
  | refloss (unlock : Bool)
  /-- PLL_RELOCK (R537). Lock returns within HOLDMS and the PLL leaves holdover. -/
  | pllRelock
  /-- HOLDOVER_EXPIRY (R537). Holdover lasts beyond HOLDMS, so the Mantel forces a power-down. -/
  | holdoverExpiry
  /-- PWRCMD_OFF (R550). Forces a power-down when KEY matches the serial. -/
  | pwrcmdOff (src : Src) (key : BitVec 32)
  /-- VSB_RISE (R592). VSB held at 2.7 V or more for 1 ms starts start-up step 1 as a cold reset. -/
  | vsbRise
  /-- VSB_FALL (R594). VSB below 2.5 V loses the always-on domain and switches off the core regulators. -/
  | vsbFall
  /-- CORE_POWER_UP (R555). With step 1 done, VIN valid and PORST_N high, start-up runs steps 2 to 7 to context 0. -/
  | corePowerUp (env : BootEnv) (flash : Option (Flash × Flash))
  /-- BOOTCTL_RELEASE (R557). Closes the boot window and releases the named hearths to steady timing. -/
  | bootctlRelease (src : Src) (hearths : BitVec 8)
  /-- PORST_N (R551). PORST_N held low for 1 ms causes a cold reset. -/
  | porstN
  /-- WARM_N (R551). WARM_N held low for 1 µs causes a warm device reset. -/
  | warmN
  /-- RSTCMD_STOVE (R553). Resets one stove, spilling its contexts and returning it Held. -/
  | rstcmdStove (src : Src) (target : BitVec 6) (key : BitVec 32)
  /-- RSTCMD_HEARTH (R553). Resets one hearth, spilling, writing back, and returning it Held in open timing. -/
  | rstcmdHearth (src : Src) (target : BitVec 6) (key : BitVec 32)
  /-- RSTCMD_WARM (R551). Requests a warm device reset. -/
  | rstcmdWarm (src : Src) (key : BitVec 32)
  /-- RSTCMD_COLD (R551). Requests a cold reset. -/
  | rstcmdCold (src : Src) (key : BitVec 32)
  /-- ASHCMD_CLEAR (R579). Clears every ash log entry, WRIDX and OVFCNT when KEY matches. -/
  | ashcmdClear (src : Src) (key : BitVec 32)
  /-- IDENT (R562). An always-finish request that returns the identity block and public keys. -/
  | ident (req : Mgmt)
  /-- ASHREAD (R562). An always-finish request that returns an ash log entry, the write index and the overflow count. -/
  | ashread (req : Mgmt)
  /-- LOCKREAD (R562). An always-finish request that returns every stove's lockup state and each hearth's HSTS. -/
  | lockread (req : Mgmt)
  /-- THERMREAD (R562). An always-finish request that returns the thermal and power readings. -/
  | thermread (req : Mgmt)
  /-- MASTERREAD (R562). An always-finish request that returns the mastership token, beat ages and core status. -/
  | masterread (req : Mgmt)
  /-- MGMT_RESET (R563). An always-finish request that resets a stove, a hearth or the device when SERIAL matches. -/
  | mgmtReset (req : Mgmt)
  /-- POWERDOWN (R563). An always-finish request that forces a power-down when SERIAL matches. -/
  | powerdown (req : Mgmt)
  /-- MGMT_QUOTE (R564). A firmware request that returns an attestation quote over a nonce. -/
  | mgmtQuote (req : Mgmt)
  /-- CFGRECORD (R517). Accepts a sealed record that matches the store while step 4 is stopped, and writes both flash copies. -/
  | cfgrecord (req : Mgmt)
  /-- RECOVERY (R510). Accepts a recovery image chunk and checks the image when the last chunk arrives. -/
  | recovery (req : Mgmt)
  /-- MGMT_DUMP (R565). A firmware request that scan-dumps a locked stove. -/
  | mgmtDump (req : Mgmt)
  /-- PORT_LINK_UP (R472). A Chimney Ethernet port's link comes up, PORTSTS.UP is set, and mirror sessions on its queue pairs begin. -/
  | portLinkUp (port : BitVec 3)
  /-- PORT_LINK_DOWN (R462). A Chimney Ethernet port's link goes down, CHM0ERR.LINKDN is set, descriptors complete with STATUS 0x3, and its mirror peers cease to be live. -/
  | portLinkDown (port : BitVec 3)
  /-- RNG_HEALTH_PASS (R498). A later health test of the random source passes, so HEALTHY returns to 1 and refused random operations are served again. -/
  | rngHealthPass
  /-- DEBUG_SESSION_CLOSE (R529). A debug session on the JTAG or I3C path closes and DBGSTS.ATTACHED clears. -/
  | debugSessionClose
  /-- MANTEL_CORE_HALT (R532). The debug path at LEVEL 0b10 halts a Mantel core, which stops beating and sets CORESTS NHALT or SHALT. -/
  | mantelCoreHalt (south : Bool)
  /-- PERST_N_ASSERT (R426). The host drives PERST_N of port 0 while the port is in endpoint mode, where the pin is an input. -/
  | perstNAssert
  /-- AER_ERROR (R427). A flexible port's link reports a correctable or uncorrectable error, which is counted in AERCNT and logged or reported to the host; a posted store that fails after acceptance is reported this way under R430. -/
  | aerError (port : BitVec 2) (corr : Bool)
  /-- CRC_OR_FRAMING_ERROR (R561). A management request frame whose CRC or framing is bad is answered with STATUS 0x01 and TAG 0. -/
  | crcOrFramingError (iface : Iface)
  /-- UNKNOWN_OP (R561). A well-formed management request with an unassigned OP is answered with STATUS 0x02. -/
  | unknownOp (req : Mgmt)
  deriving DecidableEq, Repr

end Sys2Proof
end

