-- ==== Sys2Proof/Decode.lean ====
section
/-!
DEFINITION. The commands that words spell: spec/opcode_table.json gives its rows no bits, so no word spells a command; and the OPs
that instruction words may carry (R109).
-/

namespace Sys2Proof

/-- The command that a word of `nbits` bits spells by the table's bits: the table gives none. -/
def decodeTableWord (nbits w : Nat) : Option Instr :=
  match nbits, w with
  | _, _ => none

/-- R109: the opcodes that the table assigns. -/
def assignedOps : List Nat :=
  [0x000, 0x001, 0x010, 0x011, 0x012, 0x013, 0x014, 0x015, 0x016, 0x017, 0x018, 0x020, 0x021, 0x022, 0x023, 0x030, 0x031, 0x032, 0x033,
   0x040, 0x041, 0x100, 0x101, 0x102, 0x103, 0x104]
  ++ [0x200, 0x201, 0x202, 0x203, 0x204, 0x205, 0x206, 0x207, 0x208, 0x209, 0x20A, 0x20B, 0x20C, 0x20D, 0x300, 0x301, 0x302, 0x303, 0x304,
   0x305, 0x306, 0x400, 0x401, 0x402]
  ++ [0x500, 0x501, 0x502, 0x503, 0x504, 0x505, 0x506, 0x507, 0x508, 0x600, 0x601, 0x602, 0x603, 0x604, 0x700, 0x701, 0x702, 0x703, 0x704,
   0x705, 0x706, 0x800, 0x801]

end Sys2Proof
end

