-- ==== Sys2Proof/Machine/Bits.lean ====
section
/-!
DEFINITION. Bit fields, byte order and sign extension (R15, R16), on natural numbers and bit vectors.
-/

namespace Sys2Proof.Machine

/-- The `w` bits of `v` from bit `lo` upward (R16). -/
def bitsOf (v lo w : Nat) : Nat := v / 2 ^ lo % 2 ^ w

/-- One bit of `v`. -/
def bitAt (v i : Nat) : Bool := v / 2 ^ i % 2 == 1

/-- `v` with the `w` bits from bit `lo` replaced by the low bits of `x`. -/
def putBits (v lo w x : Nat) : Nat :=
  v - bitsOf v lo w * 2 ^ lo + x % 2 ^ w * 2 ^ lo

/-- A Bool as a bit. -/
def b2n (b : Bool) : Nat := if b then 1 else 0

/-- The number a byte list spells, least significant byte first (R15). -/
def leNat : List Byte → Nat
  | [] => 0
  | b :: t => b.toNat + 256 * leNat t

/-- The `n` bytes of a number, least significant first (R15). -/
def leBytes : Nat → Nat → List Byte
  | 0, _ => []
  | n + 1, v => BitVec.ofNat 8 v :: leBytes n (v / 256)

/-- The number a byte list spells, most significant byte first (packed decimal, R15; digests). -/
def beNat (bs : List Byte) : Nat := bs.foldl (fun a b => a * 256 + b.toNat) 0

/-- The `n` bytes of a number, most significant first. -/
def beBytes (n v : Nat) : List Byte := (leBytes n v).reverse

/-- The signed value of the low `w` bits of `v`. -/
def sextInt (w v : Nat) : Int :=
  let x := v % 2 ^ w
  if x < 2 ^ (w - 1) then (x : Int) else (x : Int) - (2 ^ w : Nat)

/-- An integer reduced to `w` bits in two's complement. -/
def wrapInt (w : Nat) (v : Int) : Nat := (v % ((2 ^ w : Nat) : Int)).toNat

/-- The number of bits of a magnitude; `bitlength 0` is 0 (R150). -/
def bitlength (n : Nat) : Nat := if n = 0 then 0 else n.log2 + 1

/-- Division rounded up. -/
def ceilDiv (a b : Nat) : Nat := (a + b - 1) / b

/-- The bytes of a 64-bit word, least significant first. -/
def wordBytes (w : Word) : List Byte := leBytes 8 w.toNat

/-- The line (64 bytes) an address lies in (R134). -/
def lineOf (a : Nat) : Nat := a / 64

/-- The 4 KiB frame or page an address lies in (R388). -/
def frameOf (a : Nat) : Nat := a / 4096

/-- Replace the bytes of `bs` from position `off` by `new`. -/
def spliceBytes (bs : List Byte) (off : Nat) (new : List Byte) : List Byte :=
  bs.take off ++ new ++ bs.drop (off + new.length)

/-- A list of `n` zero bytes. -/
def zeros (n : Nat) : List Byte := List.replicate n 0

end Sys2Proof.Machine
end

