-- ==== Sys2Proof/Machine/Map.lean ====
section
/-!
DEFINITION. Sparse maps from addresses to values, in ONE canonical form: keys strictly rising, and no entry equal to
what an unlisted key reads as (`d`). Memory, register pages, storage keys and pin counts are such maps.
-/

namespace Sys2Proof.Machine

/-- The entry of a key, if it is listed. -/
def SMap.find? {α : Type} : List (Nat × α) → Nat → Option α
  | [], _ => none
  | (a, v) :: t, k => if a = k then some v else SMap.find? t k

/-- What a key reads as: its entry, or the default. -/
def SMap.get {α : Type} (d : Nat → α) (m : List (Nat × α)) (k : Nat) : α := (SMap.find? m k).getD (d k)

/-- Put an entry at its place in the rising order. -/
def SMap.insert {α : Type} : List (Nat × α) → Nat → α → List (Nat × α)
  | [], k, v => [(k, v)]
  | (a, b) :: t, k, v =>
    if k < a then (k, v) :: (a, b) :: t
    else if k = a then (k, v) :: t
    else (a, b) :: SMap.insert t k v

/-- Remove a key's entry. -/
def SMap.erase {α : Type} (m : List (Nat × α)) (k : Nat) : List (Nat × α) := m.filter (fun e => e.1 != k)

/-- Write a value: the entry goes when the value is the default. -/
def SMap.set {α : Type} [DecidableEq α] (d : Nat → α) (m : List (Nat × α)) (k : Nat) (v : α) : List (Nat × α) :=
  if v = d k then SMap.erase m k else SMap.insert m k v

/-- The canonical form. -/
def SMap.wf {α : Type} [DecidableEq α] (d : Nat → α) (m : List (Nat × α)) : Bool :=
  (m.map (·.1)).Pairwise (· < ·) && m.all (fun e => e.2 != d e.1)

/-- `n` consecutive values from `a`. -/
def SMap.getN {α : Type} (d : Nat → α) (m : List (Nat × α)) : Nat → Nat → List α
  | _, 0 => []
  | a, n + 1 => SMap.get d m a :: SMap.getN d m (a + 1) n

/-- Write consecutive values from `a`. -/
def SMap.setN {α : Type} [DecidableEq α] (d : Nat → α) : List (Nat × α) → Nat → List α → List (Nat × α)
  | m, _, [] => m
  | m, a, v :: t => SMap.setN d (SMap.set d m a v) (a + 1) t

end Sys2Proof.Machine
end

