-- ==== Sys2Proof/Config.lean ====
section
/-!
DEFINITION. What the spec leaves to the device and does not state: the free values of the model.
None of them has a body, so nothing can be proved of a particular value.
The State field `fresh` numbers the draws of the counted ones (assumption log 3).
-/

namespace Sys2Proof

/-- R87: the seal function is internal to the device and not architected. First part: the key and the header. -/
opaque Config.sealBegin : BitVec 128 → List (BitVec 8) → BitVec 128

/-- R87, R93: the seal accumulator after one more slot. -/
opaque Config.sealAdd : BitVec 128 → List (BitVec 8) → BitVec 128

/-- R87: the 64-bit seal, for a CTXID and an ORIGIN bit. -/
opaque Config.sealEnd : BitVec 128 → BitVec 20 → Bool → BitVec 64

/-- R498: the random source of the security engine: the n-th 256-bit draw. -/
opaque Config.random : Nat → BitVec 256

/-- R22: the bytes of the kindling ROM are not in the spec. -/
opaque Config.romByte : Nat → BitVec 8

/-- R329: the micro-PC of a micro-trap (the micro-addresses of the Ember image are not in the spec). -/
opaque Config.microPc : Nat → BitVec 14

/-- R329: the eight 256-bit micro-temporaries of a micro-trap, MT0 lowest. -/
opaque Config.microTemps : Nat → BitVec 2048

/-- R503, R515: an SM2 signature the device makes (two 256-bit numbers) over a digest, by the n-th draw. -/
opaque Config.signature : Nat → BitVec 256 → BitVec 512

/-- R472: the SM4 key and the salt that two peers agree, from the device's own draw and the peer's identity and ephemeral
keys. -/
opaque Config.sessionKey : Nat → BitVec 512 → BitVec 512 → BitVec 160

/-- R472: the public key of an ephemeral key pair, by its draw. -/
opaque Config.ephemeral : Nat → BitVec 512

/-- R443, R463, R467, R474: fields of a transmitted frame or message that the spec does not state (IPv4 identification and DF or IPv6
flow label of a reply, the time of a PAUSE, the message number of a response, the reason of a CLOSE), by its draw. -/
opaque Config.wire : Nat → BitVec 64

/-- R466: what the spec leaves open of the headers of the RoCE packet that a draw forms: solicited event, migration state, P_Key, traffic
class, identification or flow label, hop limit and UDP source port (assumption log 62). -/
opaque Config.packet : Nat → BitVec 128

/-- R338: ORIG of the record of an alarm that no store caused, by draw. -/
opaque Config.recordOrigin : Nat → BitVec 26

/-- R304: which of the free banks of a stove a refill takes, by draw: an index into their list, modulo its length. -/
opaque Config.bankPick : Nat → Nat

/-- R431: a read of a configuration register of the endpoint, by draw; the spec does not give the contents. -/
opaque Config.pcieConfig : Nat → BitVec 12 → BitVec 32

/-- R528: what device memory behind a PCIe port answers the debug path, by draw and address. -/
opaque Config.deviceByte : Nat → Nat → BitVec 8

end Sys2Proof
end

