-- ==== Sys2Proof/Machine/State.lean ====
section
/-!
DEFINITION. The state of the JL8064 as plain data, and the machine right after reset.
Contexts in memory, frames, tables, rings and queue states lie in `mem` where the spec lays them out; what the spec keeps
in registers, banks, buffers and on-chip stores has a field here.
-/

namespace Sys2Proof.Machine

/-- Why the model stops. Every one of these is behaviour that the spec calls Unpredictable without naming an effect. -/
inductive Fault where
  /-- R35: a register access that is not 64-bit and 8-byte aligned. Raised by the register window. Safe: the model stops. -/
  | registerAccess
  /-- R46: a Q field written while its block is not Quiesced. Raised by a register write. Safe: the model stops. -/
  | quiesceField
  deriving DecidableEq, Repr

/-- Why the model has no meaning for a command. -/
inductive Refusal where
  /-- The command has no meaning yet. Safe: nothing is claimed of it. -/
  | notModelled (mnemonic : String)
  deriving DecidableEq, Repr

/-- R66: the program status word; the reserved bits, zero in every PSW the device writes (R68), are not held. -/
structure Psw where
  ia    : Word
  key   : BitVec 4
  sup   : Bool
  rf    : Bool
  te    : Bool
  cc    : BitVec 2
  fom   : Bool
  dom   : Bool
  am    : Bool
  mcm   : Bool
  dbg   : Bool
  ip    : Bool
  fpe   : BitVec 5
  fpf   : BitVec 5
  brm   : BitVec 2
  rcnt  : BitVec 16
  esSig : Bool
  esV   : Bool
  deriving DecidableEq, Repr

/-- R62: the current message. -/
structure Msg where
  buf   : Word
  len   : BitVec 16
  queue : BitVec 19
  v     : Bool
  deriving DecidableEq, Repr

/-- R83, R92: the long-instruction state of a SAVEH in progress. -/
structure Lis where
  frame : Word
  seq   : Word
  acc   : BitVec 128
  deriving DecidableEq, Repr

/-- Why a context is off its flue, or waits on it (R273). `ext` is a wait whose end the model does not decide. -/
inductive WaitCause where
  | ext (w : ExtWait)
  /-- damper leave of this many heat units (R543) -/
  | leave (cost : Nat)
  /-- the next line of the context's reservation set is held by another set (R248) -/
  | reserved
  /-- WAIT: the class mask, and the deadline that counts when the mask holds TM (R316) -/
  | event (mask : BitVec 5) (deadline : Word)
  /-- DURW on a ring (R267) -/
  | dura (ring : BitVec 12)
  deriving DecidableEq, Repr

/-- An exception or alarm as the entry records it (R83): code, CODE bits and FADDR. -/
structure Exc where
  code   : Nat
  fav    : Bool := false
  w      : Bool := false
  x      : Bool := false
  split2 : Bool := false
  phys   : Bool := false
  faddr  : Nat := 0
  deriving DecidableEq, Repr

/-- The kinds of access (R22). -/
inductive Acc where
  | load
  | store
  | fetch
  deriving DecidableEq, Repr

/-- R290: one access that is charged: one read or write of a line or of a device-range location, with the charge of how its operand
lies. A mode 12 access is `own`. -/
structure Access where
  kind  : Acc
  pa    : Nat
  len   : Nat
  own   : Bool
  align : Nat
  deriving DecidableEq, Repr

/-- What an execution has done that is not done again when it goes on after a wait or a micro-trap: an access it has checked and
translated, which keeps its translation (R386), a read it has made, which is made once (R22), and a read that failed; each with the
accesses that open timing charges for it. -/
inductive Kept where
  | reach (pa : Nat) (acc : List Access)
  | read (bytes : List Byte) (acc : List Access)
  | failed (e : Exc) (acc : List Access)
  deriving DecidableEq, Repr

/-- A withdrawn microword: its instruction, which is reissued unchanged, the wait it met (R273), and what the microwords before it
have done. For a refire pair also the time of day latched for it (R368), what has happened to its tries, and whether its pass A has
begun (R354). -/
structure Withdrawn where
  op     : BitVec 12
  word   : Word112
  cause  : WaitCause
  trace  : List Kept
  latch  : Option Nat
  upsets : List Upset
  began  : Bool
  deriving DecidableEq, Repr

/-- R84: what the micro-temporaries of a trapped instruction stand for: the registers it was reading, and the accesses it has
checked and the memory operands it has read, in order. -/
structure Saved where
  g     : Vector Word 16
  f     : Vector Word 16
  d     : Vector (BitVec 256) 8
  m     : Vector (BitVec 128) 4
  reads : List Kept
  deriving DecidableEq, Repr

/-- One context bank of a stove while it holds a context (R61, R73 to R75, R83, R303). -/
structure Bank where
  stove    : BitVec 6
  slot     : BitVec 5
  ctx      : BitVec 20
  flue     : Option (BitVec 2)
  g        : Vector Word 16
  f        : Vector Word 16
  d        : Vector (BitVec 256) 8
  m        : Vector (BitVec 128) 4
  msg      : Msg
  psw      : Psw
  ttr      : Word
  dirty    : BitVec 7
  spillCur : BitVec 8
  lis      : Option Lis
  /-- pending events while resident: QA, SG, BC, AT (R300) -/
  evpend   : BitVec 4
  /-- the wait the context is in, when the model decides its end; none while the context is ready -/
  wait     : Option WaitCause
  wdrawn   : Option Withdrawn
  /-- the last instruction fetched: its address and image (R334) -/
  image    : Option (Word × InsWord)
  /-- charged cycles since reset of the count, and those retired since the context was bound (R278, R309) -/
  charged  : Nat
  slice    : Nat
  /-- damper leave held, in heat units (R543) -/
  leave    : Option Nat
  /-- microwords of the resumed instruction already retired (R104, R284) -/
  resume   : Nat
  /-- what the resumed instruction had read; meaningful while `resume` is not 0 -/
  saved    : Option Saved
  /-- units of the instruction at IA have committed in the execution in progress (R166, R219) -/
  cont     : Bool
  /-- the last spill attempt failed and no instruction has retired since (R305) -/
  spillBad : Bool
  /-- pinned physical lines (R323) -/
  pins     : List Nat
  /-- a preemption is due at the next boundary point (R309, R310) -/
  due      : Bool
  /-- the 0x16 entry of its stove's quarantine is still to be made (R370) -/
  due16    : Bool
  deriving DecidableEq, Repr

/-- A buffered store in commit order (R438): its context, stove, physical address and bytes, and whether the instruction that made it
has ended in open timing, where the end of the next one drains it (R295). -/
structure BufStore where
  ctx   : BitVec 20
  stove : BitVec 6
  addr  : Nat
  bytes : List Byte
  old   : Bool
  deriving DecidableEq, Repr

/-- A modified line: the mask of its valid bytes (R439); its last merged store's context and first byte (R441); `bel` when Bellows
wrote it last, and no context is named (R495); and the line as its memory or device last held it, which stands again when the
modification is lost. -/
structure ModLine where
  line  : Nat
  mask  : BitVec 64
  bel   : Bool
  stove : BitVec 6
  ctx   : BitVec 20
  addr  : Nat
  old   : List Byte
  deriving DecidableEq, Repr

/-- A poisoned line held owned by one hob, with the mask of bytes written since (R423). -/
structure Cover where
  line  : Nat
  stove : BitVec 6
  mask  : BitVec 64
  deriving DecidableEq, Repr

/-- A reservation set: the units still wanted and those held, ascending (R248, R249, R351). A unit is a line of ordinary memory by its
number, or an 8-byte block of a hob operand store by its number over 2^60. The lines of a claimed ring table entry or queue state are
held with the set (R256). -/
structure Resv where
  ctx  : BitVec 20
  want : List Nat
  held : List Nat
  deriving DecidableEq, Repr

/-- An ember frame in use (R331): the damper bucket and leave it keeps held (R330), the microwords retired (R329), the
long-instruction state a SAVEH carries in it (R94), and what its micro-temporaries stand for. -/
structure EmberUse where
  ctx    : BitVec 20
  bucket : Nat
  leave  : Option Nat
  done   : Nat
  lis    : Option Lis
  saved  : Option Saved
  deriving DecidableEq, Repr

/-- R363: the kinds of compare item. -/
inductive ItemKind where
  | reg
  | store
  | cc
  | target
  | key
  | exc
  | effect
  deriving DecidableEq, Repr

/-- R361: the units of a stove, by how pass B sets them. -/
inductive DataUnit where
  | adder
  | logic
  | shifter
  | multiplier
  | divider
  | decimalAdder
  | decimalMultiplier
  | converter
  | floating
  | move
  /-- square root, table lookup, edit, address generation, seal and SM3: pass B repeats them untransformed -/
  | untransformed
  deriving DecidableEq, Repr

/-- R363: one compare item of a pass: its kind, its destination, the unit that delivers it, and its value. -/
structure CompareItem where
  kind  : ItemKind
  dest  : Nat
  unit  : DataUnit
  value : Nat
  deriving DecidableEq, Repr

/-- R356: one entry of a smoke shelf: kind, destination and unit of an item of pass A, its 32-byte value, and a parity bit for each
byte. -/
structure ShelfEntry where
  kind   : ItemKind
  dest   : Nat
  unit   : DataUnit
  value  : BitVec 256
  parity : BitVec 32
  deriving DecidableEq, Repr

/-- R356: the partition of a stove's smoke shelf that holds a pair's items: its flue, the context of the pair, and at most 64
entries. -/
structure Partition where
  stove   : BitVec 6
  flue    : BitVec 2
  ctx     : BitVec 20
  entries : List ShelfEntry
  deriving DecidableEq, Repr

/-- R291: a line that the hob of a stove holds, whether it owns it, and whether it was granted without data and has not been filled
since (R439). -/
structure HobLine where
  stove : BitVec 6
  line  : Nat
  owned : Bool
  bare  : Bool := false
  deriving DecidableEq, Repr

/-- Where lines are served from in open timing (R291, R292): the lines in the hobs, the lines in the hearth caches by hearth, and
the line in the fetch buffer of a stove's flue 0. -/
structure Caches where
  hob    : List HobLine
  hearth : List (Nat × Nat)
  fetch  : List (BitVec 6 × Nat)
  deriving DecidableEq, Repr

/-- The line tags and decoder state of the memory controller (R413, R416, R417), and what the caches record. -/
structure Lines where
  /-- key bytes of near frames, by frame number; 0 when unlisted (R389, R405) -/
  keys    : List (Nat × BitVec 8)
  /-- poisoned lines, by line number -/
  poison  : List Nat
  /-- frames whose key byte cannot be recovered (R391) -/
  keyLost : List Nat
  /-- EPOCH of a line's tag; 0 when unlisted -/
  epoch   : List (Nat × BitVec 2)
  cover   : List Cover
  /-- correction count of a pin; 0 when unlisted (R416) -/
  pins    : List (Nat × BitVec 32)
  /-- erased pins (R417) -/
  erased  : List Nat
  deriving DecidableEq, Repr

/-- Scheduling order of contexts, oldest first: ready, waiting, bound (R305, R308, R310, R314). -/
structure Orders where
  ready   : List (BitVec 20)
  waiting : List (BitVec 20)
  bound   : List (BitVec 20)
  deriving DecidableEq, Repr

/-- A request for damper leave (R543): a context with its cost, a Bellows channel, the security engine's software operation,
a SIGN, or one side of a mirror handshake of a set and peer. -/
inductive LeaveReq where
  | context (ctx : BitVec 20) (cost : Nat)
  | bellows (chan : BitVec 6)
  | engine
  | sign
  | handshake (set : BitVec 3) (peer : Bool)
  deriving DecidableEq, Repr

/-- One of the nine buckets of the damper (R542): its level in heat units, four times its last refill, and its queue. -/
structure Bucket where
  level : Int
  cap   : Nat
  queue : List LeaveReq
  deriving DecidableEq, Repr

/-- The ash log (R559, R577): entries by index, each 32 bytes as a number; unlisted entries are empty. -/
structure AshLog where
  entries : List (Nat × BitVec 256)
  next    : Nat
  frozen  : Bool
  dropped : Nat
  deriving DecidableEq, Repr

/-- R448, R449: one wildcard rule on chip; byte `j` of the vector at bits 8j. -/
structure Rule where
  value  : BitVec 512
  mask   : BitVec 512
  action : Word
  hits   : Word
  deriving DecidableEq, Repr

/-- A frame in a port's input buffer (R445): its port, time stamp and bytes without FCS. -/
structure HeldFrame where
  port  : BitVec 3
  tod   : Word
  bytes : List Byte
  deriving DecidableEq, Repr

/-- What an RC requester message carries: a send descriptor by its number, or a mirror message of a ring. -/
inductive RcLoad where
  | desc (index : Word)
  | mirror (ring : Option (BitVec 12))
  deriving DecidableEq, Repr

/-- R467: a message sent on RC and not yet acknowledged: its first PSN, its packets, its transmit time stamp and its bytes. -/
structure RcSent where
  psn   : BitVec 24
  pkts  : Nat
  load  : RcLoad
  stamp : Word
  bytes : List Byte
  deriving DecidableEq, Repr

/-- R467: the transport state of an RC queue pair that its queue state does not hold: the SEND in assembly, the messages
outstanding and the consecutive timeouts; and the next address and the bytes left of an RDMA WRITE in progress. -/
structure RcQp where
  qp    : Nat
  part  : Option (List Byte)
  write : Option (Nat × Nat)
  sent  : List RcSent
  tries : Nat
  deriving DecidableEq, Repr

/-- R472: how far a mirror session has come. -/
inductive Phase where
  | wantHello
  | wantReply
  | helloSent
  | replySent
  | confirmed
  | live
  deriving DecidableEq, Repr

/-- R474: what a primary has sent of one ring: the next sequence number to send. -/
structure RingMark where
  ring : BitVec 12
  sent : Word
  deriving DecidableEq, Repr

/-- R472: a mirror session: set, peer, nonces and ephemeral keys of both sides, the peer's identity key, the draw that names
the agreed key, the message counters of the two directions, and the rings. -/
structure Session where
  set   : BitVec 3
  peer  : Bool
  phase : Phase
  na    : BitVec 256
  nb    : BitVec 256
  ea    : BitVec 512
  eb    : BitVec 512
  pub   : BitVec 512
  key   : BitVec 160
  tx    : Nat
  rx    : Nat
  marks : List RingMark
  deriving DecidableEq, Repr

/-- R484, R485: a descriptor in progress: its operation, its operands as segments (address, bytes) with list entries in order,
ARG, the event of its completion, the bytes done, those digested, whether leave is held, its STATUS and ARG once it has
ended, and where the entries of its list were read. -/
structure BelWork where
  op     : Nat
  src    : List (Nat × Nat)
  dst    : List (Nat × Nat)
  total  : Nat
  arg    : List Byte
  event  : Option (BitVec 20)
  done   : Nat
  acc    : List Byte
  leave  : Bool
  stop   : Option (BitVec 8)
  result : List Byte
  list   : Option (Nat × Nat)
  deriving DecidableEq, Repr

/-- R479, R480: an active Bellows channel: its cached entry and the descriptor in progress. -/
structure Chan where
  chan  : BitVec 6
  rbase : Word
  dexp  : Nat
  key   : BitVec 4
  prod  : Word
  cons  : Word
  work  : Option BelWork
  deriving DecidableEq, Repr

/-- R500: the software operation of the security engine: its block, whether it holds leave, and its STATUS once it has ended. -/
structure SecOp where
  block : Word
  leave : Bool
  done  : Option (BitVec 8)
  deriving DecidableEq, Repr

/-- R521: a staged change: its block and where it was, the signature block of a SIGN that waits for leave, and whether it has
the leave. -/
structure Staged where
  block : List Byte
  addr  : Word
  sign  : Option Word
  leave : Bool
  deriving DecidableEq, Repr

/-- R503: the fused values the DEV and SEC pages show through selectors; byte `j` of a key or hash at bits 8j. -/
structure Fuses where
  idPub  : BitVec 512
  attPub : BitVec 512
  vendor : BitVec 256
  deriving DecidableEq, Repr

/-- The Mantel outside its registers: whether VSB and the core rails are up, a forced power-down or a thermal trip since the last
cold reset, a sensor above 105 °C, the damper's grant switch (R546), the fraction of the time of day (R538) and the Mantel
clocks counted, the PPS output, PERST_N of port 0 driven by a host, its retained store (R511, R514), the non-volatile store
with its writes and the record signatures the device has made (R517), the flash devices, the recovery image as received, and
what the last start-up met. -/
structure Mantel where
  vsb      : Bool
  core     : Bool
  down     : Bool
  tripped  : Bool
  hot      : Bool
  granting : Bool
  todFrac  : BitVec 32
  ticks    : Nat
  ppsOut   : Bool
  perst    : Bool
  header   : List Byte
  ember    : List Byte
  digests  : List Byte
  nvSeq    : Word
  nvDigest : BitVec 256
  nvWrites : Nat
  signed   : List (BitVec 256 × BitVec 512)
  flash    : Vector Flash 2
  recovery : List (Nat × Byte)
  env      : BootEnv
  deriving DecidableEq, Repr

/-- R512, R513: a re-kindle that waits while EMB is Quiesced: the stove, the micro-address of the parity error, and how its
load ends. -/
structure Rekindle where
  stove  : BitVec 6
  upc    : BitVec 14
  reload : Reload
  deriving DecidableEq, Repr

/-- R443: a port's transmission is paused: of one priority, or with 8 of all, for so many ps more. -/
structure Pause where
  port : BitVec 3
  prio : Nat
  left : Nat
  deriving DecidableEq, Repr

/-- R52: work that arrived for a Quiesced block and is held: an event for the router, directed to a group or to a context, a write to an
acting register, a doorbell store, a RoCE packet, a mirror message, an inbound request, an outbound store of a port, or a debug access
to near memory. -/
inductive Work where
  | mirror (h : MirrorHead) (m : MirrorMsg)
  | store (port : BitVec 2) (addr : Nat) (bytes : List Byte)
  | debug (access : DebugAccess)
  | group (cls : Nat) (g : Nat)
  | event (cls : Nat) (ctx : BitVec 20)
  | dura (ring : BitVec 12)
  | write (slot : Nat) (off : Nat) (value : Word)
  | door (addr : Nat) (value : Word)
  | packet (p : RocePacket)
  | inbound (port : BitVec 2) (r : Inbound)
  deriving DecidableEq, Repr

/-- What the device drives out: recorded in order, oldest first, so that the effect of a command is in the state. -/
inductive Output where
  /-- RC_READ: the value returned to the reading context -/
  | regRead (addr : BitVec 20) (value : Word)
  /-- PAGE_ALERT.MANTEL: the core that holds mastership is notified of a page (R39) -/
  | mantelNotify (slot : BitVec 8)
  /-- an Ethernet frame on a port, without its FCS (R463) -/
  | frame (port : BitVec 3) (bytes : List Byte)
  /-- a memory request that a flexible port sends to its device or host: a write, or a read of a length (R429, R431) -/
  | pcieWrite (port : BitVec 2) (addr : Word) (bytes : List Byte)
  | pcieRead (port : BitVec 2) (addr : Word) (len : Nat)
  /-- a configuration request that a root port sends (R429): bus, device, function, register, and the bytes of a write or the length of
  a read -/
  | pcieConfig (port : BitVec 2) (bus : BitVec 8) (dev : BitVec 5) (fn : BitVec 3) (reg : BitVec 12) (data : List Byte ⊕ Nat)
  /-- a completion of an inbound read or configuration request (R431, R432): none for Unsupported Request -/
  | pcieReply (port : BitVec 2) (data : Option (List Byte)) (poisoned : Bool)
  /-- Configuration Request Retry Status of port 0 (R431) -/
  | pcieRetry
  /-- an MSI-X message (R431) -/
  | msix (vector : BitVec 6)
  /-- AER reported to the host (R427) -/
  | aer (port : BitVec 2)
  /-- a management response frame (R561): STATUS, TAG and payload -/
  | mgmt (iface : Iface) (status : BitVec 8) (tag : BitVec 8) (bytes : List Byte)
  /-- the value a debug access returns (R528), none when it is refused -/
  | debug (data : Option (List Byte))
  deriving DecidableEq, Repr

/-- The machine. -/
structure State where
  /-- commands waiting, first in first out -/
  pending  : List Instr
  /-- memory, hob operand stores at their window addresses included; 0 when unlisted -/
  mem      : List (Nat × Byte)
  /-- register pages by slot × 0x1000 + offset; the table's reset value when unlisted (R33, R34, R39) -/
  regs     : List (Nat × Word)
  /-- Q fields written while Quiesced, which take effect at release (R52) -/
  regsQ    : List (Nat × Word)
  lines    : Lines
  stores   : List BufStore
  dirty    : List ModLine
  banks    : List Bank
  order    : Orders
  embers   : List EmberUse
  /-- the ember frames the machine has written, with what their micro-temporaries stand for (R84, R94) -/
  temps    : List (List Byte × EmberUse)
  resv     : List Resv
  /-- R302: the context command in progress, which waits for its context's next boundary point: its code and context -/
  ctxBusy  : Option (Nat × BitVec 20)
  /-- R529: the context that a HALT in progress waits for likewise -/
  haltBusy : Option (BitVec 20)
  /-- R377: the halted contexts whose refire is broken at their next boundary point -/
  halting  : List (BitVec 20)
  /-- charged cycles of the contexts that are not resident, by CTXID (R278); 0 when unlisted -/
  charges  : List (Nat × Nat)
  /-- R356: the partitions of the smoke shelves that hold items -/
  shelf    : List Partition
  caches   : Caches
  damper   : Vector Bucket 9
  ash      : AshLog
  /-- the boot window of B fields is open (R48) -/
  boot     : Bool
  /-- R86: the seal key -/
  sealKey  : BitVec 128
  /-- held work of Quiesced blocks, oldest first (R52) -/
  parked   : List Work
  /-- Chimney: states of active queues held on chip, most recently used first (R452) -/
  queues   : List (Nat × BitVec 1024)
  /-- Chimney: wildcard rules by index; disabled and zero when unlisted -/
  rules    : List (Nat × Rule)
  /-- Chimney: port counters by 16 × port + CNT (STATSEL); 0 when unlisted -/
  stats    : List (Nat × Word)
  /-- Chimney: frames in the input buffers, oldest first -/
  inbuf    : List HeldFrame
  /-- Chimney: frames that wait for a port to transmit, oldest first (R443, R445) -/
  outbuf   : List HeldFrame
  pauses   : List Pause
  rc       : List RcQp
  sessions : List Session
  /-- mirror peers lost since their queue pair was last restarted, as 2 × set + peer -/
  lost     : List Nat
  /-- R264: by 2 × ring + peer, the next sequence number that the peer has not acknowledged; 0 when unlisted -/
  acks     : List (Nat × Word)
  /-- rings whose mirroring a poisoned record has stopped (R474) -/
  halted   : List (BitVec 12)
  /-- rings whose table entries have been written since Chimney last looked at them (R475) -/
  watch    : List (BitVec 12)
  /-- rings that Chimney has seen out of use, which a set-up brings back (R257) -/
  unused   : List (BitVec 12)
  /-- the queue that QCMD DISABLE is waiting for (R453) -/
  closing  : Option Nat
  chans    : List Chan
  secOp    : Option SecOp
  staged   : Option Staged
  /-- R529: contexts that STEP has started and that have not been refilled since -/
  stepping : List (BitVec 20)
  /-- R516: enrolled key digests by 16 × class + slot (officer 0, owner 1, peer 2) -/
  enrolled : List (Nat × BitVec 256)
  rekindles : List Rekindle
  fuses    : Fuses
  mantel   : Mantel
  /-- R431: port 0's MSI-X table by byte of BAR4, and its pending bits -/
  msix     : List (Nat × Byte)
  msixPba  : BitVec 64
  /-- R431: the addresses that the host has given BAR0, BAR2 and BAR4, and the enable and mask bits of its MSI-X control -/
  bars     : Vector Word 3
  msixCtl  : BitVec 2
  /-- R419: the line pair that the scrubber visits next -/
  scrubAt  : Nat
  /-- R425: lines of failed groups and lost links that a reservation set still holds -/
  doomed   : List Nat
  /-- R553: the pages held in reset, with the µs left -/
  resets   : List (Nat × Nat)
  /-- numbers the draws of the free values of Config (the model's own field) -/
  fresh    : Nat
  out      : List Output
  deriving DecidableEq, Repr

/-- A bucket at reset: empty, with nothing queued. -/
def Bucket.reset : Bucket := { level := 0, cap := 0, queue := [] }

/-- A flash device with nothing in it. -/
def Flash.empty : Flash := { present := false, image := [], copy0 := [], copy1 := [] }

/-- The Mantel right after VSB has risen (R555 step 1); the non-volatile store holds the digest of the factory record (R517, R518). -/
def Mantel.reset : Mantel where
  vsb := true
  core := false
  down := false
  tripped := false
  hot := false
  granting := true
  todFrac := 0
  ticks := 0
  ppsOut := false
  perst := false
  header := []
  ember := []
  digests := []
  nvSeq := 0
  nvDigest := 0xc78249c307631380ef8860dcb2ffdb446037ace424937e38ed4cd75e8a6e11e5
  nvWrites := 0
  signed := []
  flash := Vector.replicate 2 Flash.empty
  recovery := []
  env := {}

/-- R33, R551: the machine right after reset: VSB has risen, start-up is in step 1, every page holds its reset values, and
nothing else is listed but BOOTPOL, whose factory value stands (R49, R518). The values the spec does not give (fuses, flash,
the seal key) are those of assumption log 5. -/
def State.reset : State where
  pending := []
  mem := []
  regs := [(0x4100, 0xC)]
  regsQ := []
  lines := { keys := [], poison := [], keyLost := [], epoch := [], cover := [], pins := [], erased := [] }
  stores := []
  dirty := []
  banks := []
  order := { ready := [], waiting := [], bound := [] }
  embers := []
  temps := []
  resv := []
  ctxBusy := none
  haltBusy := none
  halting := []
  charges := []
  shelf := []
  caches := { hob := [], hearth := [], fetch := [] }
  damper := Vector.replicate 9 Bucket.reset
  ash := { entries := [], next := 0, frozen := false, dropped := 0 }
  boot := true
  sealKey := 0
  parked := []
  queues := []
  rules := []
  stats := []
  inbuf := []
  outbuf := []
  pauses := []
  rc := []
  sessions := []
  lost := []
  acks := []
  halted := []
  watch := []
  unused := []
  closing := none
  chans := []
  secOp := none
  staged := none
  stepping := []
  enrolled := []
  rekindles := []
  fuses := { idPub := 0, attPub := 0, vendor := 0x9da831b12c5a9c8d5c2415d9f3c271c0ece1192105cd5cff8bf385d6d6be923d }
  mantel := Mantel.reset
  msix := []
  msixPba := 0
  bars := Vector.replicate 3 0
  msixCtl := 0
  scrubAt := 0
  doomed := []
  resets := []
  fresh := 0
  out := []

end Sys2Proof.Machine
end

