-- ==== Sys2Proof/Machine/Psw.lean ====
section
/-!
DEFINITION. The bit layouts of the PSW (R66), of MSG (R62) and of the modulo windows (R61), and the PSW checks of R68.
-/

namespace Sys2Proof.Machine

/-- R66: the control word, PSW bits 127 to 64, as a number; reserved bits are zero. -/
def Psw.control (p : Psw) : Nat :=
  p.key.toNat + b2n p.sup * 2 ^ 4 + b2n p.rf * 2 ^ 5 + b2n p.te * 2 ^ 6 + p.cc.toNat * 2 ^ 7 + b2n p.fom * 2 ^ 9
    + b2n p.dom * 2 ^ 10 + b2n p.am * 2 ^ 11 + b2n p.mcm * 2 ^ 12 + b2n p.dbg * 2 ^ 13 + b2n p.ip * 2 ^ 14
    + p.fpe.toNat * 2 ^ 18 + p.fpf.toNat * 2 ^ 23 + p.brm.toNat * 2 ^ 28 + p.rcnt.toNat * 2 ^ 32
    + b2n p.esSig * 2 ^ 48 + b2n p.esV * 2 ^ 49

/-- R66: the PSW as a 128-bit number. -/
def Psw.toNat (p : Psw) : Nat := p.ia.toNat + p.control * 2 ^ 64

/-- R66: the PSW with the fields of a control word, and an IA. -/
def Psw.ofControl (ia : Word) (c : Nat) : Psw where
  ia := ia
  key := BitVec.ofNat 4 c
  sup := bitAt c 4
  rf := bitAt c 5
  te := bitAt c 6
  cc := BitVec.ofNat 2 (c / 2 ^ 7)
  fom := bitAt c 9
  dom := bitAt c 10
  am := bitAt c 11
  mcm := bitAt c 12
  dbg := bitAt c 13
  ip := bitAt c 14
  fpe := BitVec.ofNat 5 (c / 2 ^ 18)
  fpf := BitVec.ofNat 5 (c / 2 ^ 23)
  brm := BitVec.ofNat 2 (c / 2 ^ 28)
  rcnt := BitVec.ofNat 16 (c / 2 ^ 32)
  esSig := bitAt c 48
  esV := bitAt c 49

/-- R66: the PSW a 128-bit number spells; reserved bits are dropped, as R80 and R332 force them to zero. -/
def Psw.ofNat (v : Nat) : Psw := Psw.ofControl (BitVec.ofNat 64 v) (v / 2 ^ 64)

/-- R68: reserved bits zero and IA 16-byte aligned. -/
def pswLegal (v : Nat) : Bool :=
  v % 16 == 0 && bitsOf v 79 3 == 0 && bitsOf v 94 2 == 0 && bitsOf v 114 14 == 0

/-- R80, R332: a handler PSW as stored, IA bits 3 to 0 forced to zero. -/
def handlerPsw (v : Nat) : Psw := Psw.ofNat (v - v % 16)

/-- R62: MSG as a 128-bit number. -/
def Msg.toNat (m : Msg) : Nat :=
  m.buf.toNat + m.len.toNat * 2 ^ 64 + m.queue.toNat * 2 ^ 80 + b2n m.v * 2 ^ 127

/-- R62: MSG from a 128-bit number. -/
def Msg.ofNat (v : Nat) : Msg where
  buf := BitVec.ofNat 64 v
  len := BitVec.ofNat 16 (v / 2 ^ 64)
  queue := BitVec.ofNat 19 (v / 2 ^ 80)
  v := bitAt v 127

/-- The zero PSW of a bank that holds no context yet (R72). -/
def Psw.zero : Psw := Psw.ofNat 0

/-- A bank just assigned to a context: zeros in every register, dirty and spill-current bits clear (R72). -/
def Bank.fresh (stove : BitVec 6) (slot : BitVec 5) (ctx : BitVec 20) : Bank where
  stove := stove
  slot := slot
  ctx := ctx
  flue := none
  g := Vector.replicate 16 0
  f := Vector.replicate 16 0
  d := Vector.replicate 8 0
  m := Vector.replicate 4 0
  msg := Msg.ofNat 0
  psw := Psw.zero
  ttr := 0
  dirty := 0
  spillCur := 0
  lis := none
  evpend := 0
  wait := none
  wdrawn := none
  image := none
  charged := 0
  slice := 0
  leave := none
  resume := 0
  saved := none
  cont := false
  spillBad := false
  due16 := false
  pins := []
  due := false

/-- A general register (R61). -/
def Bank.getG (b : Bank) (r : BitVec 4) : Word := b.g[r.toNat]'(by omega)

/-- A floating-point register (R61). -/
def Bank.getF (b : Bank) (r : BitVec 4) : Word := b.f[r.toNat]'(by omega)

/-- A decimal accumulator (R61), its first byte in the top eight bits. -/
def Bank.getD (b : Bank) (r : BitVec 3) : BitVec 256 := b.d[r.toNat]'(by omega)

/-- A modulo window (R61). -/
def Bank.getM (b : Bank) (r : BitVec 2) : BitVec 128 := b.m[r.toNat]'(by omega)

/-- R73 to R75: a write to a register of group `k` sets its dirty bit and clears its spill-current bit. -/
def Bank.touchGroup (b : Bank) (k : Nat) : Bank :=
  { b with dirty := b.dirty ||| BitVec.ofNat 7 (2 ^ k), spillCur := b.spillCur &&& ~~~ BitVec.ofNat 8 (2 ^ k) }

/-- Write a general register. -/
def Bank.setG (b : Bank) (r : BitVec 4) (v : Word) : Bank :=
  { b with g := b.g.set r.toNat v (by omega) }.touchGroup (if r.toNat < 8 then 0 else 1)

/-- Write a floating-point register. -/
def Bank.setF (b : Bank) (r : BitVec 4) (v : Word) : Bank :=
  { b with f := b.f.set r.toNat v (by omega) }.touchGroup (if r.toNat < 8 then 2 else 3)

/-- Write a decimal accumulator. -/
def Bank.setD (b : Bank) (r : BitVec 3) (v : BitVec 256) : Bank :=
  { b with d := b.d.set r.toNat v (by omega) }.touchGroup (if r.toNat < 4 then 4 else 5)

/-- Write the current message (group MW). -/
def Bank.setMsg (b : Bank) (m : Msg) : Bank := { b with msg := m }.touchGroup 6

/-- Load a PSW: group PS, whose spill-current bit clears (R75). -/
def Bank.setPsw (b : Bank) (p : Psw) : Bank :=
  { b with psw := p, spillCur := b.spillCur &&& ~~~ (0x80 : BitVec 8) }

end Sys2Proof.Machine
end

