-- ==== Sys2Proof/Machine/RegTypes.lean ====
section
/-!
DEFINITION. The shape of a register table (R19, R34, R43, R46): kinds of page, field classes, access types and rows.
-/

namespace Sys2Proof.Machine

/-- The kinds of register page (R33). -/
inductive PageKind where
  | dev | man | clk | pwr | rst | ash | dbg | sec | tpc | emb | key | nmc | fxp | chm0 | chm1 | bel | grt
  | hrtA | hrtB | stv
  deriving DecidableEq, Repr

/-- Field classes (R46): Live, Quiesce, Boot, Dual-control. -/
inductive FieldClass where
  | l | q | b | d
  deriving DecidableEq, Repr

/-- Access types (R43). -/
inductive FieldAccess where
  | rw | ro | w1c | w1s | wo | rc
  deriving DecidableEq, Repr

/-- One field of a register: its name, bits, class, access type and reset value (R19). -/
structure Field where
  name  : String
  hi    : Nat
  lo    : Nat
  cls   : FieldClass
  acc   : FieldAccess
  reset : Nat
  deriving DecidableEq, Repr

/-- One block register: its page offset, name and fields. -/
structure RegRow where
  off    : Nat
  name   : String
  fields : List Field
  deriving DecidableEq, Repr

/-- The width of a field. -/
def Field.width (f : Field) : Nat := f.hi - f.lo + 1

end Sys2Proof.Machine
end

