-- ==== Sys2Proof/Machine/RegNames.lean ====
section
/-!
DEFINITION. The manual's names of the page slots (R33) and of the block register offsets of every page.
-/

namespace Sys2Proof.Machine

/-- Page slot of DEV (R33). -/
abbrev Slot.dev : Nat := 0x0
/-- Page slot of MAN (R33). -/
abbrev Slot.man : Nat := 0x1
/-- Page slot of CLK (R33). -/
abbrev Slot.clk : Nat := 0x2
/-- Page slot of PWR (R33). -/
abbrev Slot.pwr : Nat := 0x3
/-- Page slot of RST (R33). -/
abbrev Slot.rst : Nat := 0x4
/-- Page slot of ASH (R33). -/
abbrev Slot.ash : Nat := 0x5
/-- Page slot of DBG (R33). -/
abbrev Slot.dbg : Nat := 0x6
/-- Page slot of SEC (R33). -/
abbrev Slot.sec : Nat := 0x7
/-- Page slot of TPC (R33). -/
abbrev Slot.tpc : Nat := 0x8
/-- Page slot of EMB (R33). -/
abbrev Slot.emb : Nat := 0x9
/-- Page slot of KEY (R33). -/
abbrev Slot.key : Nat := 0xa
/-- Page slot of NMC (R33). -/
abbrev Slot.nmc : Nat := 0xb
/-- Page slot of CHM0 (R33). -/
abbrev Slot.chm0 : Nat := 0x10
/-- Page slot of CHM1 (R33). -/
abbrev Slot.chm1 : Nat := 0x11
/-- Page slot of BEL (R33). -/
abbrev Slot.bel : Nat := 0x12
/-- Page slot of GRT (R33). -/
abbrev Slot.grt : Nat := 0x13
/-- Page slot of flexible port p (R33). -/
abbrev Slot.fxp (p : Nat) : Nat := 0x0C + p
/-- Page slot of HRT[n].A (R33). -/
abbrev Slot.hrtA (n : Nat) : Nat := 0x20 + 2 * n
/-- Page slot of HRT[n].B (R33). -/
abbrev Slot.hrtB (n : Nat) : Nat := 0x21 + 2 * n
/-- Page slot of STV[nn] (R33). -/
abbrev Slot.stv (nn : Nat) : Nat := 0x40 + nn

/-- Offset of PAGE_ID (R39). -/
abbrev Off.PAGE.ID : Nat := 0x0
/-- Offset of PAGE_CTL (R39). -/
abbrev Off.PAGE.CTL : Nat := 0x8
/-- Offset of PAGE_STS (R39). -/
abbrev Off.PAGE.STS : Nat := 0x10
/-- Offset of PAGE_ERR (R39). -/
abbrev Off.PAGE.ERR : Nat := 0x18
/-- Offset of PAGE_ERRMASK (R39). -/
abbrev Off.PAGE.ERRMASK : Nat := 0x20
/-- Offset of PAGE_ALERT (R39). -/
abbrev Off.PAGE.ALERT : Nat := 0x28
/-- Offset of PAGE_LOCK (R39). -/
abbrev Off.PAGE.LOCK : Nat := 0x30
/-- Offset of PAGE_SCRATCH (R39). -/
abbrev Off.PAGE.SCRATCH : Nat := 0x38

/-- Offset of GRT.CDBASE. -/
abbrev Off.GRT.CDBASE : Nat := 0x100
/-- Offset of GRT.WGBASE. -/
abbrev Off.GRT.WGBASE : Nat := 0x108
/-- Offset of GRT.DUMPBASE. -/
abbrev Off.GRT.DUMPBASE : Nat := 0x110
/-- Offset of GRT.SUPWG. -/
abbrev Off.GRT.SUPWG : Nat := 0x118
/-- Offset of GRT.CTXARG. -/
abbrev Off.GRT.CTXARG : Nat := 0x120
/-- Offset of GRT.CTXCMD. -/
abbrev Off.GRT.CTXCMD : Nat := 0x128
/-- Offset of GRT.CTXSTS. -/
abbrev Off.GRT.CTXSTS : Nat := 0x130
/-- Offset of GRT.WGCMD. -/
abbrev Off.GRT.WGCMD : Nat := 0x138
/-- Offset of GRT.EVDROP. -/
abbrev Off.GRT.EVDROP : Nat := 0x140
/-- Offset of GRT.HELD. -/
abbrev Off.GRT.HELD : Nat := 0x148
/-- Offset of GRT.RFMR0. -/
abbrev Off.GRT.RFMR0 : Nat := 0x150
/-- Offset of GRT.RFMR1. -/
abbrev Off.GRT.RFMR1 : Nat := 0x158
/-- Offset of GRT.RFMR2. -/
abbrev Off.GRT.RFMR2 : Nat := 0x160
/-- Offset of GRT.RFMR3. -/
abbrev Off.GRT.RFMR3 : Nat := 0x168

/-- Offset of HRTA.MODE. -/
abbrev Off.HRTA.MODE : Nat := 0x100
/-- Offset of HRTA.CACHECTL. -/
abbrev Off.HRTA.CACHECTL : Nat := 0x108
/-- Offset of HRTA.DAMPSHARE. -/
abbrev Off.HRTA.DAMPSHARE : Nat := 0x110
/-- Offset of HRTA.HSTS. -/
abbrev Off.HRTA.HSTS : Nat := 0x118

/-- Offset of HRTB.SCHEDCTL. -/
abbrev Off.HRTB.SCHEDCTL : Nat := 0x100
/-- Offset of HRTB.SPILLS. -/
abbrev Off.HRTB.SPILLS : Nat := 0x108
/-- Offset of HRTB.REFILLS. -/
abbrev Off.HRTB.REFILLS : Nat := 0x110
/-- Offset of HRTB.NOSPILL. -/
abbrev Off.HRTB.NOSPILL : Nat := 0x118
/-- Offset of HRTB.RFCTL. -/
abbrev Off.HRTB.RFCTL : Nat := 0x180
/-- Offset of HRTB.RFPAIRS. -/
abbrev Off.HRTB.RFPAIRS : Nat := 0x188
/-- Offset of HRTB.RFTRANS. -/
abbrev Off.HRTB.RFTRANS : Nat := 0x190
/-- Offset of HRTB.RFDIV. -/
abbrev Off.HRTB.RFDIV : Nat := 0x198
/-- Offset of HRTB.RFQUAR. -/
abbrev Off.HRTB.RFQUAR : Nat := 0x1a0
/-- Offset of HRTB.RFBRK. -/
abbrev Off.HRTB.RFBRK : Nat := 0x1a8

/-- Offset of STV.STATUS. -/
abbrev Off.STV.STATUS : Nat := 0x100
/-- Offset of STV.LOCKCAUSE. -/
abbrev Off.STV.LOCKCAUSE : Nat := 0x108
/-- Offset of STV.LOCKADDR. -/
abbrev Off.STV.LOCKADDR : Nat := 0x110
/-- Offset of STV.FLUES. -/
abbrev Off.STV.FLUES : Nat := 0x118
/-- Offset of STV.RESIDENT. -/
abbrev Off.STV.RESIDENT : Nat := 0x120
/-- Offset of STV.READY. -/
abbrev Off.STV.READY : Nat := 0x128
/-- Offset of STV.OPSIZE. -/
abbrev Off.STV.OPSIZE : Nat := 0x130
/-- Offset of STV.PINS. -/
abbrev Off.STV.PINS : Nat := 0x138
/-- Offset of STV.RFRETRY. -/
abbrev Off.STV.RFRETRY : Nat := 0x180
/-- Offset of STV.RFPAIRS. -/
abbrev Off.STV.RFPAIRS : Nat := 0x188
/-- Offset of STV.RFTRANS. -/
abbrev Off.STV.RFTRANS : Nat := 0x190
/-- Offset of STV.RFLAST. -/
abbrev Off.STV.RFLAST : Nat := 0x198
/-- Offset of STV.RFLADDR. -/
abbrev Off.STV.RFLADDR : Nat := 0x1a0
/-- Offset of STV.RFCMD. -/
abbrev Off.STV.RFCMD : Nat := 0x1a8
/-- Offset of STV.EMBPAR. -/
abbrev Off.STV.EMBPAR : Nat := 0x1b0
/-- Offset of STV.EMBREK. -/
abbrev Off.STV.EMBREK : Nat := 0x1b8

/-- Offset of KEY.FKTBASE. -/
abbrev Off.KEY.FKTBASE : Nat := 0x100
/-- Offset of KEY.FSTBASE. -/
abbrev Off.KEY.FSTBASE : Nat := 0x108
/-- Offset of KEY.KEYCTL. -/
abbrev Off.KEY.KEYCTL : Nat := 0x110
/-- Offset of KEY.KEYERR. -/
abbrev Off.KEY.KEYERR : Nat := 0x118
/-- Offset of KEY.VAULT0. -/
abbrev Off.KEY.VAULT0 : Nat := 0x140
/-- Offset of KEY.VAULT1. -/
abbrev Off.KEY.VAULT1 : Nat := 0x148
/-- Offset of KEY.VAULT2. -/
abbrev Off.KEY.VAULT2 : Nat := 0x150
/-- Offset of KEY.VAULT3. -/
abbrev Off.KEY.VAULT3 : Nat := 0x158
/-- Offset of KEY.VAULT4. -/
abbrev Off.KEY.VAULT4 : Nat := 0x160
/-- Offset of KEY.VAULT5. -/
abbrev Off.KEY.VAULT5 : Nat := 0x168
/-- Offset of KEY.VAULT6. -/
abbrev Off.KEY.VAULT6 : Nat := 0x170
/-- Offset of KEY.VAULT7. -/
abbrev Off.KEY.VAULT7 : Nat := 0x178
/-- Offset of KEY.VAULT8. -/
abbrev Off.KEY.VAULT8 : Nat := 0x180
/-- Offset of KEY.VAULT9. -/
abbrev Off.KEY.VAULT9 : Nat := 0x188
/-- Offset of KEY.VAULT10. -/
abbrev Off.KEY.VAULT10 : Nat := 0x190
/-- Offset of KEY.VAULT11. -/
abbrev Off.KEY.VAULT11 : Nat := 0x198
/-- Offset of KEY.VAULT12. -/
abbrev Off.KEY.VAULT12 : Nat := 0x1a0
/-- Offset of KEY.VAULT13. -/
abbrev Off.KEY.VAULT13 : Nat := 0x1a8
/-- Offset of KEY.VAULT14. -/
abbrev Off.KEY.VAULT14 : Nat := 0x1b0
/-- Offset of KEY.VAULT15. -/
abbrev Off.KEY.VAULT15 : Nat := 0x1b8

/-- Offset of NMC.CFG. -/
abbrev Off.NMC.CFG : Nat := 0x100
/-- Offset of NMC.NMSTS. -/
abbrev Off.NMC.NMSTS : Nat := 0x108
/-- Offset of NMC.CHFAIL. -/
abbrev Off.NMC.CHFAIL : Nat := 0x110
/-- Offset of NMC.SCRUBCTL. -/
abbrev Off.NMC.SCRUBCTL : Nat := 0x118
/-- Offset of NMC.SCRUBSTS. -/
abbrev Off.NMC.SCRUBSTS : Nat := 0x120
/-- Offset of NMC.CECNT. -/
abbrev Off.NMC.CECNT : Nat := 0x128
/-- Offset of NMC.UECNT. -/
abbrev Off.NMC.UECNT : Nat := 0x130
/-- Offset of NMC.LASTUE. -/
abbrev Off.NMC.LASTUE : Nat := 0x138
/-- Offset of NMC.CRCRETRY. -/
abbrev Off.NMC.CRCRETRY : Nat := 0x140
/-- Offset of NMC.PINSEL. -/
abbrev Off.NMC.PINSEL : Nat := 0x148
/-- Offset of NMC.PINCNT. -/
abbrev Off.NMC.PINCNT : Nat := 0x150
/-- Offset of NMC.PINCTL. -/
abbrev Off.NMC.PINCTL : Nat := 0x158
/-- Offset of NMC.FAILCMD. -/
abbrev Off.NMC.FAILCMD : Nat := 0x160
/-- Offset of NMC.NMERR. -/
abbrev Off.NMC.NMERR : Nat := 0x168

/-- Offset of FXP.MODE. -/
abbrev Off.FXP.MODE : Nat := 0x100
/-- Offset of FXP.LINK. -/
abbrev Off.FXP.LINK : Nat := 0x108
/-- Offset of FXP.CAP. -/
abbrev Off.FXP.CAP : Nat := 0x110
/-- Offset of FXP.OBOFF. -/
abbrev Off.FXP.OBOFF : Nat := 0x118
/-- Offset of FXP.INBASE. -/
abbrev Off.FXP.INBASE : Nat := 0x120
/-- Offset of FXP.INCTL. -/
abbrev Off.FXP.INCTL : Nat := 0x128
/-- Offset of FXP.CTO. -/
abbrev Off.FXP.CTO : Nat := 0x130
/-- Offset of FXP.MSIADDR. -/
abbrev Off.FXP.MSIADDR : Nat := 0x138
/-- Offset of FXP.MSIXCMD. -/
abbrev Off.FXP.MSIXCMD : Nat := 0x140
/-- Offset of FXP.AERCNT. -/
abbrev Off.FXP.AERCNT : Nat := 0x148
/-- Offset of FXP.FXPERR. -/
abbrev Off.FXP.FXPERR : Nat := 0x150

/-- Offset of CHM0.PORTCFG. -/
abbrev Off.CHM0.PORTCFG : Nat := 0x100
/-- Offset of CHM0.MACADDR0. -/
abbrev Off.CHM0.MACADDR0 : Nat := 0x108
/-- Offset of CHM0.MACADDR1. -/
abbrev Off.CHM0.MACADDR1 : Nat := 0x110
/-- Offset of CHM0.MACADDR2. -/
abbrev Off.CHM0.MACADDR2 : Nat := 0x118
/-- Offset of CHM0.MACADDR3. -/
abbrev Off.CHM0.MACADDR3 : Nat := 0x120
/-- Offset of CHM0.MACADDR4. -/
abbrev Off.CHM0.MACADDR4 : Nat := 0x128
/-- Offset of CHM0.MACADDR5. -/
abbrev Off.CHM0.MACADDR5 : Nat := 0x130
/-- Offset of CHM0.MACADDR6. -/
abbrev Off.CHM0.MACADDR6 : Nat := 0x138
/-- Offset of CHM0.MACADDR7. -/
abbrev Off.CHM0.MACADDR7 : Nat := 0x140
/-- Offset of CHM0.PFCCTL. -/
abbrev Off.CHM0.PFCCTL : Nat := 0x148
/-- Offset of CHM0.PORTSTS. -/
abbrev Off.CHM0.PORTSTS : Nat := 0x150
/-- Offset of CHM0.TSOFF. -/
abbrev Off.CHM0.TSOFF : Nat := 0x158
/-- Offset of CHM0.PTPCTL. -/
abbrev Off.CHM0.PTPCTL : Nat := 0x160
/-- Offset of CHM0.PPSIN. -/
abbrev Off.CHM0.PPSIN : Nat := 0x168
/-- Offset of CHM0.STATSEL. -/
abbrev Off.CHM0.STATSEL : Nat := 0x170
/-- Offset of CHM0.STATVAL. -/
abbrev Off.CHM0.STATVAL : Nat := 0x178
/-- Offset of CHM0.LIPHI. -/
abbrev Off.CHM0.LIPHI : Nat := 0x180
/-- Offset of CHM0.LIPLO. -/
abbrev Off.CHM0.LIPLO : Nat := 0x188
/-- Offset of CHM0.CHM0ERR. -/
abbrev Off.CHM0.CHM0ERR : Nat := 0x190

/-- Offset of CHM1.QSBASE. -/
abbrev Off.CHM1.QSBASE : Nat := 0x100
/-- Offset of CHM1.EMBASE. -/
abbrev Off.CHM1.EMBASE : Nat := 0x108
/-- Offset of CHM1.JRTBASE. -/
abbrev Off.CHM1.JRTBASE : Nat := 0x110
/-- Offset of CHM1.RULEBASE. -/
abbrev Off.CHM1.RULEBASE : Nat := 0x118
/-- Offset of CHM1.RULECMD. -/
abbrev Off.CHM1.RULECMD : Nat := 0x120
/-- Offset of CHM1.STEER. -/
abbrev Off.CHM1.STEER : Nat := 0x128
/-- Offset of CHM1.QARG. -/
abbrev Off.CHM1.QARG : Nat := 0x130
/-- Offset of CHM1.QCMD. -/
abbrev Off.CHM1.QCMD : Nat := 0x138
/-- Offset of CHM1.RCCTL. -/
abbrev Off.CHM1.RCCTL : Nat := 0x140
/-- Offset of CHM1.DROPS. -/
abbrev Off.CHM1.DROPS : Nat := 0x148
/-- Offset of CHM1.MISC. -/
abbrev Off.CHM1.MISC : Nat := 0x150
/-- Offset of CHM1.LASTFULL. -/
abbrev Off.CHM1.LASTFULL : Nat := 0x158
/-- Offset of CHM1.MSET0. -/
abbrev Off.CHM1.MSET0 : Nat := 0x160
/-- Offset of CHM1.MSET1. -/
abbrev Off.CHM1.MSET1 : Nat := 0x168
/-- Offset of CHM1.MSET2. -/
abbrev Off.CHM1.MSET2 : Nat := 0x170
/-- Offset of CHM1.MSET3. -/
abbrev Off.CHM1.MSET3 : Nat := 0x178
/-- Offset of CHM1.MSET4. -/
abbrev Off.CHM1.MSET4 : Nat := 0x180
/-- Offset of CHM1.MSET5. -/
abbrev Off.CHM1.MSET5 : Nat := 0x188
/-- Offset of CHM1.MSET6. -/
abbrev Off.CHM1.MSET6 : Nat := 0x190
/-- Offset of CHM1.MSET7. -/
abbrev Off.CHM1.MSET7 : Nat := 0x198
/-- Offset of CHM1.MSTS. -/
abbrev Off.CHM1.MSTS : Nat := 0x1a0
/-- Offset of CHM1.CHM1ERR. -/
abbrev Off.CHM1.CHM1ERR : Nat := 0x1a8

/-- Offset of BEL.CHBASE. -/
abbrev Off.BEL.CHBASE : Nat := 0x100
/-- Offset of BEL.CHCMD. -/
abbrev Off.BEL.CHCMD : Nat := 0x108
/-- Offset of BEL.DOORBELL. -/
abbrev Off.BEL.DOORBELL : Nat := 0x110
/-- Offset of BEL.ACTIVE. -/
abbrev Off.BEL.ACTIVE : Nat := 0x118
/-- Offset of BEL.BYTES. -/
abbrev Off.BEL.BYTES : Nat := 0x120
/-- Offset of BEL.DBCNT. -/
abbrev Off.BEL.DBCNT : Nat := 0x128
/-- Offset of BEL.BELERR. -/
abbrev Off.BEL.BELERR : Nat := 0x130

/-- Offset of DEV.DIELO0. -/
abbrev Off.DEV.DIELO0 : Nat := 0x100
/-- Offset of DEV.DIEHI0. -/
abbrev Off.DEV.DIEHI0 : Nat := 0x108
/-- Offset of DEV.DIELO1. -/
abbrev Off.DEV.DIELO1 : Nat := 0x110
/-- Offset of DEV.DIEHI1. -/
abbrev Off.DEV.DIEHI1 : Nat := 0x118
/-- Offset of DEV.DIELO2. -/
abbrev Off.DEV.DIELO2 : Nat := 0x120
/-- Offset of DEV.DIEHI2. -/
abbrev Off.DEV.DIEHI2 : Nat := 0x128
/-- Offset of DEV.DIELO3. -/
abbrev Off.DEV.DIELO3 : Nat := 0x130
/-- Offset of DEV.DIEHI3. -/
abbrev Off.DEV.DIEHI3 : Nat := 0x138
/-- Offset of DEV.DIELO4. -/
abbrev Off.DEV.DIELO4 : Nat := 0x140
/-- Offset of DEV.DIEHI4. -/
abbrev Off.DEV.DIEHI4 : Nat := 0x148
/-- Offset of DEV.SERIAL. -/
abbrev Off.DEV.SERIAL : Nat := 0x150
/-- Offset of DEV.STEP. -/
abbrev Off.DEV.STEP : Nat := 0x158
/-- Offset of DEV.PUBSEL. -/
abbrev Off.DEV.PUBSEL : Nat := 0x160
/-- Offset of DEV.PUB0. -/
abbrev Off.DEV.PUB0 : Nat := 0x168
/-- Offset of DEV.PUB1. -/
abbrev Off.DEV.PUB1 : Nat := 0x170
/-- Offset of DEV.PUB2. -/
abbrev Off.DEV.PUB2 : Nat := 0x178
/-- Offset of DEV.PUB3. -/
abbrev Off.DEV.PUB3 : Nat := 0x180
/-- Offset of DEV.PUB4. -/
abbrev Off.DEV.PUB4 : Nat := 0x188
/-- Offset of DEV.PUB5. -/
abbrev Off.DEV.PUB5 : Nat := 0x190
/-- Offset of DEV.PUB6. -/
abbrev Off.DEV.PUB6 : Nat := 0x198
/-- Offset of DEV.PUB7. -/
abbrev Off.DEV.PUB7 : Nat := 0x1a0

/-- Offset of SEC.OPADDR. -/
abbrev Off.SEC.OPADDR : Nat := 0x100
/-- Offset of SEC.OPCMD. -/
abbrev Off.SEC.OPCMD : Nat := 0x108
/-- Offset of SEC.OPSTS. -/
abbrev Off.SEC.OPSTS : Nat := 0x110
/-- Offset of SEC.ENROL. -/
abbrev Off.SEC.ENROL : Nat := 0x118
/-- Offset of SEC.KSEL. -/
abbrev Off.SEC.KSEL : Nat := 0x120
/-- Offset of SEC.KDIG0. -/
abbrev Off.SEC.KDIG0 : Nat := 0x128
/-- Offset of SEC.KDIG1. -/
abbrev Off.SEC.KDIG1 : Nat := 0x130
/-- Offset of SEC.KDIG2. -/
abbrev Off.SEC.KDIG2 : Nat := 0x138
/-- Offset of SEC.KDIG3. -/
abbrev Off.SEC.KDIG3 : Nat := 0x140
/-- Offset of SEC.VKH0. -/
abbrev Off.SEC.VKH0 : Nat := 0x148
/-- Offset of SEC.VKH1. -/
abbrev Off.SEC.VKH1 : Nat := 0x150
/-- Offset of SEC.VKH2. -/
abbrev Off.SEC.VKH2 : Nat := 0x158
/-- Offset of SEC.VKH3. -/
abbrev Off.SEC.VKH3 : Nat := 0x160
/-- Offset of SEC.RNGSTS. -/
abbrev Off.SEC.RNGSTS : Nat := 0x168
/-- Offset of SEC.SECERR. -/
abbrev Off.SEC.SECERR : Nat := 0x170

/-- Offset of TPC.ARG. -/
abbrev Off.TPC.ARG : Nat := 0x100
/-- Offset of TPC.CMD. -/
abbrev Off.TPC.CMD : Nat := 0x108
/-- Offset of TPC.STS. -/
abbrev Off.TPC.STS : Nat := 0x110
/-- Offset of TPC.WINDOW. -/
abbrev Off.TPC.WINDOW : Nat := 0x118
/-- Offset of TPC.NONCE0. -/
abbrev Off.TPC.NONCE0 : Nat := 0x120
/-- Offset of TPC.NONCE1. -/
abbrev Off.TPC.NONCE1 : Nat := 0x128
/-- Offset of TPC.NONCE2. -/
abbrev Off.TPC.NONCE2 : Nat := 0x130
/-- Offset of TPC.NONCE3. -/
abbrev Off.TPC.NONCE3 : Nat := 0x138
/-- Offset of TPC.DIGEST0. -/
abbrev Off.TPC.DIGEST0 : Nat := 0x140
/-- Offset of TPC.DIGEST1. -/
abbrev Off.TPC.DIGEST1 : Nat := 0x148
/-- Offset of TPC.DIGEST2. -/
abbrev Off.TPC.DIGEST2 : Nat := 0x150
/-- Offset of TPC.DIGEST3. -/
abbrev Off.TPC.DIGEST3 : Nat := 0x158
/-- Offset of TPC.EXPIRY. -/
abbrev Off.TPC.EXPIRY : Nat := 0x160
/-- Offset of TPC.CSEQ. -/
abbrev Off.TPC.CSEQ : Nat := 0x168
/-- Offset of TPC.TPCERR. -/
abbrev Off.TPC.TPCERR : Nat := 0x170

/-- Offset of EMB.IMAGE. -/
abbrev Off.EMB.IMAGE : Nat := 0x100
/-- Offset of EMB.BOOTSTS. -/
abbrev Off.EMB.BOOTSTS : Nat := 0x108
/-- Offset of EMB.EMBDIG0. -/
abbrev Off.EMB.EMBDIG0 : Nat := 0x110
/-- Offset of EMB.EMBDIG1. -/
abbrev Off.EMB.EMBDIG1 : Nat := 0x118
/-- Offset of EMB.EMBDIG2. -/
abbrev Off.EMB.EMBDIG2 : Nat := 0x120
/-- Offset of EMB.EMBDIG3. -/
abbrev Off.EMB.EMBDIG3 : Nat := 0x128
/-- Offset of EMB.LOCKED. -/
abbrev Off.EMB.LOCKED : Nat := 0x130
/-- Offset of EMB.REKCMD. -/
abbrev Off.EMB.REKCMD : Nat := 0x138

/-- Offset of DBG.DBGEN. -/
abbrev Off.DBG.DBGEN : Nat := 0x100
/-- Offset of DBG.DBGSTS. -/
abbrev Off.DBG.DBGSTS : Nat := 0x108
/-- Offset of DBG.DBGCMD. -/
abbrev Off.DBG.DBGCMD : Nat := 0x110

/-- Offset of MAN.TOKEN. -/
abbrev Off.MAN.TOKEN : Nat := 0x100
/-- Offset of MAN.CLAIM. -/
abbrev Off.MAN.CLAIM : Nat := 0x108
/-- Offset of MAN.HBAGE. -/
abbrev Off.MAN.HBAGE : Nat := 0x110
/-- Offset of MAN.HBTIMEOUT. -/
abbrev Off.MAN.HBTIMEOUT : Nat := 0x118
/-- Offset of MAN.REFUSED. -/
abbrev Off.MAN.REFUSED : Nat := 0x120
/-- Offset of MAN.CORESTS. -/
abbrev Off.MAN.CORESTS : Nat := 0x128
/-- Offset of MAN.DUMPCMD. -/
abbrev Off.MAN.DUMPCMD : Nat := 0x130
/-- Offset of MAN.MANERR. -/
abbrev Off.MAN.MANERR : Nat := 0x138

/-- Offset of CLK.CLKSTS. -/
abbrev Off.CLK.CLKSTS : Nat := 0x100
/-- Offset of CLK.HOLDMS. -/
abbrev Off.CLK.HOLDMS : Nat := 0x108
/-- Offset of CLK.TOD. -/
abbrev Off.CLK.TOD : Nat := 0x110
/-- Offset of CLK.TODSET. -/
abbrev Off.CLK.TODSET : Nat := 0x118
/-- Offset of CLK.TODRATE. -/
abbrev Off.CLK.TODRATE : Nat := 0x120
/-- Offset of CLK.TODSTEP. -/
abbrev Off.CLK.TODSTEP : Nat := 0x128
/-- Offset of CLK.STEPREM. -/
abbrev Off.CLK.STEPREM : Nat := 0x130
/-- Offset of CLK.CLKERR. -/
abbrev Off.CLK.CLKERR : Nat := 0x138

/-- Offset of PWR.CEILING. -/
abbrev Off.PWR.CEILING : Nat := 0x100
/-- Offset of PWR.CAP. -/
abbrev Off.PWR.CAP : Nat := 0x108
/-- Offset of PWR.BASE. -/
abbrev Off.PWR.BASE : Nat := 0x110
/-- Offset of PWR.DEVSHARE. -/
abbrev Off.PWR.DEVSHARE : Nat := 0x118
/-- Offset of PWR.BROWN. -/
abbrev Off.PWR.BROWN : Nat := 0x120
/-- Offset of PWR.VINMON. -/
abbrev Off.PWR.VINMON : Nat := 0x128
/-- Offset of PWR.THERM. -/
abbrev Off.PWR.THERM : Nat := 0x130
/-- Offset of PWR.TSET. -/
abbrev Off.PWR.TSET : Nat := 0x138
/-- Offset of PWR.THROTTLE. -/
abbrev Off.PWR.THROTTLE : Nat := 0x140
/-- Offset of PWR.HTEMP0. -/
abbrev Off.PWR.HTEMP0 : Nat := 0x148
/-- Offset of PWR.HTEMP1. -/
abbrev Off.PWR.HTEMP1 : Nat := 0x150
/-- Offset of PWR.PWRCMD. -/
abbrev Off.PWR.PWRCMD : Nat := 0x158
/-- Offset of PWR.PWRERR. -/
abbrev Off.PWR.PWRERR : Nat := 0x160

/-- Offset of RST.BOOTPOL. -/
abbrev Off.RST.BOOTPOL : Nat := 0x100
/-- Offset of RST.BOOTSTEP. -/
abbrev Off.RST.BOOTSTEP : Nat := 0x108
/-- Offset of RST.RSTCAUSE. -/
abbrev Off.RST.RSTCAUSE : Nat := 0x110
/-- Offset of RST.RSTCMD. -/
abbrev Off.RST.RSTCMD : Nat := 0x118
/-- Offset of RST.RSTSTS. -/
abbrev Off.RST.RSTSTS : Nat := 0x120
/-- Offset of RST.BOOTCTL. -/
abbrev Off.RST.BOOTCTL : Nat := 0x128
/-- Offset of RST.COUNTS. -/
abbrev Off.RST.COUNTS : Nat := 0x130

/-- Offset of ASH.WRIDX. -/
abbrev Off.ASH.WRIDX : Nat := 0x100
/-- Offset of ASH.OVFCNT. -/
abbrev Off.ASH.OVFCNT : Nat := 0x108
/-- Offset of ASH.SEL. -/
abbrev Off.ASH.SEL : Nat := 0x110
/-- Offset of ASH.ENT0. -/
abbrev Off.ASH.ENT0 : Nat := 0x118
/-- Offset of ASH.ENT1. -/
abbrev Off.ASH.ENT1 : Nat := 0x120
/-- Offset of ASH.ENT2. -/
abbrev Off.ASH.ENT2 : Nat := 0x128
/-- Offset of ASH.ENT3. -/
abbrev Off.ASH.ENT3 : Nat := 0x130
/-- Offset of ASH.ASHCMD. -/
abbrev Off.ASH.ASHCMD : Nat := 0x138
/-- Offset of ASH.ASHERR. -/
abbrev Off.ASH.ASHERR : Nat := 0x140

end Sys2Proof.Machine
end

