-- ==== Sys2Proof/Machine/RegTable.lean ====
section
/-!
DEFINITION. The block registers of every page kind: offset, fields, class, access type and reset value,
transcribed from the register tables of the chapters that map the pages (R33, R34, R43, R46).
A reset value the table gives as Fused, Committed or Retained stands here as 0: the State holds those values itself.
-/

namespace Sys2Proof.Machine

/-- The block registers of the DEV page. -/
def devRegs : List RegRow :=
  [⟨0x100, "DIELO0", [⟨"LOT", 55, 0, .l, .ro, 0⟩, ⟨"WAFER", 60, 56, .l, .ro, 1⟩]⟩,
   ⟨0x108, "DIEHI0", [⟨"X", 7, 0, .l, .ro, 0⟩, ⟨"Y", 15, 8, .l, .ro, 0⟩, ⟨"ORD", 31, 16, .l, .ro, 0⟩]⟩,
   ⟨0x110, "DIELO1", [⟨"LOT", 55, 0, .l, .ro, 0⟩, ⟨"WAFER", 60, 56, .l, .ro, 1⟩]⟩,
   ⟨0x118, "DIEHI1", [⟨"X", 7, 0, .l, .ro, 0⟩, ⟨"Y", 15, 8, .l, .ro, 0⟩, ⟨"ORD", 31, 16, .l, .ro, 0⟩]⟩,
   ⟨0x120, "DIELO2", [⟨"LOT", 55, 0, .l, .ro, 0⟩, ⟨"WAFER", 60, 56, .l, .ro, 1⟩]⟩,
   ⟨0x128, "DIEHI2", [⟨"X", 7, 0, .l, .ro, 0⟩, ⟨"Y", 15, 8, .l, .ro, 0⟩, ⟨"ORD", 31, 16, .l, .ro, 0⟩]⟩]
  ++ [⟨0x130, "DIELO3", [⟨"LOT", 55, 0, .l, .ro, 0⟩, ⟨"WAFER", 60, 56, .l, .ro, 1⟩]⟩,
   ⟨0x138, "DIEHI3", [⟨"X", 7, 0, .l, .ro, 0⟩, ⟨"Y", 15, 8, .l, .ro, 0⟩, ⟨"ORD", 31, 16, .l, .ro, 0⟩]⟩,
   ⟨0x140, "DIELO4", [⟨"LOT", 55, 0, .l, .ro, 0⟩, ⟨"WAFER", 60, 56, .l, .ro, 1⟩]⟩,
   ⟨0x148, "DIEHI4", [⟨"X", 7, 0, .l, .ro, 0⟩, ⟨"Y", 15, 8, .l, .ro, 0⟩, ⟨"ORD", 31, 16, .l, .ro, 0⟩]⟩,
   ⟨0x150, "SERIAL", [⟨"SERIAL", 63, 0, .l, .ro, 0⟩]⟩,
   ⟨0x158, "STEP", [⟨"STEPPING", 7, 0, .l, .ro, 0xa1⟩, ⟨"GRADE", 15, 8, .l, .ro, 0x43⟩]⟩]
  ++ [⟨0x160, "PUBSEL", [⟨"KEY", 0, 0, .l, .rw, 0⟩]⟩,
   ⟨0x168, "PUB0", [⟨"BYTES", 63, 0, .l, .ro, 0⟩]⟩,
   ⟨0x170, "PUB1", [⟨"BYTES", 63, 0, .l, .ro, 0⟩]⟩,
   ⟨0x178, "PUB2", [⟨"BYTES", 63, 0, .l, .ro, 0⟩]⟩,
   ⟨0x180, "PUB3", [⟨"BYTES", 63, 0, .l, .ro, 0⟩]⟩,
   ⟨0x188, "PUB4", [⟨"BYTES", 63, 0, .l, .ro, 0⟩]⟩]
  ++ [⟨0x190, "PUB5", [⟨"BYTES", 63, 0, .l, .ro, 0⟩]⟩,
   ⟨0x198, "PUB6", [⟨"BYTES", 63, 0, .l, .ro, 0⟩]⟩,
   ⟨0x1a0, "PUB7", [⟨"BYTES", 63, 0, .l, .ro, 0⟩]⟩]

/-- The block registers of the MAN page. -/
def manRegs : List RegRow :=
  [⟨0x100, "TOKEN", [⟨"HOLDER", 1, 0, .l, .ro, 1⟩, ⟨"EPOCH", 31, 16, .l, .ro, 0⟩]⟩,
   ⟨0x108, "CLAIM", [⟨"BEAT", 0, 0, .l, .wo, 0⟩, ⟨"CLAIM", 1, 1, .l, .wo, 0⟩, ⟨"RELEASE", 2, 2, .l, .wo, 0⟩]⟩,
   ⟨0x110, "HBAGE", [⟨"NORTH", 31, 0, .l, .ro, 0⟩, ⟨"SOUTH", 63, 32, .l, .ro, 0⟩]⟩,
   ⟨0x118, "HBTIMEOUT", [⟨"MS", 9, 0, .l, .rw, 0x14⟩]⟩,
   ⟨0x120, "REFUSED", [⟨"COUNT", 31, 0, .l, .rc, 0⟩]⟩,
   ⟨0x128, "CORESTS", [⟨"NRUN", 0, 0, .l, .ro, 0⟩, ⟨"SRUN", 1, 1, .l, .ro, 0⟩, ⟨"NHALT", 2, 2, .l, .ro, 0⟩, ⟨"SHALT", 3, 3, .l, .ro, 0⟩]⟩]
  ++ [⟨0x130, "DUMPCMD", [⟨"STOVE", 5, 0, .l, .wo, 0⟩, ⟨"GO", 8, 8, .l, .wo, 0⟩, ⟨"BUSY", 32, 32, .l, .ro, 0⟩, ⟨"REFUSED", 33, 33, .l, .ro, 0⟩]⟩,
   ⟨0x138, "MANERR", [⟨"TAKEOVER", 0, 0, .l, .w1c, 0⟩, ⟨"REFUSED", 1, 1, .l, .w1c, 0⟩]⟩]

/-- The block registers of the CLK page. -/
def clkRegs : List RegRow :=
  [⟨0x100, "CLKSTS", [⟨"REFOK", 0, 0, .l, .ro, 0⟩, ⟨"LOCK", 1, 1, .l, .ro, 0⟩, ⟨"HOLDOVER", 2, 2, .l, .ro, 0⟩, ⟨"TODRUN", 3, 3, .l, .ro, 0⟩]⟩,
   ⟨0x108, "HOLDMS", [⟨"MS", 15, 0, .l, .rw, 0x64⟩]⟩,
   ⟨0x110, "TOD", [⟨"VALUE", 63, 0, .l, .ro, 0⟩]⟩,
   ⟨0x118, "TODSET", [⟨"VALUE", 63, 0, .b, .wo, 0⟩]⟩,
   ⟨0x120, "TODRATE", [⟨"RATE", 31, 0, .l, .rw, 0⟩]⟩,
   ⟨0x128, "TODSTEP", [⟨"VALUE", 63, 0, .l, .wo, 0⟩]⟩]
  ++ [⟨0x130, "STEPREM", [⟨"VALUE", 63, 0, .l, .ro, 0⟩]⟩,
   ⟨0x138, "CLKERR", [⟨"REFLOSS", 0, 0, .l, .w1c, 0⟩, ⟨"UNLOCK", 1, 1, .l, .w1c, 0⟩]⟩]

/-- The block registers of the PWR page. -/
def pwrRegs : List RegRow :=
  [⟨0x100, "CEILING", [⟨"WATTS", 15, 0, .d, .rw, 0⟩]⟩,
   ⟨0x108, "CAP", [⟨"OPER", 15, 0, .l, .rw, 0x1a4⟩, ⟨"EN", 16, 16, .l, .rw, 1⟩]⟩,
   ⟨0x110, "BASE", [⟨"VALUE", 15, 0, .l, .rw, 0x12c⟩]⟩,
   ⟨0x118, "DEVSHARE", [⟨"VALUE", 15, 0, .l, .rw, 0x1000⟩]⟩,
   ⟨0x120, "BROWN", [⟨"MV", 11, 0, .l, .rw, 0xa28⟩]⟩,
   ⟨0x128, "VINMON", [⟨"MV", 15, 0, .l, .ro, 0⟩, ⟨"IIN", 31, 16, .l, .ro, 0⟩, ⟨"PIN", 47, 32, .l, .ro, 0⟩]⟩]
  ++ [⟨0x130, "THERM", [⟨"TJMAX", 7, 0, .l, .ro, 0⟩, ⟨"WHERE", 11, 8, .l, .ro, 0⟩]⟩,
   ⟨0x138, "TSET", [⟨"C", 7, 0, .l, .rw, 0x64⟩]⟩,
   ⟨0x140, "THROTTLE", [⟨"DUTY0", 3, 0, .l, .ro, 8⟩, ⟨"DUTY1", 7, 4, .l, .ro, 8⟩, ⟨"DUTY2", 11, 8, .l, .ro, 8⟩, ⟨"DUTY3", 15, 12, .l, .ro, 8⟩, ⟨"DUTY4", 19, 16, .l, .ro, 8⟩, ⟨"DUTY5", 23, 20, .l, .ro, 8⟩, ⟨"DUTY6", 27, 24, .l, .ro, 8⟩, ⟨"DUTY7", 31, 28, .l, .ro, 8⟩]⟩,
   ⟨0x148, "HTEMP0", [⟨"TEMP0", 7, 0, .l, .ro, 0⟩, ⟨"TEMP1", 15, 8, .l, .ro, 0⟩, ⟨"TEMP2", 23, 16, .l, .ro, 0⟩, ⟨"TEMP3", 31, 24, .l, .ro, 0⟩, ⟨"TEMP4", 39, 32, .l, .ro, 0⟩, ⟨"TEMP5", 47, 40, .l, .ro, 0⟩, ⟨"TEMP6", 55, 48, .l, .ro, 0⟩, ⟨"TEMP7", 63, 56, .l, .ro, 0⟩]⟩,
   ⟨0x150, "HTEMP1", [⟨"TEMP0", 7, 0, .l, .ro, 0⟩, ⟨"TEMP1", 15, 8, .l, .ro, 0⟩, ⟨"TEMP2", 23, 16, .l, .ro, 0⟩, ⟨"TEMP3", 31, 24, .l, .ro, 0⟩]⟩,
   ⟨0x158, "PWRCMD", [⟨"OFF", 0, 0, .l, .wo, 0⟩, ⟨"KEY", 63, 32, .l, .wo, 0⟩]⟩]
  ++ [⟨0x160, "PWRERR", [⟨"BROWNOUT", 0, 0, .l, .w1c, 0⟩, ⟨"THROTTLE", 1, 1, .l, .w1c, 0⟩, ⟨"OVERTEMP", 2, 2, .l, .w1c, 0⟩, ⟨"RAILFAIL", 3, 3, .l, .w1c, 0⟩]⟩]

/-- The block registers of the RST page. -/
def rstRegs : List RegRow :=
  [⟨0x100, "BOOTPOL", [⟨"ORDER", 1, 0, .d, .rw, 0⟩, ⟨"STRAP", 2, 2, .d, .rw, 0⟩, ⟨"VENDOR", 3, 3, .d, .rw, 0⟩, ⟨"MINSVN", 47, 16, .d, .rw, 0⟩]⟩,
   ⟨0x108, "BOOTSTEP", [⟨"STEP", 3, 0, .l, .ro, 1⟩, ⟨"FAIL", 11, 4, .l, .ro, 0⟩, ⟨"HALTED", 12, 12, .l, .ro, 0⟩]⟩,
   ⟨0x110, "RSTCAUSE", [⟨"LEVEL", 2, 0, .l, .ro, 4⟩, ⟨"SOURCE", 11, 8, .l, .ro, 0⟩]⟩,
   ⟨0x118, "RSTCMD", [⟨"LEVEL", 2, 0, .l, .wo, 0⟩, ⟨"TARGET", 13, 8, .l, .wo, 0⟩, ⟨"KEY", 63, 32, .l, .wo, 0⟩]⟩,
   ⟨0x120, "RSTSTS", [⟨"BUSY", 0, 0, .l, .ro, 0⟩, ⟨"REFUSED", 1, 1, .l, .ro, 0⟩]⟩,
   ⟨0x128, "BOOTCTL", [⟨"RELEASE", 0, 0, .l, .wo, 0⟩, ⟨"HMASK", 15, 8, .l, .wo, 0⟩, ⟨"WINDOW", 32, 32, .l, .ro, 1⟩]⟩]
  ++ [⟨0x130, "COUNTS", [⟨"COLD", 15, 0, .l, .ro, 0⟩, ⟨"WARM", 31, 16, .l, .ro, 0⟩, ⟨"HEARTH", 47, 32, .l, .ro, 0⟩, ⟨"STOVE", 63, 48, .l, .ro, 0⟩]⟩]

/-- The block registers of the ASH page. -/
def ashRegs : List RegRow :=
  [⟨0x100, "WRIDX", [⟨"NEXT", 9, 0, .l, .ro, 0⟩, ⟨"FROZEN", 10, 10, .l, .ro, 0⟩]⟩,
   ⟨0x108, "OVFCNT", [⟨"COUNT", 31, 0, .l, .ro, 0⟩]⟩,
   ⟨0x110, "SEL", [⟨"INDEX", 9, 0, .l, .rw, 0⟩]⟩,
   ⟨0x118, "ENT0", [⟨"BYTES", 63, 0, .l, .ro, 0⟩]⟩,
   ⟨0x120, "ENT1", [⟨"BYTES", 63, 0, .l, .ro, 0⟩]⟩,
   ⟨0x128, "ENT2", [⟨"BYTES", 63, 0, .l, .ro, 0⟩]⟩]
  ++ [⟨0x130, "ENT3", [⟨"BYTES", 63, 0, .l, .ro, 0⟩]⟩,
   ⟨0x138, "ASHCMD", [⟨"CLEAR", 0, 0, .l, .wo, 0⟩, ⟨"KEY", 63, 32, .l, .wo, 0⟩]⟩,
   ⟨0x140, "ASHERR", [⟨"WRAP", 0, 0, .l, .w1c, 0⟩, ⟨"NEW", 1, 1, .l, .w1c, 0⟩]⟩]

/-- The block registers of the DBG page. -/
def dbgRegs : List RegRow :=
  [⟨0x100, "DBGEN", [⟨"LEVEL", 1, 0, .d, .rw, 0⟩]⟩,
   ⟨0x108, "DBGSTS", [⟨"ATTACHED", 0, 0, .l, .ro, 0⟩, ⟨"EVER", 1, 1, .l, .ro, 0⟩]⟩,
   ⟨0x110, "DBGCMD", [⟨"CTXID", 19, 0, .l, .wo, 0⟩, ⟨"OP", 27, 24, .l, .wo, 0⟩, ⟨"BUSY", 32, 32, .l, .ro, 0⟩, ⟨"REFUSED", 33, 33, .l, .ro, 0⟩]⟩]

/-- The block registers of the SEC page. -/
def secRegs : List RegRow :=
  [⟨0x100, "OPADDR", [⟨"ADDR", 63, 0, .l, .rw, 0⟩]⟩,
   ⟨0x108, "OPCMD", [⟨"GO", 0, 0, .l, .wo, 0⟩]⟩,
   ⟨0x110, "OPSTS", [⟨"BUSY", 0, 0, .l, .ro, 0⟩, ⟨"OVR", 1, 1, .l, .w1c, 0⟩]⟩,
   ⟨0x118, "ENROL", [⟨"OFF", 15, 0, .d, .rw, 0⟩, ⟨"OWN", 19, 16, .d, .rw, 0⟩, ⟨"PEER", 47, 32, .d, .rw, 0⟩]⟩,
   ⟨0x120, "KSEL", [⟨"CLASS", 1, 0, .l, .rw, 0⟩, ⟨"SLOT", 11, 8, .l, .rw, 0⟩]⟩,
   ⟨0x128, "KDIG0", [⟨"BYTES", 63, 0, .l, .ro, 0⟩]⟩]
  ++ [⟨0x130, "KDIG1", [⟨"BYTES", 63, 0, .l, .ro, 0⟩]⟩,
   ⟨0x138, "KDIG2", [⟨"BYTES", 63, 0, .l, .ro, 0⟩]⟩,
   ⟨0x140, "KDIG3", [⟨"BYTES", 63, 0, .l, .ro, 0⟩]⟩,
   ⟨0x148, "VKH0", [⟨"BYTES", 63, 0, .l, .ro, 0⟩]⟩,
   ⟨0x150, "VKH1", [⟨"BYTES", 63, 0, .l, .ro, 0⟩]⟩,
   ⟨0x158, "VKH2", [⟨"BYTES", 63, 0, .l, .ro, 0⟩]⟩]
  ++ [⟨0x160, "VKH3", [⟨"BYTES", 63, 0, .l, .ro, 0⟩]⟩,
   ⟨0x168, "RNGSTS", [⟨"HEALTHY", 0, 0, .l, .ro, 0⟩, ⟨"FAILCNT", 47, 16, .l, .ro, 0⟩]⟩,
   ⟨0x170, "SECERR", [⟨"RNG", 0, 0, .l, .w1c, 0⟩, ⟨"OPERR", 1, 1, .l, .w1c, 0⟩]⟩]

/-- The block registers of the TPC page. -/
def tpcRegs : List RegRow :=
  [⟨0x100, "ARG", [⟨"ADDR", 63, 0, .l, .rw, 0⟩]⟩,
   ⟨0x108, "CMD", [⟨"OP", 3, 0, .l, .wo, 0⟩]⟩,
   ⟨0x110, "STS", [⟨"STATE", 2, 0, .l, .ro, 0⟩, ⟨"BUSY", 3, 3, .l, .ro, 0⟩, ⟨"ERR", 15, 8, .l, .ro, 0⟩, ⟨"SIG1", 19, 16, .l, .ro, 0⟩, ⟨"SIG2", 23, 20, .l, .ro, 0⟩]⟩,
   ⟨0x118, "WINDOW", [⟨"SECS", 9, 0, .l, .rw, 0x258⟩]⟩,
   ⟨0x120, "NONCE0", [⟨"BYTES", 63, 0, .l, .ro, 0⟩]⟩,
   ⟨0x128, "NONCE1", [⟨"BYTES", 63, 0, .l, .ro, 0⟩]⟩]
  ++ [⟨0x130, "NONCE2", [⟨"BYTES", 63, 0, .l, .ro, 0⟩]⟩,
   ⟨0x138, "NONCE3", [⟨"BYTES", 63, 0, .l, .ro, 0⟩]⟩,
   ⟨0x140, "DIGEST0", [⟨"BYTES", 63, 0, .l, .ro, 0⟩]⟩,
   ⟨0x148, "DIGEST1", [⟨"BYTES", 63, 0, .l, .ro, 0⟩]⟩,
   ⟨0x150, "DIGEST2", [⟨"BYTES", 63, 0, .l, .ro, 0⟩]⟩,
   ⟨0x158, "DIGEST3", [⟨"BYTES", 63, 0, .l, .ro, 0⟩]⟩]
  ++ [⟨0x160, "EXPIRY", [⟨"VALUE", 63, 0, .l, .ro, 0⟩]⟩,
   ⟨0x168, "CSEQ", [⟨"VALUE", 63, 0, .l, .ro, 0⟩]⟩,
   ⟨0x170, "TPCERR", [⟨"REFUSED", 0, 0, .l, .w1c, 0⟩, ⟨"EXPIRED", 1, 1, .l, .w1c, 0⟩]⟩]

/-- The block registers of the EMB page. -/
def embRegs : List RegRow :=
  [⟨0x100, "IMAGE", [⟨"GEN", 15, 0, .l, .ro, 0⟩, ⟨"EDITION", 31, 16, .l, .ro, 0⟩, ⟨"SVN", 63, 32, .l, .ro, 0⟩]⟩,
   ⟨0x108, "BOOTSTS", [⟨"SLOT", 0, 0, .l, .ro, 0⟩, ⟨"RECOVERY", 1, 1, .l, .ro, 0⟩, ⟨"FALLBACK", 2, 2, .l, .ro, 0⟩, ⟨"FAILA", 15, 8, .l, .ro, 0⟩, ⟨"FAILB", 23, 16, .l, .ro, 0⟩]⟩,
   ⟨0x110, "EMBDIG0", [⟨"BYTES", 63, 0, .l, .ro, 0⟩]⟩,
   ⟨0x118, "EMBDIG1", [⟨"BYTES", 63, 0, .l, .ro, 0⟩]⟩,
   ⟨0x120, "EMBDIG2", [⟨"BYTES", 63, 0, .l, .ro, 0⟩]⟩,
   ⟨0x128, "EMBDIG3", [⟨"BYTES", 63, 0, .l, .ro, 0⟩]⟩]
  ++ [⟨0x130, "LOCKED", [⟨"STOVES", 63, 0, .l, .ro, 0⟩]⟩,
   ⟨0x138, "REKCMD", [⟨"STOVE", 5, 0, .l, .wo, 0⟩, ⟨"GO", 8, 8, .l, .wo, 0⟩, ⟨"BUSY", 32, 32, .l, .ro, 0⟩]⟩]

/-- The block registers of the KEY page. -/
def keyRegs : List RegRow :=
  [⟨0x100, "FKTBASE", [⟨"ADDR", 63, 0, .b, .rw, 0⟩]⟩,
   ⟨0x108, "FSTBASE", [⟨"ADDR", 63, 0, .b, .rw, 0⟩]⟩,
   ⟨0x110, "KEYCTL", [⟨"FSTEN", 0, 0, .b, .rw, 0⟩, ⟨"FKTEN", 1, 1, .b, .rw, 0⟩]⟩,
   ⟨0x118, "KEYERR", [⟨"COUNT", 31, 0, .l, .rc, 0⟩]⟩,
   ⟨0x140, "VAULT0", [⟨"FRAME", 35, 0, .d, .rw, 0⟩, ⟨"SIZE", 41, 36, .d, .rw, 0⟩, ⟨"EN", 63, 63, .d, .rw, 0⟩]⟩,
   ⟨0x148, "VAULT1", [⟨"FRAME", 35, 0, .d, .rw, 0⟩, ⟨"SIZE", 41, 36, .d, .rw, 0⟩, ⟨"EN", 63, 63, .d, .rw, 0⟩]⟩]
  ++ [⟨0x150, "VAULT2", [⟨"FRAME", 35, 0, .d, .rw, 0⟩, ⟨"SIZE", 41, 36, .d, .rw, 0⟩, ⟨"EN", 63, 63, .d, .rw, 0⟩]⟩,
   ⟨0x158, "VAULT3", [⟨"FRAME", 35, 0, .d, .rw, 0⟩, ⟨"SIZE", 41, 36, .d, .rw, 0⟩, ⟨"EN", 63, 63, .d, .rw, 0⟩]⟩,
   ⟨0x160, "VAULT4", [⟨"FRAME", 35, 0, .d, .rw, 0⟩, ⟨"SIZE", 41, 36, .d, .rw, 0⟩, ⟨"EN", 63, 63, .d, .rw, 0⟩]⟩,
   ⟨0x168, "VAULT5", [⟨"FRAME", 35, 0, .d, .rw, 0⟩, ⟨"SIZE", 41, 36, .d, .rw, 0⟩, ⟨"EN", 63, 63, .d, .rw, 0⟩]⟩,
   ⟨0x170, "VAULT6", [⟨"FRAME", 35, 0, .d, .rw, 0⟩, ⟨"SIZE", 41, 36, .d, .rw, 0⟩, ⟨"EN", 63, 63, .d, .rw, 0⟩]⟩,
   ⟨0x178, "VAULT7", [⟨"FRAME", 35, 0, .d, .rw, 0⟩, ⟨"SIZE", 41, 36, .d, .rw, 0⟩, ⟨"EN", 63, 63, .d, .rw, 0⟩]⟩]
  ++ [⟨0x180, "VAULT8", [⟨"FRAME", 35, 0, .d, .rw, 0⟩, ⟨"SIZE", 41, 36, .d, .rw, 0⟩, ⟨"EN", 63, 63, .d, .rw, 0⟩]⟩,
   ⟨0x188, "VAULT9", [⟨"FRAME", 35, 0, .d, .rw, 0⟩, ⟨"SIZE", 41, 36, .d, .rw, 0⟩, ⟨"EN", 63, 63, .d, .rw, 0⟩]⟩,
   ⟨0x190, "VAULT10", [⟨"FRAME", 35, 0, .d, .rw, 0⟩, ⟨"SIZE", 41, 36, .d, .rw, 0⟩, ⟨"EN", 63, 63, .d, .rw, 0⟩]⟩,
   ⟨0x198, "VAULT11", [⟨"FRAME", 35, 0, .d, .rw, 0⟩, ⟨"SIZE", 41, 36, .d, .rw, 0⟩, ⟨"EN", 63, 63, .d, .rw, 0⟩]⟩,
   ⟨0x1a0, "VAULT12", [⟨"FRAME", 35, 0, .d, .rw, 0⟩, ⟨"SIZE", 41, 36, .d, .rw, 0⟩, ⟨"EN", 63, 63, .d, .rw, 0⟩]⟩,
   ⟨0x1a8, "VAULT13", [⟨"FRAME", 35, 0, .d, .rw, 0⟩, ⟨"SIZE", 41, 36, .d, .rw, 0⟩, ⟨"EN", 63, 63, .d, .rw, 0⟩]⟩]
  ++ [⟨0x1b0, "VAULT14", [⟨"FRAME", 35, 0, .d, .rw, 0⟩, ⟨"SIZE", 41, 36, .d, .rw, 0⟩, ⟨"EN", 63, 63, .d, .rw, 0⟩]⟩,
   ⟨0x1b8, "VAULT15", [⟨"FRAME", 35, 0, .d, .rw, 0⟩, ⟨"SIZE", 41, 36, .d, .rw, 0⟩, ⟨"EN", 63, 63, .d, .rw, 0⟩]⟩]

/-- The block registers of the NMC page. -/
def nmcRegs : List RegRow :=
  [⟨0x100, "CFG", [⟨"FIT", 0, 0, .b, .rw, 1⟩, ⟨"RATE", 2, 1, .b, .rw, 0⟩]⟩,
   ⟨0x108, "NMSTS", [⟨"TRAINED", 0, 0, .l, .ro, 0⟩, ⟨"INITDONE", 1, 1, .l, .ro, 0⟩, ⟨"DEGRADED", 2, 2, .l, .ro, 0⟩, ⟨"GFAIL", 15, 8, .l, .ro, 0⟩]⟩,
   ⟨0x110, "CHFAIL", [⟨"FAILED", 39, 0, .l, .ro, 0⟩]⟩,
   ⟨0x118, "SCRUBCTL", [⟨"EN", 0, 0, .l, .rw, 1⟩, ⟨"REWR", 1, 1, .l, .rw, 0⟩, ⟨"PASSH", 9, 2, .l, .rw, 0x18⟩]⟩,
   ⟨0x120, "SCRUBSTS", [⟨"PASS", 31, 0, .l, .ro, 0⟩, ⟨"PERMILLE", 41, 32, .l, .ro, 0⟩]⟩,
   ⟨0x128, "CECNT", [⟨"COUNT", 31, 0, .l, .rc, 0⟩]⟩]
  ++ [⟨0x130, "UECNT", [⟨"COUNT", 31, 0, .l, .rc, 0⟩]⟩,
   ⟨0x138, "LASTUE", [⟨"ADDR", 63, 0, .l, .ro, 0⟩]⟩,
   ⟨0x140, "CRCRETRY", [⟨"COUNT", 31, 0, .l, .rc, 0⟩]⟩,
   ⟨0x148, "PINSEL", [⟨"PIN", 9, 0, .l, .rw, 0⟩]⟩,
   ⟨0x150, "PINCNT", [⟨"COUNT", 31, 0, .l, .ro, 0⟩, ⟨"ERASED", 32, 32, .l, .ro, 0⟩]⟩,
   ⟨0x158, "PINCTL", [⟨"THRESH", 15, 0, .l, .rw, 0x1000⟩, ⟨"CLR", 16, 16, .l, .wo, 0⟩, ⟨"ERASE", 17, 17, .l, .wo, 0⟩, ⟨"UNERASE", 18, 18, .l, .wo, 0⟩]⟩]
  ++ [⟨0x160, "FAILCMD", [⟨"CHAN", 5, 0, .l, .wo, 0⟩, ⟨"GO", 8, 8, .l, .wo, 0⟩]⟩,
   ⟨0x168, "NMERR", [⟨"DEGR", 0, 0, .l, .w1c, 0⟩, ⟨"UE", 1, 1, .l, .w1c, 0⟩, ⟨"PINALERT", 2, 2, .l, .w1c, 0⟩]⟩]

/-- The block registers of the FXP page. -/
def fxpRegs : List RegRow :=
  [⟨0x100, "MODE", [⟨"MODE", 1, 0, .q, .rw, 0⟩, ⟨"MAXW", 4, 2, .q, .rw, 4⟩, ⟨"MAXGEN", 7, 5, .q, .rw, 5⟩]⟩,
   ⟨0x108, "LINK", [⟨"UP", 0, 0, .l, .ro, 0⟩, ⟨"MEMACT", 1, 1, .l, .ro, 0⟩, ⟨"WIDTH", 4, 2, .l, .ro, 0⟩, ⟨"GEN", 7, 5, .l, .ro, 0⟩]⟩,
   ⟨0x110, "CAP", [⟨"BYTES", 63, 0, .l, .ro, 0⟩]⟩,
   ⟨0x118, "OBOFF", [⟨"OFFSET", 63, 12, .l, .rw, 0⟩]⟩,
   ⟨0x120, "INBASE", [⟨"BASE", 47, 12, .q, .rw, 0⟩]⟩,
   ⟨0x128, "INCTL", [⟨"EN", 0, 0, .q, .rw, 0⟩, ⟨"KEY", 4, 1, .q, .rw, 0⟩, ⟨"SIZEEXP", 11, 6, .q, .rw, 0xc⟩]⟩]
  ++ [⟨0x130, "CTO", [⟨"MICROS", 15, 0, .q, .rw, 0x2710⟩]⟩,
   ⟨0x138, "MSIADDR", [⟨"ADDR", 63, 3, .l, .rw, 0⟩]⟩,
   ⟨0x140, "MSIXCMD", [⟨"VEC", 5, 0, .l, .wo, 0⟩, ⟨"GO", 8, 8, .l, .wo, 0⟩]⟩,
   ⟨0x148, "AERCNT", [⟨"CORR", 31, 0, .l, .rc, 0⟩, ⟨"UNCORR", 63, 32, .l, .rc, 0⟩]⟩,
   ⟨0x150, "FXPERR", [⟨"LINKDN", 0, 0, .l, .w1c, 0⟩, ⟨"CTMO", 1, 1, .l, .w1c, 0⟩, ⟨"UR", 2, 2, .l, .w1c, 0⟩, ⟨"POISON", 3, 3, .l, .w1c, 0⟩, ⟨"MSIRCV", 4, 4, .l, .w1c, 0⟩, ⟨"DEVTYPE", 5, 5, .l, .w1c, 0⟩]⟩]

/-- The block registers of the CHM0 page. -/
def chm0Regs : List RegRow :=
  [⟨0x100, "PORTCFG", [⟨"MODE", 1, 0, .q, .rw, 0⟩, ⟨"CR", 15, 8, .q, .rw, 0xff⟩, ⟨"AN", 16, 16, .q, .rw, 1⟩, ⟨"HOPS", 31, 24, .l, .rw, 0x40⟩]⟩,
   ⟨0x108, "MACADDR0", [⟨"ADDR", 47, 0, .q, .rw, 0⟩, ⟨"MCAST", 48, 48, .l, .rw, 1⟩, ⟨"PROMISC", 49, 49, .l, .rw, 0⟩]⟩,
   ⟨0x110, "MACADDR1", [⟨"ADDR", 47, 0, .q, .rw, 0⟩, ⟨"MCAST", 48, 48, .l, .rw, 1⟩, ⟨"PROMISC", 49, 49, .l, .rw, 0⟩]⟩,
   ⟨0x118, "MACADDR2", [⟨"ADDR", 47, 0, .q, .rw, 0⟩, ⟨"MCAST", 48, 48, .l, .rw, 1⟩, ⟨"PROMISC", 49, 49, .l, .rw, 0⟩]⟩,
   ⟨0x120, "MACADDR3", [⟨"ADDR", 47, 0, .q, .rw, 0⟩, ⟨"MCAST", 48, 48, .l, .rw, 1⟩, ⟨"PROMISC", 49, 49, .l, .rw, 0⟩]⟩,
   ⟨0x128, "MACADDR4", [⟨"ADDR", 47, 0, .q, .rw, 0⟩, ⟨"MCAST", 48, 48, .l, .rw, 1⟩, ⟨"PROMISC", 49, 49, .l, .rw, 0⟩]⟩]
  ++ [⟨0x130, "MACADDR5", [⟨"ADDR", 47, 0, .q, .rw, 0⟩, ⟨"MCAST", 48, 48, .l, .rw, 1⟩, ⟨"PROMISC", 49, 49, .l, .rw, 0⟩]⟩,
   ⟨0x138, "MACADDR6", [⟨"ADDR", 47, 0, .q, .rw, 0⟩, ⟨"MCAST", 48, 48, .l, .rw, 1⟩, ⟨"PROMISC", 49, 49, .l, .rw, 0⟩]⟩,
   ⟨0x140, "MACADDR7", [⟨"ADDR", 47, 0, .q, .rw, 0⟩, ⟨"MCAST", 48, 48, .l, .rw, 1⟩, ⟨"PROMISC", 49, 49, .l, .rw, 0⟩]⟩,
   ⟨0x148, "PFCCTL", [⟨"PFCEN", 7, 0, .q, .rw, 0⟩, ⟨"PAUSE", 8, 8, .q, .rw, 0⟩]⟩,
   ⟨0x150, "PORTSTS", [⟨"UP", 7, 0, .l, .ro, 0⟩]⟩,
   ⟨0x158, "TSOFF", [⟨"RX", 15, 0, .l, .rw, 0⟩, ⟨"TX", 31, 16, .l, .rw, 0⟩]⟩]
  ++ [⟨0x160, "PTPCTL", [⟨"PPSOUT", 0, 0, .l, .rw, 0⟩, ⟨"PPSIN", 1, 1, .l, .rw, 0⟩]⟩,
   ⟨0x168, "PPSIN", [⟨"TOD", 63, 0, .l, .ro, 0⟩]⟩,
   ⟨0x170, "STATSEL", [⟨"PORT", 2, 0, .l, .rw, 0⟩, ⟨"CNT", 11, 8, .l, .rw, 0⟩, ⟨"CLR", 16, 16, .l, .wo, 0⟩]⟩,
   ⟨0x178, "STATVAL", [⟨"VALUE", 63, 0, .l, .ro, 0⟩]⟩,
   ⟨0x180, "LIPHI", [⟨"BYTES", 63, 0, .q, .rw, 0⟩]⟩,
   ⟨0x188, "LIPLO", [⟨"BYTES", 63, 0, .q, .rw, 0⟩]⟩]
  ++ [⟨0x190, "CHM0ERR", [⟨"LINKDN", 7, 0, .l, .w1c, 0⟩]⟩]

/-- The block registers of the CHM1 page. -/
def chm1Regs : List RegRow :=
  [⟨0x100, "QSBASE", [⟨"ADDR", 63, 0, .b, .rw, 0⟩]⟩,
   ⟨0x108, "EMBASE", [⟨"ADDR", 63, 0, .b, .rw, 0⟩]⟩,
   ⟨0x110, "JRTBASE", [⟨"ADDR", 63, 0, .b, .rw, 0⟩]⟩,
   ⟨0x118, "RULEBASE", [⟨"ADDR", 63, 0, .l, .rw, 0⟩]⟩,
   ⟨0x120, "RULECMD", [⟨"FIRST", 9, 0, .l, .wo, 0⟩, ⟨"LAST", 25, 16, .l, .wo, 0⟩, ⟨"OP", 29, 28, .l, .wo, 0⟩, ⟨"BUSY", 32, 32, .l, .ro, 0⟩, ⟨"REFUSED", 33, 33, .l, .ro, 0⟩]⟩,
   ⟨0x128, "STEER", [⟨"DEFQ", 18, 0, .l, .rw, 0⟩, ⟨"EXCQ", 50, 32, .l, .rw, 0⟩, ⟨"DEFEN", 51, 51, .l, .rw, 0⟩, ⟨"PAYOFF", 63, 52, .l, .rw, 0⟩]⟩]
  ++ [⟨0x130, "QARG", [⟨"ARG", 63, 0, .l, .rw, 0⟩]⟩,
   ⟨0x138, "QCMD", [⟨"QUEUE", 18, 0, .l, .wo, 0⟩, ⟨"OP", 27, 24, .l, .wo, 0⟩, ⟨"BUSY", 32, 32, .l, .ro, 0⟩, ⟨"REFUSED", 33, 33, .l, .ro, 0⟩]⟩,
   ⟨0x140, "RCCTL", [⟨"ACKTO", 15, 0, .l, .rw, 0x40⟩, ⟨"RETRY", 18, 16, .l, .rw, 7⟩, ⟨"LOSSMS", 47, 32, .l, .rw, 0x14⟩]⟩,
   ⟨0x148, "DROPS", [⟨"LO", 31, 0, .l, .rc, 0⟩, ⟨"HI", 63, 32, .l, .rc, 0⟩]⟩,
   ⟨0x150, "MISC", [⟨"LO", 31, 0, .l, .rc, 0⟩, ⟨"HI", 63, 32, .l, .rc, 0⟩]⟩,
   ⟨0x158, "LASTFULL", [⟨"QUEUE", 18, 0, .l, .ro, 0⟩]⟩]
  ++ [⟨0x160, "MSET0", [⟨"QP0", 15, 0, .d, .rw, 0⟩, ⟨"QP1", 31, 16, .d, .rw, 0⟩, ⟨"PEER0", 35, 32, .d, .rw, 0⟩, ⟨"PEER1", 39, 36, .d, .rw, 0⟩, ⟨"NPEERS", 41, 40, .d, .rw, 0⟩, ⟨"ENC", 42, 42, .d, .rw, 0⟩, ⟨"ROLE", 43, 43, .d, .rw, 0⟩, ⟨"EN", 63, 63, .d, .rw, 0⟩]⟩,
   ⟨0x168, "MSET1", [⟨"QP0", 15, 0, .d, .rw, 0⟩, ⟨"QP1", 31, 16, .d, .rw, 0⟩, ⟨"PEER0", 35, 32, .d, .rw, 0⟩, ⟨"PEER1", 39, 36, .d, .rw, 0⟩, ⟨"NPEERS", 41, 40, .d, .rw, 0⟩, ⟨"ENC", 42, 42, .d, .rw, 0⟩, ⟨"ROLE", 43, 43, .d, .rw, 0⟩, ⟨"EN", 63, 63, .d, .rw, 0⟩]⟩,
   ⟨0x170, "MSET2", [⟨"QP0", 15, 0, .d, .rw, 0⟩, ⟨"QP1", 31, 16, .d, .rw, 0⟩, ⟨"PEER0", 35, 32, .d, .rw, 0⟩, ⟨"PEER1", 39, 36, .d, .rw, 0⟩, ⟨"NPEERS", 41, 40, .d, .rw, 0⟩, ⟨"ENC", 42, 42, .d, .rw, 0⟩, ⟨"ROLE", 43, 43, .d, .rw, 0⟩, ⟨"EN", 63, 63, .d, .rw, 0⟩]⟩,
   ⟨0x178, "MSET3", [⟨"QP0", 15, 0, .d, .rw, 0⟩, ⟨"QP1", 31, 16, .d, .rw, 0⟩, ⟨"PEER0", 35, 32, .d, .rw, 0⟩, ⟨"PEER1", 39, 36, .d, .rw, 0⟩, ⟨"NPEERS", 41, 40, .d, .rw, 0⟩, ⟨"ENC", 42, 42, .d, .rw, 0⟩, ⟨"ROLE", 43, 43, .d, .rw, 0⟩, ⟨"EN", 63, 63, .d, .rw, 0⟩]⟩,
   ⟨0x180, "MSET4", [⟨"QP0", 15, 0, .d, .rw, 0⟩, ⟨"QP1", 31, 16, .d, .rw, 0⟩, ⟨"PEER0", 35, 32, .d, .rw, 0⟩, ⟨"PEER1", 39, 36, .d, .rw, 0⟩, ⟨"NPEERS", 41, 40, .d, .rw, 0⟩, ⟨"ENC", 42, 42, .d, .rw, 0⟩, ⟨"ROLE", 43, 43, .d, .rw, 0⟩, ⟨"EN", 63, 63, .d, .rw, 0⟩]⟩,
   ⟨0x188, "MSET5", [⟨"QP0", 15, 0, .d, .rw, 0⟩, ⟨"QP1", 31, 16, .d, .rw, 0⟩, ⟨"PEER0", 35, 32, .d, .rw, 0⟩, ⟨"PEER1", 39, 36, .d, .rw, 0⟩, ⟨"NPEERS", 41, 40, .d, .rw, 0⟩, ⟨"ENC", 42, 42, .d, .rw, 0⟩, ⟨"ROLE", 43, 43, .d, .rw, 0⟩, ⟨"EN", 63, 63, .d, .rw, 0⟩]⟩]
  ++ [⟨0x190, "MSET6", [⟨"QP0", 15, 0, .d, .rw, 0⟩, ⟨"QP1", 31, 16, .d, .rw, 0⟩, ⟨"PEER0", 35, 32, .d, .rw, 0⟩, ⟨"PEER1", 39, 36, .d, .rw, 0⟩, ⟨"NPEERS", 41, 40, .d, .rw, 0⟩, ⟨"ENC", 42, 42, .d, .rw, 0⟩, ⟨"ROLE", 43, 43, .d, .rw, 0⟩, ⟨"EN", 63, 63, .d, .rw, 0⟩]⟩,
   ⟨0x198, "MSET7", [⟨"QP0", 15, 0, .d, .rw, 0⟩, ⟨"QP1", 31, 16, .d, .rw, 0⟩, ⟨"PEER0", 35, 32, .d, .rw, 0⟩, ⟨"PEER1", 39, 36, .d, .rw, 0⟩, ⟨"NPEERS", 41, 40, .d, .rw, 0⟩, ⟨"ENC", 42, 42, .d, .rw, 0⟩, ⟨"ROLE", 43, 43, .d, .rw, 0⟩, ⟨"EN", 63, 63, .d, .rw, 0⟩]⟩,
   ⟨0x1a0, "MSTS", [⟨"LIVE", 15, 0, .l, .ro, 0⟩]⟩,
   ⟨0x1a8, "CHM1ERR", [⟨"MIRLOST", 0, 0, .l, .w1c, 0⟩, ⟨"CHAINBRK", 1, 1, .l, .w1c, 0⟩, ⟨"QSERR", 2, 2, .l, .w1c, 0⟩]⟩]

/-- The block registers of the BEL page. -/
def belRegs : List RegRow :=
  [⟨0x100, "CHBASE", [⟨"ADDR", 63, 0, .b, .rw, 0⟩]⟩,
   ⟨0x108, "CHCMD", [⟨"CHAN", 5, 0, .l, .wo, 0⟩, ⟨"OP", 11, 8, .l, .wo, 0⟩, ⟨"BUSY", 32, 32, .l, .ro, 0⟩, ⟨"REFUSED", 33, 33, .l, .ro, 0⟩]⟩,
   ⟨0x110, "DOORBELL", [⟨"CHAN", 5, 0, .l, .wo, 0⟩, ⟨"INDEX", 63, 32, .l, .wo, 0⟩]⟩,
   ⟨0x118, "ACTIVE", [⟨"CHANS", 63, 0, .l, .ro, 0⟩]⟩,
   ⟨0x120, "BYTES", [⟨"COUNT", 63, 0, .l, .ro, 0⟩]⟩,
   ⟨0x128, "DBCNT", [⟨"COUNT", 31, 0, .l, .rc, 0⟩]⟩]
  ++ [⟨0x130, "BELERR", [⟨"XFER", 0, 0, .l, .w1c, 0⟩, ⟨"RINGERR", 1, 1, .l, .w1c, 0⟩, ⟨"DBERR", 2, 2, .l, .w1c, 0⟩, ⟨"LATE", 3, 3, .l, .w1c, 0⟩]⟩]

/-- The block registers of the GRT page. -/
def grtRegs : List RegRow :=
  [⟨0x100, "CDBASE", [⟨"ADDR", 63, 0, .b, .rw, 0⟩]⟩,
   ⟨0x108, "WGBASE", [⟨"ADDR", 63, 0, .b, .rw, 0⟩]⟩,
   ⟨0x110, "DUMPBASE", [⟨"ADDR", 63, 0, .b, .rw, 0⟩]⟩,
   ⟨0x118, "SUPWG", [⟨"WG", 11, 0, .l, .rw, 0⟩]⟩,
   ⟨0x120, "CTXARG", [⟨"ARG", 63, 0, .l, .rw, 0⟩]⟩,
   ⟨0x128, "CTXCMD", [⟨"CTXID", 19, 0, .l, .wo, 0⟩, ⟨"OP", 27, 24, .l, .wo, 0⟩]⟩]
  ++ [⟨0x130, "CTXSTS", [⟨"BUSY", 0, 0, .l, .ro, 0⟩, ⟨"REFUSED", 1, 1, .l, .ro, 0⟩, ⟨"OVR", 2, 2, .l, .w1c, 0⟩]⟩,
   ⟨0x138, "WGCMD", [⟨"WG", 11, 0, .l, .wo, 0⟩, ⟨"OP", 15, 12, .l, .wo, 0⟩]⟩,
   ⟨0x140, "EVDROP", [⟨"COUNT", 31, 0, .l, .rc, 0⟩]⟩,
   ⟨0x148, "HELD", [⟨"COUNT", 20, 0, .l, .ro, 0⟩]⟩,
   ⟨0x150, "RFMR0", [⟨"LO", 11, 0, .d, .rw, 0⟩, ⟨"HI", 27, 16, .d, .rw, 0⟩, ⟨"EN", 31, 31, .d, .rw, 0⟩, ⟨"DEL16", 32, 32, .d, .rw, 0⟩]⟩,
   ⟨0x158, "RFMR1", [⟨"LO", 11, 0, .d, .rw, 0⟩, ⟨"HI", 27, 16, .d, .rw, 0⟩, ⟨"EN", 31, 31, .d, .rw, 0⟩, ⟨"DEL16", 32, 32, .d, .rw, 0⟩]⟩]
  ++ [⟨0x160, "RFMR2", [⟨"LO", 11, 0, .d, .rw, 0⟩, ⟨"HI", 27, 16, .d, .rw, 0⟩, ⟨"EN", 31, 31, .d, .rw, 0⟩, ⟨"DEL16", 32, 32, .d, .rw, 0⟩]⟩,
   ⟨0x168, "RFMR3", [⟨"LO", 11, 0, .d, .rw, 0⟩, ⟨"HI", 27, 16, .d, .rw, 0⟩, ⟨"EN", 31, 31, .d, .rw, 0⟩, ⟨"DEL16", 32, 32, .d, .rw, 0⟩]⟩]

/-- The block registers of the HRTA page. -/
def hrtARegs : List RegRow :=
  [⟨0x100, "MODE", [⟨"TIMING", 0, 0, .q, .rw, 1⟩, ⟨"SAMPLE", 1, 1, .q, .rw, 0⟩]⟩,
   ⟨0x108, "CACHECTL", [⟨"WBINV", 0, 0, .q, .w1s, 0⟩]⟩,
   ⟨0x110, "DAMPSHARE", [⟨"SHARE", 15, 0, .l, .rw, 0x2000⟩]⟩,
   ⟨0x118, "HSTS", [⟨"LOCKED", 7, 0, .l, .ro, 0⟩, ⟨"QUAR", 15, 8, .l, .ro, 0⟩]⟩]

/-- The block registers of the HRTB page. -/
def hrtBRegs : List RegRow :=
  [⟨0x100, "SCHEDCTL", [⟨"TSLICE", 15, 0, .q, .rw, 0⟩, ⟨"PPRE", 16, 16, .q, .rw, 0⟩]⟩,
   ⟨0x108, "SPILLS", [⟨"COUNT", 31, 0, .l, .rc, 0⟩]⟩,
   ⟨0x110, "REFILLS", [⟨"COUNT", 31, 0, .l, .rc, 0⟩]⟩,
   ⟨0x118, "NOSPILL", [⟨"COUNT", 31, 0, .l, .rc, 0⟩]⟩,
   ⟨0x180, "RFCTL", [⟨"DEL16", 0, 0, .l, .rw, 0⟩]⟩,
   ⟨0x188, "RFPAIRS", [⟨"COUNT", 47, 0, .l, .ro, 0⟩]⟩]
  ++ [⟨0x190, "RFTRANS", [⟨"COUNT", 31, 0, .l, .rc, 0⟩]⟩,
   ⟨0x198, "RFDIV", [⟨"COUNT", 31, 0, .l, .rc, 0⟩]⟩,
   ⟨0x1a0, "RFQUAR", [⟨"COUNT", 31, 0, .l, .rc, 0⟩]⟩,
   ⟨0x1a8, "RFBRK", [⟨"COUNT", 31, 0, .l, .rc, 0⟩]⟩]

/-- The block registers of the STV page. -/
def stvRegs : List RegRow :=
  [⟨0x100, "STATUS", [⟨"LOCKED", 0, 0, .l, .ro, 0⟩, ⟨"QUAR", 1, 1, .l, .ro, 0⟩, ⟨"DUMPED", 2, 2, .l, .ro, 0⟩]⟩,
   ⟨0x108, "LOCKCAUSE", [⟨"KIND", 3, 0, .l, .ro, 0⟩, ⟨"STEP", 7, 4, .l, .ro, 0⟩, ⟨"BANK", 12, 8, .l, .ro, 0⟩, ⟨"CTXID", 35, 16, .l, .ro, 0⟩, ⟨"CODE", 43, 36, .l, .ro, 0⟩]⟩,
   ⟨0x110, "LOCKADDR", [⟨"ADDR", 63, 0, .l, .ro, 0⟩]⟩,
   ⟨0x118, "FLUES", [⟨"BANK0", 4, 0, .l, .ro, 0⟩, ⟨"BANK1", 12, 8, .l, .ro, 0⟩, ⟨"BANK2", 20, 16, .l, .ro, 0⟩, ⟨"BANK3", 28, 24, .l, .ro, 0⟩, ⟨"BOUND0", 5, 5, .l, .ro, 0⟩, ⟨"BOUND1", 13, 13, .l, .ro, 0⟩, ⟨"BOUND2", 21, 21, .l, .ro, 0⟩, ⟨"BOUND3", 29, 29, .l, .ro, 0⟩, ⟨"WDRAWN0", 6, 6, .l, .ro, 0⟩, ⟨"WDRAWN1", 14, 14, .l, .ro, 0⟩, ⟨"WDRAWN2", 22, 22, .l, .ro, 0⟩, ⟨"WDRAWN3", 30, 30, .l, .ro, 0⟩]⟩,
   ⟨0x120, "RESIDENT", [⟨"BANKS", 31, 0, .l, .ro, 0⟩]⟩,
   ⟨0x128, "READY", [⟨"BANKS", 31, 0, .l, .ro, 0⟩]⟩]
  ++ [⟨0x130, "OPSIZE", [⟨"SIZE", 2, 0, .q, .rw, 3⟩]⟩,
   ⟨0x138, "PINS", [⟨"COUNT", 9, 0, .l, .ro, 0⟩]⟩,
   ⟨0x180, "RFRETRY", [⟨"COUNT", 2, 0, .l, .rw, 2⟩]⟩,
   ⟨0x188, "RFPAIRS", [⟨"COUNT", 47, 0, .l, .ro, 0⟩]⟩,
   ⟨0x190, "RFTRANS", [⟨"COUNT", 31, 0, .l, .rc, 0⟩]⟩,
   ⟨0x198, "RFLAST", [⟨"ITEM", 3, 0, .l, .ro, 0⟩, ⟨"PARITY", 4, 4, .l, .ro, 0⟩, ⟨"TRIES", 7, 5, .l, .ro, 0⟩, ⟨"BANK", 12, 8, .l, .ro, 0⟩, ⟨"CTXID", 35, 16, .l, .ro, 0⟩]⟩]
  ++ [⟨0x1a0, "RFLADDR", [⟨"ADDR", 63, 0, .l, .ro, 0⟩]⟩,
   ⟨0x1a8, "RFCMD", [⟨"QUAR", 0, 0, .l, .w1s, 0⟩]⟩,
   ⟨0x1b0, "EMBPAR", [⟨"COUNT", 15, 0, .l, .rc, 0⟩, ⟨"UPC", 29, 16, .l, .ro, 0⟩]⟩,
   ⟨0x1b8, "EMBREK", [⟨"COUNT", 15, 0, .l, .ro, 0⟩]⟩]

/-- The register rows of a page kind. -/
def regRows : PageKind → List RegRow
  | .dev => devRegs
  | .man => manRegs
  | .clk => clkRegs
  | .pwr => pwrRegs
  | .rst => rstRegs
  | .ash => ashRegs
  | .dbg => dbgRegs
  | .sec => secRegs
  | .tpc => tpcRegs
  | .emb => embRegs
  | .key => keyRegs
  | .nmc => nmcRegs
  | .fxp => fxpRegs
  | .chm0 => chm0Regs
  | .chm1 => chm1Regs
  | .bel => belRegs
  | .grt => grtRegs
  | .hrtA => hrtARegs
  | .hrtB => hrtBRegs
  | .stv => stvRegs

end Sys2Proof.Machine
end

