-- ==== Sys2Proof/Machine/Regs.lean ====
section
/-!
DEFINITION. Register pages: what each register holds at reset (R33, R39 and the page tables), reading and setting fields,
saturating counters, and the ash log's bare write (R559, R577).
-/

namespace Sys2Proof.Machine

/-- The kind of page a slot holds, none where the slot is unpopulated (R32, R33). -/
def pageKind (slot : Nat) : Option PageKind :=
  if 0x40 ≤ slot ∧ slot < 0x80 then some .stv
  else if 0x20 ≤ slot ∧ slot < 0x30 then some (if slot % 2 = 0 then .hrtA else .hrtB)
  else if 0x0C ≤ slot ∧ slot < 0x10 then some .fxp
  else [PageKind.dev, .man, .clk, .pwr, .rst, .ash, .dbg, .sec, .tpc, .emb, .key, .nmc, .fxp, .fxp, .fxp, .fxp,
        .chm0, .chm1, .bel, .grt][slot]?

/-- R33: the page type code. -/
def PageKind.code : PageKind → Nat
  | .dev => 0x01 | .man => 0x02 | .clk => 0x03 | .pwr => 0x04 | .rst => 0x05 | .ash => 0x06 | .dbg => 0x07
  | .sec => 0x08 | .tpc => 0x09 | .emb => 0x0A | .key => 0x0B | .nmc => 0x0C | .fxp => 0x0D | .chm0 => 0x0E
  | .chm1 => 0x0F | .bel => 0x10 | .grt => 0x11 | .hrtA => 0x20 | .hrtB => 0x21 | .stv => 0x40

/-- R33: whether the page has a quiesce control of its own. -/
def PageKind.quiesces : PageKind → Bool
  | .sec | .emb | .nmc | .fxp | .chm0 | .chm1 | .bel | .grt | .hrtA | .stv => true
  | .dev | .man | .clk | .pwr | .rst | .ash | .dbg | .tpc | .key | .hrtB => false

/-- R33: whether the page is Held at cold reset. -/
def PageKind.held : PageKind → Bool
  | .nmc | .fxp | .chm0 | .chm1 | .bel | .grt | .hrtA | .stv => true
  | .dev | .man | .clk | .pwr | .rst | .ash | .dbg | .sec | .tpc | .emb | .key | .hrtB => false

/-- R39: INST of a page. -/
def pageInst (slot : Nat) : Nat :=
  if 0x40 ≤ slot then slot - 0x40 else if 0x20 ≤ slot then (slot - 0x20) / 2
  else if 0x0C ≤ slot ∧ slot < 0x10 then slot - 0x0C else 0

/-- The reset value of a row, its fields together. -/
def RegRow.reset (r : RegRow) : Nat := r.fields.foldl (fun a f => a + f.reset % 2 ^ f.width * 2 ^ f.lo) 0

/-- The row of a block register. -/
def findRow (k : PageKind) (off : Nat) : Option RegRow := (regRows k).find? (fun r => r.off == off)

/-- R39: the reset value of a header register. -/
def headerReset (slot off : Nat) (k : PageKind) : Nat :=
  if off = Off.PAGE.ID then k.code + pageInst slot * 2 ^ 8 + 2 ^ 16 + slot * 2 ^ 24
  else if off = Off.PAGE.CTL then (if k.held then 2 else 1)
  else if off = Off.PAGE.STS then (if k.held then 1 else 0)
  else if off = Off.PAGE.ALERT then 4
  else 0

/-- What a register reads as while nothing is listed for it. Reserved registers read 0 (R34). -/
def regReset (k : Nat) : Word :=
  let slot := k / 4096
  let off := k % 4096
  match pageKind slot with
  | none => 0
  | some pk =>
    if off < 0x40 then BitVec.ofNat 64 (headerReset slot off pk)
    else match findRow pk off with
      | none => 0
      | some r => BitVec.ofNat 64 r.reset

/-- The bits of a register that are of a class (R46); PAGE_CTL.EN is a Q field. -/
def clsMask (c : FieldClass) (slot off : Nat) : Nat :=
  if off = Off.PAGE.CTL then (if c = .q then 1 else 0)
  else match (pageKind slot).bind (fun k => findRow k off) with
    | none => 0
    | some r => r.fields.foldl (fun m f => if f.cls = c then m + (2 ^ f.width - 1) * 2 ^ f.lo else m) 0

/-- The key of a register in the register map. -/
def regKey (slot off : Nat) : Nat := slot * 4096 + off

/-- The effective value of a register, as a number. -/
def State.reg (s : State) (slot off : Nat) : Nat := (SMap.get regReset s.regs (regKey slot off)).toNat

/-- R52: a register with the Q bits that were written while its block was Quiesced, as a read shows it. -/
def State.withQ (s : State) (slot off : Nat) : Nat :=
  match SMap.find? s.regsQ (regKey slot off) with
  | none => s.reg slot off
  | some v =>
    let m := clsMask .q slot off
    s.reg slot off - (s.reg slot off &&& m) + (v.toNat &&& m)

/-- A field of a register: `w` bits from bit `lo`. -/
def State.fld (s : State) (slot off lo w : Nat) : Nat := bitsOf (s.reg slot off) lo w

/-- One bit of a register. -/
def State.flag (s : State) (slot off i : Nat) : Bool := bitAt (s.reg slot off) i

/-- Set a whole register. -/
def State.setReg (s : State) (slot off v : Nat) : State :=
  { s with regs := SMap.set regReset s.regs (regKey slot off) (BitVec.ofNat 64 v) }

/-- Set a field of a register. -/
def State.setFld (s : State) (slot off lo w x : Nat) : State :=
  s.setReg slot off (putBits (s.reg slot off) lo w x)

/-- Set or clear one bit of a register. -/
def State.setFlag (s : State) (slot off i : Nat) (v : Bool) : State := s.setFld slot off i 1 (b2n v)

/-- Add to a counting field that saturates. -/
def State.incSat (s : State) (slot off lo w n : Nat) : State :=
  s.setFld slot off lo w (min (2 ^ w - 1) (s.fld slot off lo w + n))

/-- Add to a counting field that wraps. -/
def State.incWrap (s : State) (slot off lo w n : Nat) : State :=
  s.setFld slot off lo w (s.fld slot off lo w + n)

/-- The time-of-day counter (R539). -/
def State.tod (s : State) : Nat := s.reg Slot.clk Off.CLK.TOD

/-- R39, R52: whether the block of a page operates: EN set, not Quiesced, not held in reset. -/
def State.pageRuns (s : State) (slot : Nat) : Bool :=
  s.flag slot Off.PAGE.CTL 0 && !s.flag slot Off.PAGE.STS 0 && !s.flag slot Off.PAGE.STS 4

/-- R52: whether the block of a page accepts work: it operates, and no quiesce is asked of it. -/
def State.pageOpen (s : State) (slot : Nat) : Bool := s.pageRuns slot && !s.flag slot Off.PAGE.CTL 1

/-- The blocks whose tables, queues and buffers lie in near memory: GRT, CHM1, BEL and SEC. -/
def worksInNear (slot : Nat) : Bool := slot == Slot.grt || slot == Slot.chm1 || slot == Slot.bel || slot == Slot.sec

/-- R52, R414: near memory serves accesses: its controller is enabled, which INITDONE comes before, and accepts them. -/
def State.nearServes (s : State) : Bool := s.pageOpen Slot.nmc

/-- R52, R414: near memory that `n` bytes from `a` lie in does not serve accesses now. -/
def State.nearStops (s : State) (a n : Nat) : Bool := !s.nearServes && decide (a < 0x1000000000 ∧ 0 < n)

/-- R52: whether a block accepts work, and can reach what it works on: accesses to near memory are held while it does not serve them. -/
def State.blockOn (s : State) (slot : Nat) : Bool := s.pageOpen slot && (!worksInNear slot || s.nearServes)

/-- R559, R577: write one 32-byte entry into the ash log, without its page alert. -/
def State.ashWrite (s : State) (cls slot : Nat) (stove ctx : Option Nat) (addr detail : Nat) : State :=
  let hdr := cls + slot * 2 ^ 8
    + (match stove with | some n => n * 2 ^ 16 + 2 ^ 22 | none => 0)
    + (match ctx with | some c => 2 ^ 23 + c * 2 ^ 24 | none => 0)
    + bitsOf (s.reg Slot.man Off.MAN.TOKEN) 0 2 * 2 ^ 44
  let e : BitVec 256 := BitVec.ofNat 256
    (s.tod + hdr * 2 ^ 64 + addr % 2 ^ 64 * 2 ^ 128 + detail % 2 ^ 64 * 2 ^ 192)
  let a := s.ash
  let used := bitsOf (SMap.get (fun _ => (0 : BitVec 256)) a.entries a.next).toNat 64 8 != 0
  let wraps := a.frozen && used
  let a' : AshLog :=
    { entries := SMap.set (fun _ => 0) a.entries a.next e
      next := if a.next = 1023 then 512 else a.next + 1
      frozen := a.frozen || a.next == 511
      dropped := if wraps then min (2 ^ 32 - 1) (a.dropped + 1) else a.dropped }
  let s := { s with ash := a' }
  let s := s.setFlag Slot.ash Off.ASH.ASHERR 1 true
  if wraps then s.setFlag Slot.ash Off.ASH.ASHERR 0 true else s

end Sys2Proof.Machine
end

