-- ==== Sys2Proof/Machine/Memory.lean ====
section
/-!
DEFINITION. The physical address map (R21 to R31), memory bytes, line tags and poison (R413, R421 to R423), storage keys
(R388 to R392), the frame-state table (R395, R396), table walks (R380 to R384) and the store buffer (R438).
-/

namespace Sys2Proof.Machine

/-- What an unlisted byte of memory reads as: zero, as initialisation leaves near memory (R414, assumption log 4). -/
def memDefault (_ : Nat) : Byte := 0

/-- One byte of memory. -/
def State.byte (s : State) (a : Nat) : Byte := SMap.get memDefault s.mem a

/-- `n` bytes of memory. -/
def State.bytes (s : State) (a n : Nat) : List Byte := SMap.getN memDefault s.mem a n

/-- A little-endian number of `n` bytes in memory (R15). -/
def State.ld (s : State) (a n : Nat) : Nat := leNat (s.bytes a n)

/-- Write bytes, nothing else. -/
def State.poke (s : State) (a : Nat) (bs : List Byte) : State := { s with mem := SMap.setN memDefault s.mem a bs }

/-- Write a little-endian number of `n` bytes, nothing else. -/
def State.pokeN (s : State) (a n v : Nat) : State := s.poke a (leBytes n v)

/-! ## The address map -/

/-- R22, R25: the row of the map an address lies in, and for a far window its port. -/
inductive Range where
  | near
  | far (port : Nat)
  | hob
  | reg
  | rom
  | door
  | none
  deriving DecidableEq, Repr

/-- R22: the range of a physical address. -/
def rangeOf (a : Nat) : Range :=
  if a < 0x1000000000 then .near
  else if 0x10000000000 ≤ a ∧ a < 0x50000000000 then .far (a / 2 ^ 40 - 1)
  else if 0xF00000000000 ≤ a ∧ a < 0xF00002000000 then .hob
  else if 0xF10000000000 ≤ a ∧ a < 0xF10000100000 then .reg
  else if 0xF20000000000 ≤ a ∧ a < 0xF20000040000 then .rom
  else if 0xF30000000000 ≤ a ∧ a < 0xF30000400000 then .door
  else .none

/-- R426: the mode of a flexible port. MODE 0b11 acts as disabled on ports other than 0. -/
def State.portMode (s : State) (p : Nat) : Nat :=
  let m := s.fld (Slot.fxp p) Off.FXP.MODE 0 2
  if m = 3 ∧ p ≠ 0 then 0 else m

/-- R433: the port's link is up. -/
def State.portUp (s : State) (p : Nat) : Bool := s.flag (Slot.fxp p) Off.FXP.LINK 0

/-- R25: an address of CXL far memory, populated or not. -/
def State.isCxl (s : State) (a : Nat) : Bool :=
  match rangeOf a with
  | .far p => s.portMode p == 1
  | .near | .hob | .reg | .rom | .door | .none => false

/-- OPSIZE encodings: the bytes of a stove's operand store (reserved values act as 0b011). -/
def opBytes (sz : Nat) : Nat :=
  if sz = 0 then 0 else if sz = 1 then 0x10000 else if sz = 2 then 0x20000 else if sz = 4 then 0x70000 else 0x40000

/-- The operand-store size of a stove (R26). -/
def State.opSize (s : State) (nn : Nat) : Nat := opBytes (s.fld (Slot.stv nn) Off.STV.OPSIZE 0 3)

/-- R24, R425: populated near memory: below the fit's capacity, and outside every failed group. -/
def State.nearPop (s : State) (a : Nat) : Bool :=
  (a < 0x800000000 || (a < 0x1000000000 && s.flag Slot.nmc Off.NMC.CFG 0))
    && !s.flag Slot.nmc Off.NMC.NMSTS (8 + a / 4096 % 8)

/-- R22 to R26: an address is populated for a kind of access. -/
def State.populated (s : State) (k : Acc) (a : Nat) : Bool :=
  match rangeOf a with
  | .near => s.nearPop a
  | .far p =>
    if s.portMode p = 1 then s.portUp p && decide (a % 2 ^ 40 < s.reg (Slot.fxp p) Off.FXP.CAP)
    else s.portMode p != 0 && s.portUp p && k != .fetch
  | .hob =>
    let nn := (a - 0xF00000000000) / 0x80000
    k != .fetch && decide (a % 0x80000 < s.opSize nn) && !s.flag (Slot.stv nn) Off.PAGE.STS 4
  | .reg => k != .fetch && (pageKind ((a - 0xF10000000000) / 4096)).isSome
  | .rom => k != .store
  | .door => k != .fetch
  | .none => false

/-- R22: ordinary memory: near memory and CXL far memory. -/
def State.ordinary (s : State) (a : Nat) : Bool := rangeOf a == .near || s.isCxl a

/-! ## Lines: poison and keys -/

/-- The line of an address is poisoned. -/
def State.poisoned (s : State) (a : Nat) : Bool := s.lines.poison.contains (lineOf a)

/-- Some line of `n` bytes from `a` is poisoned. -/
def State.anyPoison (s : State) (a n : Nat) : Bool :=
  (List.range (lineOf (a + n - 1) + 1 - lineOf a)).any (fun i => s.lines.poison.contains (lineOf a + i))

/-- R391: the key byte of the frame cannot be recovered. A far frame has one only while FKTEN is 1 (R390). -/
def State.keyLost (s : State) (a : Nat) : Bool :=
  s.lines.keyLost.contains (frameOf a) && (rangeOf a == .near || s.flag Slot.key Off.KEY.KEYCTL 1)

/-- R413: EPOCH of a line that the controller writes. -/
def State.setEpoch (s : State) (line : Nat) : State :=
  { s with lines := { s.lines with
      epoch := SMap.set (fun _ => 0) s.lines.epoch line (BitVec.ofNat 2 (s.fld Slot.nmc Off.NMC.SCRUBSTS 0 32)) } }

/-- R413: the controller writes near lines. -/
def State.setEpochs (s : State) (ls : List Nat) : State :=
  ls.foldl (fun s l => if rangeOf (l * 64) = .near then s.setEpoch l else s) s

/-- R390: where the far key table holds the byte of a far address. -/
def State.farKeyAddr (s : State) (a : Nat) : Nat :=
  s.reg Slot.key Off.KEY.FKTBASE + (a / 2 ^ 40 - 1) * 0x10000000 + a % 2 ^ 40 / 4096

/-- R388 to R390: the key byte of a frame of near or CXL far memory. -/
def State.keyByte (s : State) (a : Nat) : Nat :=
  if rangeOf a = .near then (SMap.get (fun _ => (0 : Byte)) s.lines.keys (frameOf a)).toNat
  else if s.flag Slot.key Off.KEY.KEYCTL 1 then (s.byte (s.farKeyAddr a)).toNat else 0

/-- R572: while FKTEN is 1, a line that holds populated bytes of the far key table. -/
def State.fktLine (s : State) (a : Nat) : Bool :=
  let base := s.reg Slot.key Off.KEY.FKTBASE
  let off := a / 64 * 64 - base
  let p := off / 0x10000000
  s.flag Slot.key Off.KEY.KEYCTL 1 && decide (base ≤ a) && decide (p < 4) && s.portMode p == 1 && s.portUp p
    && decide (off % 0x10000000 < ceilDiv (s.reg (Slot.fxp p) Off.FXP.CAP) 4096)

/-- R398: write the key byte of a frame: the near tags, or the far table while FKTEN is 1. -/
def State.setKeyByte (s : State) (a kb : Nat) : State :=
  let s := { s with lines := { s.lines with keyLost := s.lines.keyLost.filter (· != frameOf a) } }
  if rangeOf a = .near then
    ({ s with lines := { s.lines with
        keys := SMap.set (fun _ => 0) s.lines.keys (frameOf a) (BitVec.ofNat 8 kb) } } : State).setEpochs
      ((List.range 64).map (fun i => frameOf a * 64 + i))
  else if s.flag Slot.key Off.KEY.KEYCTL 1 then s.poke (s.farKeyAddr a) [BitVec.ofNat 8 kb] else s

/-- R392: whether an access key may use a frame. -/
def keyAllows (kb key : Nat) (store : Bool) : Bool :=
  key == 0 || key == kb % 16 || (!store && !bitAt kb 4)

/-- R395: the byte of the frame-state table and the bit of REF for a frame. -/
def State.fstAt (s : State) (a : Nat) : Nat × Nat :=
  let base := s.reg Slot.key Off.KEY.FSTBASE
  let f := if rangeOf a = .near then frameOf a else a % 2 ^ 40 / 4096
  let part := if rangeOf a = .near then 0 else 0x400000 + (a / 2 ^ 40 - 1) * 0x4000000
  (base + part + f / 4, 2 * (f % 4))

/-- The REF and CHG bits of a frame: 0 while FSTEN is 0. -/
def State.refChg (s : State) (a : Nat) : Nat :=
  if s.flag Slot.key Off.KEY.KEYCTL 0 then
    let (b, i) := s.fstAt a
    bitsOf (s.byte b).toNat i 2
  else 0

/-- Write the REF and CHG bits of a frame; a frame-state table laid over the far key table alters no key (R12, R572). -/
def State.setRefChg (s : State) (a v : Nat) : State :=
  if s.flag Slot.key Off.KEY.KEYCTL 0 then
    let (b, i) := s.fstAt a
    if s.fktLine b then s else s.poke b [BitVec.ofNat 8 (putBits (s.byte b).toNat i 2 v)]
  else s

/-- R396: an access marks its frame: REF always, CHG for a store. -/
def State.markFrame (s : State) (a : Nat) (store : Bool) : State :=
  let old := s.refChg a
  let new := if store then 3 else (if old % 2 = 1 then old else old + 1)
  if s.ordinary a && old != new then s.setRefChg a new else s

/-- R396: accesses to `n` bytes from `a` mark every frame they touch. -/
def State.markRange (s : State) (a n : Nat) (store : Bool) : State :=
  if n = 0 then s
  else (List.range (frameOf (a + n - 1) + 1 - frameOf a)).foldl (fun s i => s.markFrame ((frameOf a + i) * 4096) store) s

/-- Clear the poison of a line (R423). -/
def State.unpoison (s : State) (line : Nat) : State :=
  { s with lines := { s.lines with
      poison := s.lines.poison.filter (· != line), cover := s.lines.cover.filter (·.line != line) } }

/-- The lines that `n` bytes from `a` cover whole. -/
def fullLines (a n : Nat) : List Nat :=
  (List.range (n / 64 + 1)).filterMap (fun i =>
    let l := ceilDiv a 64 + i
    if (l + 1) * 64 ≤ a + n then some l else none)

/-- The lines that `n` bytes from `a` touch. -/
def linesTouched (a n : Nat) : List Nat :=
  if n = 0 then [] else (List.range (lineOf (a + n - 1) + 1 - lineOf a)).map (lineOf a + ·)

/-- R248: a reservation holds a line that `n` bytes from `a` touch. -/
def State.lineHeld (s : State) (a n : Nat) : Bool :=
  (linesTouched a n).any (fun l => s.resv.any (·.held.contains l))

/-- R351: the units of a reservation set that `n` bytes from `a` touch: lines of ordinary memory, or 8-byte blocks of a hob operand
store, which are numbered above all lines. -/
def unitsTouched (a n : Nat) : List Nat :=
  if rangeOf a = .hob then (if n = 0 then [] else (List.range ((a + n - 1) / 8 + 1 - a / 8)).map (2 ^ 60 + a / 8 + ·))
  else linesTouched a n

/-- R248: a unit is held by the reservation set of another context. -/
def State.heldByOther (s : State) (ctx : BitVec 20) (unit : Nat) : Bool :=
  s.resv.any (fun r => r.ctx != ctx && r.held.contains unit)

/-- R248: `t` holds other bytes than `s` in a line that a reservation holds. -/
def State.writesHeld (s t : State) : Bool :=
  s.resv.any (fun r => r.held.any (fun l => s.bytes (64 * l) 64 != t.bytes (64 * l) 64))

/-- R248: a transfer that would write a line that a reservation holds waits until it is released; until then its command leaves the
state as it is. -/
def State.unlessHeld (s t : State) : State := if s.writesHeld t then s else t

/-- R437: a write by another party takes its lines out of every cache. -/
def State.uncache (s : State) (ls : List Nat) : State :=
  { s with caches := {
      hob := s.caches.hob.filter (fun x => !ls.contains x.line)
      hearth := s.caches.hearth.filter (fun x => !ls.contains x.2)
      fetch := s.caches.fetch.filter (fun x => !ls.contains x.2) } }

/-- R423, R439: another party obtains lines shared: their cover records are discarded, no hob owns them any longer, and those that were
granted without data are filled. -/
def State.shareLines (s : State) (ls : List Nat) : State :=
  { s with
    lines := { s.lines with cover := s.lines.cover.filter (fun c => !ls.contains c.line) }
    dirty := s.dirty.map (fun (m : ModLine) => if ls.contains m.line then { m with mask := BitVec.allOnes 64 } else m)
    caches := { s.caches with
      hob := s.caches.hob.map (fun (x : HobLine) => if ls.contains x.line then { x with owned := false, bare := false } else x) } }

/-- A read of `n` bytes by a party other than a stove: it marks their frames (R396) and obtains their lines shared (R423). -/
def State.devRead (s : State) (a n : Nat) : State := (s.markRange a n false).shareLines (linesTouched a n)

/-- R252: the rings whose table entries `n` bytes from `a` touch. -/
def State.ringsTouched (s : State) (a n : Nat) : List (BitVec 12) :=
  let base := s.reg Slot.chm1 Off.CHM1.JRTBASE
  if a + n ≤ base ∨ base + 0x80000 ≤ a ∨ n = 0 then []
  else (List.range (min 4095 ((a + n - 1 - base) / 128) + 1 - (a - base) / 128)).map (fun i => BitVec.ofNat 12 ((a - base) / 128 + i))

/-- R256, R257: a ring is taken out of use for a new set-up: Chimney forgets how far its mirroring has come, and that it has stopped. -/
def State.retireRing (s : State) (r : BitVec 12) : State :=
  { s with
    halted := s.halted.filter (· != r)
    unused := r :: s.unused.filter (· != r)
    acks := s.acks.filter (fun x => x.1 / 2 != r.toNat)
    sessions := s.sessions.map (fun (x : Session) => { x with marks := x.marks.filter (·.ring != r) }) }

/-- Chimney learns that ring table entries have been written (R475); one whose EN is 0 is out of use (R257). -/
def State.noteRings (s : State) (a n : Nat) : State :=
  (s.ringsTouched a n).foldl (fun s r =>
    let s : State := { s with watch := r :: s.watch.filter (· != r) }
    if bitAt (s.byte (s.reg Slot.chm1 Off.CHM1.JRTBASE + r.toNat * 128 + 8)).toNat 0 then s else s.retireRing r) s

/-- A write by a party other than a stove (R437): bytes, and the poison of every line written whole (R423), with the marks of
R396. The hobs give up every cached copy of the lines it touches. A line of the far key table in use is never its (R572). -/
def State.devWrite (s : State) (a : Nat) (bs : List Byte) : State :=
  if (linesTouched a bs.length).any (fun l => s.fktLine (l * 64)) then s else
  let s := ((s.markRange a bs.length true).poke a bs).uncache (linesTouched a bs.length)
  let s := { s with
    dirty := s.dirty.filter (fun m => !(linesTouched a bs.length).contains m.line)
    lines := { s.lines with cover := s.lines.cover.filter (fun c => !(linesTouched a bs.length).contains c.line) } }
  (((fullLines a bs.length).foldl State.unpoison s).setEpochs (linesTouched a bs.length)).noteRings a bs.length

/-- A number of `n` bytes that the Grate or another party writes into a device table. -/
def State.devWriteN (s : State) (a n v : Nat) : State := s.devWrite a (leBytes n v)

/-! ## The store buffer -/

/-- Bytes `a … a+n` of a mask over one line. -/
def coverMask (a n : Nat) : BitVec 64 := BitVec.ofNat 64 ((2 ^ n - 1) * 2 ^ (a % 64))

/-- R423: a store into a poisoned line adds to the cover of its stove's hob; a full cover clears the poison. -/
def State.coverStore (s : State) (stove : BitVec 6) (a n : Nat) : State :=
  if !s.poisoned a then s else
    let l := lineOf a
    let m0 := ((s.lines.cover.find? (fun c => c.line == l && c.stove == stove)).map (·.mask)).getD 0
    let m := m0 ||| coverMask a n
    if m = BitVec.allOnes 64 then s.unpoison l
    else { s with lines := { s.lines with cover := { line := l, stove := stove, mask := m } :: s.lines.cover.filter (·.line != l) } }

/-- The bytes of a line as its memory holds them, beneath a modified copy. -/
def State.beneath (s : State) (line : Nat) : List Byte :=
  match s.dirty.find? (·.line == line) with
  | some m => m.old
  | none => s.bytes (line * 64) 64

/-- R439: the hob of a stove holds a line that was granted without data. -/
def State.bareLine (s : State) (stove : BitVec 6) (line : Nat) : Bool :=
  s.caches.hob.any (fun x => x.stove == stove && x.line == line && x.bare)

/-- R439: the valid bytes of a line once a store is merged into it: those that were valid and the stored ones, or all of them. -/
def State.validAfter (s : State) (b : BufStore) : BitVec 64 :=
  if s.bareLine b.stove (lineOf b.addr) then
    ((s.dirty.find? (·.line == lineOf b.addr)).map (·.mask)).getD 0 ||| coverMask b.addr b.bytes.length
  else BitVec.allOnes 64

/-- R439, R441: record the last store merged into a line; `old` is what lies beneath. -/
def State.noteModified (s : State) (b : BufStore) (old : List Byte) : State :=
  { s with dirty := { line := lineOf b.addr, mask := s.validAfter b, bel := false, stove := b.stove, ctx := b.ctx, addr := b.addr, old := old }
      :: s.dirty.filter (·.line != lineOf b.addr) }

/-- R438: write one buffered store into the hob. -/
def State.drainOne (s : State) (b : BufStore) : State :=
  (((s.poke b.addr b.bytes).coverStore b.stove b.addr b.bytes.length).noteModified b (s.beneath (lineOf b.addr))).noteRings
    b.addr b.bytes.length

/-- Bytes from an address, cut at every line. -/
def lineParts : Nat → Nat → List Byte → List (Nat × List Byte)
  | 0, _, _ => []
  | fuel + 1, a, bs =>
    if bs.isEmpty then []
    else
      let k := 64 - a % 64
      (a, bs.take k) :: lineParts fuel (a + k) (bs.drop k)

/-- R65, R98: a store of a context's stove to its frames or its context block is written into the hob. -/
def State.hobWrite (s : State) (ctx : BitVec 20) (stove : BitVec 6) (a : Nat) (bs : List Byte) : State :=
  (lineParts (bs.length / 64 + 2) a bs).foldl
    (fun s (a, bs) => s.drainOne { ctx := ctx, stove := stove, addr := a, bytes := bs, old := true }) s

/-- R436: every buffered store of a context becomes visible, in program order. -/
def State.drain (s : State) (ctx : BitVec 20) : State :=
  let mine := s.stores.filter (·.ctx == ctx)
  mine.foldl State.drainOne { s with stores := s.stores.filter (·.ctx != ctx) }

/-- R248: the buffered stores of a context whose lines another reservation set holds: none is written before the line is released. -/
def State.blockedStores (s : State) (ctx : BitVec 20) : List BufStore :=
  s.stores.filter (fun b => b.ctx == ctx && (linesTouched b.addr b.bytes.length).any (s.heldByOther ctx))

/-- The byte one buffered store gives an address, if it covers it. -/
def BufStore.byteAt (b : BufStore) (a : Nat) : Option Byte :=
  if b.addr ≤ a then b.bytes[a - b.addr]? else none

/-- A byte as a reader sees it: the latest store of the buffer list given, else memory (R295). -/
def State.viewByte (s : State) (bufs : List BufStore) (a : Nat) : Byte :=
  bufs.foldl (fun v b => (b.byteAt a).getD v) (s.byte a)

/-- Consecutive bytes as a reader sees them. -/
def State.viewBytes (s : State) (bufs : List BufStore) : Nat → Nat → List Byte
  | _, 0 => []
  | a, n + 1 => s.viewByte bufs a :: State.viewBytes s bufs (a + 1) n

/-- The buffered stores of one context. -/
def State.ownStores (s : State) (ctx : BitVec 20) : List BufStore := s.stores.filter (·.ctx == ctx)

/-- R295, R422: one buffered store of the context covers all the bytes. -/
def State.forwarded (s : State) (ctx : BitVec 20) (a n : Nat) : Bool :=
  (s.ownStores ctx).any (fun b => decide (b.addr ≤ a ∧ a + n ≤ b.addr + b.bytes.length))

/-- A buffered store and `n` bytes from `a` share a byte. -/
def BufStore.overlaps (b : BufStore) (a n : Nat) : Bool := decide (b.addr < a + n ∧ a < b.addr + b.bytes.length)

/-- R295: `n` bytes from `a` overlap buffered stores of a context without lying whole in one of them. -/
def State.partial' (s : State) (ctx : BitVec 20) (a n : Nat) : Bool :=
  !s.forwarded ctx a n && (s.ownStores ctx).any (·.overlaps a n)

/-- The stores of a list up to and with the last that overlaps `n` bytes from `a`. -/
def upToLast (a n : Nat) : List BufStore → List BufStore
  | [] => []
  | b :: t => if b.overlaps a n || t.any (·.overlaps a n) then b :: upToLast a n t else []

/-- The buffered stores without the first `n` of a context. -/
def dropOwn (ctx : BitVec 20) : Nat → List BufStore → List BufStore
  | 0, bs => bs
  | _ + 1, [] => []
  | n + 1, b :: t => if b.ctx == ctx then dropOwn ctx n t else b :: dropOwn ctx (n + 1) t

/-- Write the first buffered stores of a context into the hob, in order. -/
def State.drainThese (s : State) (ctx : BitVec 20) (bs : List BufStore) : State :=
  bs.foldl State.drainOne { s with stores := dropOwn ctx bs.length s.stores }

/-- R248: every buffered store of a context before its first blocked one becomes visible, in program order. -/
def State.drainFree (s : State) (ctx : BitVec 20) : State :=
  s.drainThese ctx ((s.ownStores ctx).takeWhile (fun b => !(s.blockedStores ctx).contains b))

/-- R295, R296: before a load or fetch that partly overlaps buffered stores of its context, every one of them is written into the hob,
with those before them. -/
def State.drainOver (s : State) (ctx : BitVec 20) (a n : Nat) : State :=
  if s.partial' ctx a n then s.drainThese ctx (upToLast a n (s.ownStores ctx)) else s

/-- R108, R296: before a fetch that overlaps buffered stores of its context, every one of them is written into the hob. -/
def State.drainFetch (s : State) (ctx : BitVec 20) (a n : Nat) : State :=
  if (s.ownStores ctx).any (·.overlaps a n) then s.drainThese ctx (upToLast a n (s.ownStores ctx)) else s

/-- R295: in open timing, what an instruction left buffered is written at the end of the next. -/
def State.endInstr (s : State) (ctx : BitVec 20) : State :=
  let due := (s.ownStores ctx).takeWhile (fun b => b.old && !(s.blockedStores ctx).contains b)
  let s := s.drainThese ctx due
  { s with stores := s.stores.map (fun (b : BufStore) => if b.ctx == ctx then { b with old := true } else b) }

/-! ## Vault ranges and key changes -/

/-- R403: a frame lies in an enabled vault range. -/
def State.inVault (s : State) (a : Nat) : Bool :=
  (List.range 16).any (fun i =>
    let v := s.reg Slot.key (Off.KEY.VAULT0 + 8 * i)
    let base := bitsOf v 0 36 * 4096
    bitAt v 63 && decide (base ≤ a) && decide (a < base + 2 ^ bitsOf v 36 6))

/-- R400: every buffered store on the lines of a frame is written first, whichever context issued it. -/
def State.drainFrame (s : State) (f : Nat) : State :=
  (s.stores.filter (fun b => decide (b.addr < f + 4096 ∧ f < b.addr + b.bytes.length))).foldl (fun s b => s.drain b.ctx) s

/-- R398: write the key byte of a frame, and clear REF and CHG where asked. -/
def State.setKey (s : State) (f kb : Nat) (cref cchg : Bool) : State :=
  let s := s.drainFrame f
  let old := s.refChg f
  let keep := (if cref then 2 else 3) &&& (if cchg then 1 else 3)
  let s := s.setKeyByte f kb
  if cref || cchg then s.setRefChg f (old &&& keep) else s

/-! ## Translation -/

/-- How a walk ends (R383): a physical address with the effective W, X and U, or an exception code with the ADDR and
DETAIL bit 63 of its walk-failure entry. -/
inductive Walk where
  | ok (pa : Nat) (w x u : Bool)
  | fail (code : Nat) (addr : Nat) (ttrBad : Bool)
  deriving DecidableEq, Repr

/-- R381 to R384: one level of a walk and the levels below it. `lvl` counts levels left above 0: 4 at the root. -/
def State.walkFrom (s : State) (la : Nat) : Nat → Nat → Bool → Bool → Bool → Walk
  | 0, _, _, _, _ => .fail 0x12 0 false
  | lvl + 1, table, w, x, u =>
    let ea := table + la / 2 ^ (12 + 9 * lvl) % 512 * 8
    if !(s.ordinary ea && s.populated .load ea) then .fail 0x12 ea false
    else if s.poisoned ea || s.keyLost ea then .fail 0x21 ea false
    else
      let e := leNat (s.viewBytes s.stores ea 8)
      if !bitAt e 0 then .fail 0x11 ea false
      else
        let isLeaf := lvl == 0 || bitAt e 5
        let badLeaf := bitAt e 5 && (lvl == 3 || lvl == 0)
        let badG := bitAt e 4 && !isLeaf
        let misaligned := isLeaf && bitsOf e 12 (9 * lvl) != 0
        if bitsOf e 48 16 != 0 || badLeaf || badG || misaligned then .fail 0x12 ea false
        else
          let w := w && bitAt e 1
          let x := x && bitAt e 2
          let u := u && bitAt e 3
          let addr := bitsOf e 12 36 * 4096
          if isLeaf then .ok (addr + la % 2 ^ (12 + 9 * lvl)) w x u
          else s.walkFrom la lvl addr w x u

/-- The lines of the table entries that a walk reads. -/
def State.walkLinesFrom (s : State) (la : Nat) : Nat → Nat → List Nat
  | 0, _ => []
  | lvl + 1, table =>
    let ea := table + la / 2 ^ (12 + 9 * lvl) % 512 * 8
    if !(s.ordinary ea && s.populated .load ea) then []
    else
      let e := leNat (s.viewBytes s.stores ea 8)
      lineOf ea :: (if !bitAt e 0 || lvl == 0 || bitAt e 5 then [] else s.walkLinesFrom la lvl (bitsOf e 12 36 * 4096))

/-- The lines that a walk of a 48-bit logical address under a translation root reads. -/
def State.walkLines (s : State) (ttr la : Nat) : List Nat :=
  if ttr % 4096 ≠ 0 ∨ ttr / 2 ^ 48 ≠ 0 then [] else s.walkLinesFrom la 4 ttr

/-- R380 to R384: translate a 48-bit logical address under a translation root. -/
def State.walk (s : State) (ttr la : Nat) : Walk :=
  if ttr % 4096 ≠ 0 ∨ ttr / 2 ^ 48 ≠ 0 then .fail 0x12 ttr true
  else s.walkFrom la 4 ttr true true true

end Sys2Proof.Machine
end

