-- ==== Sys2Proof/Machine/Caches.lean ====
section
/-!
DEFINITION. Where the accesses of a context are served, and what open timing charges for them (R290 to R292): the lines in the hobs and
in the hearth caches, the fetch buffer, and the log of accesses that an instruction makes.
-/

namespace Sys2Proof.Machine

/-- R290: an operand of one piece that crosses a 32-byte block within its line. -/
def blockCharge (a n : Nat) : Nat := b2n (decide (a / 32 ≠ (a + n - 1) / 32))

/-- R290: a piece whose operand goes on in the next logical page. -/
def pageCharge (la len next : Nat) : Nat := if (la + len) % 4096 = 0 ∧ next = la + len then 4 else 0

/-- The hearth of a stove (R2). -/
def hearthOf (stove : BitVec 6) : Nat := stove.toNat / 8

/-- R8: the stove's hearth is in open timing. -/
def State.openTiming (s : State) (stove : BitVec 6) : Bool := s.flag (Slot.hrtA (hearthOf stove)) Off.HRTA.MODE 0

/-- The hob of a stove holds a line. -/
def Caches.mine (k : Caches) (stove : BitVec 6) (line : Nat) : Option HobLine :=
  k.hob.find? (fun x => x.stove == stove && x.line == line)

/-- R290: the hearth fabric can serve a line: it lies in a hearth cache or in another stove's hob. -/
def Caches.inFabric (k : Caches) (stove : BitVec 6) (line : Nat) : Bool :=
  k.hearth.any (·.2 == line) || k.hob.any (fun x => x.stove != stove && x.line == line)

/-- R290: the charge of an access by where its line is served: fabric, near memory or CXL memory. -/
def levelCharge (fabric : Bool) (a : Nat) : Nat := if fabric then 18 else if rangeOf a = .near then 240 else 1250

/-- R291: a line that near memory or CXL memory served is also in the hearth cache of the stove's hearth. -/
def Caches.toHearth (k : Caches) (stove : BitVec 6) (line : Nat) : Caches :=
  { k with hearth := (hearthOf stove, line) :: k.hearth.filter (· != (hearthOf stove, line)) }

/-- R291: a load of a line that the hob does not hold. -/
def Caches.bring (k : Caches) (stove : BitVec 6) (a : Nat) : Caches × Nat :=
  let l := lineOf a
  let fabric := k.inFabric stove l
  let alone := !k.hob.any (·.line == l)
  let others := k.hob.map (fun (x : HobLine) => if x.line == l then { x with owned := false, bare := false } else x)
  let k : Caches := { k with hob := { stove := stove, line := l, owned := alone } :: others }
  (if fabric then k else k.toHearth stove l, levelCharge fabric a)

/-- R439: a load fills a line that was granted without data. -/
def Caches.fill (k : Caches) (stove : BitVec 6) (a : Nat) : Caches × Nat :=
  let l := lineOf a
  let filled := k.hob.map (fun (x : HobLine) => if x.line == l then { x with bare := false } else x)
  let k' : Caches := { k with hob := filled }
  (k'.toHearth stove l, levelCharge (k.inFabric stove l) a)

/-- R291, R439: a load; `valid` is whether a line granted without data holds the bytes that it asks for. -/
def Caches.load (k : Caches) (stove : BitVec 6) (a : Nat) (valid : Bool) : Caches × Nat :=
  match k.mine stove (lineOf a) with
  | some x => if x.bare && !valid then k.fill stove a else (k, 0)
  | none => k.bring stove a

/-- R291: a store to a line: the stove's hob owns it, and no other holds it. -/
def Caches.store (k : Caches) (stove : BitVec 6) (a : Nat) : Caches × Nat :=
  let l := lineOf a
  let cost := match k.mine stove l with
    | some x => if x.owned then 0 else 18
    | none => levelCharge (k.inFabric stove l) a
  let placed := (k.mine stove l).isSome || k.inFabric stove l
  let bare := ((k.mine stove l).map (·.bare)).getD false
  let k : Caches := { k with
    hob := { stove := stove, line := l, owned := true, bare := bare } :: k.hob.filter (·.line != l)
    hearth := k.hearth.filter (fun x => x.2 != l || x.1 == hearthOf stove)
    fetch := k.fetch.filter (· != (stove, l)) }
  (if placed then k else k.toHearth stove l, cost)

/-- R291, R292: an instruction fetch: from the fetch buffer, from the hob, or by way of the hearth cache; in open timing the line then
stands in the fetch buffer. -/
def Caches.fetched (k : Caches) (stove : BitVec 6) (isOpen : Bool) (a : Nat) : Caches × Nat :=
  let l := lineOf a
  if k.fetch.contains (stove, l) then (k, 0)
  else
    let near := (k.mine stove l).isSome
    let fabric := k.inFabric stove l
    let k' := if near || fabric then k else k.toHearth stove l
    ({ k' with fetch := if isOpen then (stove, l) :: k'.fetch.filter (·.1 != stove) else k'.fetch },
      if near then 0 else levelCharge fabric a)

/-- R439: the stored bytes of a modified line include `n` bytes from `a`. -/
def State.validBytes (s : State) (a n : Nat) : Bool :=
  s.dirty.any (fun m => m.line == lineOf a && m.mask &&& coverMask a n == coverMask a n)

/-- R439: a line that no hob holds without data any longer is valid whole. -/
def State.fillMasks (s : State) (line : Nat) : State :=
  if s.caches.hob.any (fun x => x.line == line && x.bare) then s
  else { s with dirty := s.dirty.map (fun (m : ModLine) => if m.line == line then { m with mask := BitVec.allOnes 64 } else m) }

/-- R439: the fabric may grant ownership of a line without data: a far line, or one whose frame has another line in the stove's hob or
in a hearth cache. -/
def Caches.mayGrant (k : Caches) (stove : BitVec 6) (line : Nat) : Bool :=
  (k.mine stove line).isNone && (rangeOf (line * 64) != .near
    || k.hob.any (fun x => x.stove == stove && x.line / 64 == line / 64) || k.hearth.any (fun x => x.1 == hearthOf stove && x.2 / 64 == line / 64))

/-- R439: the lines of a list that the stove's hob owns now and did not hold, that could be granted without data, and into which nothing
has been written yet, were. -/
def State.grantBare (before s : State) (stove : BitVec 6) (lines : List Nat) : State :=
  { s with caches := { s.caches with hob := s.caches.hob.map (fun (x : HobLine) =>
      if x.stove == stove && x.owned && lines.contains x.line && before.caches.mayGrant stove x.line
          && !s.dirty.any (·.line == x.line) then { x with bare := true } else x) } }

/-- R290: what an access charges and where it leaves its line. -/
def State.serveOne (s : State) (stove : BitVec 6) (x : Access) : State × Nat :=
  if x.own then (s, x.align)
  else match rangeOf x.pa with
    | .reg | .hob | .door => (s, 40 + x.align)
    | .rom => (s, 30 + x.align)
    | .near | .far _ | .none =>
      if !s.ordinary x.pa then (s, 1250 + x.align)
      else
        let (k, n) := match x.kind with
          | .load => s.caches.load stove x.pa (s.validBytes x.pa x.len)
          | .store => s.caches.store stove x.pa
          | .fetch => s.caches.fetched stove (s.openTiming stove) x.pa
        (({ s with caches := k, lines := { s.lines with
            cover := s.lines.cover.filter (fun c => c.line != lineOf x.pa || c.stove == stove) } } : State).fillMasks (lineOf x.pa),
          n + x.align)

/-- R290: the accesses of an instruction, unit or entry in order: where their lines lie afterwards, and what open timing charges. -/
def State.serve (s : State) (stove : BitVec 6) : List Access → State × Nat
  | [] => (s, 0)
  | x :: t =>
    let (s, n) := s.serveOne stove x
    let (s, m) := s.serve stove t
    (s, n + m)

/-- R290: only the hearth of an open stove charges accesses. -/
def State.openCharge (s : State) (stove : BitVec 6) (acc : List Access) : Nat :=
  if s.openTiming stove then (s.serve stove acc).2 else 0

/-- R357: the accesses of pass B are charged as the hob serves them, but for those to device ranges; its fetch is not made. -/
def passBCharge (s : State) (acc : List Access) : Nat :=
  (acc.map (fun x => if x.kind = .fetch then 0
    else x.align + if x.own || s.ordinary x.pa then 0 else (s.serveOne 0 { x with align := 0 }).2)).sum

/-- A line has left a cache of a stove or of its hearth (R291); with the line the hob gives up its record of stores to a poisoned line
(R423). -/
def State.evict (s : State) (stove : BitVec 6) : Evicted → State
  | .hob l => { s with
      caches := { s.caches with hob := s.caches.hob.filter (fun x => !(x.stove == stove && x.line == l)) }
      lines := { s.lines with cover := s.lines.cover.filter (fun c => !(c.stove == stove && c.line == l)) } }
  | .hearth l => { s with caches := { s.caches with hearth := s.caches.hearth.filter (· != (hearthOf stove, l)) } }

/-- R52, R414: near memory does not serve accesses now, and the stove has one of the lines in no cache that it reaches. -/
def State.nearStalls (s : State) (stove : BitVec 6) (lines : List Nat) : Bool :=
  !s.nearServes && lines.any (fun l => rangeOf (l * 64) == .near && (s.caches.mine stove l).isNone && !s.caches.inFabric stove l)

/-- R292: the fetch buffer of a stove is emptied. -/
def State.emptyFetch (s : State) (stove : BitVec 6) : State :=
  { s with caches := { s.caches with fetch := s.caches.fetch.filter (·.1 != stove) } }

end Sys2Proof.Machine
end

