-- ==== Sys2Proof/Machine/Events.lean ====
section
/-!
DEFINITION. The context directory (R300), banks and scheduling orders, events and wake groups (R312 to R315, R265, R605),
page alerts (R39, R41) and the ash log with its alert.
-/

namespace Sys2Proof.Machine

/-! ## The directory -/

/-- R300: the directory entry of a context. -/
def State.dirAt (s : State) (ctx : BitVec 20) : Nat := s.reg Slot.grt Off.GRT.CDBASE + ctx.toNat * 32

/-- R64: the CXA entry of a context. -/
def State.cxa (s : State) (ctx : BitVec 20) : Nat := s.ld (s.dirAt ctx) 8

/-- R300: SCHED of a context. -/
def State.sched (s : State) (ctx : BitVec 20) : Nat := s.ld (s.dirAt ctx + 8) 8

/-- R300: ALARM of a context. -/
def State.alarm (s : State) (ctx : BitVec 20) : Nat := s.ld (s.dirAt ctx + 16) 8

/-- R300: STATE of a context. -/
def State.ctxState (s : State) (ctx : BitVec 20) : Nat := s.ld (s.dirAt ctx + 24) 8

/-- R64: the context block address. -/
def State.block (s : State) (ctx : BitVec 20) : Nat := s.cxa ctx / 4096 * 4096

/-- R300: the wake group of a context. -/
def State.wgOf (s : State) (ctx : BitVec 20) : Nat := bitsOf (s.sched ctx) 16 12

/-- R300: the priority of a context. -/
def State.prio (s : State) (ctx : BitVec 20) : Nat := s.sched ctx % 8

/-- R300: ST of a context. -/
def State.st (s : State) (ctx : BitVec 20) : Nat := s.ctxState ctx % 16

/-- R300: the ST encodings. -/
abbrev St.unused : Nat := 0
/-- ST: stopped. -/
abbrev St.stopped : Nat := 1
/-- ST: ready and not resident. -/
abbrev St.ready : Nat := 2
/-- ST: waiting and not resident. -/
abbrev St.waiting : Nat := 3
/-- ST: resident. -/
abbrev St.resident : Nat := 4
/-- ST: locked. -/
abbrev St.locked : Nat := 5
/-- ST: held. -/
abbrev St.held : Nat := 6

/-- Write STATE of a context, keeping the count of held contexts that GRT.HELD shows. -/
def State.setCtxState (s : State) (ctx : BitVec 20) (v : Nat) : State :=
  let was := s.st ctx == St.held
  let is := v % 16 == St.held
  let s := s.devWriteN (s.dirAt ctx + 24) 8 v
  let n := s.reg Slot.grt Off.GRT.HELD
  if was && !is then s.setReg Slot.grt Off.GRT.HELD (n - 1)
  else if is && !was then s.setReg Slot.grt Off.GRT.HELD (n + 1)
  else s

/-- STATE with ST and HREASON replaced, the bank fields and the wait fields cleared, EVPEND kept. -/
def stateWord (st evpend hreason : Nat) : Nat := st + evpend % 16 * 2 ^ 15 + hreason * 2 ^ 20

/-! ## Banks and orders -/

/-- The bank that holds a context. -/
def State.bankOf (s : State) (ctx : BitVec 20) : Option Bank := s.banks.find? (·.ctx == ctx)

/-- The bank bound to a flue. -/
def State.boundTo (s : State) (stove : BitVec 6) (flue : BitVec 2) : Option Bank :=
  s.banks.find? (fun b => b.stove == stove && b.flue == some flue)

/-- Put a bank back. -/
def State.putBank (s : State) (b : Bank) : State :=
  { s with banks := s.banks.map (fun x => if x.ctx == b.ctx then b else x) }

/-- Release a bank. -/
def State.dropBank (s : State) (ctx : BitVec 20) : State := { s with banks := s.banks.filter (·.ctx != ctx) }

/-- A context leaves every scheduling order. -/
def Orders.remove (o : Orders) (ctx : BitVec 20) : Orders :=
  { ready := o.ready.filter (· != ctx), waiting := o.waiting.filter (· != ctx), bound := o.bound.filter (· != ctx) }

/-- A context becomes ready, at the tail (R308). -/
def State.toReady (s : State) (ctx : BitVec 20) : State :=
  let o := s.order.remove ctx
  { s with order := { o with ready := o.ready ++ [ctx] } }

/-- A context starts to wait (R314). -/
def State.toWaiting (s : State) (ctx : BitVec 20) : State :=
  let o := s.order.remove ctx
  { s with order := { o with waiting := o.waiting ++ [ctx] } }

/-- A context is bound to a flue. -/
def State.toBound (s : State) (ctx : BitVec 20) : State :=
  let o := s.order.remove ctx
  { s with order := { o with bound := o.bound ++ [ctx] } }

/-- A context leaves the orders. -/
def State.toNone (s : State) (ctx : BitVec 20) : State := { s with order := s.order.remove ctx }

/-- R54: the stove is Quiesced, by its own request or its hearth's. -/
def State.stoveQuiet (s : State) (stove : BitVec 6) : Bool :=
  s.flag (Slot.stv stove.toNat) Off.PAGE.STS 0 || s.flag (Slot.hrtA (hearthOf stove)) Off.PAGE.STS 0

/-- R343, R370: the stove issues: enabled with its hearth, not Quiesced, locked, quarantined or
stopped for a re-kindle (R513). -/
def State.stoveRuns (s : State) (stove : BitVec 6) : Bool :=
  s.flag (Slot.stv stove.toNat) Off.PAGE.CTL 0 && s.flag (Slot.hrtA (hearthOf stove)) Off.PAGE.CTL 0
    && !s.stoveQuiet stove && s.fld (Slot.stv stove.toNat) Off.STV.STATUS 0 2 == 0
    && !s.rekindles.any (·.stove == stove)

/-- A resident waiting context becomes ready; a bound one (open timing) keeps its flue (R289). -/
def State.wakeBank (s : State) (b : Bank) : State :=
  let s := s.putBank { b with wait := none }
  if b.flue.isSome then s.toBound b.ctx else s.toReady b.ctx

/-- R605: a waiting context that is not resident becomes ready. -/
def State.wakeOut (s : State) (ctx : BitVec 20) : State :=
  (s.setCtxState ctx (stateWord St.ready (bitsOf (s.ctxState ctx) 15 4) 0)).toReady ctx

/-- Whether a resident context waits for a class of event. -/
def Bank.waitsFor (b : Bank) (cls : Nat) : Bool :=
  match b.wait with
  | some (.event m _) => bitAt m.toNat cls
  | some (.ext _) | some (.leave _) | some .reserved | some (.dura _) | none => false

/-- R52: the router is Quiesced, or near memory, where the directory and the wake groups lie, does not serve it: events that reach it are
held. -/
def State.routerQuiet (s : State) : Bool := s.flag Slot.grt Off.PAGE.STS 0 || !s.nearServes

/-- Hold work for a Quiesced block (R52). -/
def State.park (s : State) (w : Work) : State := { s with parked := s.parked ++ [w] }

/-- R315: an event of class `cls` (QA 0, SG 1, BC 2, AT 3) that the router directs to a context. -/
def State.routeCtx (s : State) (cls : Nat) (ctx : BitVec 20) : State :=
  let st := s.st ctx
  if st = St.unused then s
  else if st = St.resident then
    match s.bankOf ctx with
    | none => s
    | some b =>
      let b' := { b with evpend := b.evpend ||| BitVec.ofNat 4 (2 ^ cls) }
      if b.waitsFor cls then s.wakeBank b' else s.putBank b'
  else
    let w := s.ctxState ctx
    let w' := putBits w 15 4 (bitsOf w 15 4 ||| 2 ^ cls)
    let s := s.setCtxState ctx w'
    if st = St.waiting ∧ bitAt w (24 + cls) then s.wakeOut ctx else s

/-- R315, R52: an event of class `cls` directed to a context. -/
def State.deliverCtx (s : State) (cls : Nat) (ctx : BitVec 20) : State :=
  if s.routerQuiet then s.park (.event cls ctx) else s.routeCtx cls ctx

/-- R314: whether a member of a group waits for a class and does not have it pending. -/
def State.wantsEvent (s : State) (cls g : Nat) (ctx : BitVec 20) : Bool :=
  s.wgOf ctx == g &&
    match s.bankOf ctx with
    | some b => s.st ctx == St.resident && b.waitsFor cls && !bitAt b.evpend.toNat cls
    | none =>
      let w := s.ctxState ctx
      w % 16 == St.waiting && bitAt w (24 + cls) && !bitAt w (15 + cls)

/-- R313: the entry of a wake group. -/
def State.wgAt (s : State) (g : Nat) : Nat := s.reg Slot.grt Off.GRT.WGBASE + g * 32

/-- R313: where the entry holds the count of a class: QA 0x08, SG 0x10, AT 0x18. -/
def wgCountOff (cls : Nat) : Nat := if cls = 0 then 8 else if cls = 1 then 16 else 24

/-- R314: the member that an event of the group wakes, if any. -/
def State.wakee (s : State) (cls g : Nat) : Option (BitVec 20) := s.order.waiting.find? (s.wantsEvent cls g)

/-- R314: an event of class QA, SG or AT that the router delivers to a wake group. -/
def State.routeGroup (s : State) (cls g : Nat) : State :=
  if !bitAt (s.ld (s.wgAt g) 8) 0 then s.incSat Slot.grt Off.GRT.EVDROP 0 32 1
  else match s.wakee cls g with
    | some c => s.routeCtx cls c
    | none =>
      let a := s.wgAt g + wgCountOff cls
      let n := s.ld a 8
      if n = 2 ^ 32 - 1 then s.ashWrite 0x14 Slot.grt none none 0 (g + cls * 2 ^ 12)
      else s.devWriteN a 8 (n + 1)

/-- R314, R52: an event of class QA, SG or AT for a wake group. -/
def State.deliverGroup (s : State) (cls g : Nat) : State :=
  if s.routerQuiet then s.park (.group cls g) else s.routeGroup cls g

/-- R265: a durability advance wakes every context that waits in DURW on the ring. -/
def State.routeDura (s : State) (ring : BitVec 12) : State :=
  s.order.waiting.foldl (fun s ctx =>
    match s.bankOf ctx with
    | some b => if b.wait = some (.dura ring) ∧ s.st ctx = St.resident then s.wakeBank b else s
    | none =>
      let w := s.ctxState ctx
      if w % 16 = St.waiting ∧ bitAt w 28 ∧ bitsOf w 29 12 = ring.toNat then s.wakeOut ctx else s) s

/-- R265, R52: a durability advance of a ring. -/
def State.deliverDura (s : State) (ring : BitVec 12) : State :=
  if s.routerQuiet then s.park (.dura ring) else s.routeDura ring

/-! ## Page alerts -/

/-- Where a page kind holds its block-specific error bits. -/
def PageKind.errOff : PageKind → Option Nat
  | .nmc => some Off.NMC.NMERR | .fxp => some Off.FXP.FXPERR | .chm0 => some Off.CHM0.CHM0ERR
  | .chm1 => some Off.CHM1.CHM1ERR | .bel => some Off.BEL.BELERR | .sec => some Off.SEC.SECERR
  | .tpc => some Off.TPC.TPCERR | .man => some Off.MAN.MANERR | .clk => some Off.CLK.CLKERR
  | .pwr => some Off.PWR.PWRERR | .ash => some Off.ASH.ASHERR
  | .dev | .rst | .dbg | .emb | .key | .grt | .hrtA | .hrtB | .stv => none

/-- R39: ERRS of a page. -/
def State.errs (s : State) (slot : Nat) : Bool :=
  s.reg slot Off.PAGE.ERR &&& (7 - s.reg slot Off.PAGE.ERRMASK % 8) != 0

/-- R39: BERR of a page. -/
def State.berr (s : State) (slot : Nat) : Bool :=
  match (pageKind slot).bind PageKind.errOff with
  | some o => s.reg slot o != 0
  | none => false

/-- R39: what drives the alerts of a page. -/
def State.alerting (s : State) (slot : Nat) : Bool := s.errs slot || s.berr slot

/-- R39: an alert that has come on: ATTN sends an attention event, MANTEL notifies the core that holds mastership. -/
def State.raiseAlert (s : State) (slot : Nat) : State :=
  let s := if s.flag slot Off.PAGE.ALERT 2 then { s with out := s.out ++ [.mantelNotify (BitVec.ofNat 8 slot)] } else s
  if s.flag slot Off.PAGE.ALERT 1 then s.deliverGroup 3 (s.fld slot Off.PAGE.ALERT 16 12) else s

/-- Run an update that can set error bits of a page, and raise its alert when ERRS or BERR changes from 0 to 1. -/
def State.withAlert (s : State) (slot : Nat) (f : State → State) : State :=
  let s' := f s
  if !s.alerting slot && s'.alerting slot then s'.raiseAlert slot else s'

/-- Set a block-specific error bit, with its alert. -/
def State.setErr (s : State) (slot off i : Nat) : State := s.withAlert slot (·.setFlag slot off i true)

/-- Write an ash log entry, with the alert of the ASH page (R577). -/
def State.ashLog (s : State) (cls slot : Nat) (stove ctx : Option Nat) (addr detail : Nat) : State :=
  s.withAlert Slot.ash (·.ashWrite cls slot stove ctx addr detail)

/-- An attention event to GRT.SUPWG. -/
def State.attention (s : State) : State := s.deliverGroup 3 (s.fld Slot.grt Off.GRT.SUPWG 0 12)

/-- R391: a walk or an access that stops at a frame whose key byte is lost is counted. -/
def State.countKeyLost (s : State) (a : Nat) : State :=
  if s.keyLost a then s.incSat Slot.key Off.KEY.KEYERR 0 32 1 else s

/-- R391: an access of Chimney, Bellows, the security engine or a port to `n` bytes stops where a key byte is lost. -/
def State.countLost (s : State) (a n : Nat) : State :=
  match (linesTouched a n).find? (fun l => s.keyLost (l * 64)) with
  | some l => s.countKeyLost (l * 64)
  | none => s

/-- R391: the key byte of some frame that `n` bytes from `a` touch is lost. -/
def State.anyKeyLost (s : State) (a n : Nat) : Bool := (linesTouched a n).any (fun l => s.keyLost (l * 64))

/-- R385: a walk that failed, at the table entry `ea`, is logged. -/
def State.walkFailed (s : State) (stove ctx : Option Nat) (ea la : Nat) (ttrBad : Bool) : State :=
  (s.countKeyLost ea).ashLog 0x19 Slot.key stove ctx ea (la + b2n ttrBad * 2 ^ 63)

/-- The damper takes unused leave back, up to the bucket's limit (R543). -/
def State.returnLeave (s : State) (bucket cost : Nat) : State :=
  match s.damper[bucket]? with
  | none => s
  | some k => { s with damper := s.damper.setIfInBounds bucket { k with level := min (k.level + cost) (max k.level k.cap) } }

end Sys2Proof.Machine
end

