-- ==== Sys2Proof/Machine/Frames.lean ====
section
/-!
DEFINITION. Frame accesses (R65), frame formats and seals (R81 to R88), pending-alarm records (R338 to R341), lockup (R343),
and the exception entry of R332 as one shared operation.
-/

namespace Sys2Proof.Machine

/-! ## Frame accesses -/

/-- A frame access that failed: the KIND of LOCKCAUSE, the exception code of the access, its address in the space that
CXA.CT gives, and the FADDR, PHYS and W an instruction would record for it (R394). -/
structure FrameErr where
  kind  : Nat
  code  : Nat
  addr  : Nat
  faddr : Nat
  phys  : Bool
  w     : Bool
  deriving DecidableEq, Repr

/-- Work made of frame accesses: it may fail at one of them. -/
abbrev FM := EStateM FrameErr State

/-- R65: the root a frame access of a context translates through. -/
def State.frameRoot (s : State) (ctx : BitVec 20) : Nat :=
  match s.bankOf ctx with
  | some b => b.ttr.toNat
  | none => bitsOf (s.sched ctx) 28 36 * 4096

/-- R65: translate and check one frame access: supervisor state, key 0, near or CXL far memory. -/
def frameAddr (ctx : BitVec 20) (a n : Nat) (store : Bool) : FM Nat := do
  let s ← get
  let pa ←
    if bitAt (s.cxa ctx) 0 then
      if a / 2 ^ 48 ≠ 0 then throw { kind := 1, code := 0x11, addr := a, faddr := a, phys := false, w := store }
      else match s.walk (s.frameRoot ctx) a with
        | .fail code ea bad =>
          modify (·.walkFailed none (some ctx.toNat) ea (a % 2 ^ 48) bad)
          throw { kind := if code = 0x21 then 3 else 1, code := code, addr := a, faddr := a, phys := false, w := store }
        | .ok pa w _ _ =>
          if store && !w then throw { kind := 1, code := 0x10, addr := a, faddr := a, phys := false, w := store } else pure pa
    else pure a
  if !(s.ordinary pa && s.populated (if store then .store else .load) pa) then
    throw { kind := 2, code := 0x03, addr := a, faddr := pa, phys := true, w := store }
  else if store && s.fktLine pa then
    throw { kind := 1, code := 0x10, addr := a, faddr := a, phys := !bitAt (s.cxa ctx) 0, w := store }
  else if s.keyLost pa || (!store && s.anyPoison pa n) then do
    modify (·.countKeyLost pa)
    throw { kind := 3, code := 0x21, addr := a, faddr := a, phys := !bitAt (s.cxa ctx) 0, w := store }
  else do
    modify (·.markFrame pa store)
    pure pa

/-- Read `n` bytes of a frame or context block. -/
def fLdBytes (ctx : BitVec 20) (a n : Nat) : FM (List Byte) := do
  let pa ← frameAddr ctx a n false
  return (← get).bytes pa n

/-- Read a number of `n` bytes. -/
def fLd (ctx : BitVec 20) (a n : Nat) : FM Nat := do return leNat (← fLdBytes ctx a n)

/-- A write of a frame or context block: by the stove that holds the context (R98), else by the router (R341). -/
def State.frameWrite (s : State) (ctx : BitVec 20) (pa : Nat) (bs : List Byte) : State :=
  match s.bankOf ctx with
  | some b => s.hobWrite ctx b.stove pa bs
  | none => s.devWrite pa bs

/-- Write bytes of a frame or context block. -/
def fStBytes (ctx : BitVec 20) (a : Nat) (bs : List Byte) : FM Unit := do
  let pa ← frameAddr ctx a bs.length true
  modify (·.frameWrite ctx pa bs)

/-- Write a number of `n` bytes. -/
def fSt (ctx : BitVec 20) (a n v : Nat) : FM Unit := fStBytes ctx a (leBytes n v)

/-! ## Frames -/

/-- R82: offset and size of the slot of group `k` in a save or spill frame. -/
def slotOf (k : Nat) : Nat × Nat :=
  if k < 4 then (0x40 + 0x40 * k, 64) else if k = 4 then (0x140, 128) else if k = 5 then (0x1C0, 128)
  else if k = 6 then (0x240, 80) else (0x290, 16)

/-- R82: the bytes of group `k` of a bank, as its slot holds them. -/
def Bank.groupBytes (b : Bank) (k : Nat) : List Byte :=
  match k with
  | 0 => (b.g.toList.take 8).flatMap wordBytes
  | 1 => (b.g.toList.drop 8).flatMap wordBytes
  | 2 => (b.f.toList.take 8).flatMap wordBytes
  | 3 => (b.f.toList.drop 8).flatMap wordBytes
  | 4 => (b.d.toList.take 4).flatMap (fun v => beBytes 32 v.toNat)
  | 5 => (b.d.toList.drop 4).flatMap (fun v => beBytes 32 v.toNat)
  | 6 => b.m.toList.flatMap (fun v => leBytes 16 v.toNat) ++ leBytes 16 b.msg.toNat
  | _ => leBytes 16 b.psw.toNat

/-- A 64-bit word at a byte offset of a slot. -/
def wordAt (bs : List Byte) (off : Nat) : Word := BitVec.ofNat 64 (leNat ((bs.drop off).take 8))

/-- R82: load group `k` of a bank from the bytes of its slot. PSW loading (group 7) is the caller's, under R349. -/
def Bank.loadGroup (b : Bank) (k : Nat) (bs : List Byte) : Bank :=
  match k with
  | 0 => { b with g := Vector.ofFn (fun i => if i.val < 8 then wordAt bs (8 * i.val) else b.g[i]) }
  | 1 => { b with g := Vector.ofFn (fun i => if i.val < 8 then b.g[i] else wordAt bs (8 * (i.val - 8))) }
  | 2 => { b with f := Vector.ofFn (fun i => if i.val < 8 then wordAt bs (8 * i.val) else b.f[i]) }
  | 3 => { b with f := Vector.ofFn (fun i => if i.val < 8 then b.f[i] else wordAt bs (8 * (i.val - 8))) }
  | 4 => { b with d := Vector.ofFn (fun i =>
      if i.val < 4 then BitVec.ofNat 256 (beNat ((bs.drop (32 * i.val)).take 32)) else b.d[i]) }
  | 5 => { b with d := Vector.ofFn (fun i =>
      if i.val < 4 then b.d[i] else BitVec.ofNat 256 (beNat ((bs.drop (32 * (i.val - 4))).take 32))) }
  | 6 => { b with
      m := Vector.ofFn (fun i => BitVec.ofNat 128 (leNat ((bs.drop (16 * i.val)).take 16)))
      msg := Msg.ofNat (leNat ((bs.drop 64).take 16)) }
  | _ => b

/-- R81: the 64-byte header of a frame. -/
def frameHeader (next seq desc : Nat) (owner : BitVec 20) (check rprog : Nat) : List Byte :=
  leBytes 8 next ++ leBytes 8 seq ++ leBytes 8 desc ++ leBytes 8 owner.toNat ++ leBytes 8 check ++ leBytes 8 rprog ++ zeros 16

/-- R81: DESC of a frame. -/
def descWord (mask sprog kind : Nat) (half : Bool) : Nat :=
  mask + sprog * 2 ^ 8 + kind * 2 ^ 17 + b2n half * 2 ^ 19

/-- R81: the frame length that KIND gives. -/
def kindLen (kind : Nat) : Nat := if kind = 2 then 256 else 1024

/-- The bytes of a slice of a frame. -/
def sliceBytes (bs : List Byte) (off n : Nat) : List Byte := (bs.drop off).take n

/-- R87: the covered parts of a frame after its header: group slots and TTR for save and spill frames, the rest of the
frame for exception and ember frames. -/
def coveredParts (bs : List Byte) : List (List Byte) :=
  let desc := leNat (sliceBytes bs 0x10 8)
  let kind := bitsOf desc 17 2
  let groups := ((List.range 8).filter (bitAt desc)).map (fun k => sliceBytes bs (slotOf k).1 (slotOf k).2)
  if kind = 0 then groups
  else if kind = 1 then groups ++ [sliceBytes bs 0x2A0 8]
  else [sliceBytes bs 0x40 (kindLen kind - 0x40)]

/-- R87: the covered bytes of the header. -/
def coveredHeader (bs : List Byte) : List Byte := sliceBytes bs 0x08 24 ++ sliceBytes bs 0x30 16

/-- R87: the seal of a frame for a context: a check over the covered bytes, the CTXID and ORIGIN. -/
def State.sealOf (s : State) (ctx : BitVec 20) (bs : List Byte) : Word :=
  let origin := bitAt (leNat (sliceBytes bs 0x10 8)) 16
  Config.sealEnd ((coveredParts bs).foldl Config.sealAdd (Config.sealBegin s.sealKey (coveredHeader bs))) ctx origin

/-- R88: a frame verifies for a context when its seal equals the check. -/
def State.verifies (s : State) (ctx : BitVec 20) (bs : List Byte) : Bool :=
  wordAt bs 0x20 == s.sealOf ctx bs

/-- A frame's bytes with SEAL filled in. -/
def State.sealed (s : State) (ctx : BitVec 20) (bs : List Byte) : List Byte :=
  spliceBytes bs 0x20 (wordBytes (s.sealOf ctx bs))

/-! ## Mandatory refire -/

/-- R348: whether enabled range `i` of the policy covers a wake group. -/
def State.rangeCovers (s : State) (i g : Nat) : Bool :=
  let r := s.reg Slot.grt (Off.GRT.RFMR0 + 8 * i)
  bitAt r 31 && decide (bitsOf r 0 12 ≤ g) && decide (g ≤ bitsOf r 16 12)

/-- R348: a context is under mandatory refire. -/
def State.mandatory (s : State) (ctx : BitVec 20) : Bool :=
  (List.range 4).any (fun i => s.rangeCovers i (s.wgOf ctx))

/-- R77: STAT of a context's save-area control, as the Grate reads it; 0 where it cannot be read. -/
def State.statOf (s : State) (ctx : BitVec 20) : Nat :=
  match fLd ctx (s.block ctx + 0xB20) 8 s with
  | .ok v _ => v
  | .error _ _ => 0

/-- R349: a PSW that is loaded asks for refire: by its RF, or in user state under mandatory refire unless RFBRK. -/
def State.wantsRf (s : State) (ctx : BitVec 20) (p : Psw) : Bool :=
  p.rf || (!p.sup && s.mandatory ctx && !bitAt (s.statOf ctx) 2)

/-- R349, R377: a PSW as it is loaded: with RF as `wantsRf` gives it, but 0 while DBG is 1. -/
def State.loadRf (s : State) (ctx : BitVec 20) (p : Psw) : Psw := { p with rf := s.wantsRf ctx p && !p.dbg }

/-! ## Lockup -/

/-- R343: a stove locks up: its flues stop, the cause is recorded, and every context resident in it is locked. Its pins end
(R324) and its cover records are discarded (R423). One that waits keeps its place among the waiters for the time after the dump (R314,
R345). -/
def State.lockStove (s : State) (stove : BitVec 6) (ctx : Option Nat) (cause addr : Nat) : State :=
  let page := Slot.stv stove.toNat
  let s := s.setReg page Off.STV.LOCKCAUSE cause
  let s := s.setReg page Off.STV.LOCKADDR addr
  let s := s.setFlag page Off.STV.STATUS 0 true
  let s := s.setFlag (Slot.hrtA (hearthOf stove)) Off.HRTA.HSTS (stove.toNat % 8) true
  let s := s.banks.foldl (fun s x =>
    if x.stove = stove then
      let w := St.locked + x.stove.toNat * 2 ^ 4 + x.slot.toNat * 2 ^ 10 + x.evpend.toNat * 2 ^ 15
      let s := (s.setCtxState x.ctx w).putBank { x with flue := none, pins := [] }
      if s.order.waiting.contains x.ctx then s else s.toNone x.ctx
    else s) s
  let s := { s with lines := { s.lines with cover := s.lines.cover.filter (·.stove != stove) } }
  s.ashLog 0x17 page (some stove.toNat) ctx addr cause

/-- R343: a stove locks up with a context being entered. STEP is the step of R332, 0xF for any other cause. -/
def State.lockup (s : State) (b : Bank) (kind step addr code : Nat) : State :=
  let cause := kind + step * 2 ^ 4 + b.slot.toNat * 2 ^ 8 + b.ctx.toNat * 2 ^ 16 + code * 2 ^ 36
  (s.putBank b).lockStove b.stove (some b.ctx.toNat) cause addr

/-! ## Held contexts -/

/-- A context that is not resident becomes held (R300, R307, R341). -/
def State.hold (s : State) (ctx : BitVec 20) (reason : Nat) : State :=
  (s.setCtxState ctx (stateWord St.held (bitsOf (s.ctxState ctx) 15 4) reason)).toNone ctx

/-! ## Pending-alarm records -/

/-- R338: the slots 0 to 7 of a context's records, in order. -/
def recordSlots : List Nat := List.range 8

/-- R339: the first slot that is not VALID; R326: none is needed when a timer or attention record is pending already. -/
def findSlot (ctx : BitVec 20) (base code : Nat) : List Nat → Option Nat → FM (Option Nat × Bool)
  | [], free => pure (free, false)
  | i :: t, free => do
    let h ← fLd ctx (base + 64 * i) 8
    if bitAt h 8 then
      if h % 256 = code ∧ code ≠ 0x20 then pure (free, true) else findSlot ctx base code t free
    else findSlot ctx base code t (free.orElse (fun _ => some i))

/-- R338: ORIG of a record: the store's CTXID and stove; R338 states no value for an alarm that is no store's. -/
def recordOrigin (ctx : BitVec 20) (code draw : Nat) (stove : BitVec 6) : Nat :=
  if code = 0x20 then ctx.toNat + stove.toNat * 2 ^ 20 else (Config.recordOrigin draw).toNat

/-- What became of an alarm: a new record, one of its kind that was pending before (R326), or none (R339). -/
inductive Queued where
  | written
  | coalesced
  | discarded
  deriving DecidableEq, Repr

/-- R338, R339: write a record for a context. -/
def writeRecord (ctx : BitVec 20) (code flags paddr : Nat) (stove : BitVec 6) : FM Queued := do
  let s ← get
  let base := s.block ctx + 0x900
  let (free, coalesced) ← findSlot ctx base code recordSlots none
  if coalesced then pure .coalesced
  else match free with
    | some i => do
      fStBytes ctx (base + 64 * i) (leBytes 8 (code + 2 ^ 8 + flags) ++ leBytes 8 paddr ++ leBytes 8 s.tod
        ++ leBytes 8 (recordOrigin ctx code s.fresh stove) ++ zeros 32)
      modify (fun s => { s with fresh := s.fresh + b2n (code != 0x20) })
      pure .written
    | none => do
      let stat ← fLd ctx (s.block ctx + 0xB20) 8
      fSt ctx (s.block ctx + 0xB20) 8 (stat ||| 2)
      modify (·.ashLog 0x15 Slot.grt none (some ctx.toNat) base code)
      pure .discarded

/-- R326, R337, R339, R341: an alarm becomes pending for a context; R605: one that waits is made ready by an alarm that has become
pending. The Bool is whether a record stands for it. A timer or attention alarm whose record cannot be written is logged in class 0x15,
the only one of R578 that names a discarded alarm (DESIGN CHOICE, assumption log 52); a write-back's is logged by its own entry. -/
def State.queueAlarm (s : State) (ctx : BitVec 20) (code flags paddr : Nat) (stove : BitVec 6) : State × Bool :=
  let st := s.st ctx
  if st = St.unused then (s, false)
  else match writeRecord ctx code flags paddr stove s with
    | .ok q s => (if st = St.waiting ∧ q = .written then s.wakeOut ctx else s, q != .discarded)
    | .error e s =>
      match s.bankOf ctx with
      | some b => if st = St.resident then (s.lockup b e.kind 0xF e.addr code, false) else (s, false)
      | none =>
        let s := s.hold ctx 7
        (if code = 0x20 then s else s.ashLog 0x15 Slot.grt none (some ctx.toNat) (s.block ctx + 0x900) code, false)

/-- A refire break (R377): RF cleared, RFBRK set in STAT, counted and logged; attention under mandatory refire. -/
def State.refireBreak (s : State) (b : Bank) : State :=
  let s := s.putBank (b.setPsw { b.psw with rf := false })
  let s := match (do
      let stat ← fLd b.ctx (s.block b.ctx + 0xB20) 8
      fSt b.ctx (s.block b.ctx + 0xB20) 8 (stat ||| 4) : FM Unit) s with
    | .ok _ s => s
    | .error e s => s.lockup b e.kind 0xF e.addr 0
  let s := s.incSat (Slot.hrtB (hearthOf b.stove)) Off.HRTB.RFBRK 0 32 1
  let s := s.ashLog 0x22 (Slot.stv b.stove.toNat) (some b.stove.toNat) (some b.ctx.toNat) 0 0
  if s.mandatory b.ctx then s.attention else s

/-- R377: a PSW that asks for refire with DBG = 1 is loaded into a resident context: its refire is broken at once. -/
def State.breakLoaded (s : State) (ctx : BitVec 20) (p : Psw) : State :=
  if s.wantsRf ctx p && p.dbg then
    match s.bankOf ctx with
    | some b => s.refireBreak b
    | none => s
  else s

/-! ## Exception entry -/

/-- R80: the offset of the handler PSW of an exception code. -/
def handlerOff (code : Nat) : Nat :=
  if code ≤ 0x0C ∨ code = 0x1A then 0xB40
  else if code ≤ 0x12 then 0xB50
  else if code ≤ 0x15 then 0xB60
  else if code ≤ 0x17 then 0xB70
  else if code = 0x18 then 0xB80
  else if code = 0x19 then 0xB90
  else if code ≤ 0x21 then 0xBA0
  else 0xBB0

/-- R83: the CODE word. -/
def Exc.word (e : Exc) (emb lisv : Bool) : Nat :=
  e.code + b2n e.fav * 2 ^ 8 + b2n e.w * 2 ^ 9 + b2n e.x * 2 ^ 10 + b2n e.split2 * 2 ^ 11 + b2n emb * 2 ^ 12
    + b2n lisv * 2 ^ 13 + b2n e.phys * 2 ^ 14

/-- R83: LIS as the exception frame holds it, 32 bytes. -/
def lisBytes : Option Lis → List Byte
  | none => zeros 32
  | some l => wordBytes l.frame ++ wordBytes l.seq ++ leBytes 16 l.acc.toNat

/-- R83: the 256 bytes of an exception frame, sealed. -/
def State.excFrame (s : State) (ctx : BitVec 20) (e : Exc) (old : Psw) (image seq : Nat) (lis : Option Lis) (emb : Bool) :
    List Byte :=
  s.sealed ctx (frameHeader 0 seq (descWord 0x80 0x80 2 false) ctx 0 0
    ++ leBytes 16 old.toNat ++ leBytes 8 (e.word emb lis.isSome) ++ leBytes 8 e.faddr ++ leBytes 16 image
    ++ lisBytes lis ++ zeros 112)

/-- R332: a failed step of an entry. -/
structure EntryErr where
  step : Nat
  err  : FrameErr
  deriving DecidableEq, Repr

/-- R290: the accesses of `n` bytes, one for each line. -/
def lineAccesses (k : Acc) (pa n : Nat) : List Access :=
  (linesTouched pa n).map (fun l =>
    { kind := k, pa := max pa (64 * l), len := min (pa + n) (64 * l + 64) - max pa (64 * l), own := false, align := 0 })

/-- The work of an entry, over the state and the accesses it has made. -/
abbrev EntryM := EStateM EntryErr (State × List Access)

/-- One access of an entry, of `len` bytes, naming the step for LOCKCAUSE. -/
def atStep {α : Type} (n : Nat) (ctx : BitVec 20) (k : Acc) (a len : Nat) (m : FM α) : EntryM α := fun (s, acc) =>
  match (do
      let pa ← frameAddr ctx a len (k = .store)
      let v ← m
      pure (v, pa) : FM (α × Nat)) s with
  | .ok (v, pa) s => .ok v (s, acc ++ lineAccesses k pa len)
  | .error e s => .error { step := n, err := e } (s, acc)

/-- A number that an entry reads. -/
def entryLd (n : Nat) (ctx : BitVec 20) (a len : Nat) : EntryM Nat := atStep n ctx .load a len (fLd ctx a len)

/-- Bytes that an entry writes. -/
def entrySt (n : Nat) (ctx : BitVec 20) (a : Nat) (bs : List Byte) : EntryM Unit :=
  atStep n ctx .store a bs.length (fStBytes ctx a bs)

/-- R87: the bytes of a frame that its seal covers. -/
def coveredBytes (bs : List Byte) : List Byte := coveredHeader bs ++ (coveredParts bs).flatten

/-- R84, R94: what the ember frame that a micro-trap has written stands for goes with its sealed bytes. -/
def State.keepTemps (s : State) (ctx : BitVec 20) (frame : List Byte) : State :=
  match s.embers.find? (·.ctx == ctx) with
  | some use => { s with temps := (coveredBytes frame, use) :: s.temps }
  | none => s

/-- R332, steps 2 to 5: the frames of an entry, and the handler PSW it loads. `ember` is the 1 KiB frame of a micro-trap
(its SEQ is filled in here). -/
def entrySteps (ctx : BitVec 20) (e : Exc) (old : Psw) (image : Nat) (lis : Option Lis) (ember : Option (List Byte)) :
    EntryM Psw := do
  let (s, _) ← get
  let cb := s.block ctx
  match ember with
  | none => pure ()
  | some fr =>
    let seq ← entryLd 2 ctx (cb + 0xB18) 8
    let body := s.sealed ctx (spliceBytes fr 0x08 (leBytes 8 seq))
    entrySt 2 ctx (cb + 0x100) body
    entrySt 2 ctx (cb + 0xB18) (leBytes 8 (seq + 1))
    modify (fun (s, acc) => (s.keepTemps ctx body, acc))
  let seq ← entryLd 3 ctx (cb + 0xB18) 8
  entrySt 3 ctx cb (s.excFrame ctx e old image seq lis ember.isSome)
  entrySt 3 ctx (cb + 0xB18) (leBytes 8 (seq + 1))
  let h ← entryLd 4 ctx (cb + handlerOff e.code) 16
  return handlerPsw h

/-- R332: exception entry for the resident context of bank `b`, whose registers hold their values at the exception.
A failed step locks the stove up, the bank keeping OLDPSW (R345). `cost` is what the entry is charged (R278), to which open timing adds
the charge of its accesses (R290); it empties the fetch buffer (R292). -/
def State.enter (s : State) (b : Bank) (e : Exc) (old : Psw) (image : Nat) (lis : Option Lis) (ember : Option (List Byte))
    (cost : Nat) : State :=
  let s := s.drain b.ctx
  let b := { b with psw := old }
  if bitsOf (s.cxa b.ctx) 1 11 ≠ 0 ∨ s.st b.ctx ≠ St.resident then
    s.lockup b 4 3 (s.dirAt b.ctx) e.code
  else
    match entrySteps b.ctx e old image lis ember (s, []) with
    | .error f (s, _) => s.lockup b f.err.kind f.step f.err.addr e.code
    | .ok h (s, acc) =>
      let n := cost + s.openCharge b.stove acc
      let s := ((s.serve b.stove acc).1.emptyFetch b.stove).putBank
        ({ b with lis := none, resume := 0, saved := none, cont := false, wdrawn := none, wait := none,
                  charged := b.charged + n, slice := b.slice + n }.setPsw (s.loadRf b.ctx h))
      s.breakLoaded b.ctx h

/-- R334: IMAGE for an entry at an instruction address: the image of the last instruction fetched, when it is that one. -/
def Bank.imageAt (b : Bank) (ia : Word) : Nat :=
  match b.image with
  | some (a, w) => if a = ia then w.toNat else 0
  | none => 0

end Sys2Proof.Machine
end

