-- ==== Sys2Proof/Machine/Alarms.lean ====
section
/-!
DEFINITION. Pending alarms: which record a context delivers next (R325, R338, R340), and whether one is pending and enabled.
-/

namespace Sys2Proof.Machine

/-- A VALID record of a context: its slot, HDR, PADDR and TOD (R338). -/
structure Record where
  slot  : Nat
  hdr   : Nat
  paddr : Nat
  tod   : Nat
  deriving DecidableEq, Repr

/-- The code of a record. -/
def Record.code (r : Record) : Nat := r.hdr % 256

/-- R338: the VALID records of a context, by slot. -/
def readRecords (ctx : BitVec 20) (base : Nat) : List Nat → FM (List Record)
  | [] => pure []
  | i :: t => do
    let h ← fLd ctx (base + 64 * i) 8
    let rest ← readRecords ctx base t
    if bitAt h 8 then do
      let p ← fLd ctx (base + 64 * i + 8) 8
      let d ← fLd ctx (base + 64 * i + 16) 8
      pure ({ slot := i, hdr := h, paddr := p, tod := d } :: rest)
    else pure rest

/-- R325: whether a PSW enables an alarm. -/
def alarmEnabled (p : Psw) (code : Nat) : Bool := if code = 0x20 then p.mcm else p.am

/-- The oldest record of a list, the lowest slot on a tie. -/
def oldest (rs : List Record) : Option Record :=
  rs.foldl (fun best r => match best with
    | none => some r
    | some a => if r.tod < a.tod then some r else some a) none

/-- R325, R340: the record that is delivered next: 0x20 oldest first, then 0x23, then 0x22. -/
def nextRecord (p : Psw) (rs : List Record) : Option Record :=
  let on (code : Nat) : List Record := rs.filter (fun r => r.code == code && alarmEnabled p code)
  match oldest (on 0x20), oldest (on 0x23), oldest (on 0x22) with
  | some r, _, _ => some r
  | none, some r, _ => some r
  | none, none, r => r

/-- The alarm of a resident context that is pending and enabled, and the state its reading leaves; a failed read shows none. -/
def State.alarmOf (s : State) (b : Bank) : Option Record :=
  match readRecords b.ctx (s.block b.ctx + 0x900) recordSlots s with
  | .ok rs _ => nextRecord b.psw rs
  | .error _ _ => none

end Sys2Proof.Machine
end

