-- ==== Sys2Proof/Machine/Ecc.lean ====
section
/-!
DEFINITION. The symbol code of near memory (R410 to R412): where a line's symbols lie on the pins of its group, the codewords over
GF(2^8), and what the decoder makes of a line that the pins deliver wrong.
-/

namespace Sys2Proof.Machine

/-! ## The field -/

/-- R411: multiplication by α = 0x02, modulo x^8 + x^4 + x^3 + x^2 + 1. -/
def gfDouble (a : Byte) : Byte := if a.msb then (a <<< 1) ^^^ 0x1D else a <<< 1

/-- R411: multiplication in GF(2^8), by the bits of the second factor from the highest of `n` down. -/
def gfMulFrom (a b : Byte) : Nat → Byte
  | 0 => 0
  | n + 1 => gfDouble (gfMulFrom a (b >>> 1) n) ^^^ (if b.getLsbD 0 then a else 0)

/-- R411: multiplication in GF(2^8). -/
def gfMul (a b : Byte) : Byte := gfMulFrom a b 8

/-- R411: the power of α that goes with a position of a codeword: x^(19 − j) at x = α. -/
def alphaPow : Nat → Byte
  | 0 => 1
  | n + 1 => gfDouble (alphaPow n)

/-- R411: the locator of position `j`. -/
def locator (j : Nat) : Byte := alphaPow (19 - j)

/-! ## Codewords -/

/-- R410: the codeword of a pin of a group, its class, and the position there of the symbol that the pin carries. Data byte k lies on
pin k, tag byte t on pin 64 + t, and check m of codeword i on pin 64 + 4 (m + 1) + i. -/
def pinCodeword (p : Nat) : Nat := p % 4
/-- R410: the position in its codeword of the symbol that a pin carries. -/
def pinPosition (p : Nat) : Nat := p / 4
/-- R410: the pin of a group that carries a position of a codeword. -/
def pinAt (i j : Nat) : Nat := 4 * j + i

/-- R411: one step of the division by (x + 1)(x + α)(x + α^2) = x^3 + 7x^2 + 14x + 8: the remainder, highest power first. -/
def checkStep (r : Byte × Byte × Byte) (d : Byte) : Byte × Byte × Byte :=
  let f := r.1 ^^^ d
  (r.2.1 ^^^ gfMul f 7, r.2.2 ^^^ gfMul f 14, gfMul f 8)

/-- R411: the checks of the 17 data and tag symbols of a codeword. -/
def checkSymbols (ds : List Byte) : List Byte :=
  let r := ds.foldl checkStep (0, 0, 0)
  [r.1, r.2.1, r.2.2]

/-- R411: the value of a codeword's polynomial at a point, symbol 0 first. -/
def codeAt (x : Byte) (c : List Byte) : Byte := c.foldl (fun v d => gfMul v x ^^^ d) 0

/-- R411: the three syndromes of a received word. -/
def syndromes (c : List Byte) : Byte × Byte × Byte := (codeAt 1 c, codeAt 2 c, codeAt 4 c)

/-- R412: the corrections that the decoder makes to a received word whose class has no erased pin: none, one symbol, or it is
uncorrectable. -/
def correctOne (c : List Byte) : Option (List (Nat × Byte)) :=
  let (s0, s1, s2) := syndromes c
  if s0 = 0 ∧ s1 = 0 ∧ s2 = 0 then some []
  else if s0 = 0 then none
  else ((List.range 20).find? (fun j => s1 == gfMul s0 (locator j) && s2 == gfMul s1 (locator j))).map (fun j => [(j, s0)])

/-- R412: the corrections where the symbol at position `q` is read as an erasure: it and at most one further symbol. -/
def correctErased (q : Nat) (c : List Byte) : Option (List (Nat × Byte)) :=
  let (s0, s1, s2) := syndromes c
  let x := locator q
  let t0 := s1 ^^^ gfMul x s0
  let t1 := s2 ^^^ gfMul x s1
  if t0 = 0 ∧ t1 = 0 then some (if s0 = 0 then [] else [(q, s0)])
  else if t0 = 0 then none
  else ((List.range 20).filter (· != q)).findSome? (fun j =>
    if t1 = gfMul t0 (locator j) then
      ((List.range 256).find? (fun e => gfMul (BitVec.ofNat 8 e) (locator j ^^^ x) == t0)).map (fun e =>
        let e : Byte := BitVec.ofNat 8 e
        (j, e) :: (if s0 ^^^ e = 0 then [] else [(q, s0 ^^^ e)]))
    else none)

/-! ## Lines -/

/-- R413: the tag of a near line. -/
def State.tagBytes (s : State) (line : Nat) : List Byte :=
  let poison : Byte := if s.lines.poison.contains line then 1 else 0
  let epoch := (SMap.get (fun _ => (0 : BitVec 2)) s.lines.epoch line).toNat
  [SMap.get (fun _ => (0 : Byte)) s.lines.keys (frameOf (line * 64)), poison + BitVec.ofNat 8 (2 * epoch), 0, 0]

/-- R410, R411: the symbols of a line by the pins of its group: 64 data bytes, the tag, and the checks of the four codewords. -/
def State.lineSymbols (s : State) (line : Nat) : List Byte :=
  let ds := s.beneath line ++ s.tagBytes line
  let checks := (List.range 4).map (fun i => checkSymbols ((List.range 17).map (fun j => ds.getD (pinAt i j) 0)))
  ds ++ (List.range 12).map (fun k => (checks.getD (k % 4) []).getD (k / 4) 0)

/-- R409: the group of a near line. -/
def groupOf (line : Nat) : Nat := line / 64 % 8

/-- R417: the position of the erased pin of a codeword's class in a group. -/
def State.erasedAt (s : State) (group i : Nat) : Option Nat :=
  (s.lines.erased.find? (fun p => p / 80 == group && pinCodeword (p % 80) == i)).map (fun p => pinPosition (p % 80))

/-- R410: what the pins deliver of a line when some of them invert bits. -/
def receivedSymbols (symbols : List Byte) (flips : List (BitVec 7 × Byte)) : List Byte :=
  symbols.zipIdx.map (fun (x, p) => flips.foldl (fun x f => if f.1.toNat = p then x ^^^ f.2 else x) x)

/-- R412: the corrections that the decoder makes to a line, by pin of the group; none when the line is uncorrectable. -/
def State.decodeLine (s : State) (line : Nat) (received : List Byte) : Option (List (Nat × Byte)) :=
  (List.range 4).foldl (fun acc i =>
    let word := (List.range 20).map (fun j => received.getD (pinAt i j) 0)
    let fixes := match s.erasedAt (groupOf line) i with
      | some q => correctErased q word
      | none => correctOne word
    match acc, fixes with
    | some xs, some ys => some (xs ++ ys.map (fun y => (pinAt i y.1, y.2)))
    | _, _ => none) (some [])

/-- What a read of a near line gives (R412): nothing that holds, or its 64 bytes and the pins whose symbols were corrected. -/
inductive LineRead where
  | lost
  | got (bytes : List Byte) (pins : List Nat)
  deriving DecidableEq, Repr

/-- R409 to R412: a near line is read. -/
def State.readLine (s : State) (line : Nat) (flips : List (BitVec 7 × Byte)) : LineRead :=
  let received := receivedSymbols (s.lineSymbols line) flips
  match s.decodeLine line received with
  | none => .lost
  | some fixes =>
    .got ((received.zipIdx.map (fun (x, p) => fixes.foldl (fun x f => if f.1 = p then x ^^^ f.2 else x) x)).take 64)
      (fixes.map (fun f => 80 * groupOf line + f.1))

end Sys2Proof.Machine
end

