-- ==== Sys2Proof/Machine/NearMem.lean ====
section
/-!
DEFINITION. The memory controller: pins and corrections (R416 to R418), poison (R421, R391), the patrol scrubber (R419, R420), failed
channels and groups (R424, R425), and write-back (R440, R441).
-/

namespace Sys2Proof.Machine

/-! ## Pins -/

/-- The correction count of a pin. -/
def State.pinCount (s : State) (p : Nat) : Nat := (SMap.get (fun _ => (0 : BitVec 32)) s.lines.pins p).toNat

/-- Set the correction count of a pin. -/
def State.setPinCount (s : State) (p n : Nat) : State :=
  { s with lines := { s.lines with pins := SMap.set (fun _ => 0) s.lines.pins p (BitVec.ofNat 32 n) } }

/-- R410: two pins are of the same codeword class of the same group. -/
def sameClass (p q : Nat) : Bool := p / 80 == q / 80 && p % 4 == q % 4

/-- R417: erase a pin, unless its class already holds an erased pin. -/
def State.erasePin (s : State) (p : Nat) : State :=
  if 640 ≤ p ∨ s.lines.erased.contains p then s
  else if s.lines.erased.any (sameClass p) then
    (s.setErr Slot.nmc Off.NMC.NMERR 2).ashLog 0x31 Slot.nmc none none 0 p
  else { s with lines := { s.lines with erased := p :: s.lines.erased } }

/-- R417: end a pin's erasure. -/
def State.unerasePin (s : State) (p : Nat) : State :=
  { s with lines := { s.lines with erased := s.lines.erased.filter (· != p) } }

/-- R416, R417: one corrected symbol of a pin. -/
def State.correctPin (s : State) (p : Nat) : State :=
  if 640 ≤ p then s
  else
    let n := min (2 ^ 32 - 1) (s.pinCount p + 1)
    let s := (s.setPinCount p n).incSat Slot.nmc Off.NMC.CECNT 0 32 1
    let thresh := s.fld Slot.nmc Off.NMC.PINCTL 0 16
    if thresh ≠ 0 ∧ n = thresh then s.erasePin p else s

/-! ## Poison -/

/-- R390, R391: the far frames whose key bytes lie in a line of the far key table, while it is used. -/
def State.farKeyFrames (s : State) (line : Nat) : List Nat :=
  let base := s.reg Slot.key Off.KEY.FKTBASE
  let off := line * 64 - base
  if s.flag Slot.key Off.KEY.KEYCTL 1 ∧ base ≤ line * 64 ∧ off < 4 * 0x10000000 then
    (List.range 64).map (fun i => (off / 0x10000000 + 1) * 0x10000000 + (off % 0x10000000 + i))
  else []

/-- R421: account for a line that proves uncorrectable. -/
def State.countUe (s : State) (line : Nat) : State :=
  let s := s.incSat Slot.nmc Off.NMC.UECNT 0 32 1
  let s := s.setReg Slot.nmc Off.NMC.LASTUE (line * 64)
  (s.setErr Slot.nmc Off.NMC.NMERR 1).ashLog 0x30 Slot.nmc none none (line * 64) 0

/-- The poison mark of a line. -/
def State.markPoison (s : State) (line : Nat) : State :=
  { s with lines := { s.lines with
      poison := if s.lines.poison.contains line then s.lines.poison else line :: s.lines.poison } }

/-- The bytes of a line under a mask, over those of another. -/
def overlay (mask : BitVec 64) (top under : List Byte) : List Byte :=
  (List.range 64).map (fun i => if mask.getLsbD i then top.getD i 0 else under.getD i 0)

/-- What the memory holds of a line changes. Bytes that a modified copy holds valid stay as they are. -/
def State.setBeneath (s : State) (line : Nat) (bs : List Byte) : State :=
  match s.dirty.find? (·.line == line) with
  | none => s.poke (line * 64) bs
  | some m =>
    { s.poke (line * 64) (overlay m.mask (s.bytes (line * 64) 64) bs) with
      dirty := s.dirty.map (fun (x : ModLine) => if x.line == line then { x with old := bs } else x) }

/-- R420, R439: a modified copy of a line is valid whole, and prevails over what the controller finds. -/
def State.prevails (s : State) (line : Nat) : Bool := s.dirty.any (fun m => m.line == line && m.mask == BitVec.allOnes 64)

/-- R439, R423: the hob that holds stored bytes of a line that turns out poisoned goes on with them. -/
def State.coverStored (s : State) (line : Nat) : State :=
  match s.dirty.find? (·.line == line) with
  | none => s
  | some m =>
    if m.bel then s
    else { s with lines := { s.lines with
      cover := { line := line, stove := m.stove, mask := m.mask } :: s.lines.cover.filter (·.line != line) } }

/-- A line is poisoned: its stored bytes are kept (R439), and it is filled now. -/
def State.poisonLine (s : State) (line : Nat) : State :=
  let s := (s.coverStored line).markPoison line
  { s with
    dirty := s.dirty.map (fun (m : ModLine) => if m.line == line then { m with mask := BitVec.allOnes 64 } else m)
    caches := { s.caches with hob := s.caches.hob.map (fun (x : HobLine) => if x.line == line then { x with bare := false } else x) } }

/-- R421, R391: the controller poisons a near line. `keyGone` is whether no other line of the frame gives its key byte. A whole modified
copy in a cache prevails over what the controller writes (R420). -/
def State.poisonNear (s : State) (line : Nat) (keyGone : Bool) : State :=
  let s := (s.countUe line).setEpoch line
  let lost := (if keyGone then [frameOf (line * 64)] else []) ++ s.farKeyFrames line
  let whole := s.prevails line
  let s := s.setBeneath line (zeros 64)
  if whole then s
  else
    let s := s.poisonLine line
    { s with lines := { s.lines with keyLost := lost ++ s.lines.keyLost.filter (fun f => !lost.contains f) } }

/-- R412, R416, R421: the controller reads a near line: symbols corrected and counted, or the line poisoned. What a miscorrection
makes of the line stands. The Bool is whether the line was correctable. -/
def State.controllerRead (s : State) (line : Nat) (m : Misread) : State × Bool :=
  match s.readLine line m.flips with
  | .lost => (s.poisonNear line m.keyGone, false)
  | .got bs pins =>
    let s := pins.foldl State.correctPin s
    (if bs = s.beneath line then s else s.setBeneath line bs, true)

/-! ## Write-back -/

/-- The flags of a 0x20 record (R338): FAR, UNPOP and RMW. -/
structure LateFlags where
  far   : Bool
  unpop : Bool
  rmw   : Bool

/-- HDR bits of a record. -/
def LateFlags.hdr (f : LateFlags) : Nat := b2n f.far * 2 ^ 9 + b2n f.unpop * 2 ^ 10 + b2n f.rmw * 2 ^ 11

/-- DETAIL of the ash log entry of a failed write-back (R578). -/
def LateFlags.detail (f : LateFlags) (told : Bool) : Nat := b2n f.rmw + b2n f.far * 2 + b2n f.unpop * 4 + b2n (!told) * 8

/-- R441, R495: a line's write-back fails: its last storer is told by a 0x20 record, or BELERR.LATE is set; the ash log has the
line. -/
def State.lateError (s : State) (m : ModLine) (f : LateFlags) : State :=
  if m.bel then
    (s.setErr Slot.bel Off.BEL.BELERR 3).ashLog 0x33 Slot.nmc none none (m.line * 64) (f.detail false)
  else
    let (s, told) := s.queueAlarm m.ctx 0x20 f.hdr m.addr m.stove
    s.ashLog 0x33 Slot.nmc (some m.stove.toNat) (some m.ctx.toNat) (m.line * 64) (f.detail told)

/-- The hob gives a modified line up: its cover record is discarded (R423). -/
def State.giveUp (s : State) (line : Nat) : State :=
  { s with dirty := s.dirty.filter (·.line != line)
           lines := { s.lines with cover := s.lines.cover.filter (·.line != line) } }

/-- R440, R441: write a modified line back: whole, merged by the controller into a near line that is partly valid, or with byte enables
into a far one. -/
def State.writeBack (s : State) (m : ModLine) (found : WriteBack) : State :=
  let a := m.line * 64
  let far := rangeOf a != .near
  if !s.populated .load a then ((s.giveUp m.line).poke a m.old).lateError m { far := far, unpop := true, rmw := false }
  else if far then
    match found with
    | .written | .merged _ => s.giveUp m.line
    | .farError held poisoned =>
      let s := ((s.giveUp m.line).poke a (held.take 64)).unpoison m.line
      (if poisoned then s.markPoison m.line else s).lateError m { far := true, unpop := false, rmw := false }
  else if m.mask = BitVec.allOnes 64 then (s.giveUp m.line).setEpoch m.line
  else
    let misread : Misread := match found with
      | .merged x => x
      | .written | .farError _ _ => {}
    match s.readLine m.line misread.flips with
    | .lost => ((s.giveUp m.line).poisonNear m.line misread.keyGone).lateError m { far := false, unpop := false, rmw := true }
    | .got _ _ => (((s.controllerRead m.line misread).1).giveUp m.line).setEpoch m.line

/-- The modified lines whose address passes a test, oldest store first. -/
def State.modified (s : State) (p : Nat → Bool) : List ModLine := (s.dirty.filter (fun m => p (m.line * 64))).reverse

/-- R425: the lines that reservation sets hold. -/
def State.heldLines (s : State) : List Nat := (s.resv.flatMap (·.held)).filter (· < 2 ^ 60)

/-- Every cached copy of the lines that pass a test is invalidated; each held modified is lost and reported (R425, R433). -/
def State.dropCopies (s : State) (gone : Nat → Bool) : State :=
  let s := (s.modified (fun a => gone (lineOf a))).foldl (fun s m => s.writeBack m .written) s
  { s with
    lines := { s.lines with cover := s.lines.cover.filter (fun c => !gone c.line) }
    caches := {
      hob := s.caches.hob.filter (fun x => !gone x.line)
      hearth := s.caches.hearth.filter (fun x => !gone x.2)
      fetch := s.caches.fetch.filter (fun x => !gone x.2) } }

/-- R425, R433: invalidate every cached copy of the lines whose address passes a test. A line that a reservation set holds is
invalidated when it is released. -/
def State.invalidate (s : State) (p : Nat → Bool) : State :=
  let held := s.heldLines
  let later := (held.filter (fun l => p (l * 64))).eraseDups
  ({ s with doomed := s.doomed ++ later.filter (fun l => !s.doomed.contains l) } : State).dropCopies
    (fun l => p (l * 64) && !held.contains l)

/-- R425: lines that wait for their release to be invalidated, and are released now. -/
def State.purge (s : State) : State :=
  if s.doomed.isEmpty then s
  else
    let held := s.heldLines
    let now := s.doomed.filter (fun l => !held.contains l)
    ({ s with doomed := s.doomed.filter held.contains } : State).dropCopies now.contains

/-! ## Failed groups -/

/-- R424, R425: a channel is declared failed, and its group with it. -/
def State.failChannel (s : State) (c : Nat) : State :=
  if 40 ≤ c then s
  else
    let g := c / 5
    let s := s.setFlag Slot.nmc Off.NMC.NMSTS 2 true
    let s := (s.setFlag Slot.nmc Off.NMC.NMSTS (8 + g) true).setFlag Slot.nmc Off.NMC.CHFAIL c true
    let s := (s.setErr Slot.nmc Off.NMC.NMERR 0).ashLog 0x32 Slot.nmc none none 0 (g + c * 2 ^ 8)
    s.invalidate (fun a => rangeOf a == .near && a / 4096 % 8 == g)

/-! ## What fills and scrubs find -/

/-- What one fill, burst or far read finds. -/
def State.memFinding (s : State) : MemFinding → State
  | .filled l m => if s.nearPop (l.toNat * 64) && !s.prevails l.toNat then (s.controllerRead l.toNat m).1 else s
  | .retried n => s.incSat Slot.nmc Off.NMC.CRCRETRY 0 32 n.toNat
  | .burst c => (s.incSat Slot.nmc Off.NMC.CRCRETRY 0 32 8).failChannel c.toNat
  | .farPoison l => if s.isCxl (l.toNat * 64) && !s.prevails l.toNat then s.poisonLine l.toNat else s

/-- R419: the scrubber at one line: written back when it was corrected or poisoned, or two passes have left it unwritten. -/
def State.scrubOne (s : State) (line : Nat) (m : Misread) : State :=
  let pass := s.fld Slot.nmc Off.NMC.SCRUBSTS 0 32
  let old := (SMap.get (fun _ => (0 : BitVec 2)) s.lines.epoch line).toNat
  let clean := s.readLine line m.flips == .got (s.beneath line) []
  let s := (s.controllerRead line m).1
  if !clean ∨ (s.flag Slot.nmc Off.NMC.SCRUBCTL 1 ∧ old = (pass + 2) % 4) then s.setEpoch line else s

/-- The line pairs of near memory. -/
def State.pairCount (s : State) : Nat := (if s.flag Slot.nmc Off.NMC.CFG 0 then 0x1000000000 else 0x800000000) / 128

/-- R419: the first pair from `pair` on whose group has not failed: every frame of eight after it is of another group. -/
def State.nextPair (s : State) : Nat → Nat → Nat
  | 0, pair => pair
  | fuel + 1, pair =>
    if s.pairCount ≤ pair ∨ s.nearPop (pair * 128) then pair else s.nextPair fuel ((pair / 32 + 1) * 32)

/-- R419: the scrubber goes on to its next pair; after the last one the pass ends. -/
def State.scrubOn (s : State) (pair : Nat) : State :=
  let n := s.pairCount
  let next := s.nextPair 8 (pair + 1)
  if n ≤ next then
    let s : State := { s with scrubAt := 0 }
    (s.incWrap Slot.nmc Off.NMC.SCRUBSTS 0 32 1).setFld Slot.nmc Off.NMC.SCRUBSTS 32 10 0
  else ({ s with scrubAt := next } : State).setFld Slot.nmc Off.NMC.SCRUBSTS 32 10 (next * 1000 / n)

/-- R419: the scrubber visits a line pair, the next in its order; a pair of a failed group it passes over. -/
def State.scrub (s : State) (pair : Nat) (lo hi : Misread) : State :=
  if !s.blockOn Slot.nmc || !s.flag Slot.nmc Off.NMC.SCRUBCTL 0 || s.nextPair 8 s.scrubAt != pair then s
  else if s.nearPop (pair * 128) then ((s.scrubOne (2 * pair) lo).scrubOne (2 * pair + 1) hi).scrubOn pair
  else s.scrubOn pair

/-- PINCTL: clear, erase or unerase the pin that PINSEL selects. -/
def State.pinCommand (s : State) (clr erase unerase : Bool) : State :=
  let p := s.fld Slot.nmc Off.NMC.PINSEL 0 10
  if 640 ≤ p then s
  else
    let s := if clr then s.setPinCount p 0 else s
    let s := if erase then s.erasePin p else s
    if unerase then s.unerasePin p else s

/-- What the write-back of a line meets, as a list of lines has it. -/
def backOf (found : List (BitVec 42 × WriteBack)) (line : Nat) : WriteBack :=
  ((found.find? (fun x => x.1.toNat == line)).map (·.2)).getD .written

/-- R440: CACHECTL.WBINV of a hearth: write back its modified lines and invalidate its caches. -/
def State.wbinv (s : State) (h : Nat) (found : List (BitVec 42 × WriteBack)) : State :=
  let mine := (s.dirty.filter (fun m => !m.bel && hearthOf m.stove == h)).reverse
  let s := mine.foldl (fun s m => s.writeBack m (backOf found m.line)) s
  { s with
    lines := { s.lines with cover := s.lines.cover.filter (fun c => hearthOf c.stove != h) }
    caches := {
      hob := s.caches.hob.filter (fun x => hearthOf x.stove != h)
      hearth := s.caches.hearth.filter (fun x => x.1 != h)
      fetch := s.caches.fetch.filter (fun x => hearthOf x.1 != h) } }

end Sys2Proof.Machine
end

