-- ==== Sys2Proof/Machine/Crypto.lean ====
section
/-!
DEFINITION. The checks and ciphers the spec names by standard: CRC-32C (R450, R484, R561), SM3 under GB/T 32905 (R259), SM4
in GCM mode under GB/T 32907 (R471, R501), and SM2 signature verification under GB/T 32918.2 on the curve of GB/T 32918.5
with the default distinguishing identifier (R497). The algorithms are those of the standards (assumption log 20).
-/

namespace Sys2Proof.Machine

/-! ## Cyclic redundancy checks -/

/-- One bit of a reflected CRC with polynomial `poly`. -/
def crcBit (poly c : Nat) : Nat := if c % 2 = 1 then Nat.xor (c / 2) poly else c / 2

/-- One byte of a reflected CRC. -/
def crcByte (poly c : Nat) (b : Byte) : Nat :=
  let x := Nat.xor c b.toNat
  let x := crcBit poly (crcBit poly (crcBit poly (crcBit poly x)))
  crcBit poly (crcBit poly (crcBit poly (crcBit poly x)))

/-- A reflected 32-bit CRC of bytes from a register value, without the final exclusive-or. -/
def crcFrom (poly start : Nat) (bs : List Byte) : Nat := bs.foldl (crcByte poly) start

/-- The reflected form of the Castagnoli polynomial 0x1EDC6F41. -/
def polyC : Nat := 0x82F63B78

/-- R484: the CRC-32C of bytes, starting from the CRC of the bytes before them (0 at the start). -/
def crc32cFrom (start : Nat) (bs : List Byte) : Nat :=
  Nat.xor (crcFrom polyC (Nat.xor (start % 2 ^ 32) 0xFFFFFFFF) bs) 0xFFFFFFFF

/-- CRC-32C of bytes. -/
def crc32c (bs : List Byte) : Nat := crc32cFrom 0 bs

/-! ## SM3 -/

/-- Rotate a 32-bit word left. -/
def rot32 (x k : Nat) : Nat := (x * 2 ^ (k % 32) + x / 2 ^ (32 - k % 32)) % 2 ^ 32

/-- The exclusive-or of three words. -/
def xor3 (a b c : Nat) : Nat := Nat.xor (Nat.xor a b) c

/-- The permutation of the compression. -/
def sm3P0 (x : Nat) : Nat := xor3 x (rot32 x 9) (rot32 x 17)
/-- The permutation of the message expansion. -/
def sm3P1 (x : Nat) : Nat := xor3 x (rot32 x 15) (rot32 x 23)

/-- The eight working words. -/
structure Sm3 where
  a : Nat
  b : Nat
  c : Nat
  d : Nat
  e : Nat
  f : Nat
  g : Nat
  h : Nat
  deriving DecidableEq, Repr

/-- The initial value. -/
def sm3Init : Sm3 :=
  ⟨0x7380166f, 0x4914b2b9, 0x172442d7, 0xda8a0600, 0xa96f30bc, 0x163138aa, 0xe38dee4d, 0xb0fb0e4e⟩

/-- The next expanded word from the words before it, newest first. -/
def sm3Next (ws : List Nat) : Nat :=
  let w (i : Nat) : Nat := ws.getD i 0
  xor3 (sm3P1 (xor3 (w 15) (w 8) (rot32 (w 2) 15))) (rot32 (w 12) 7) (w 5)

/-- `n` more expanded words, newest first. -/
def sm3Expand : Nat → List Nat → List Nat
  | 0, ws => ws
  | n + 1, ws => sm3Expand n (sm3Next ws :: ws)

/-- One round: `j`, the word and the word four later. -/
def Sm3.round (v : Sm3) (j w w4 : Nat) : Sm3 :=
  let t := if j < 16 then 0x79cc4519 else 0x7a879d8a
  let r := rot32 v.a 12
  let ss1 := rot32 ((r + v.e + rot32 t (j % 32)) % 2 ^ 32) 7
  let ss2 := Nat.xor ss1 r
  let ff := if j < 16 then xor3 v.a v.b v.c
    else Nat.lor (Nat.lor (Nat.land v.a v.b) (Nat.land v.a v.c)) (Nat.land v.b v.c)
  let gg := if j < 16 then xor3 v.e v.f v.g
    else Nat.lor (Nat.land v.e v.f) (Nat.land (2 ^ 32 - 1 - v.e) v.g)
  let tt1 := (ff + v.d + ss2 + Nat.xor w w4) % 2 ^ 32
  let tt2 := (gg + v.h + ss1 + w) % 2 ^ 32
  { a := tt1, b := v.a, c := rot32 v.b 9, d := v.c, e := sm3P0 tt2, f := v.e, g := rot32 v.f 19, h := v.g }

/-- The rounds over the expanded words, oldest first. -/
def Sm3.rounds : Sm3 → Nat → List Nat → Sm3
  | v, j, w :: w1 :: w2 :: w3 :: w4 :: t => Sm3.rounds (v.round j w w4) (j + 1) (w1 :: w2 :: w3 :: w4 :: t)
  | v, _, _ => v

/-- The big-endian 32-bit words of a byte list. -/
def beWords : List Byte → List Nat
  | a :: b :: c :: d :: t => (((a.toNat * 256 + b.toNat) * 256 + c.toNat) * 256 + d.toNat) :: beWords t
  | _ => []

/-- The compression of one 64-byte block. -/
def Sm3.block (v : Sm3) (bs : List Byte) : Sm3 :=
  let x := v.rounds 0 (sm3Expand 52 (beWords bs).reverse).reverse
  ⟨Nat.xor v.a x.a, Nat.xor v.b x.b, Nat.xor v.c x.c, Nat.xor v.d x.d, Nat.xor v.e x.e, Nat.xor v.f x.f,
   Nat.xor v.g x.g, Nat.xor v.h x.h⟩

/-- `n` blocks of a padded message. -/
def Sm3.blocks : Nat → Sm3 → List Byte → Sm3
  | 0, v, _ => v
  | n + 1, v, bs => Sm3.blocks n (v.block (bs.take 64)) (bs.drop 64)

/-- The padded message. -/
def sm3Pad (bs : List Byte) : List Byte :=
  bs ++ [0x80] ++ zeros ((119 - bs.length % 64) % 64) ++ beBytes 8 (bs.length * 8)

/-- R259: the 32-byte SM3 digest, first byte first. -/
def sm3 (bs : List Byte) : List Byte :=
  let p := sm3Pad bs
  let v := Sm3.blocks (p.length / 64) sm3Init p
  [v.a, v.b, v.c, v.d, v.e, v.f, v.g, v.h].flatMap (beBytes 4)

/-- An SM3 digest as a number whose least significant byte is the first digest byte. -/
def sm3Nat (bs : List Byte) : Nat := leNat (sm3 bs)

/-! ## SM4 and GCM -/

/-- The substitution box as one number, entry 0 in the top byte. -/
def sm4Box : Nat :=
  0xd690e9fecce13db716b614c228fb2c052b679a762abe04c3aa441326498606999c4250f491ef987a33540b43edcfac62e4b31ca9c908e89580df94fa758f3fa64707a7fcf37317ba83593c19e6854fa8686b81b27164da8bf8eb0f4b70569d351e240e5e6358d1a225227c3b01217887d40046579fd327524c3602e7a0c4c89eeabf8ad240c738b5a3f7f2cef96115a1e0ae5da49b341a55ad933230f58cb1e31df6e22e8266ca60c02923ab0d534e6fd5db3745defd8e2f03ff6a726d6c5b518d1baf92bbddbc7f11d95c411f105ad80ac13188a5cd7bbd2d74d012b8e5b4b08969974a0c96777e65b9f109c56ec68418f07dec3adc4d2079ee5f3ed7cb3948

/-- One byte through the substitution box. -/
def sm4Sub (b : Nat) : Nat := sm4Box / 2 ^ (8 * (255 - b % 256)) % 256

/-- The substitution of a 32-bit word. -/
def sm4Tau (x : Nat) : Nat :=
  sm4Sub (x / 2 ^ 24) * 2 ^ 24 + sm4Sub (x / 2 ^ 16) * 2 ^ 16 + sm4Sub (x / 2 ^ 8) * 2 ^ 8 + sm4Sub x

/-- The round transform. -/
def sm4T (x : Nat) : Nat :=
  let b := sm4Tau x
  xor3 (xor3 b (rot32 b 2) (rot32 b 10)) (rot32 b 18) (rot32 b 24)

/-- The key-schedule transform. -/
def sm4Tk (x : Nat) : Nat :=
  let b := sm4Tau x
  xor3 b (rot32 b 13) (rot32 b 23)

/-- The constant of round `i` of the key schedule. -/
def sm4Ck (i : Nat) : Nat := leNat ((List.range 4).reverse.map (fun j => BitVec.ofNat 8 ((4 * i + j) * 7)))

/-- Round keys `i` to 31 from four schedule words. -/
def sm4Keys : Nat → Nat → Nat → Nat → Nat → Nat → List Nat
  | 0, _, _, _, _, _ => []
  | n + 1, i, a, b, c, d =>
    let k := Nat.xor a (sm4Tk (Nat.xor (xor3 b c d) (sm4Ck i)))
    k :: sm4Keys n (i + 1) b c d k

/-- The 32 round keys of a 16-byte key. -/
def sm4Schedule (key : List Byte) : List Nat :=
  match beWords key with
  | [a, b, c, d] => sm4Keys 32 0 (Nat.xor a 0xA3B1BAC6) (Nat.xor b 0x56AA3350) (Nat.xor c 0x677D9197) (Nat.xor d 0xB27022DC)
  | _ => []

/-- The rounds over a block. -/
def sm4Rounds : List Nat → Nat → Nat → Nat → Nat → List Nat
  | [], a, b, c, d => [d, c, b, a]
  | k :: t, a, b, c, d => sm4Rounds t b c d (Nat.xor a (sm4T (Nat.xor (xor3 b c d) k)))

/-- SM4 encryption of a 16-byte block, as a big-endian number. -/
def sm4Enc (ks : List Nat) (block : Nat) : Nat :=
  beNat ((sm4Rounds ks (bitsOf block 96 32) (bitsOf block 64 32) (bitsOf block 32 32) (bitsOf block 0 32)).flatMap (beBytes 4))

/-- One bit of a product in GF(2^128) under GCM's bit order. -/
def ghashStep (x : Nat) : Nat × Nat → Nat → Nat × Nat := fun (z, v) i =>
  let z := if bitAt x (127 - i) then Nat.xor z v else z
  (z, if v % 2 = 1 then Nat.xor (v / 2) (0xE1 * 2 ^ 120) else v / 2)

/-- A product in GF(2^128). -/
def ghashMul (x y : Nat) : Nat := ((List.range 128).foldl (ghashStep x) (0, y)).1

/-- The 16-byte blocks of bytes, the last padded with zeros. -/
def blocks16 : Nat → List Byte → List Nat
  | 0, _ => []
  | n + 1, bs => if bs = [] then [] else
    let b := bs.take 16
    beNat (b ++ zeros (16 - b.length)) :: blocks16 n (bs.drop 16)

/-- GHASH of additional data and ciphertext. -/
def ghash (h : Nat) (aad ct : List Byte) : Nat :=
  let bs := blocks16 (aad.length / 16 + 1) aad ++ blocks16 (ct.length / 16 + 1) ct
    ++ [aad.length * 8 * 2 ^ 64 + ct.length * 8]
  bs.foldl (fun y b => ghashMul (Nat.xor y b) h) 0

/-- The key stream from counter `c`, exclusive-or of the bytes. -/
def gcmStream (ks : List Nat) (iv : Nat) : Nat → Nat → List Byte → List Byte
  | 0, _, _ => []
  | n + 1, c, bs => if bs = [] then [] else
    let k := beBytes 16 (sm4Enc ks (iv * 2 ^ 32 + c % 2 ^ 32))
    (bs.take 16).zipWith (fun a b => a ^^^ b) k ++ gcmStream ks iv n (c + 1) (bs.drop 16)

/-- The tag of a ciphertext. -/
def gcmTag (ks : List Nat) (iv : Nat) (aad ct : List Byte) : List Byte :=
  beBytes 16 (Nat.xor (ghash (sm4Enc ks 0) aad ct) (sm4Enc ks (iv * 2 ^ 32 + 1)))

/-- SM4-GCM encryption under a 16-byte key and a 12-byte IV: ciphertext and tag. -/
def gcmEncrypt (key iv aad pt : List Byte) : List Byte × List Byte :=
  let ks := sm4Schedule key
  let ct := gcmStream ks (beNat iv) (pt.length / 16 + 1) 2 pt
  (ct, gcmTag ks (beNat iv) aad ct)

/-- SM4-GCM decryption: none when the tag does not match. -/
def gcmDecrypt (key iv aad ct tag : List Byte) : Option (List Byte) :=
  let ks := sm4Schedule key
  if gcmTag ks (beNat iv) aad ct = tag then some (gcmStream ks (beNat iv) (ct.length / 16 + 1) 2 ct) else none

/-! ## SM2 verification -/

/-- The field prime. -/
def sm2p : Nat := 0xFFFFFFFEFFFFFFFFFFFFFFFFFFFFFFFFFFFFFFFF00000000FFFFFFFFFFFFFFFF
/-- The curve coefficient a. -/
def sm2a : Nat := sm2p - 3
/-- The curve coefficient b. -/
def sm2b : Nat := 0x28E9FA9E9D9F5E344D5A9E4BCF6509A7F39789F515AB8F92DDBCBD414D940E93
/-- The group order. -/
def sm2n : Nat := 0xFFFFFFFEFFFFFFFFFFFFFFFFFFFFFFFF7203DF6B21C6052B53BBF40939D54123
/-- The base point's x. -/
def sm2gx : Nat := 0x32C4AE2C1F1981195F9904466A39C9948FE30BBFF2660BE1715A4589334C74C7
/-- The base point's y. -/
def sm2gy : Nat := 0xBC3736A2F4F6779C59BDCEE36B692153D0A9877CC62A474002DF32E52139F0A0

/-- A point in Jacobian coordinates; z = 0 is the point at infinity. -/
structure Jac where
  x : Nat
  y : Nat
  z : Nat
  deriving DecidableEq, Repr

/-- Subtraction in the field. -/
def fsubP (a b : Nat) : Nat := (a + sm2p - b % sm2p) % sm2p

/-- Doubling. -/
def Jac.double (q : Jac) : Jac :=
  let y2 := q.y * q.y % sm2p
  let s := 4 * q.x * y2 % sm2p
  let z2 := q.z * q.z % sm2p
  let m := (3 * q.x * q.x + sm2a * (z2 * z2 % sm2p)) % sm2p
  let x := fsubP (m * m) (2 * s)
  { x := x, y := fsubP (m * fsubP s x) (8 * (y2 * y2 % sm2p)), z := 2 * q.y * q.z % sm2p }

/-- Addition. -/
def Jac.add (q r : Jac) : Jac :=
  if q.z = 0 then r
  else if r.z = 0 then q
  else
    let qz2 := q.z * q.z % sm2p
    let rz2 := r.z * r.z % sm2p
    let u1 := q.x * rz2 % sm2p
    let u2 := r.x * qz2 % sm2p
    let s1 := q.y * (rz2 * r.z % sm2p) % sm2p
    let s2 := r.y * (qz2 * q.z % sm2p) % sm2p
    if u1 = u2 then (if s1 = s2 then q.double else { x := 1, y := 1, z := 0 })
    else
      let h := fsubP u2 u1
      let r' := fsubP s2 s1
      let h2 := h * h % sm2p
      let h3 := h2 * h % sm2p
      let v := u1 * h2 % sm2p
      let x := fsubP (fsubP (r' * r') h3) (2 * v)
      { x := x, y := fsubP (r' * fsubP v x) (s1 * h3), z := h * (q.z * r.z % sm2p) % sm2p }

/-- A scalar multiple, over the bits of `k` from bit `n - 1` down. -/
def Jac.mulBits (q : Jac) (k : Nat) : Nat → Jac → Jac
  | 0, acc => acc
  | n + 1, acc =>
    let d := acc.double
    q.mulBits k n (if bitAt k n then d.add q else d)

/-- A power modulo a number, over the bits of the exponent from bit `n - 1` down. -/
def powBits (m b e : Nat) : Nat → Nat → Nat
  | 0, acc => acc
  | n + 1, acc =>
    let d := acc * acc % m
    powBits m b e n (if bitAt e n then d * b % m else d)

/-- The affine x of a point. -/
def Jac.affineX (q : Jac) : Nat :=
  let zi := powBits sm2p q.z (sm2p - 2) 256 1
  q.x * (zi * zi % sm2p) % sm2p

/-- A public key is a point of the curve. -/
def onCurve (x y : Nat) : Bool :=
  decide (x < sm2p) && decide (y < sm2p) && (y * y % sm2p == (x * x * x + sm2a * x + sm2b) % sm2p)

/-- The digest of the default identifier, the curve and a public key (GB/T 32918.2). -/
def sm2Za (pub : List Byte) : List Byte :=
  sm3 ([0x00, 0x80] ++ [0x31, 0x32, 0x33, 0x34, 0x35, 0x36, 0x37, 0x38, 0x31, 0x32, 0x33, 0x34, 0x35, 0x36, 0x37, 0x38]
    ++ beBytes 32 sm2a ++ beBytes 32 sm2b ++ beBytes 32 sm2gx ++ beBytes 32 sm2gy ++ pub)

/-- R497: whether a signature r ∥ s over a message verifies under a public key x ∥ y. -/
def sm2Verify (pub msg sig : List Byte) : Bool :=
  let x := beNat (pub.take 32)
  let y := beNat (pub.drop 32)
  let r := beNat (sig.take 32)
  let s := beNat (sig.drop 32)
  let t := (r + s) % sm2n
  let e := beNat (sm3 (sm2Za pub ++ msg))
  let inf : Jac := { x := 1, y := 1, z := 0 }
  let q := (Jac.mulBits { x := sm2gx, y := sm2gy, z := 1 } s 256 inf).add (Jac.mulBits { x := x, y := y, z := 1 } t 256 inf)
  pub.length == 64 && sig.length == 64 && onCurve x y && decide (0 < r ∧ r < sm2n) && decide (0 < s ∧ s < sm2n)
    && t != 0 && q.z != 0 && (e + q.affineX) % sm2n == r

end Sys2Proof.Machine
end

