-- ==== Sys2Proof/Machine/Rings.lean ====
section
/-!
DEFINITION. Journal rings: the ring table (R252, R253), the checks of R255, records and their chain (R258, R259), appending
(R244, R260, R263) and the order of sequence numbers (R254).
-/

namespace Sys2Proof.Machine

/-- R24, R425: `n` bytes from `a` lie in populated near memory. -/
def State.nearRange (s : State) (a n : Nat) : Bool :=
  decide (a + n ≤ if s.flag Slot.nmc Off.NMC.CFG 0 then 0x1000000000 else 0x800000000)
    && (List.range (min 8 (frameOf (a + n - 1) + 1 - frameOf a))).all (fun i =>
      !s.flag Slot.nmc Off.NMC.NMSTS (8 + (frameOf a + i) % 8))

/-- R252: the ring table entry of a ring. -/
def State.ringAt (s : State) (r : Nat) : Nat := s.reg Slot.chm1 Off.CHM1.JRTBASE + r * 128

/-- R253: a ring table entry. -/
structure Ring where
  base    : Nat
  ctl     : Nat
  head    : Nat
  tail    : Nat
  durable : Nat
  chain   : List Byte
  zero    : Bool
  deriving DecidableEq, Repr

/-- R253: read a ring table entry; `zero` says that its reserved fields are zero. -/
def State.ring (s : State) (r : Nat) : Ring :=
  let a := s.ringAt r
  { base := s.ld a 8, ctl := s.ld (a + 8) 8, head := s.ld (a + 0x10) 8, tail := s.ld (a + 0x18) 8, durable := s.ld (a + 0x20) 8
    chain := s.bytes (a + 0x40) 32
    zero := s.ld (a + 8) 8 / 2 ^ 24 == 0 && s.ld (a + 0x28) 24 == 0 && s.ld (a + 0x60) 32 == 0 }

/-- R252, R396: Chimney reads the table entry of a ring. -/
def State.readRing (s : State) (r : Nat) : State × Ring := (s.devRead (s.ringAt r) 128, s.ring r)

/-- R253: EN. -/
def Ring.en (e : Ring) : Bool := bitAt e.ctl 0
/-- R253: FAULT. -/
def Ring.fault (e : Ring) : Bool := bitAt e.ctl 1
/-- R253: SIZEEXP. -/
def Ring.sizeExp (e : Ring) : Nat := bitsOf e.ctl 2 6
/-- R253: KEY. -/
def Ring.key (e : Ring) : Nat := bitsOf e.ctl 8 4
/-- R253: NPEER. -/
def Ring.npeer (e : Ring) : Nat := bitsOf e.ctl 12 2
/-- R253: ACKN. -/
def Ring.ackn (e : Ring) : Nat := bitsOf e.ctl 14 2
/-- R253: MSET. -/
def Ring.mset (e : Ring) : Nat := bitsOf e.ctl 16 8
/-- R254: the capacity in records. -/
def Ring.cap (e : Ring) : Nat := 2 ^ e.sizeExp / 128

/-- R254: a difference of sequence numbers, modulo 2^64. -/
def seqSub (a b : Nat) : Nat := (a + 2 ^ 64 - b % 2 ^ 64) % 2 ^ 64

/-- R254: the signed difference of two sequence numbers. -/
def seqDiff (a b : Nat) : Int := sextInt 64 (seqSub a b)

/-- R254: where record `q` lies. -/
def Ring.slot (e : Ring) (q : Nat) : Nat := e.base + q % e.cap * 128

/-- R254: the ring is full. -/
def Ring.full (e : Ring) : Bool := seqSub e.head e.tail == e.cap

/-- R470: a mirror set register. -/
def State.msetReg (s : State) (i : Nat) : Nat := s.reg Slot.chm1 (Off.CHM1.MSET0 + 8 * i)

/-- R470: an enabled mirror set. -/
def State.msetOn (s : State) (i : Nat) : Bool := decide (i < 8) && bitAt (s.msetReg i) 63

/-- R255: the conditions on a ring table entry, but for the key. -/
def State.ringOk (s : State) (e : Ring) : Bool :=
  e.en && e.zero && decide (12 ≤ e.sizeExp ∧ e.sizeExp ≤ 34) && e.base % 2 ^ e.sizeExp == 0 && s.nearRange e.base (2 ^ e.sizeExp)
    && decide (e.npeer ≤ 2)
    && (if e.npeer = 0 then e.ackn == 0 else decide (1 ≤ e.ackn ∧ e.ackn ≤ e.npeer))
    && (e.npeer == 0 || (s.msetOn e.mset && decide (e.npeer ≤ bitsOf (s.msetReg e.mset) 40 2)))
    && decide (seqSub (e.durable + 1) e.tail ≤ seqSub e.head e.tail) && decide (seqSub e.head e.tail ≤ e.cap)

/-- R258: bytes 0 to 95 of a record: bytes 16 to 79 are the payload's, and STATUS is whole. -/
def recordBody (q tod : Nat) (payload : List Byte) (status : Nat) : List Byte :=
  leBytes 8 q ++ leBytes 8 tod ++ payload ++ leBytes 8 status ++ zeros 8

/-- R258: STATUS of a record. -/
def recordStatus (user kind key : Nat) (ctx : BitVec 20) (lmode : Nat) : Nat :=
  user + kind * 2 ^ 32 + key * 2 ^ 36 + ctx.toNat * 2 ^ 40 + lmode * 2 ^ 60

/-- R244, R251, R260, R263: what appending record HEAD, whose first 96 bytes are given, writes, in order: the record as two lines, then
CHAIN, HEAD and, without peers, DURABLE of the ring table entry at `a`. -/
def Ring.appendWrites (e : Ring) (a : Nat) (body : List Byte) : List (Nat × List Byte) :=
  let chain := sm3 (e.chain ++ body)
  let slot := e.slot e.head
  [(slot, body.take 64), (slot + 64, body.drop 64 ++ chain), (a + 0x40, chain), (a + 0x10, leBytes 8 (e.head + 1))]
    ++ if e.npeer = 0 then [(a + 0x20, leBytes 8 e.head)] else []

/-- R244, R260, R263, R265: append a record to a ring, each of its writes made by `put`. -/
def State.appendBy (put : State → Nat → List Byte → State) (s : State) (r : BitVec 12) (body : List Byte) : State :=
  let e := s.ring r.toNat
  let s := (e.appendWrites (s.ringAt r.toNat) body).foldl (fun s (a, bs) => put s a bs) s
  if e.npeer = 0 then s.deliverDura r else s

/-- R476: Chimney appends a record to a ring. -/
def State.append (s : State) (r : BitVec 12) (body : List Byte) : State := s.appendBy State.devWrite r body

/-- R244, R262: the stove of a context appends a record to a ring, by way of its hob. -/
def State.appendFor (s : State) (ctx : BitVec 20) (stove : BitVec 6) (r : BitVec 12) (body : List Byte) : State :=
  s.appendBy (fun s a bs => (s.markRange a bs.length true).hobWrite ctx stove a bs) r body

end Sys2Proof.Machine
end

