-- ==== Sys2Proof/Machine/Queues.lean ====
section
/-!
DEFINITION. Chimney's queue states (R452, R454), the counters of the CHM1 page, event delivery on arrival, the release of a
message (R459), and the checks of a queue state at ENABLE.
-/

namespace Sys2Proof.Machine

/-! ## Fields of a queue state (R452), a 128-byte number -/

/-- A field of `n` bytes at a byte offset of a queue state. -/
def qGet (v off n : Nat) : Nat := bitsOf v (8 * off) (8 * n)
/-- Set a field of `n` bytes at a byte offset. -/
def qPut (v off n x : Nat) : Nat := putBits v (8 * off) (8 * n) x

/-- RXBASE. -/
abbrev qRxBase (v : Nat) : Nat := qGet v 0x00 8
/-- RXPROD. -/
abbrev qRxProd (v : Nat) : Nat := qGet v 0x10 8
/-- RXNEXT. -/
abbrev qRxNext (v : Nat) : Nat := qGet v 0x18 8
/-- RXTAIL. -/
abbrev qRxTail (v : Nat) : Nat := qGet v 0x20 8
/-- TXPROD. -/
abbrev qTxProd (v : Nat) : Nat := qGet v 0x30 8
/-- TXCONS. -/
abbrev qTxCons (v : Nat) : Nat := qGet v 0x38 8
/-- TXBASE. -/
abbrev qTxBase (v : Nat) : Nat := qGet v 0x40 8
/-- RBASE. -/
abbrev qRBase (v : Nat) : Nat := qGet v 0x70 8
/-- RXCTL.SIZEEXP. -/
abbrev qSizeExp (v : Nat) : Nat := bitsOf v 64 6
/-- RXCTL.SLOTEXP. -/
abbrev qSlotExp (v : Nat) : Nat := bitsOf v 70 5
/-- RXCTL.DELIV. -/
abbrev qDeliv (v : Nat) : Nat := bitsOf v 75 2
/-- RXCTL.OWNER. -/
abbrev qOwner (v : Nat) : Bool := bitAt v 77
/-- RXCTL.WG. -/
abbrev qWg (v : Nat) : Nat := bitsOf v 80 12
/-- RXCTL.KEY. -/
abbrev qKey (v : Nat) : Nat := bitsOf v 92 4
/-- RXCTL.ACTIVE. -/
abbrev qActive (v : Nat) : Bool := bitAt v 127
/-- TXCTL.DEXP. -/
abbrev qDexp (v : Nat) : Nat := bitsOf v 320 5
/-- TXCTL.PORT. -/
abbrev qPort (v : Nat) : Nat := bitsOf v 325 3
/-- TXCTL.TXMODE. -/
abbrev qTxMode (v : Nat) : Nat := bitsOf v 328 2
/-- TXCTL.TXOWN. -/
abbrev qTxOwn (v : Nat) : Bool := bitAt v 330
/-- ROCE.RMODE. -/
abbrev qRMode (v : Nat) : Nat := bitsOf v 576 2
/-- ROCE.PMTU in bytes. -/
abbrev qPmtu (v : Nat) : Nat := 1024 * 2 ^ bitsOf v 578 2
/-- ROCE.ERR. -/
abbrev qErr (v : Nat) : Bool := bitAt v 580
/-- ROCE.QKEY. -/
abbrev qQKey (v : Nat) : Nat := bitsOf v 608 32
/-- PSN: next to send. -/
abbrev qPsnSend (v : Nat) : Nat := bitsOf v 640 24
/-- PSN: next expected. -/
abbrev qPsnExp (v : Nat) : Nat := bitsOf v 672 24
/-- RCTL.RSZEXP. -/
abbrev qRszExp (v : Nat) : Nat := bitsOf v 960 6
/-- RCTL.RWR. -/
abbrev qRwr (v : Nat) : Bool := bitAt v 966
/-- RCTL.RRD. -/
abbrev qRrd (v : Nat) : Bool := bitAt v 967
/-- RCTL.RKEY. -/
abbrev qRKey (v : Nat) : Nat := bitsOf v 992 32

/-- R455: the slots of a receive ring. -/
def qSlots (v : Nat) : Nat := 2 ^ (qSizeExp v - qSlotExp v)

/-- R455: where a slot sequence number lies. -/
def qSlotAt (v n : Nat) : Nat := qRxBase v + n % qSlots v * 2 ^ qSlotExp v

/-- R462: where a send descriptor lies. -/
def qDescAt (v i : Nat) : Nat := qTxBase v + i % 2 ^ qDexp v * 32

/-! ## Counters -/

/-- CHM1.DROPS: RXNOQ. -/
def State.countNoq (s : State) : State := s.incSat Slot.chm1 Off.CHM1.DROPS 0 32 1
/-- CHM1.MISC: DBERR. -/
def State.countDberr (s : State) : State := s.incSat Slot.chm1 Off.CHM1.MISC 0 32 1
/-- CHM1.MISC: STALEREL. -/
def State.countStale (s : State) : State := s.incSat Slot.chm1 Off.CHM1.MISC 32 32 1
/-- CHM1.DROPS: RXFULL, with LASTFULL. -/
def State.countFull (s : State) (q : Nat) : State :=
  (s.incSat Slot.chm1 Off.CHM1.DROPS 32 32 1).setFld Slot.chm1 Off.CHM1.LASTFULL 0 19 q

/-- The default of a port counter. -/
def statDefault (_ : Nat) : Word := 0

/-- STATSEL: add to a port counter; the octet counters (1 and 7) wrap and the others saturate. -/
def State.countPort (s : State) (port cnt n : Nat) : State :=
  let v := (SMap.get statDefault s.stats (16 * port + cnt)).toNat + n
  let v := if cnt = 1 ∨ cnt = 7 then v else min (2 ^ 64 - 1) v
  { s with stats := SMap.set statDefault s.stats (16 * port + cnt) (BitVec.ofNat 64 v) }

/-! ## On-chip states -/

/-- R452: where the state of a queue lies in memory. -/
def State.queueAt (s : State) (q : Nat) : Nat := s.reg Slot.chm1 Off.CHM1.QSBASE + q * 128

/-- R452: the number of queue states held on chip. -/
def queueRoom : Nat := 32768

/-- Write a queue state to memory. -/
def State.storeQueue (s : State) (q v : Nat) : State := s.devWrite (s.queueAt q) (leBytes 128 v)

/-- R477: a queue state that cannot be read, or a ring write to a failed group, deactivates the queue. -/
def State.queueFail (s : State) (q code addr : Nat) : State :=
  let s := match s.queues.find? (·.1 == q) with
    | some (_, v) => { s with queues := s.queues.filter (·.1 != q) }.storeQueue q (putBits v.toNat 127 1 0)
    | none =>
      let b := (s.byte (s.queueAt q + 15)).toNat
      s.devWrite (s.queueAt q + 15) [BitVec.ofNat 8 (b % 128)]
  (s.setErr Slot.chm1 Off.CHM1.CHM1ERR 2).ashLog 0x50 Slot.chm1 none none addr (code + q * 2 ^ 8)

/-- R452: bring a queue state on chip as the most recently used, writing back the one it replaces. -/
def State.cacheQueue (s : State) (q v : Nat) : State :=
  let qs := (q, BitVec.ofNat 1024 v) :: s.queues.filter (·.1 != q)
  match qs.drop queueRoom with
  | [] => { s with queues := qs }
  | (q', v') :: _ => { s with queues := qs.take queueRoom }.storeQueue q' v'.toNat

/-- R452: the state of a queue as its use finds it; zero where it cannot be read (R477). -/
def State.useQueue (s : State) (q : Nat) : State × Nat :=
  match s.queues.find? (·.1 == q) with
  | some (_, v) => (s.cacheQueue q v.toNat, v.toNat)
  | none =>
    let a := s.queueAt q
    if !s.nearPop a || s.anyPoison a 128 || s.keyLost a then ((s.countLost a 128).queueFail q 1 a, 0)
    else
      let v := leNat (s.bytes a 128)
      let s := s.devRead a 128
      if qActive v then (s.cacheQueue q v, v) else (s, v)

/-- The state of a queue where it stands, with no effect. -/
def State.queue (s : State) (q : Nat) : Nat :=
  match s.queues.find? (·.1 == q) with
  | some (_, v) => v.toNat
  | none => leNat (s.bytes (s.queueAt q) 128)

/-- Change the state of a queue: on chip, or in memory when it is not there (R452). -/
def State.setQueue (s : State) (q v : Nat) : State :=
  if s.queues.any (·.1 == q) then
    { s with queues := s.queues.map (fun e => if e.1 = q then (q, BitVec.ofNat 1024 v) else e) }
  else s.storeQueue q v

/-- R453: write the state of an active queue back and let it go. -/
def State.releaseQueue (s : State) (q v : Nat) : State :=
  { s with queues := s.queues.filter (·.1 != q) }.storeQueue q v

/-- R470: an enabled mirror set names a queue pair: QP0, and QP1 of a primary set with two peers. -/
def State.mirrorNames (s : State) (q : Nat) : Bool :=
  (List.range 8).any (fun i =>
    let m := s.msetReg i
    s.msetOn i && (bitsOf m 0 16 == q || (bitsOf m 40 2 == 2 && !bitAt m 43 && bitsOf m 16 16 == q)))

/-! ## Receive headers (R456) -/

/-- A header's FLAGS. -/
def State.hdrFlags (s : State) (h : Nat) : Nat := s.ld (h + 0x0C) 2
/-- A header's NSLOT. -/
def State.hdrSlots (s : State) (h : Nat) : Nat := s.ld (h + 0x2C) 4
/-- A header's TAKER. -/
def State.hdrTaker (s : State) (h : Nat) : Nat := s.ld (h + 0x20) 4 % 2 ^ 20

/-- R459: advance a tail past every leading header whose RELEASED or SKIP is 1. -/
def State.advanceTail (s : State) (v : Nat) : Nat → Nat → State × Nat
  | 0, t => (s, t)
  | n + 1, t =>
    if t = qRxProd v then (s, t)
    else
      let h := qSlotAt v t
      let s := s.devRead h 64
      if s.hdrFlags h &&& 5 = 0 then (s, t) else s.advanceTail v n ((t + max 1 (s.hdrSlots h)) % 2 ^ 64)

/-- R459: mark the message of a header released and free the slots at the tail. -/
def State.freeMessage (s : State) (q h : Nat) : State :=
  let s := s.devWrite (h + 0x0C) (leBytes 2 (s.hdrFlags h ||| 4))
  let (s, v) := s.useQueue q
  let (s, t) := s.advanceTail v (qSlots v) (qRxTail v)
  s.setQueue q (qPut v 0x20 8 t)

/-- R459: the header of a message. -/
def msgHeader (v buf : Nat) : Nat := buf - buf % 2 ^ qSlotExp v

/-- R459: whether the message of a header is taken, not released, and taken by the context. -/
def State.releasable (s : State) (h : Nat) (ctx : BitVec 20) : Bool :=
  s.hdrFlags h &&& 6 == 2 && s.hdrTaker h == ctx.toNat

/-- R459: a context releases a message. -/
def State.releaseMsg (s : State) (ctx : BitVec 20) (m : Msg) : State :=
  let (s, v) := s.useQueue m.queue.toNat
  let h := msgHeader v m.buf.toNat
  let s := s.devRead h 64
  if s.releasable h ctx then s.freeMessage m.queue.toNat h else s.countStale

/-! ## ENABLE's checks (R454) -/

/-- R454: `lo ≤ mid ≤ hi` of sequence numbers, and `hi − lo` at most `n`. -/
def seqOrdered (lo mid hi n : Nat) : Bool :=
  decide (seqSub mid lo ≤ seqSub hi lo) && decide (seqSub hi lo ≤ n)

/-- R452: the reserved fields of a queue state are zero. -/
def queueClean (v : Nat) : Bool :=
  !bitAt v 79 && bitsOf v 96 31 == 0 && bitsOf v 331 53 == 0 && bitsOf v 581 3 == 0 && bitsOf v 664 8 == 0
    && bitsOf v 696 8 == 0 && bitsOf v 968 24 == 0

/-- R454: the receive part of a queue state. -/
def State.receiveOk (s : State) (v : Nat) : Bool :=
  qSizeExp v == 0 ||
    (decide (12 ≤ qSizeExp v ∧ qSizeExp v ≤ 34) && decide (8 ≤ qSlotExp v ∧ qSlotExp v ≤ 16)
      && decide (qSlotExp v + 2 ≤ qSizeExp v) && qRxBase v % 2 ^ qSizeExp v == 0
      && s.nearRange (qRxBase v) (2 ^ qSizeExp v) && qDeliv v != 3
      && seqOrdered (qRxTail v) (qRxNext v) (qRxProd v) (qSlots v))

/-- R454: the send part of a queue state. -/
def State.sendOk (s : State) (v : Nat) : Bool :=
  qDexp v == 0 ||
    (decide (4 ≤ qDexp v ∧ qDexp v ≤ 20) && qTxBase v % (32 * 2 ^ qDexp v) == 0
      && s.nearRange (qTxBase v) (32 * 2 ^ qDexp v) && qTxMode v != 3
      && decide (seqSub (qTxProd v) (qTxCons v) ≤ 2 ^ qDexp v))

/-- R454: whether ENABLE accepts a queue state. -/
def State.queueOk (s : State) (q v : Nat) : Bool :=
  queueClean v && s.receiveOk v && s.sendOk v && qRMode v != 3 && (qRMode v == 0 || decide (q < 65536))
    && bitsOf v 578 2 != 3 && (qRMode v != 1 || (qDexp v != 0 && qTxMode v == 2))

end Sys2Proof.Machine
end

