-- ==== Sys2Proof/Machine/Chimney.lean ====
section
/-!
DEFINITION. Chimney's receive side (R442 to R459): ports and lanes, frames that leave and PAUSE (R443, R445), the parser and the
lookup vector (R447, R451), wildcard rules and the exact-match table (R448 to R450), placement (R455 to R457), and RULECMD, STATSEL
and QCMD's releases.
-/

namespace Sys2Proof.Machine

/-! ## Ports -/

/-- R442: the number of ports of PORTCFG.MODE. -/
def State.portCount (s : State) : Nat :=
  match s.fld Slot.chm0 Off.CHM0.PORTCFG 0 2 with
  | 1 => 4
  | 2 => 2
  | _ => 8

/-- R442: the mode creates the port. -/
def State.portMade (s : State) (p : Nat) : Bool := decide (p < s.portCount)

/-- PORTSTS.UP of a port. -/
def State.linkUp (s : State) (p : Nat) : Bool := s.portMade p && s.flag Slot.chm0 Off.CHM0.PORTSTS p

/-- MACADDR of a port, first byte first. -/
def State.macOf (s : State) (p : Nat) : List Byte := beBytes 6 (s.fld Slot.chm0 (Off.CHM0.MACADDR0 + 8 * p) 0 48)

/-- R444: the destination address of a frame is one the port accepts. -/
def State.macAccepts (s : State) (p : Nat) (f : List Byte) : Bool :=
  let dst := f.take 6
  let reg := Off.CHM0.MACADDR0 + 8 * p
  dst == s.macOf p || dst == List.replicate 6 0xFF || (bitAt (leNat (f.take 1)) 0 && s.flag Slot.chm0 reg 48)
    || s.flag Slot.chm0 reg 49

/-- R469: a receive time stamp: the counter, corrected, in steps of 8 units. -/
def State.rxStamp (s : State) : Nat :=
  let t := wrapInt 64 ((s.tod : Int) - sextInt 16 (s.fld Slot.chm0 Off.CHM0.TSOFF 0 16))
  t - t % 8

/-- R469: a transmit time stamp. -/
def State.txStamp (s : State) : Nat :=
  wrapInt 64 ((s.tod - s.tod % 8 : Nat) + sextInt 16 (s.fld Slot.chm0 Off.CHM0.TSOFF 16 16))

/-- A big-endian number inside a frame. -/
def beAt (f : List Byte) (off n : Nat) : Nat := beNat (sliceBytes f off n)

/-- EtherTypes of VLAN tags. -/
def isTag (et : Nat) : Bool := et == 0x8100 || et == 0x88A8

/-! ## Frames that leave, and PAUSE -/

/-- R443: the priority of a frame: PCP of its VLAN tag, 0 without one. -/
def framePrio (f : List Byte) : Nat := if isTag (beAt f 12 2) then beAt f 14 1 / 32 else 0

/-- R443, R445: a port may transmit frames of a priority: CHM0 is not Quiesced, and no PAUSE or PFC holds them. -/
def State.mayTransmit (s : State) (port prio : Nat) : Bool :=
  s.blockOn Slot.chm0 && !s.pauses.any (fun x => x.port.toNat == port && (x.prio == 8 || x.prio == prio))

/-- R463: a frame leaves on a port. -/
def State.frameOut (s : State) (port : Nat) (f : List Byte) : State :=
  (({ s with out := s.out ++ [Output.frame (BitVec.ofNat 3 port) f] } : State).countPort port 6 1).countPort port 7 (f.length + 4)

/-- A frame padded to the 60 bytes that Ethernet asks for without the FCS. -/
def padFrame (f : List Byte) : List Byte := f ++ zeros (60 - f.length)

/-- R463: transmit a frame on a port; it waits while the port holds transmission (R443, R445), and a port without a link sends nothing. -/
def State.transmit (s : State) (port : Nat) (f : List Byte) : State :=
  let f := padFrame f
  let s := { s with fresh := s.fresh + 1 }
  if !s.linkUp port then s
  else if s.mayTransmit port (framePrio f) then s.frameOut port f
  else { s with outbuf := s.outbuf ++ [{ port := BitVec.ofNat 3 port, tod := BitVec.ofNat 64 s.tod, bytes := f }] }

/-- R443, R445: frames that waited leave once their ports transmit again. -/
def State.flushTx (s : State) : State :=
  let goes (f : HeldFrame) : Bool := s.mayTransmit f.port.toNat (framePrio f.bytes)
  (s.outbuf.filter goes).foldl (fun s f => s.frameOut f.port.toNat f.bytes) { s with outbuf := s.outbuf.filter (fun f => !goes f) }

/-- R443: a priority of a port is paused for so many quanta of 512 bit times; 0 ends its pause. -/
def State.setPause (s : State) (port prio quanta : Nat) : State :=
  let rest := s.pauses.filter (fun x => !(x.port.toNat == port && x.prio == prio))
  { s with pauses := if quanta = 0 then rest
      else { port := BitVec.ofNat 3 port, prio := prio, left := quanta * 640 * s.portCount } :: rest }

/-- R443: time passes for the pauses. -/
def State.agePauses (s : State) (ps : Nat) : State :=
  { s with pauses := s.pauses.filterMap (fun x => if x.left ≤ ps then none else some { x with left := x.left - ps }) }

/-- The destination address of MAC control frames. -/
def controlAddr : List Byte := [0x01, 0x80, 0xC2, 0x00, 0x00, 0x01]

/-- R443: what a PAUSE or PFC frame does under PFCCTL; none for any other frame. -/
def State.pauseFrame (s : State) (p : Nat) (f : List Byte) : Option State :=
  let en := s.fld Slot.chm0 Off.CHM0.PFCCTL 0 8
  if beAt f 12 2 ≠ 0x8808 ∨ !(f.take 6 == controlAddr || f.take 6 == s.macOf p) then none
  else if beAt f 14 2 = 0x0101 ∧ en ≠ 0 then
    some ((List.range 8).foldl (fun s i =>
      if bitAt en i && bitAt (beAt f 16 2) i then s.setPause p i (beAt f (18 + 2 * i) 2) else s) s).flushTx
  else if beAt f 14 2 = 1 ∧ en = 0 ∧ s.flag Slot.chm0 Off.CHM0.PFCCTL 8 then some (s.setPause p 8 (beAt f 16 2)).flushTx
  else none

/-- R443, R445: a port asserts PFC on its enabled priorities, or PAUSE, under PFCCTL; for how long is not stated. -/
def State.sendPause (s : State) (port : Nat) : State :=
  let en := s.fld Slot.chm0 Off.CHM0.PFCCTL 0 8
  let time := beBytes 2 (Config.wire s.fresh).toNat
  let head := controlAddr ++ s.macOf port ++ [0x88, 0x08]
  let send (body : List Byte) : State :=
    (({ s with fresh := s.fresh + 1 } : State).frameOut port (padFrame (head ++ body))).countPort port 8 1
  if !s.linkUp port then s
  else if en ≠ 0 then send ([0x01, 0x01] ++ beBytes 2 en ++ (List.range 8).flatMap (fun i => if bitAt en i then time else [0, 0]))
  else if s.flag Slot.chm0 Off.CHM0.PFCCTL 8 then send ([0x00, 0x01] ++ time)
  else s

/-- R445: a frame finds too little room in the input buffer of its port. -/
def State.overflow (s : State) (port : Nat) : State := (s.countPort port 4 1).sendPause port

/-! ## The parser -/

/-- The 16-bit big-endian words of a list, padded with a zero byte. -/
def halfWords : List Byte → List Nat
  | [] => []
  | [a] => [a.toNat * 256]
  | a :: b :: t => (a.toNat * 256 + b.toNat) :: halfWords t

/-- The Internet checksum of a list of bytes, complemented. -/
def inetSum (bs : List Byte) : Nat :=
  let x := (halfWords bs).sum
  let x := x % 65536 + x / 65536
  let x := x % 65536 + x / 65536
  65535 - (x % 65536 + x / 65536)

/-- R447: what the parser finds: the lookup vector, and the offsets that DELIV names. -/
structure Parsed where
  vec   : List Byte
  l3    : Nat
  pay   : Option Nat
  udp   : Bool
  dport : Nat
  deriving DecidableEq, Repr

/-- What the network layer gives the transport layer: the L3 code, protocol, DSCP, the two addresses, where the payload
starts and ends, and the pseudo-header but for the length and protocol. -/
structure NetPart where
  code  : Nat
  proto : Nat
  dscp  : Nat
  src   : List Byte
  dst   : List Byte
  start : Nat
  stop  : Nat
  deriving DecidableEq, Repr

/-- Refuse with a REASON of R451 unless a condition holds. -/
def need (reason : Nat) (ok : Bool) : Except Nat Unit := if ok then .ok () else .error reason

/-- The IPv6 extension headers. -/
def v6Extensions : List Nat := [0, 43, 44, 50, 51, 60, 135, 139, 140, 253, 254]

/-- R451: the network layer of a frame whose L3 header is at `o`. -/
def parseNet (f : List Byte) (o et : Nat) : Except Nat NetPart := do
  let n := f.length
  if et = 0x0800 then do
    let ihl := beAt f o 1 % 16 * 4
    let tot := beAt f (o + 2) 2
    need 6 (decide (o + 20 ≤ n) && decide (20 ≤ ihl) && decide (o + ihl ≤ n) && decide (ihl ≤ tot) && decide (o + tot ≤ n))
    need 5 (inetSum (sliceBytes f o ihl) == 0)
    need 1 (ihl == 20)
    need 2 (beAt f (o + 6) 2 % 0x4000 == 0)
    pure { code := 1, proto := beAt f (o + 9) 1, dscp := beAt f (o + 1) 1 / 4, src := zeros 12 ++ sliceBytes f (o + 12) 4,
           dst := zeros 12 ++ sliceBytes f (o + 16) 4, start := o + 20, stop := o + tot }
  else if et = 0x86DD then do
    let plen := beAt f (o + 4) 2
    need 6 (decide (o + 40 ≤ n) && decide (o + 40 + plen ≤ n))
    need 3 (!v6Extensions.contains (beAt f (o + 6) 1))
    pure { code := 2, proto := beAt f (o + 6) 1, dscp := beAt f o 2 / 64 % 64, src := sliceBytes f (o + 8) 16,
           dst := sliceBytes f (o + 24) 16, start := o + 40, stop := o + 40 + plen }
  else pure { code := 0, proto := 0, dscp := 0, src := zeros 16, dst := zeros 16, start := o, stop := n }

/-- The pseudo-header of a UDP checksum. -/
def NetPart.pseudo (p : NetPart) (len : Nat) : List Byte :=
  if p.code = 1 then p.src.drop 12 ++ p.dst.drop 12 ++ [0, 17] ++ beBytes 2 len
  else p.src ++ p.dst ++ beBytes 4 len ++ [0, 0, 0, 17]

/-- R451: the transport layer: the L4 code and the offset of its payload. -/
def parseTransport (f : List Byte) (p : NetPart) : Except Nat (Nat × Option Nat) := do
  let room := p.stop - p.start
  if p.code ≠ 0 ∧ p.proto = 17 then do
    let ul := beAt f (p.start + 4) 2
    need 6 (decide (8 ≤ room) && decide (8 ≤ ul) && decide (ul ≤ room))
    let sum := beAt f (p.start + 6) 2
    need 5 ((p.code == 1 && sum == 0) || inetSum (p.pseudo ul ++ sliceBytes f p.start ul) == 0)
    pure (1, some (p.start + 8))
  else if p.code ≠ 0 ∧ p.proto = 6 then do
    let hl := beAt f (p.start + 12) 1 / 16 * 4
    need 6 (decide (20 ≤ room) && decide (20 ≤ hl) && decide (hl ≤ room))
    pure (3, some (p.start + hl))
  else pure (0, none)

/-- `n` bytes of a frame from an offset, zero beyond the frame. -/
def padSlice (f : List Byte) (off n : Nat) : List Byte :=
  let bs := sliceBytes f off n
  bs ++ zeros (n - bs.length)

/-- R447, R451: parse a frame: the lookup vector, or the REASON that sends it to the exception queue. -/
def parseFrame (port : Nat) (f : List Byte) (payoff : Nat) : Except Nat Parsed := do
  let tagged := isTag (beAt f 12 2)
  need 6 (!tagged || decide (18 ≤ f.length))
  let et := if tagged then beAt f 16 2 else beAt f 12 2
  need 4 (!(tagged && isTag et))
  let o := if tagged then 18 else 14
  let p ← parseNet f o et
  let (l4, pay) ← parseTransport f p
  let ports := if pay.isSome then sliceBytes f p.start 4 else zeros 4
  let payload := match pay with
    | some a => padSlice f (a + payoff) 16
    | none => zeros 16
  pure { vec := leBytes 1 port ++ leBytes 1 (b2n tagged + p.code * 2 + l4 * 8) ++ (if tagged then sliceBytes f 14 2 else zeros 2)
           ++ beBytes 2 et ++ leBytes 1 p.proto ++ leBytes 1 p.dscp ++ p.src ++ p.dst ++ ports ++ zeros 4 ++ payload
         l3 := o, pay := pay, udp := l4 == 1, dport := beAt ports 2 2 }

/-! ## Rules and the exact-match table -/

/-- R450: the key of a format, padded to 40 bytes; none for a reserved format. -/
def matchKey (vec : List Byte) (kf : Nat) : Option (List Byte) :=
  let at' (o n : Nat) : List Byte := sliceBytes vec o n
  let key : Option (List Byte) := match kf with
    | 1 => some (at' 0x06 1 ++ at' 0x14 4 ++ at' 0x24 4 ++ at' 0x28 4)
    | 2 => some (at' 0x06 1 ++ at' 0x08 16 ++ at' 0x18 16 ++ at' 0x28 4)
    | 3 => some (at' 0x18 16 ++ at' 0x2A 2)
    | 4 => some (at' 0x2A 2 ++ at' 0x30 16)
    | 5 => some (at' 0x00 1 ++ at' 0x02 2 ++ at' 0x30 16)
    | _ => none
  key.map (fun k => k ++ zeros (40 - k.length))

/-- R450: the hash of a key and its format. -/
def keyHash (key : List Byte) (kf : Nat) : Nat := crc32c (key ++ leBytes 1 kf)

/-- R450: how a look-up in the exact-match table ends. -/
inductive Lookup where
  | hit (queue user : Nat)
  | miss
  | unreadable
  deriving DecidableEq, Repr

/-- R450: the bucket of a key. -/
def State.bucketAt (s : State) (key : List Byte) (kf : Nat) : Nat :=
  s.reg Slot.chm1 Off.CHM1.EMBASE + keyHash key kf % 524288 * 256

/-- R450: look a key up in its bucket. -/
def State.lookup (s : State) (key : List Byte) (kf : Nat) : Lookup :=
  let b := s.bucketAt key kf
  if !s.nearPop b || s.anyPoison b 256 || s.keyLost b then .unreadable
  else
    let hit (e : Nat) : Bool :=
      let c := s.ld (b + 64 * e + 0x28) 1
      bitAt c 7 && c % 16 == kf && s.bytes (b + 64 * e) 40 == key
    match (List.range 4).find? hit with
    | some e => .hit (s.ld (b + 64 * e + 0x29) 3 % 2 ^ 19) (s.ld (b + 64 * e + 0x2C) 4)
    | none => .miss

/-- A rule that nothing has loaded. -/
def Rule.empty : Rule := { value := 0, mask := 0, action := 0, hits := 0 }

/-- R448: a rule matches a vector. -/
def Rule.matches (r : Rule) (vec : BitVec 512) : Bool := bitAt r.action.toNat 0 && (vec ^^^ r.value) &&& r.mask == 0

/-- R449: the spread queue of a rule for a frame. -/
def Rule.spread (r : Rule) (vec : List Byte) : Nat :=
  let kf := bitsOf (leNat (sliceBytes vec 1 1)) 1 2
  let h := match matchKey vec kf with
    | some k => if kf = 0 then 0 else keyHash k kf
    | none => 0
  (bitsOf r.action.toNat 8 19 + h % 2 ^ bitsOf r.action.toNat 28 4) % 524288

/-! ## Placement -/

/-- R455, R456: a message to place: its stored bytes and the fields of its receive header. -/
structure Arrival where
  stored : List Byte
  doff   : Nat := 0
  flags  : Nat := 0
  reason : Nat := 0
  port   : Nat
  tod    : Nat
  rule   : Nat := 0
  user   : Nat := 0
  imm    : Nat := 0
  srcQp  : Nat := 0
  deriving DecidableEq, Repr

/-- R457: how a placement ends. -/
inductive Placed where
  | placed
  | noQueue
  | full
  | failed
  deriving DecidableEq, Repr

/-- R456: a receive header. -/
def Arrival.header (m : Arrival) (seq slots : Nat) : List Byte :=
  leBytes 8 seq ++ leBytes 2 m.stored.length ++ leBytes 2 m.doff ++ leBytes 2 m.flags ++ leBytes 1 m.reason
    ++ leBytes 1 m.port ++ leBytes 8 m.tod ++ leBytes 2 m.rule ++ zeros 2 ++ leBytes 4 m.user ++ zeros 4
    ++ leBytes 4 m.imm ++ leBytes 4 m.srcQp ++ leBytes 4 slots ++ zeros 16

/-- R456: the header of skipped slots. -/
def skipHeader (seq slots : Nat) : List Byte :=
  leBytes 8 seq ++ zeros 4 ++ leBytes 2 1 ++ zeros 30 ++ leBytes 4 slots ++ zeros 16

/-- A list of bytes, zero-padded to a whole number of lines. -/
def padLines (bs : List Byte) : List Byte := bs ++ zeros ((64 - bs.length % 64) % 64)

/-- R391, R425, R572: Chimney can write the lines of `n` bytes from `a`. -/
def State.canWrite (s : State) (a n : Nat) : Bool :=
  (linesTouched a n).all (fun l => s.nearPop (l * 64) && !s.keyLost (l * 64) && !s.fktLine (l * 64))

/-- R457: place a message in a queue. -/
def State.place (s : State) (q : Nat) (m : Arrival) : State × Placed :=
  let (s, v) := s.useQueue q
  if !qActive v || qSizeExp v == 0 then (s.countNoq, .noQueue)
  else
    let n := qSlots v
    let slot := 2 ^ qSlotExp v
    let k := ceilDiv (64 + m.stored.length) slot
    let i := qRxProd v % n
    let skip := if n < i + k then n - i else 0
    if n < k ∨ n < seqSub (qRxProd v + skip + k) (qRxTail v) then (s.countFull q, .full)
    else
      let seq := (qRxProd v + skip) % 2 ^ 64
      let at' := qSlotAt v seq
      let body := padLines (m.header seq k ++ m.stored)
      if !(s.canWrite at' body.length && (skip == 0 || s.canWrite (qSlotAt v (qRxProd v)) 64)) then
        ((s.countLost at' body.length).queueFail q 2 at', .failed)
      else
        let s := if skip = 0 then s else s.devWrite (qSlotAt v (qRxProd v)) (skipHeader (qRxProd v) skip)
        let s := s.devWrite at' body
        let s := s.setQueue q (qPut v 0x10 8 (seq + k))
        (if qOwner v then s else s.deliverGroup 0 (qWg v), .placed)

/-- STEER.EXCQ. -/
def State.excQueue (s : State) : Nat := s.fld Slot.chm1 Off.CHM1.STEER 32 19

/-- R446, R456: deliver a frame whole to the exception queue with a REASON. -/
def State.toExc (s : State) (f : HeldFrame) (reason rule : Nat) : State :=
  ((s.countPort f.port.toNat 0xB 1).place s.excQueue
    { stored := f.bytes, flags := 8, reason := reason, port := f.port.toNat, tod := f.tod.toNat, rule := rule }).1

/-- R456: deliver a parsed frame to a queue. -/
def State.toQueue (s : State) (q : Nat) (f : HeldFrame) (p : Parsed) (rule user : Nat) : State :=
  let v := s.queue q
  let off : Option Nat := match qDeliv v with
    | 0 => some 0
    | 1 => some p.l3
    | _ => p.pay
  if qActive v && qSizeExp v != 0 && (off.getD f.bytes.length ≥ f.bytes.length) then s.toExc f 9 rule
  else (s.place q { stored := f.bytes, doff := off.getD 0, port := f.port.toNat, tod := f.tod.toNat, rule := rule,
                    user := user }).1

/-- R446 steps 3 and 4: steer a parsed frame by the rules, or by default. -/
def State.steerParsed (s : State) (f : HeldFrame) (p : Parsed) : State :=
  let vec : BitVec 512 := BitVec.ofNat 512 (leNat p.vec)
  match s.rules.find? (fun e => e.2.matches vec) with
  | none =>
    if s.flag Slot.chm1 Off.CHM1.STEER 51 then s.toQueue (s.fld Slot.chm1 Off.CHM1.STEER 0 19) f p 0 0 else s.countNoq
  | some (i, r) =>
    let s := { s with rules := SMap.set (fun _ => Rule.empty) s.rules i { r with hits := r.hits + 1 } }
    let rule := i + 2 ^ 14
    let kf := bitsOf r.action.toNat 3 4
    match bitsOf r.action.toNat 1 2 with
    | 0 => s.countNoq
    | 1 => s.toQueue (r.spread p.vec) f p rule 0
    | 2 =>
      match matchKey p.vec kf with
      | none => s.toExc f 8 rule
      | some key =>
        let b := s.bucketAt key kf
        match s.lookup key kf with
        | .unreadable => (s.countLost b 256).toExc f 0xA rule
        | .hit q user => (s.devRead b 256).toQueue q f p (rule + 2 ^ 15) user
        | .miss => (s.devRead b 256).toQueue (r.spread p.vec) f p rule 0
    | _ => s.toExc f 7 rule

/-- The lanes of each port (R442). -/
def State.lanes (s : State) : Nat := 8 / s.portCount

/-- The bytes of a frame that carries a RoCE packet, its FCS excluded, as the input buffers hold it (R445). A packet other than a UD SEND
is taken to come in an untagged IPv4 frame. -/
def roceSize (p : RocePacket) : Nat :=
  match p.kind with
  | .send x => match x.ud with
    | some u => u.frame.length + 4
    | none => 58 + x.payload.length + (if x.imm.isSome then 4 else 0)
  | .write x => 58 + x.payload.length + (if x.first then 16 else 0)
  | .read _ _ _ => 74
  | .ack _ => 62

/-- The bytes of a mirror message in one frame (R471). -/
def mirrorSize : MirrorMsg → Nat
  | .hello _ _ _ => 90 + 160
  | .helloReply _ _ _ _ => 90 + 224
  | .confirm _ => 90 + 64
  | .resume _ _ _ | .ack _ _ _ => 90 + 32
  | .records _ _ rs => 90 + 128 * rs.length
  | .close _ => 90

/-- R445: what held work takes up in the input buffer of a port. -/
def State.workSize (s : State) (port : Nat) : Work → Nat
  | .packet p => if p.head.port.toNat = port then roceSize p else 0
  | .mirror h m => if qPort (s.queue h.qp.toNat) = port then mirrorSize m else 0
  | .store _ _ _ | .debug _ | .group _ _ | .event _ _ | .dura _ | .write _ _ _ | .door _ _ | .inbound _ _ => 0

/-- R445: the input buffer of a port has room for `n` bytes more. -/
def State.roomFor (s : State) (port n : Nat) : Bool :=
  decide (((s.inbuf.filter (·.port.toNat == port)).map (·.bytes.length)).sum + (s.parked.map (s.workSize port)).sum + n
    ≤ s.lanes * 524288)

/-- R445: hold a frame in its port's input buffer, or count it in RXOVER. -/
def State.holdFrame (s : State) (f : HeldFrame) : State :=
  if s.roomFor f.port.toNat f.bytes.length then { s with inbuf := s.inbuf ++ [f] } else s.overflow f.port.toNat

/-- R445: hold work that arrived at a port in its input buffer, or count it in RXOVER. -/
def State.holdWork (s : State) (port : Nat) (w : Work) : State :=
  if s.roomFor port (s.workSize port w) then s.park w else s.overflow port

/-! ## Commands of the receive side -/

/-- R448: RULECMD, for rules FIRST to LAST: copy one rule of the image. -/
def State.loadRule (s : State) (i : Nat) : Option State :=
  let a := s.reg Slot.chm1 Off.CHM1.RULEBASE + i * 256
  if !s.nearPop a || s.anyPoison a 256 || s.keyLost a then none
  else
    let old := SMap.get (fun _ => Rule.empty) s.rules i
    let r : Rule := { value := BitVec.ofNat 512 (s.ld a 64), mask := BitVec.ofNat 512 (s.ld (a + 0x40) 64),
                      action := BitVec.ofNat 64 (s.ld (a + 0x80) 8), hits := old.hits }
    some ({ s with rules := SMap.set (fun _ => Rule.empty) s.rules i r }.devRead a 256)

/-- R448: write one rule's hit count. -/
def State.dumpRule (s : State) (i : Nat) : Option State :=
  let a := s.reg Slot.chm1 Off.CHM1.RULEBASE + i * 256 + 0x88
  if s.canWrite a 8 then some (s.devWrite a (wordBytes (SMap.get (fun _ => Rule.empty) s.rules i).hits)) else none

/-- R448: a command over the rules of a list; it stops and sets REFUSED at the first that fails. -/
def State.ruleLoop (s : State) (f : State → Nat → Option State) : List Nat → State
  | [] => s
  | i :: t => match f s i with
    | some s => s.ruleLoop f t
    | none => (s.countLost (s.reg Slot.chm1 Off.CHM1.RULEBASE + i * 256) 256).setFlag Slot.chm1 Off.CHM1.RULECMD 33 true

/-- R448: RULECMD. -/
def State.ruleCommand (s : State) (op first last : Nat) : State :=
  let s := s.setFlag Slot.chm1 Off.CHM1.RULECMD 33 false
  let is := (List.range (last + 1 - first)).map (first + ·)
  if last < first then s.setFlag Slot.chm1 Off.CHM1.RULECMD 33 true
  else if op = 1 then s.ruleLoop State.loadRule is
  else if op = 2 then s.ruleLoop State.dumpRule is
  else s.setFlag Slot.chm1 Off.CHM1.RULECMD 33 true

/-- STATSEL.CLR: clear the selected counter. -/
def State.clearStat (s : State) (port cnt : Nat) : State :=
  { s with stats := SMap.set statDefault s.stats (16 * port + cnt) 0 }

/-- STATVAL: the selected counter. -/
def State.statVal (s : State) : Nat :=
  let cnt := s.fld Slot.chm0 Off.CHM0.STATSEL 8 4
  if cnt < 14 then (SMap.get statDefault s.stats (16 * s.fld Slot.chm0 Off.CHM0.STATSEL 0 3 + cnt)).toNat else 0

end Sys2Proof.Machine
end

