-- ==== Sys2Proof/Machine/Transmit.lean ====
section
/-!
DEFINITION. Chimney's send side (R462 to R464): send descriptors, raw and reply frames, RoCE packets (R466), doorbells, the RC
requester (R467), and QCMD (R453).
-/

namespace Sys2Proof.Machine

/-! ## Descriptors -/

/-- R462: a send descriptor. -/
structure Desc where
  addr  : Nat
  len   : Nat
  flags : Nat
  hdr   : Nat
  deriving DecidableEq, Repr

/-- R462: read a descriptor. -/
def State.desc (s : State) (a : Nat) : Desc :=
  { addr := s.ld a 8, len := s.ld (a + 8) 2, flags := s.ld (a + 0xA) 1, hdr := s.ld (a + 0x10) 8 }

/-- FLAGS.TS. -/
def Desc.ts (d : Desc) : Bool := bitAt d.flags 1
/-- FLAGS.REPLY. -/
def Desc.reply (d : Desc) : Bool := bitAt d.flags 2
/-- FLAGS.REL. -/
def Desc.rel (d : Desc) : Bool := bitAt d.flags 3

/-- R462: whether Chimney can read one line: 0, or the STATUS that says why not. `key` is the access key of a doorbell-owned
ring (R464). -/
def State.lineStatus (s : State) (key : Option Nat) (l : Nat) : Nat :=
  let a := l * 64
  if !s.ordinary a || !s.populated .load a then 1
  else if (key.map (fun k => !keyAllows (s.keyByte a) k false)).getD false then 7
  else if s.poisoned a || s.keyLost a then 2
  else 0

/-- R462: the first line of `n` bytes that Chimney cannot read. -/
def State.sourceFails (s : State) (key : Option Nat) (a n : Nat) : Option Nat :=
  (linesTouched a n).find? (fun l => s.lineStatus key l != 0)

/-- R462: whether Chimney can read `n` bytes: the STATUS of the first line that fails. -/
def State.sourceStatus (s : State) (key : Option Nat) (a n : Nat) : Nat := (s.sourceFails key a n).elim 0 (s.lineStatus key)

/-- R391, R396: Chimney reads `n` bytes, or stops at a lost key byte, which is counted. -/
def State.sourceRead (s : State) (key : Option Nat) (a n : Nat) : State :=
  match s.sourceFails key a n with
  | none => s.devRead a n
  | some l => if s.lineStatus key l = 2 then s.countKeyLost (l * 64) else s

/-- R464: the access key of the descriptors and source bytes of a send ring: RXCTL.KEY where a doorbell posts them. -/
def txKey (v : Nat) : Option Nat := if qTxOwn v then some (qKey v) else none

/-- R462, R464: the descriptor at an address as Chimney finds it; one that it cannot read asks for nothing. -/
def State.descFound (s : State) (v a : Nat) : Desc :=
  if s.lineStatus (txKey v) (lineOf a) = 0 then s.desc a else { addr := 0, len := 0, flags := 0, hdr := 0 }

/-- The receive ring of a queue holds an address. -/
def State.ringHolds (s : State) (h q : Nat) : Bool :=
  let v := s.queue q
  qSizeExp v != 0 && decide (qRxBase v ≤ h ∧ h < qRxBase v + 2 ^ qSizeExp v)

/-- R463 step 5: the queue whose receive ring holds a header: the sending queue, a queue on chip, or any other. -/
def State.ringOwner (s : State) (q h : Nat) : Option Nat :=
  if s.ringHolds h q then some q
  else match (s.queues.map (·.1)).find? (s.ringHolds h) with
    | some x => some x
    | none => (List.range 524288).find? (s.ringHolds h)

/-- R463 steps 3 to 5: complete descriptor `i` of a queue. -/
def State.completeDesc (s : State) (q i status stamp : Nat) : State :=
  let (s, v) := s.useQueue q
  let a := qDescAt v i
  let d := s.descFound v a
  let s := if d.ts && status == 0 then s.devWrite (a + 0x18) (leBytes 8 stamp) else s
  let s := s.devWrite (a + 0xA) (leBytes 1 (d.flags ||| 1) ++ leBytes 1 status)
  let s := s.setQueue q (qPut v 0x38 8 (i + 1))
  let s := if status = 1 ∨ status = 2 ∨ status = 7 ∨ status = 8 then
      s.ashLog 0x50 Slot.chm1 none none d.addr (3 + q * 2 ^ 8)
    else s
  if d.rel && d.hdr != 0 then
    let s := s.devRead d.hdr 64
    match s.ringOwner q d.hdr with
    | some o => if qTxOwn v || s.hdrFlags d.hdr &&& 6 == 2 then s.freeMessage o d.hdr else s.countStale
    | none => s.countStale
  else s

/-! ## Frames -/

/-- An IP header for UDP: IPv4 without options, or the base header of IPv6. What the spec leaves open of it comes from `w`. -/
def ipHeader (v4 : Bool) (tos hops w ul : Nat) (src dst : List Byte) : List Byte :=
  if v4 then
    let head : List Byte := [0x45] ++ leBytes 1 tos ++ beBytes 2 (20 + ul) ++ beBytes 2 w ++ [BitVec.ofNat 8 (w / 2 ^ 16 % 2 * 64), 0]
      ++ leBytes 1 hops ++ [17, 0, 0] ++ src.drop 12 ++ dst.drop 12
    spliceBytes head 10 (beBytes 2 (inetSum head))
  else beBytes 4 (6 * 2 ^ 28 + tos * 2 ^ 20 + w % 2 ^ 20) ++ beBytes 2 ul ++ [17] ++ leBytes 1 hops ++ src ++ dst

/-- A UDP datagram with its checksum. -/
def udpDatagram (v4 : Bool) (src dst sport dport data : List Byte) : List Byte :=
  let ul := 8 + data.length
  let net : NetPart := { code := if v4 then 1 else 2, proto := 17, dscp := 0, src := src, dst := dst, start := 0, stop := 0 }
  let udp := sport ++ dport ++ beBytes 2 ul ++ [0, 0] ++ data
  let sum := inetSum (net.pseudo ul ++ udp)
  spliceBytes udp 6 (beBytes 2 (if sum = 0 then 65535 else sum))

/-- R463: the frame of a reply to the frame at a receive header, and its port; none when it is not a UDP datagram over IP. -/
def State.replyFrame (s : State) (h : Nat) (data : List Byte) : Option (List Byte × Nat) :=
  let port := s.ld (h + 0x0F) 1
  let f := s.bytes (h + 64) (s.ld (h + 8) 2)
  if s.ld (h + 0x0E) 1 ≠ 0 ∨ bitAt (s.hdrFlags h) 4 then none
  else match parseFrame port f 0 with
    | .error _ => none
    | .ok p =>
      if !p.udp then none
      else
        let w := (Config.wire s.fresh).toNat
        let dscp := leNat (sliceBytes p.vec 7 1)
        let v4 := bitsOf (leNat (sliceBytes p.vec 1 1)) 1 2 == 1
        let src := sliceBytes p.vec 0x18 16
        let dst := sliceBytes p.vec 0x08 16
        let head := ipHeader v4 (dscp * 4) (s.fld Slot.chm0 Off.CHM0.PORTCFG 24 8) w (8 + data.length) src dst
        let udp := udpDatagram v4 src dst (sliceBytes p.vec 0x2A 2) (sliceBytes p.vec 0x28 2) data
        some (sliceBytes f 6 6 ++ s.macOf port ++ sliceBytes f 12 (p.l3 - 12) ++ head ++ udp, port)

/-! ## RoCE packets -/

/-- The CRC-32 of IEEE 802.3. -/
def crc32 (bs : List Byte) : Nat := Nat.xor (crcFrom 0xEDB88320 0xFFFFFFFF bs) 0xFFFFFFFF

/-- R466: the ICRC of a frame whose L3 header is at `o`, base transport header at `b`, and which ends, ICRC excluded, at `n`:
the variable fields are taken as ones. -/
def icrcOf (f : List Byte) (o b n : Nat) (v4 : Bool) : Nat :=
  let ones (f : List Byte) (a k : Nat) : List Byte := spliceBytes f a (List.replicate k 0xFF)
  let f := if v4 then ones (ones (ones f (o + 1) 1) (o + 8) 1) (o + 10) 2
    else spliceBytes (ones (ones f (o + 1) 3) (o + 7) 1) o (leBytes 1 (beAt f o 1 ||| 0x0F))
  let f := ones (ones f (b - 2) 2) (b + 4) 1
  crc32 (List.replicate 8 0xFF ++ sliceBytes f o (n - o))

/-- The way to a peer: the port, its MAC address, the VLAN tag, and its IP address in 16 bytes. -/
structure Route where
  port : Nat
  mac  : List Byte
  tag  : List Byte
  v4   : Bool
  ip   : List Byte
  deriving DecidableEq, Repr

/-- R452: the way to the peer of an RC queue pair: PORT, PEERMAC, PEERTAG and PEERIP, IPv4 in IPv4-mapped form. -/
def peerRoute (v : Nat) : Route :=
  let st := leBytes 128 v
  let ip := sliceBytes st 0x58 16
  let v4 := ip.take 12 == zeros 10 ++ [0xFF, 0xFF]
  let tag := qGet v 0x6E 2
  { port := qPort v, mac := sliceBytes st 0x68 6, tag := if bitAt tag 15 then [0x81, 0x00] ++ beBytes 2 (tag / 2 ^ 12 % 8 * 2 ^ 13 + tag % 2 ^ 12) else []
    v4 := v4, ip := if v4 then zeros 12 ++ ip.drop 12 else ip }

/-- R463: the way back to the source of a UD message: from the frame that its receive header has. -/
def State.backRoute (s : State) (v h : Nat) : Route :=
  let f := s.bytes (h + 64) (s.ld (h + 8) 2)
  let tagged := isTag (beAt f 12 2)
  let o := if tagged then 18 else 14
  let v4 := beAt f (o - 2) 2 == 0x0800
  { port := qPort v, mac := sliceBytes f 6 6, tag := if tagged then sliceBytes f 12 4 else [], v4 := v4
    ip := if v4 then zeros 12 ++ sliceBytes f (o + 12) 4 else sliceBytes f (o + 8) 16 }

/-- R466: the device's IP address for RoCE, as a source address beside one of the peer's kind. -/
def State.localIp (s : State) (v4 : Bool) : List Byte :=
  let ip := beBytes 8 (s.reg Slot.chm0 Off.CHM0.LIPHI) ++ beBytes 8 (s.reg Slot.chm0 Off.CHM0.LIPLO)
  if v4 then zeros 12 ++ ip.drop 12 else ip

/-- What a RoCE packet is: its opcode, destination queue pair and PSN, whether it asks for an acknowledgement, its extended header, and
its payload. -/
structure Packet where
  op   : Nat
  dqp  : Nat
  psn  : Nat
  ask  : Bool
  ext  : List Byte
  data : List Byte
  deriving DecidableEq, Repr

/-- The base transport header of a packet with `pad` bytes of padding: solicited event, migration state and P_Key come from `w`. -/
def Packet.bth (p : Packet) (pad w : Nat) : List Byte :=
  leBytes 1 p.op ++ leBytes 1 (w % 2 * 128 + w / 2 % 2 * 64 + pad * 16) ++ beBytes 2 (w / 4) ++ [0] ++ beBytes 3 p.dqp
    ++ leBytes 1 (b2n p.ask * 128) ++ beBytes 3 p.psn

/-- R466: the frame of a RoCE v2 packet to a peer, ICRC included. -/
def State.roceFrame (s : State) (r : Route) (p : Packet) : List Byte :=
  let w := (Config.packet s.fresh).toNat
  let pad := (4 - p.data.length % 4) % 4
  let src := s.localIp r.v4
  let body := p.bth pad w ++ p.ext ++ p.data ++ zeros pad
  let eth := r.mac ++ s.macOf r.port ++ r.tag ++ (if r.v4 then [0x08, 0x00] else [0x86, 0xDD])
  let head := eth ++ ipHeader r.v4 (w / 2 ^ 40 % 256) (w / 2 ^ 48 % 256) (w / 2 ^ 18) (12 + body.length) src r.ip
  let sport := beBytes 2 (w / 2 ^ 56)
  let dport := beBytes 2 4791
  let plain := head ++ sport ++ dport ++ beBytes 2 (12 + body.length) ++ [0, 0] ++ body
  let icrc := leBytes 4 (icrcOf plain eth.length (head.length + 8) plain.length r.v4)
  head ++ udpDatagram r.v4 src r.ip sport dport (body ++ icrc)

/-! ## The RC requester -/

/-- R467: the transport state of a queue pair. -/
def State.rcOf (s : State) (qp : Nat) : RcQp :=
  (s.rc.find? (·.qp == qp)).getD { qp := qp, part := none, write := none, sent := [], tries := 0 }

/-- Put the transport state of a queue pair back. -/
def State.putRc (s : State) (x : RcQp) : State := { s with rc := x :: s.rc.filter (·.qp != x.qp) }

/-- The pieces of a message by the path MTU; an empty message is one empty piece. -/
def mtuPieces : Nat → Nat → List Byte → List (List Byte)
  | 0, _, bs => [bs]
  | fuel + 1, mtu, bs => if bs.length ≤ mtu then [bs] else bs.take mtu :: mtuPieces fuel mtu (bs.drop mtu)

/-- R452: ROCE.DQPN of a queue state. -/
abbrev qDqpn (v : Nat) : Nat := bitsOf v 584 24

/-- A packet of an RC queue pair leaves for its peer. -/
def State.emit (s : State) (v : Nat) (p : Packet) : State := s.transmit (peerRoute v).port (s.roceFrame (peerRoute v) p)

/-- The ACK extended header of a response: the syndrome, and a message number that the spec does not state. -/
def State.aeth (s : State) (syndrome : Nat) : List Byte := leBytes 1 syndrome ++ beBytes 3 (Config.wire s.fresh).toNat

/-- The packets of an RC message: opcode `base` for the first, +1 for a middle, +2 for the last and `only` for a single one. A SEND asks
for an acknowledgement with its last packet; an `answer` carries the ACK header in its first and its last. -/
def State.emitAll (s : State) (v base only psn : Nat) (answer : Bool) : List (List Byte) → Nat → State
  | [], _ => s
  | b :: t, i =>
    let last := t.isEmpty
    let op := if last then (if i = 0 then only else base + 2) else if i = 0 then base else base + 1
    (s.emit v { op := op, dqp := qDqpn v, psn := (psn + i) % 2 ^ 24, ask := !answer && last,
                ext := if answer && (last || i == 0) then s.aeth 0 else [], data := b }).emitAll v base only psn answer t (i + 1)

/-- R467: send one message on an RC queue pair and keep it until it is acknowledged. -/
def State.rcSend (s : State) (qp : Nat) (load : RcLoad) (bs : List Byte) : State :=
  let (s, v) := s.useQueue qp
  let ps := mtuPieces bs.length (qPmtu v) bs
  let psn := qPsnSend v
  let x := s.rcOf qp
  let m : RcSent := { psn := BitVec.ofNat 24 psn, pkts := ps.length, load := load, stamp := BitVec.ofNat 64 s.txStamp, bytes := bs }
  ((s.emitAll v 0 4 psn false ps 0).putRc { x with sent := x.sent ++ [m] }).setQueue qp
    (putBits v 640 24 (psn + ps.length))

/-- R467: go back: send every outstanding message again. -/
def State.rcResend (s : State) (qp : Nat) : State :=
  let v := s.queue qp
  (s.rcOf qp).sent.foldl (fun s m =>
    s.emitAll v 0 4 m.psn.toNat false (mtuPieces m.bytes.length (qPmtu v) m.bytes) 0) s

/-- R453: a DISABLE that waits for its last descriptor ends: the state is written back. -/
def State.finishClose (s : State) (q : Nat) : State :=
  let v := s.queue q
  if s.closing = some q ∧ (qDexp v = 0 ∨ qTxCons v = qTxProd v) then
    ({ s with closing := none }.releaseQueue q v).setFlag Slot.chm1 Off.CHM1.QCMD 32 false
  else s

/-- Complete the descriptor that an acknowledged or failed message carries. -/
def State.finishSent (s : State) (q status : Nat) (m : RcSent) : State :=
  match m.load with
  | .desc i => (s.completeDesc q i.toNat status m.stamp.toNat).finishClose q
  | .mirror _ => s

/-- R467: the queue pair enters the error state; its outstanding descriptors complete with STATUS 0x5. -/
def State.rcError (s : State) (qp : Nat) : State :=
  let x := s.rcOf qp
  let (s, v) := s.useQueue qp
  let s := s.setQueue qp (putBits v 580 1 1)
  let s := s.putRc { x with sent := [], tries := 0, part := none, write := none }
  x.sent.foldl (fun s m => s.finishSent qp 5 m) s

/-! ## Completing descriptors -/

/-- How many descriptors of a queue await acknowledgement. -/
def RcQp.waiting (x : RcQp) : Nat :=
  (x.sent.filter (fun m => match m.load with
    | .desc _ => true
    | .mirror _ => false)).length

/-- R463: the parts of memory that a descriptor has Chimney read, each with its access key: the source, the header at HDR, and the message
there where the descriptor answers it. -/
def State.descParts (s : State) (v : Nat) (d : Desc) : List (Option Nat × Nat × Nat) :=
  if d.reply ∧ d.hdr = 0 then []
  else (txKey v, d.addr, d.len) ::
    (if d.hdr = 0 then []
     else (none, d.hdr, 64) ::
      (if qTxMode v = 0 ∨ (qTxMode v = 2 ∧ qRMode v = 1) then [] else [(none, d.hdr + 64, s.ld (d.hdr + 8) 2)]))

/-- R463: the STATUS that refuses a descriptor before anything is sent, 0 when none does. -/
def State.descStatus (s : State) (v : Nat) (d : Desc) : Nat :=
  if d.reply ∧ d.hdr = 0 then 6
  else ((s.descParts v d).find? (fun (k, a, n) => s.sourceStatus k a n != 0)).elim 0 (fun (k, a, n) => s.sourceStatus k a n)

/-- R391, R396: Chimney reads the parts of memory that a descriptor names, up to the first that it cannot read. -/
def State.readParts (s : State) : List (Option Nat × Nat × Nat) → State
  | [] => s
  | (k, a, n) :: t => if s.sourceStatus k a n = 0 then (s.sourceRead k a n).readParts t else s.sourceRead k a n

/-- R463: what a descriptor sends: a frame on a port, a UD message in its frame, an RC message, or the STATUS that says why nothing is
sent. -/
inductive Sending where
  | frame (port : Nat) (bytes : List Byte)
  | ud (port : Nat) (bytes : List Byte)
  | rc (bytes : List Byte)
  | refused (status : Nat)
  deriving DecidableEq, Repr

/-- R463: a frame on a port, where its length and the link allow it. -/
def State.onPort (s : State) (port : Nat) (f : List Byte) (send : Nat → List Byte → Sending) : Sending :=
  if 9212 < f.length then .refused 4 else if s.linkUp port then send port f else .refused 3

/-- R463: the packet of a UD SEND to the source of the message at a header. -/
def State.udPacket (s : State) (q v h : Nat) (data : List Byte) : Packet :=
  { op := 0x64, dqp := s.ld (h + 0x28) 4 % 2 ^ 24, psn := qPsnSend v, ask := false
    ext := beBytes 4 (qQKey v) ++ [0] ++ beBytes 3 q, data := data }

/-- R463: form what a descriptor of queue `q` sends. -/
def State.formSending (s : State) (q v : Nat) (d : Desc) : Sending :=
  let status := s.descStatus v d
  let data := s.bytes d.addr d.len
  let h := d.hdr
  if status ≠ 0 then .refused status
  else match qTxMode v with
    | 2 =>
      if qRMode v = 2 then
        if h = 0 ∨ !bitAt (s.hdrFlags h) 4 then .refused 8
        else
          let r := s.backRoute v h
          s.onPort r.port (s.roceFrame r (s.udPacket q v h data)) .ud
      else if qErr v then .refused 5
      else if !s.linkUp (qPort v) then .refused 3
      else .rc data
    | 1 =>
      if h = 0 then .refused 8
      else match s.replyFrame h data with
        | some (f, port) => s.onPort port f .frame
        | none => .refused 8
    | _ => if d.len < 14 ∨ 9212 < d.len then .refused 4 else s.onPort (qPort v) data .frame

/-- R443, R445: the port that takes a sending may transmit now. -/
def State.mayGo (s : State) (v : Nat) : Sending → Bool
  | .frame port f | .ud port f => s.mayTransmit port (framePrio f)
  | .rc _ => s.mayTransmit (qPort v) (framePrio (zeros 12 ++ (peerRoute v).tag))
  | .refused _ => true

/-- R463: process the next descriptor of a send ring that has not been sent. -/
def State.sendNext (s : State) (q : Nat) : State :=
  let (s, v) := s.useQueue q
  let n := (s.rcOf q).waiting
  let i := (qTxCons v + n) % 2 ^ 64
  if !(qActive v || s.closing == some q) || qDexp v == 0 || i == qTxProd v then s
  else
    let a := qDescAt v i
    let d := s.descFound v a
    let bad := s.lineStatus (txKey v) (lineOf a)
    let x := if bad = 0 then s.formSending q v d else .refused bad
    if !s.mayGo v x then s
    else
      let s := s.sourceRead (txKey v) a 32
      let s := if bad = 0 then s.readParts (s.descParts v d) else s
      match x with
      | .rc bs => s.rcSend q (.desc (BitVec.ofNat 64 i)) bs
      | .frame port f => ((s.transmit port f).completeDesc q i 0 s.txStamp).finishClose q
      | .ud port f =>
        (((s.transmit port f).setQueue q (putBits v 640 24 (qPsnSend v + 1))).completeDesc q i 0 s.txStamp).finishClose q
      | .refused status => if n = 0 then (s.completeDesc q i status 0).finishClose q else s

/-- R463: process up to `n` descriptors. -/
def State.sendMany (s : State) (q : Nat) : Nat → State
  | 0 => s
  | n + 1 => (s.sendNext q).sendMany q n

/-- R445: Chimney transmits while neither of its pages is Quiesced. -/
def State.chimneyOn (s : State) : Bool := s.blockOn Slot.chm0 && s.blockOn Slot.chm1

/-! ## Doorbells -/

/-- R464: extend INDEX to the value at or after the current one; none when it lies more than 2^31 ahead. -/
def extendIndex (cur index : Nat) : Option Nat :=
  let d := (index + 2 ^ 32 - cur % 2 ^ 32) % 2 ^ 32
  if d ≤ 2 ^ 31 then some ((cur + d) % 2 ^ 64) else none

/-- R464: a doorbell store. -/
def State.doorbell (s : State) (q : Nat) (value : Nat) : State :=
  let (s, v) := s.useQueue q
  let rx := bitAt value 32
  let cur := if rx then qRxTail v else qTxProd v
  let owned := if rx then qSizeExp v != 0 && qOwner v else qDexp v != 0 && qTxOwn v
  match extendIndex cur (value % 2 ^ 32) with
  | none => s.countDberr
  | some x =>
    if !qActive v || !owned || value / 2 ^ 33 != 0 then s.countDberr
    else if rx then
      if seqSub (qRxProd v) cur < seqSub x cur then s.countDberr else s.setQueue q (qPut v 0x20 8 x)
    else if 2 ^ qDexp v < seqSub x (qTxCons v) then s.countDberr
    else s.setQueue q (qPut v 0x30 8 x)

/-! ## QCMD -/

/-- R453: the outcome of a QCMD. -/
def State.qcmdSts (s : State) (refused : Bool) : State := s.setFlag Slot.chm1 Off.CHM1.QCMD 33 refused

/-- R453: QCMD ENABLE. -/
def State.queueEnable (s : State) (q : Nat) : State :=
  if s.queues.any (·.1 == q) then s.qcmdSts true
  else
    let a := s.queueAt q
    if !s.nearPop a || s.anyPoison a 128 || s.keyLost a then ((s.countLost a 128).queueFail q 1 a).qcmdSts true
    else
      let v := leNat (s.bytes a 128)
      let s := s.devRead a 128
      if qActive v || !s.queueOk q v then s.qcmdSts true
      else (s.cacheQueue q (putBits v 127 1 1)).qcmdSts false

/-- R453: QCMD DISABLE: posted descriptors complete first; a message that awaits its acknowledgement keeps BUSY at 1. -/
def State.queueDisable (s : State) (q : Nat) : State :=
  let (s, v) := s.useQueue q
  if !qActive v then s.qcmdSts true
  else
    let s := { s with closing := some q }.setQueue q (putBits v 127 1 0)
    let s := (s.setFlag Slot.chm1 Off.CHM1.QCMD 32 true).qcmdSts false
    let s := s.sendMany q (if qDexp v = 0 then 0 else seqSub (qTxProd v) (qTxCons v))
    s.finishClose q

/-- R453: QCMD FLUSH. -/
def State.queueFlush (s : State) (q : Nat) : State :=
  let (s, v) := s.useQueue q
  if !qActive v then s.qcmdSts true else (s.storeQueue q v).qcmdSts false

/-- R455: an address is that of a header of the ring in use, walking from a slot. -/
def State.isHeader (s : State) (v a : Nat) : Nat → Nat → Bool
  | 0, _ => false
  | fuel + 1, t =>
    if t = qRxProd v then false
    else if qSlotAt v t = a then true
    else s.isHeader v a fuel ((t + max 1 (s.hdrSlots (qSlotAt v t))) % 2 ^ 64)

/-- R453: QCMD RELEASE. -/
def State.queueRelease (s : State) (q : Nat) : State :=
  let a := s.reg Slot.chm1 Off.CHM1.QARG
  let (s, v) := s.useQueue q
  if qSizeExp v = 0 ∨ !s.isHeader v a (qSlots v) (qRxTail v) ∨ s.hdrFlags a &&& 6 ≠ 2 then s.countStale.qcmdSts true
  else (s.freeMessage q a).qcmdSts false

end Sys2Proof.Machine
end

