-- ==== Sys2Proof/Machine/Mirror.lean ====
section
/-!
DEFINITION. Mirroring (R470 to R476): mirror messages, sessions, records and acknowledgements, durability (R264), and a ring's
FAULT (R475).
-/

namespace Sys2Proof.Machine

/-! ## Sets and sessions -/

/-- R470: ENC of a set. -/
def State.setEnc (s : State) (i : Nat) : Bool := bitAt (s.msetReg i) 42
/-- R470: ROLE of a set: true for a shadow. -/
def State.setShadow (s : State) (i : Nat) : Bool := bitAt (s.msetReg i) 43
/-- R470: the queue pair of a peer of a set. -/
def State.setQp (s : State) (i : Nat) (peer : Bool) : Nat := bitsOf (s.msetReg i) (if peer then 16 else 0) 16
/-- R470: the enrolled peer key index of a peer. -/
def State.setPeer (s : State) (i : Nat) (peer : Bool) : Nat := bitsOf (s.msetReg i) (if peer then 36 else 32) 4

/-- R470: an enabled set names the peer. -/
def State.setNames (s : State) (i : Nat) (peer : Bool) : Bool :=
  s.msetOn i && (!peer || (!s.setShadow i && bitsOf (s.msetReg i) 40 2 == 2))

/-- R470: the set and peer whose queue pair this is. -/
def State.sideOf (s : State) (qp : Nat) : Option (Nat × Bool) :=
  (List.range 8).findSome? (fun i =>
    if s.setNames i false && s.setQp i false == qp then some (i, false)
    else if s.setNames i true && s.setQp i true == qp then some (i, true) else none)

/-- R472: the session of a peer. -/
def State.session? (s : State) (i : Nat) (peer : Bool) : Option Session :=
  s.sessions.find? (fun x => x.set.toNat == i && x.peer == peer)

/-- Take a peer's session away. -/
def State.dropSession (s : State) (i : Nat) (peer : Bool) : State :=
  { s with sessions := s.sessions.filter (fun x => !(x.set.toNat == i && x.peer == peer)) }

/-- Put a session in its place. -/
def State.putSession (s : State) (x : Session) : State :=
  let s := s.dropSession x.set.toNat x.peer
  { s with sessions := x :: s.sessions }

/-- R475: a peer is live. -/
def State.peerLive (s : State) (i : Nat) (peer : Bool) : Bool :=
  match s.session? i peer with
  | some x => x.phase == .live
  | none => false

/-- A session that has only just begun. -/
def Session.new (i : Nat) (peer : Bool) (phase : Phase) : Session :=
  { set := BitVec.ofNat 3 i, peer := peer, phase := phase, na := 0, nb := 0, ea := 0, eb := 0, pub := 0, key := 0,
    tx := 0, rx := 0, marks := [] }

/-! ## FAULT and DURABLE -/

/-- R475: whether FAULT of a ring is to be 1. -/
def State.wantFault (s : State) (r : Nat) (e : Ring) : Bool :=
  let live := b2n (s.peerLive e.mset false) + (if e.npeer = 2 then b2n (s.peerLive e.mset true) else 0)
  decide (live < e.ackn) || s.halted.contains (BitVec.ofNat 12 r)

/-- R475: hold FAULT of one ring at what its peers give, with the event when it becomes 1. -/
def State.refaultRing (s : State) (r : Nat) : State :=
  let (s, e) := s.readRing r
  if !e.en || e.npeer == 0 then s
  else
    let want := s.wantFault r e
    if want = e.fault then s
    else
      let s := s.devWrite (s.ringAt r + 8) (leBytes 8 (putBits e.ctl 1 1 (b2n want)))
      if want then s.deliverDura (BitVec.ofNat 12 r) else s

/-- R475: the rings of a set, after a peer of it came or went. -/
def State.refault (s : State) (i : Nat) : State :=
  (List.range 4096).foldl (fun s r => if (s.ring r).mset = i then s.refaultRing r else s) s

/-- MSTS.LIVE of a peer. -/
def State.setLive (s : State) (i : Nat) (peer : Bool) (v : Bool) : State :=
  (s.setFlag Slot.chm1 Off.CHM1.MSTS (2 * i + b2n peer) v).refault i

/-- R264: what a peer has acknowledged of a ring, as the next sequence number. -/
def State.ackOf (s : State) (r : Nat) (peer : Bool) : Nat := (SMap.get (fun _ => (0 : Word)) s.acks (2 * r + b2n peer)).toNat

/-- R264: DURABLE of a ring after an acknowledgement: the highest record that ACKN peers have each acknowledged. -/
def State.advanceDurable (s : State) (r : Nat) : State :=
  let (s, e) := s.readRing r
  let gain (peer : Bool) : Nat :=
    let g := seqSub (s.ackOf r peer) (e.durable + 1)
    if seqSub e.head (e.durable + 1) < g then 0 else g
  let a := gain false
  let b := if e.npeer = 2 then gain true else 0
  let d := if e.ackn = 2 then min a b else max a b
  if e.npeer = 0 ∨ d = 0 then s
  else (s.devWrite (s.ringAt r + 0x20) (leBytes 8 (e.durable + d))).deliverDura (BitVec.ofNat 12 r)

/-! ## Ending a session -/

/-- R472, R474: a peer is lost: MIRLOST, MSTS, the ash log, and FAULT of its rings. -/
def State.peerLost (s : State) (i : Nat) (peer : Bool) (code : Nat) : State :=
  let s := s.dropSession i peer
  let s := { s with lost := (2 * i + b2n peer) :: s.lost.filter (· != 2 * i + b2n peer) }
  let s := (s.setErr Slot.chm1 Off.CHM1.CHM1ERR 0).ashLog 0x51 Slot.chm1 none none 0 (i + b2n peer * 2 ^ 3 + code * 2 ^ 8)
  s.setLive i peer false

/-- A 20-byte session key's SM4 key and salt (R472). -/
def Session.keyBytes (x : Session) : List Byte := leBytes 20 x.key.toNat

/-- R471: the header of a mirror message. -/
def mirrorHeader (type ring count seq ctr : Nat) : List Byte :=
  leBytes 1 type ++ [1] ++ leBytes 2 ring ++ leBytes 4 count ++ leBytes 8 seq ++ leBytes 8 ctr ++ zeros 8

/-- R471: send a mirror message of a session on its queue pair. -/
def State.mirrorSend (s : State) (x : Session) (type ring count seq : Nat) (body : List Byte) (records : Bool) : State :=
  let i := x.set.toNat
  let ctr := x.tx + (if s.setShadow i then 2 ^ 63 else 0)
  let hdr := mirrorHeader type ring count seq ctr
  let bytes := if s.setEnc i && x.phase == .live then
      let (ct, tag) := gcmEncrypt (x.keyBytes.take 16) (x.keyBytes.drop 16 ++ leBytes 8 ctr) hdr body
      hdr ++ ct ++ tag
    else hdr ++ body
  let load : RcLoad := .mirror (if records then some (BitVec.ofNat 12 ring) else none)
  (s.putSession { x with tx := x.tx + 1 }).rcSend (s.setQp i x.peer) load bytes

/-- R472: close a session with CLOSE, whose reason the spec does not number. -/
def State.closeSession (s : State) (x : Session) : State :=
  let reason := (Config.wire s.fresh).toNat % 2 ^ 32
  ({ s with fresh := s.fresh + 1 }.mirrorSend x 0x13 0 reason 0 [] false)

/-- R472: a failed check: CLOSE, and the peer is lost. -/
def State.failSession (s : State) (x : Session) : State := (s.closeSession x).peerLost x.set.toNat x.peer 1

/-- R473, R476: a chain check failed: CLOSE, CHAINBRK, and the peer stays lost. -/
def State.chainBreak (s : State) (x : Session) (ring addr : Nat) : State :=
  let i := x.set.toNat
  let s := (s.closeSession x).dropSession i x.peer
  let s := { s with lost := (2 * i + b2n x.peer) :: s.lost.filter (· != 2 * i + b2n x.peer) }
  let s := (s.setErr Slot.chm1 Off.CHM1.CHM1ERR 1).ashLog 0x52 Slot.chm1 none none addr ring
  s.setLive i x.peer false

/-! ## The handshake -/

/-- R542: the device bucket. -/
def deviceBucket : Nat := 8

/-- R543: ask the device bucket for leave. -/
def State.askLeave (s : State) (r : LeaveReq) : State :=
  match s.damper[deviceBucket]? with
  | some k => if k.queue.contains r then s
    else { s with damper := s.damper.setIfInBounds deviceBucket { k with queue := k.queue ++ [r] } }
  | none => s

/-- R472: the queue pair of a peer can carry a session: active RC without error, its link up. -/
def State.qpReady (s : State) (qp : Nat) : Bool :=
  let v := s.queue qp
  qActive v && qRMode v == 1 && !qErr v && s.linkUp (qPort v)

/-- R472: the primary starts a session: it asks for the leave of its side first. -/
def State.mirrorStart (s : State) (i : Nat) (peer : Bool) : State :=
  if !s.blockOn Slot.chm1 || !s.setNames i peer || s.setShadow i || !s.qpReady (s.setQp i peer) || (s.session? i peer).isSome
      || s.lost.contains (2 * i + b2n peer) then s
  else (s.putSession (Session.new i peer .wantHello)).askLeave (.handshake (BitVec.ofNat 3 i) peer)

/-- The bytes of a key or number, `n` bytes. -/
def vecBytes {w : Nat} (n : Nat) (v : BitVec w) : List Byte := leBytes n v.toNat

/-- R516: the enrolled digest of a peer identity key. -/
def State.peerDigest (s : State) (k : Nat) : BitVec 256 := SMap.get (fun _ => 0) s.enrolled (32 + k)

/-- R472 step 2 and 3: the received identity key is the enrolled one. -/
def State.peerKeyOk (s : State) (i : Nat) (peer : Bool) (pub : BitVec 512) : Bool :=
  BitVec.ofNat 256 (sm3Nat (vecBytes 64 pub)) == s.peerDigest (s.setPeer i peer)

/-- R472: the digest that HELLO-REPLY signs. -/
def Session.replyDigest (x : Session) : List Byte :=
  sm3 (vecBytes 32 x.na ++ vecBytes 32 x.nb ++ vecBytes 64 x.ea ++ vecBytes 64 x.eb)

/-- R472: the digest that CONFIRM signs. -/
def Session.confirmDigest (x : Session) : List Byte :=
  sm3 (vecBytes 32 x.nb ++ vecBytes 32 x.na ++ vecBytes 64 x.eb ++ vecBytes 64 x.ea)

/-- R503: sign a digest with the identity key. -/
def State.sign (s : State) (digest : List Byte) : State × List Byte :=
  ({ s with fresh := s.fresh + 1 }, vecBytes 64 (Config.signature s.fresh (BitVec.ofNat 256 (leNat digest))))

/-- R472 step 4: both sides hold the agreed key, and the session is established. -/
def State.establish (s : State) (x : Session) (theirs : BitVec 512) : State :=
  let s' := { s with fresh := s.fresh + 1 }.putSession
    { x with phase := .live, key := Config.sessionKey s.fresh x.pub theirs }
  s'.setLive x.set.toNat x.peer true

/-- R472: the leave of one side has been granted: the primary sends HELLO, the shadow answers HELLO. While CHM1 is Quiesced mirroring
stops (R445). -/
def State.handshakeGranted (s : State) (i : Nat) (peer : Bool) : State :=
  match s.session? i peer with
  | none => s
  | some x =>
    if !s.blockOn Slot.chm1 then s else
    let nonce := Config.random s.fresh
    let eph := Config.ephemeral s.fresh
    let s := { s with fresh := s.fresh + 1 }
    match x.phase with
    | .wantHello =>
      s.mirrorSend { x with phase := .helloSent, na := nonce, ea := eph } 1 0 0 0
        (vecBytes 32 nonce ++ vecBytes 64 s.fuses.idPub ++ vecBytes 64 eph) false
    | .wantReply =>
      let x := { x with phase := .replySent, nb := nonce, eb := eph }
      let (s, sig) := s.sign x.replyDigest
      s.mirrorSend x 2 0 0 0 (vecBytes 32 nonce ++ vecBytes 64 s.fuses.idPub ++ vecBytes 64 eph ++ sig) false
    | .helloSent | .replySent | .confirmed | .live => s

/-- R471, R472: CTR of a received message increases in its direction. -/
def State.ctrOk (s : State) (x : Session) (ctr : Nat) : Bool :=
  bitAt ctr 63 == !s.setShadow x.set.toNat && decide (x.rx ≤ ctr % 2 ^ 63)

/-- The session a message belongs to, with its counter advanced; none, after closing it, when CTR or the tag fails. -/
def State.receiveMsg (s : State) (qp ctr : Nat) (tagOk : Bool) : State × Option Session :=
  match s.sideOf qp with
  | none => (s, none)
  | some (i, peer) =>
    match s.session? i peer with
    | none => (s, none)
    | some x =>
      let bad := !s.ctrOk x ctr || (s.setEnc i && x.phase == .live && !tagOk)
      if bad then (s.failSession x, none)
      else
        let x := { x with rx := ctr % 2 ^ 63 + 1 }
        (s.putSession x, some x)

/-- R472 step 2: HELLO reaches the shadow. -/
def State.onHello (s : State) (qp ctr : Nat) (na : BitVec 256) (pub eph : BitVec 512) : State :=
  match s.sideOf qp with
  | none => s
  | some (i, peer) =>
    if !s.setShadow i then s
    else
      let was := s.peerLive i peer
      let x := { Session.new i peer .wantReply with na := na, ea := eph, pub := pub, rx := ctr % 2 ^ 63 + 1 }
      let s := { s.putSession x with lost := s.lost.filter (· != 2 * i + b2n peer) }
      let s := if was then s.setLive i peer false else s
      if bitAt ctr 63 || !s.peerKeyOk i peer pub then s.failSession x
      else s.askLeave (.handshake (BitVec.ofNat 3 i) peer)

/-- R472 step 3: HELLO-REPLY reaches the primary. -/
def State.onHelloReply (s : State) (qp ctr : Nat) (nb : BitVec 256) (pub eph sig : BitVec 512) : State :=
  match s.receiveMsg qp ctr true with
  | (s, none) => s
  | (s, some x) =>
    if x.phase ≠ .helloSent then s
    else
      let x := { x with nb := nb, eb := eph, pub := pub }
      if !s.peerKeyOk x.set.toNat x.peer pub || !sm2Verify (vecBytes 64 pub) x.replyDigest (vecBytes 64 sig) then s.failSession x
      else
        let (s, own) := s.sign x.confirmDigest
        let s := s.mirrorSend x 3 0 0 0 own false
        match s.session? x.set.toNat x.peer with
        | some x => s.establish { x with phase := .confirmed } eph
        | none => s

/-- R472 step 5: the shadow sends RESUME for each of its rings. -/
def State.sendResumes (s : State) (i : Nat) : State :=
  (List.range 4096).foldl (fun s r =>
    let e := s.ring r
    if e.en && e.npeer == 0 && e.mset == i then
      let s := s.devRead (s.ringAt r) 128
      match s.session? i false with
      | some x => s.mirrorSend x 0x12 r 0 e.head e.chain false
      | none => s
    else s) s

/-- R472 step 3: CONFIRM reaches the shadow. -/
def State.onConfirm (s : State) (qp ctr : Nat) (sig : BitVec 512) : State :=
  match s.receiveMsg qp ctr true with
  | (s, none) => s
  | (s, some x) =>
    if x.phase ≠ .replySent then s
    else if !sm2Verify (vecBytes 64 x.pub) x.confirmDigest (vecBytes 64 sig) then s.failSession x
    else (s.establish x x.ea).sendResumes x.set.toNat

/-! ## Records -/

/-- R258: the chain field of the record in a slot. -/
def State.chainAt (s : State) (e : Ring) (q : Nat) : List Byte := s.bytes (e.slot q + 96) 32

/-- R474: a ring that a primary set mirrors to a peer. -/
def Ring.mirrors (e : Ring) (i : Nat) (peer : Bool) : Bool := e.en && e.mset == i && decide (b2n peer < e.npeer)

/-- The mark of a ring in a session. -/
def Session.mark (x : Session) (r : BitVec 12) : Option RingMark := x.marks.find? (·.ring == r)

/-- Set the next record to send of a ring. -/
def Session.setMark (x : Session) (r : BitVec 12) (sent : Nat) : Session :=
  { x with marks := { ring := r, sent := BitVec.ofNat 64 sent } :: x.marks.filter (·.ring != r) }

/-- R264: record an acknowledgement. -/
def State.noteAck (s : State) (r : Nat) (peer : Bool) (next : Nat) : State :=
  { s with acks := SMap.set (fun _ => 0) s.acks (2 * r + b2n peer) (BitVec.ofNat 64 next) }.advanceDurable r

/-- R473: RESUME reaches the primary. -/
def State.onResume (s : State) (qp ctr : Nat) (tagOk : Bool) (ring : BitVec 12) (h : Nat) (c : List Byte) : State :=
  match s.receiveMsg qp ctr tagOk with
  | (s, none) => s
  | (s, some x) =>
    if x.phase ≠ .live ∨ s.setShadow x.set.toNat then s
    else
      let (s, e) := s.readRing ring.toNat
      let prev := seqSub h 1
      let ok := e.mirrors x.set.toNat x.peer &&
        ((h == e.head && c == e.chain)
          || (decide (seqSub prev e.tail < seqSub e.head e.tail) && c == s.chainAt e prev))
      if ok then (s.putSession (x.setMark ring h)).noteAck ring.toNat x.peer h
      else s.chainBreak x ring.toNat (e.slot prev)

/-- R476: one record at the shadow: a held one is compared, the next one is verified and written; none on a chain failure. -/
def State.shadowRecord (s : State) (r q : Nat) (rec' : List Byte) : Option State :=
  let (s, e) := s.readRing r
  if seqDiff q e.head < 0 then
    if seqDiff q e.tail < 0 then some s
    else if s.chainAt e q = rec'.drop 96 then some (s.devRead (e.slot q) 128) else none
  else if sm3 (e.chain ++ rec'.take 96) = rec'.drop 96 then some (s.append (BitVec.ofNat 12 r) (rec'.take 96))
  else none

/-- R476: the records of a message in order; the address of the slot whose chain failed. -/
def State.shadowRecords (s : State) (r q : Nat) : List (List Byte) → State × Option Nat
  | [] => (s, none)
  | x :: t => match s.shadowRecord r q x with
    | some s => s.shadowRecords r ((q + 1) % 2 ^ 64) t
    | none => (s, some ((s.ring r).slot q))

/-- R476: a RECORDS message finds its ring full. -/
def State.shadowFull (s : State) (r q n : Nat) : Bool :=
  let e := s.ring r
  decide ((e.cap : Int) < (seqSub e.head e.tail : Int) + max 0 (seqDiff (q + n) e.head))

/-- R476: RECORDS reach the shadow. The Bool is false when the ring is full, which the transport answers with RNR NAK. -/
def State.onRecords (s : State) (qp ctr : Nat) (tagOk : Bool) (ring : BitVec 12) (q : Nat) (rs : List (List Byte)) : State × Bool :=
  let e := s.ring ring.toNat
  match s.sideOf qp with
  | none => (s, true)
  | some (i, _) =>
    let mine := e.en && e.npeer == 0 && e.mset == i && s.setShadow i
    if mine && seqDiff q e.head ≤ 0 && s.shadowFull ring.toNat q rs.length then (s, false)
    else match s.receiveMsg qp ctr tagOk with
      | (s, none) => (s, true)
      | (s, some x) =>
        if x.phase ≠ .live ∨ !mine then (s, true)
        else if 0 < seqDiff q e.head then (s.failSession x, true)
        else match s.shadowRecords ring.toNat q rs with
          | (s, some a) => (s.chainBreak x ring.toNat a, true)
          | (s, none) =>
            let e := s.ring ring.toNat
            (s.mirrorSend x 0x11 ring.toNat 0 (seqSub e.head 1) e.chain false, true)

/-- R474: ACK reaches the primary. -/
def State.onAck (s : State) (qp ctr : Nat) (tagOk : Bool) (ring : BitVec 12) (q : Nat) (c : List Byte) : State :=
  match s.receiveMsg qp ctr tagOk with
  | (s, none) => s
  | (s, some x) =>
    let i := x.set.toNat
    let (s, e) := s.readRing ring.toNat
    if x.phase ≠ .live ∨ s.setShadow i ∨ !e.mirrors i x.peer then s
    else match x.mark ring with
      | none => s
      | some m =>
        if 0 ≤ seqDiff q m.sent.toNat then s.peerLost i x.peer 2
        else if seqDiff q e.tail < 0 then s
        else if s.chainAt e q ≠ c then s.peerLost i x.peer 2
        else
        let s := s.devRead (e.slot q + 96) 32
        if seqDiff (q + 1) (s.ackOf ring.toNat x.peer) ≤ 0 then s
        else s.noteAck ring.toNat x.peer (q + 1)

/-- R474: CLOSE reaches either side. -/
def State.onClose (s : State) (qp ctr : Nat) (tagOk : Bool) : State :=
  match s.receiveMsg qp ctr tagOk with
  | (s, none) => s
  | (s, some x) => s.peerLost x.set.toNat x.peer 5

/-- R474: records of a ring wait in the RC transport to a peer. -/
def State.recordsWaiting (s : State) (qp : Nat) (ring : BitVec 12) : Bool :=
  (s.rcOf qp).sent.any (fun m => m.load == .mirror (some ring))

/-- R474: the primary sends the next records of a ring to a peer. -/
def State.recordsSend (s : State) (i : Nat) (peer : Bool) (ring : BitVec 12) : State :=
  let e := s.ring ring.toNat
  match s.session? i peer with
  | none => s
  | some x =>
    match x.mark ring with
    | none => s
    | some m =>
      let q := m.sent.toNat
      let n := min 32 (seqSub e.head q)
      if x.phase ≠ .live ∨ s.setShadow i ∨ !e.mirrors i peer ∨ s.halted.contains ring ∨ n = 0
          ∨ !s.chimneyOn ∨ s.recordsWaiting (s.setQp i peer) ring then s
      else
        let slots := (List.range n).map (fun j => e.slot (q + j))
        let s := s.devRead (s.ringAt ring.toNat) 128
        if slots.any (fun a => s.anyPoison a 128 || s.keyLost a) then
          let s := { slots.foldl (fun s a => s.countLost a 128) s with halted := ring :: s.halted }
          let s := s.ashLog 0x51 Slot.chm1 none none 0 (i + b2n peer * 2 ^ 3 + 6 * 2 ^ 8)
          s.refaultRing ring.toNat
        else
          (slots.foldl (fun s a => s.devRead a 128) s).mirrorSend (x.setMark ring (q + n)) 0x10 ring.toNat n q
            (slots.flatMap (fun a => s.bytes a 128)) true

/-- R474: a peer without acknowledgement progress for LOSSMS while records are outstanding. -/
def State.mirrorTimeout (s : State) (i : Nat) (peer : Bool) : State :=
  match s.session? i peer with
  | none => s
  | some x =>
    let outstanding := x.marks.any (fun m => 0 < seqDiff m.sent.toNat (s.ackOf m.ring.toNat peer))
    if x.phase = .live ∧ outstanding ∧ s.blockOn Slot.chm1 then s.peerLost i peer 3 else s

/-- R453, R472: QCMD RESTART. -/
def State.queueRestart (s : State) (q : Nat) : State :=
  let (s, v) := s.useQueue q
  if !qActive v || qRMode v != 1 then s.qcmdSts true
  else
    let s := (s.setQueue q (putBits v 580 1 0)).qcmdSts false
    match s.sideOf q with
    | none => s
    | some (i, peer) =>
      let was := s.peerLive i peer
      let s := { s.dropSession i peer with lost := s.lost.filter (· != 2 * i + b2n peer) }
      let s := if was then s.setLive i peer false else s
      s.mirrorStart i peer

/-- R264, R474: a ring has been set up: a session that is live sends every record of it, from the first that is not durable. -/
def State.adoptRing (s : State) (r : BitVec 12) (e : Ring) : State :=
  let takes (x : Session) : Bool := e.mirrors x.set.toNat x.peer && x.phase == .live && !s.setShadow x.set.toNat
  { s with
    unused := s.unused.filter (· != r)
    sessions := s.sessions.map (fun x => if takes x then x.setMark r (e.durable + 1) else x)
    acks := (s.sessions.filter takes).foldl (fun k x =>
      SMap.set (fun _ => 0) k (2 * r.toNat + b2n x.peer) (BitVec.ofNat 64 (e.durable + 1))) s.acks }

/-- R475: what Chimney does about a ring whose table entry has been written: one that a set-up has brought into use is mirrored, and FAULT
of an enabled one is as its peers give it. -/
def State.lookAtRing (s : State) (r : BitVec 12) : State :=
  let e := s.ring r.toNat
  (if e.en && s.unused.contains r then s.adoptRing r e else s).refaultRing r.toNat

/-- R475: Chimney looks at the rings whose table entries have been written. -/
def State.lookAtRings (s : State) : State :=
  if s.watch.isEmpty then s
  else { s.watch.foldl State.lookAtRing { s with watch := [] } with watch := [] }

/-- R472: sessions begin on the queue pairs whose port passes a test. -/
def State.mirrorStarts (s : State) (p : Nat → Bool) : State :=
  (List.range 8).foldl (fun s i => [false, true].foldl (fun s peer =>
    if s.setNames i peer && p (qPort (s.queue (s.setQp i peer))) then s.mirrorStart i peer else s) s) s

/-- R445, R472: mirroring goes on when CHM1 resumes: sessions begin, and those whose leave was granted meanwhile send. -/
def State.mirrorResume (s : State) : State :=
  let asked (x : Session) : Bool :=
    (s.damper[deviceBucket]?.map (fun k => k.queue.contains (.handshake x.set x.peer))).getD false
  (s.sessions.filter (fun x => !asked x)).foldl (fun s x => s.handshakeGranted x.set.toNat x.peer) (s.mirrorStarts (fun _ => true))

/-- R471 to R476: a mirror message reaches this side. -/
def State.mirrorIn (s : State) (h : MirrorHead) : MirrorMsg → State
  | .hello na pub eph => s.onHello h.qp.toNat h.ctr.toNat na pub eph
  | .helloReply nb pub eph sig => s.onHelloReply h.qp.toNat h.ctr.toNat nb pub eph sig
  | .confirm sig => s.onConfirm h.qp.toNat h.ctr.toNat sig
  | .resume ring seq chain => s.onResume h.qp.toNat h.ctr.toNat h.tagOk ring seq.toNat (vecBytes 32 chain)
  | .records ring seq rs =>
    (s.onRecords h.qp.toNat h.ctr.toNat h.tagOk ring seq.toNat ((rs.take 32).map (vecBytes 128))).1
  | .ack ring seq chain => s.onAck h.qp.toNat h.ctr.toNat h.tagOk ring seq.toNat (vecBytes 32 chain)
  | .close _ => s.onClose h.qp.toNat h.ctr.toNat h.tagOk

/-- R445: a mirror message arrives: while CHM0 is Quiesced its port discards it, and while CHM1 is, it stays in the input buffer. -/
def State.mirrorArrive (s : State) (h : MirrorHead) (m : MirrorMsg) : State :=
  let port := qPort (s.queue h.qp.toNat)
  if !s.blockOn Slot.chm0 then s.countPort port 4 1
  else if !s.blockOn Slot.chm1 then s.holdWork port (.mirror h m)
  else s.mirrorIn h m

/-- R471: a mirror message that the RC transport delivers. The Bool is false for RNR NAK. -/
def State.mirrorMessage (s : State) (qp : Nat) (bs : List Byte) : State × Bool :=
  let hdr := bs.take 32
  let at' (o n : Nat) : Nat := leNat (sliceBytes hdr o n)
  let type := at' 0 1
  let ctr := at' 0x10 8
  let ring : BitVec 12 := BitVec.ofNat 12 (at' 2 2)
  let body := bs.drop 32
  match s.sideOf qp with
  | none => (s, true)
  | some (i, peer) =>
    let live := s.peerLive i peer
    let (body, ok) := match s.setEnc i && live && decide (0x10 ≤ type), s.session? i peer with
      | true, some x =>
        let n := body.length - 16
        match gcmDecrypt (x.keyBytes.take 16) (x.keyBytes.drop 16 ++ sliceBytes hdr 0x10 8) hdr (body.take n) (body.drop n) with
        | some pt => (pt, true)
        | none => (body, false)
      | _, _ => (body, true)
    let word (o n : Nat) : Nat := leNat (sliceBytes body o n)
    match type with
    | 0x01 => (s.onHello qp ctr (BitVec.ofNat 256 (word 0 32)) (BitVec.ofNat 512 (word 32 64)) (BitVec.ofNat 512 (word 96 64)), true)
    | 0x02 => (s.onHelloReply qp ctr (BitVec.ofNat 256 (word 0 32)) (BitVec.ofNat 512 (word 32 64))
        (BitVec.ofNat 512 (word 96 64)) (BitVec.ofNat 512 (word 160 64)), true)
    | 0x03 => (s.onConfirm qp ctr (BitVec.ofNat 512 (word 0 64)), true)
    | 0x10 => s.onRecords qp ctr ok ring (at' 8 8) ((List.range (min 32 (at' 4 4))).map (fun j => sliceBytes body (128 * j) 128))
    | 0x11 => (s.onAck qp ctr ok ring (at' 8 8) (body.take 32), true)
    | 0x12 => (s.onResume qp ctr ok ring (at' 8 8) (body.take 32), true)
    | 0x13 => (s.onClose qp ctr ok, true)
    | _ => (s, true)

end Sys2Proof.Machine
end

