-- ==== Sys2Proof/Machine/Roce.lean ====
section
/-!
DEFINITION. RoCE v2 (R466 to R468): the RC and UD responder, the requester's acknowledgements and timeouts, packets inside
received frames, and the steering of a received frame (R444 to R446).
-/

namespace Sys2Proof.Machine

/-! ## Responses -/

/-- R467: acknowledge up to a PSN: syndrome 0 is ACK, 0x20 RNR NAK, 0x60 a sequence-error NAK, 0x61 invalid request, 0x62
remote access and 0x63 remote operational, as the RoCE v2 transport encodes them. -/
def State.respond (s : State) (v psn syndrome : Nat) : State :=
  s.emit v { op := 0x11, dqp := qDqpn v, psn := psn, ask := false, ext := s.aeth syndrome, data := [] }

/-- A packet of a PSN is the one expected, an earlier one, or a later one. -/
inductive PsnOrder where
  | expected
  | earlier
  | later
  deriving DecidableEq, Repr

/-- R467: check a PSN. -/
def psnOrder (v psn : Nat) : PsnOrder :=
  let d := (psn + 2 ^ 24 - qPsnExp v) % 2 ^ 24
  if d = 0 then .expected else if d < 2 ^ 23 then .later else .earlier

/-- Advance the PSN that a queue pair expects. -/
def State.psnAdvance (s : State) (qp n : Nat) : State :=
  let v := s.queue qp
  s.setQueue qp (putBits v 672 24 (qPsnExp v + n))

/-- R466: the state of the RoCE queue pair a packet names; none, with ROCEDROP counted, when there is none. -/
def State.roceQp (s : State) (h : RoceHead) : State × Option Nat :=
  let qp := h.qp.toNat
  let drop (s : State) : State := s.countPort h.port.toNat 0xC 1
  if !h.icrcOk || decide (65536 ≤ qp) then (drop s, none)
  else
    let (s, v) := s.useQueue qp
    if !qActive v || qRMode v == 0 then (drop s, none) else (s, some v)

/-- R467: a packet out of order on RC: a sequence-error NAK for a later one, an ACK again for an earlier one. -/
def State.outOfOrder (s : State) (v : Nat) (o : PsnOrder) : State :=
  match o with
  | .expected => s
  | .later => s.respond v (qPsnExp v) 0x60
  | .earlier => s.respond v ((qPsnExp v + 2 ^ 24 - 1) % 2 ^ 24) 0

/-- R468: an RC SEND breaks its limits. -/
def State.sendTooLong (s : State) (h : RoceHead) (v : Nat) : State :=
  let qp := h.qp.toNat
  let s := s.putRc { s.rcOf qp with part := none }
  let s := s.respond v h.psn.toNat 0x61
  let s := s.setQueue qp (putBits (s.queue qp) 580 1 1)
  let s := s.countPort h.port.toNat 0xC 1
  (s.setErr Slot.chm1 Off.CHM1.CHM1ERR 2).ashLog 0x50 Slot.chm1 none none 0 (4 + qp * 2 ^ 8)

/-- The SENDs in assembly (R467). -/
def State.assembling (s : State) : Nat := (s.rc.filter (·.part.isSome)).length

/-- R467, R468: a whole SEND is placed in its queue, or goes to the mirror on a queue pair that a set names. -/
def State.placeSend (s : State) (h : RoceHead) (x : RoceSend) (bytes : List Byte) : State × Placed :=
  let qp := h.qp.toNat
  if s.mirrorNames qp then
    match s.mirrorMessage qp bytes with
    | (s, true) => (s, .placed)
    | (s, false) => (s, .full)
  else
    s.place qp { stored := bytes, flags := 16 + b2n x.imm.isSome * 32, port := h.port.toNat, tod := s.rxStamp,
                 imm := (x.imm.map (·.toNat)).getD 0 }

/-- R467, R468: a SEND packet on RC. -/
def State.rcSendIn (s : State) (h : RoceHead) (x : RoceSend) (v : Nat) : State :=
  let qp := h.qp.toNat
  let rc := s.rcOf qp
  let order := psnOrder v h.psn.toNat
  if qErr v then s
  else if order ≠ .expected then s.outOfOrder v order
  else if !x.first && rc.part.isNone then s.respond v h.psn.toNat 0x61
  else if x.first && !x.last && decide (256 ≤ s.assembling) then s.respond v h.psn.toNat 0x20
  else
    let bytes := (if x.first then [] else rc.part.getD []) ++ x.payload
    let ring := qSizeExp v != 0 && !s.mirrorNames qp
    if 65535 < bytes.length ∨ (ring ∧ 2 ^ qSizeExp v < 64 + bytes.length) then s.sendTooLong h v
    else if !x.last then
      let s := (s.putRc { rc with part := some bytes }).psnAdvance qp 1
      if h.ackReq then s.respond v h.psn.toNat 0 else s
    else match s.placeSend h x bytes with
      | (s, .placed) => ((s.putRc { s.rcOf qp with part := none }).psnAdvance qp 1).respond v h.psn.toNat 0
      | (s, .full) => s.respond v h.psn.toNat 0x20
      | (s, .noQueue) | (s, .failed) => s

/-- R467: a SEND packet: UD checks QKEY. -/
def State.roceSend (s : State) (h : RoceHead) (x : RoceSend) : State :=
  match s.roceQp h with
  | (s, none) => s
  | (s, some v) =>
    if qRMode v = 1 then s.rcSendIn h x v
    else match x.ud with
      | none => s
      | some u =>
        if u.qkey.toNat ≠ qQKey v then s
        else (s.place h.qp.toNat { stored := u.frame, doff := u.doff.toNat, flags := 16 + b2n x.imm.isSome * 32,
                                   port := h.port.toNat, tod := s.rxStamp, imm := (x.imm.map (·.toNat)).getD 0,
                                   srcQp := u.srcQp.toNat }).1

/-! ## RDMA -/

/-- R466, R467: an access of `n` bytes at `a` lies in the region, carries its key, and is of a kind that it allows. -/
def regionTakes (v a n rkey : Nat) (store : Bool) : Bool :=
  let base := qRBase v
  qRszExp v != 0 && (if store then qRwr v else qRrd v) && rkey == qRKey v && decide (base ≤ a)
    && decide (a + n ≤ base + 2 ^ qRszExp v)

/-- R391: an access of the region stops at a lost key byte, which is counted. -/
def State.regionLost (s : State) (v a n rkey : Nat) (store : Bool) : State :=
  if regionTakes v a n rkey store then s.countLost a n else s

/-- R466, R467: an access of `n` bytes at `a` lies in the region and is allowed: its key, its memory. -/
def State.regionOk (s : State) (v a n rkey : Nat) (store : Bool) : Bool :=
  regionTakes v a n rkey store
    && (linesTouched a n).all (fun l =>
      s.ordinary (l * 64) && s.populated (if store then .store else .load) (l * 64)
        && keyAllows (s.keyByte (l * 64)) (qKey v) store && !s.keyLost (l * 64) && !(store && s.fktLine (l * 64)))

/-- R467: an RDMA WRITE packet. -/
def State.roceWrite (s : State) (h : RoceHead) (x : RoceWrite) : State :=
  match s.roceQp h with
  | (s, none) => s
  | (s, some v) =>
    let qp := h.qp.toNat
    let rc := s.rcOf qp
    let order := psnOrder v h.psn.toNat
    let n := x.payload.length
    if qRMode v ≠ 1 ∨ qErr v then s
    else if order ≠ .expected then s.outOfOrder v order
    else
      let at' : Option (Nat × Nat) := if x.first then some (x.va.toNat, x.len.toNat) else rc.write
      match at' with
      | none => s.respond v h.psn.toNat 0x61
      | some (a, left) =>
        if left < n then s.respond v h.psn.toNat 0x61
        else if x.first && !s.regionOk v a left x.rkey.toNat true then
          (s.regionLost v a left x.rkey.toNat true).respond v h.psn.toNat 0x62
        else
          let s := s.devWrite a x.payload
          let s := (s.putRc { rc with write := if x.last then none else some (a + n, left - n) }).psnAdvance qp 1
          if x.last || h.ackReq then s.respond v h.psn.toNat 0 else s

/-- R467: an RDMA READ request: the response packets, or a NAK. -/
def State.roceRead (s : State) (h : RoceHead) (va : Word) (rkey len : BitVec 32) : State :=
  match s.roceQp h with
  | (s, none) => s
  | (s, some v) =>
    let qp := h.qp.toNat
    let order := psnOrder v h.psn.toNat
    let a := va.toNat
    let n := len.toNat
    if qRMode v ≠ 1 ∨ qErr v then s
    else if order = .later then s.outOfOrder v order
    else if !s.regionOk v a n rkey.toNat false then (s.regionLost v a n rkey.toNat false).respond v h.psn.toNat 0x62
    else if n ≠ 0 && s.anyPoison a n then s.respond v h.psn.toNat 0x63
    else
      let ps := mtuPieces n (qPmtu v) (s.bytes a n)
      let s := (s.devRead a n).emitAll v 0x0D 0x10 h.psn.toNat true ps 0
      if order = .expected then s.psnAdvance qp ps.length else s

/-! ## The requester -/

/-- A message is acknowledged by a PSN: its last packet is at or before it. -/
def RcSent.before (m : RcSent) (psn : Nat) : Bool :=
  (psn + 2 ^ 24 - (m.psn.toNat + m.pkts - 1) % 2 ^ 24) % 2 ^ 24 < 2 ^ 23

/-- R467: every outstanding message up to a PSN is acknowledged. -/
def State.rcAcked (s : State) (qp psn : Nat) : State :=
  let x := s.rcOf qp
  let done := x.sent.filter (·.before psn)
  let s := s.putRc { x with sent := x.sent.filter (fun m => !m.before psn), tries := 0 }
  done.foldl (fun s m => s.finishSent qp 0 m) s

/-- R467, R474: an RC queue pair fails; a mirror peer on it is lost. -/
def State.rcFail (s : State) (qp : Nat) : State :=
  let s := s.rcError qp
  match s.sideOf qp with
  | some (i, peer) => s.peerLost i peer 4
  | none => s

/-- R467: an acknowledgement: ACK, RNR NAK, a sequence-error NAK, or a NAK that ends the queue pair. -/
def State.roceAck (s : State) (h : RoceHead) (syndrome : Nat) : State :=
  match s.roceQp h with
  | (s, none) => s
  | (s, some v) =>
    let qp := h.qp.toNat
    if qRMode v ≠ 1 ∨ qErr v then s
    else match syndrome / 32 with
      | 0 => s.rcAcked qp h.psn.toNat
      | 1 => (s.rcAcked qp ((h.psn.toNat + 2 ^ 24 - 1) % 2 ^ 24)).rcResend qp
      | 3 =>
        let s := s.rcAcked qp ((h.psn.toNat + 2 ^ 24 - 1) % 2 ^ 24)
        if syndrome % 32 = 0 then s.rcResend qp else s.rcFail qp
      | _ => s

/-- R467: an acknowledgement timeout of an RC queue pair with messages outstanding. -/
def State.rcTimeout (s : State) (qp : Nat) : State :=
  let x := s.rcOf qp
  if x.sent.isEmpty || !s.blockOn Slot.chm1 then s
  else if s.fld Slot.chm1 Off.CHM1.RCCTL 16 3 ≤ x.tries + 1 then s.rcFail qp
  else (s.putRc { x with tries := x.tries + 1 }).rcResend qp

/-- R445, R466: a RoCE packet; while CHM1 is Quiesced it stays in the input buffer. -/
def State.rocePacket (s : State) (p : RocePacket) : State :=
  if !s.blockOn Slot.chm1 then s.holdWork p.head.port.toNat (.packet p)
  else match p.kind with
    | .send x => s.roceSend p.head x
    | .write x => s.roceWrite p.head x
    | .read va rkey len => s.roceRead p.head va rkey len
    | .ack y => s.roceAck p.head y.toNat

/-! ## Packets in frames -/

/-- R446 step 2: a frame holds a RoCE packet: UDP to port 4791 with a valid base transport header. -/
def roceAt (f : List Byte) (p : Parsed) : Option Nat :=
  match p.pay with
  | some b => if p.udp && p.dport == 4791 && decide (b + 16 ≤ f.length) && beAt f (b + 1) 1 % 16 == 0 then some b else none
  | none => none

/-- R445, R466: a RoCE packet arrives; while CHM0 is Quiesced its port discards it. -/
def State.roceArrive (s : State) (p : RocePacket) : State :=
  if !s.blockOn Slot.chm0 then s.countPort p.head.port.toNat 4 1 else s.rocePacket p

/-- R466: the packet of a frame with its base transport header at `b`; none for an operation that Chimney does not support. -/
def parseRoce (f : HeldFrame) (p : Parsed) (b : Nat) : Option RocePacket :=
  let bs := f.bytes
  let v4 := bitsOf (leNat (sliceBytes p.vec 1 1)) 1 2 == 1
  let n := b - 8 + beAt bs (b - 4) 2 - 4
  let op := beAt bs b 1
  let head : RoceHead :=
    { port := f.port, qp := BitVec.ofNat 24 (beAt bs (b + 5) 3), psn := BitVec.ofNat 24 (beAt bs (b + 9) 3)
      icrcOk := leNat (sliceBytes bs n 4) == icrcOf bs p.l3 b n v4, ackReq := bitAt (beAt bs (b + 8) 1) 7 }
  let pad := beAt bs (b + 1) 1 / 16 % 4
  let body (o : Nat) : List Byte := sliceBytes bs o (n - pad - o)
  let imm (o : Nat) : Option (BitVec 32) := some (BitVec.ofNat 32 (beAt bs o 4))
  let x := b + 12
  let send (first last : Bool) (i : Bool) : RocePacket :=
    { head := head, kind := .send { first := first, last := last, imm := (if i then imm x else none), ud := none,
                                    payload := body (x + (if i then 4 else 0)) } }
  let ud (i : Bool) : RocePacket :=
    let o := x + 8 + (if i then 4 else 0)
    let u : UdInfo := { qkey := BitVec.ofNat 32 (beAt bs x 4), srcQp := BitVec.ofNat 24 (beAt bs (x + 5) 3),
                        frame := bs.take n, doff := BitVec.ofNat 16 o }
    let i' := if i then imm (x + 8) else none
    { head := head, kind := .send { first := true, last := true, imm := i', ud := some u, payload := body o } }
  let write (first last : Bool) : RocePacket :=
    let y : RoceWrite := { first := first, last := last, va := BitVec.ofNat 64 (beAt bs x 8),
                           rkey := BitVec.ofNat 32 (beAt bs (x + 8) 4), len := BitVec.ofNat 32 (beAt bs (x + 12) 4),
                           payload := body (x + (if first then 16 else 0)) }
    { head := head, kind := .write y }
  match op with
  | 0x00 => some (send true false false)
  | 0x01 => some (send false false false)
  | 0x02 => some (send false true false)
  | 0x03 => some (send false true true)
  | 0x04 => some (send true true false)
  | 0x05 => some (send true true true)
  | 0x06 => some (write true false)
  | 0x07 => some (write false false)
  | 0x08 => some (write false true)
  | 0x0A => some (write true true)
  | 0x0C => some { head := head, kind := .read (BitVec.ofNat 64 (beAt bs x 8)) (BitVec.ofNat 32 (beAt bs (x + 8) 4))
                                        (BitVec.ofNat 32 (beAt bs (x + 12) 4)) }
  | 0x11 => some { head := head, kind := .ack (BitVec.ofNat 8 (beAt bs x 1)) }
  | 0x64 => some (ud false)
  | 0x65 => some (ud true)
  | _ => none

/-! ## Receiving a frame -/

/-- R446: steer a frame. -/
def State.steer (s : State) (f : HeldFrame) : State :=
  match parseFrame f.port.toNat f.bytes (s.fld Slot.chm1 Off.CHM1.STEER 52 12) with
  | .error reason => s.toExc f reason 0
  | .ok p =>
    match roceAt f.bytes p with
    | none => s.steerParsed f p
    | some b => match parseRoce f p b with
      | some x => s.rocePacket x
      | none => s.countPort f.port.toNat 0xC 1

/-- R444, R445: an Ethernet frame, without its FCS, has arrived on a port. -/
def State.receiveFrame (s : State) (port : BitVec 3) (fcsOk : Bool) (bytes : List Byte) : State :=
  let p := port.toNat
  let n := bytes.length + 4
  if !s.portMade p then s
  else if !s.blockOn Slot.chm0 then s.countPort p 4 1
  else if n < 64 ∨ 9216 < n then s.countPort p 0xD 1
  else if !fcsOk then s.countPort p 2 1
  else
    let s := (s.countPort p 0 1).countPort p 1 n
    let f : HeldFrame := { port := port, tod := BitVec.ofNat 64 s.rxStamp, bytes := bytes }
    match s.pauseFrame p bytes with
    | some t => t.countPort p 5 1
    | none =>
      if !s.macAccepts p bytes then s.countPort p 3 1
      else if s.blockOn Slot.chm1 then s.steer f else s.holdFrame f

/-- R442: a port's link comes up; sessions on its queue pairs begin (R472). -/
def State.portUpEvent (s : State) (p : Nat) : State :=
  if !s.portMade p then s
  else
    (s.setFlag Slot.chm0 Off.CHM0.PORTSTS p true).mirrorStarts (· == p)

/-- A port's link goes down: LINKDN, and the sessions over it end (R472, R475). -/
def State.portDownEvent (s : State) (p : Nat) : State :=
  if !s.portMade p then s
  else
    let s := (s.setFlag Slot.chm0 Off.CHM0.PORTSTS p false).setErr Slot.chm0 Off.CHM0.CHM0ERR p
    let s := { s with outbuf := s.outbuf.filter (·.port.toNat != p), pauses := s.pauses.filter (·.port.toNat != p) }
    (List.range 8).foldl (fun s i => [false, true].foldl (fun s peer =>
      if s.setNames i peer && qPort (s.queue (s.setQp i peer)) == p && (s.session? i peer).isSome then
        (s.dropSession i peer).setLive i peer false else s) s) s

/-- R469: a rising edge of PTP_PPS_IN. -/
def State.ppsIn (s : State) : State :=
  if s.flag Slot.chm0 Off.CHM0.PTPCTL 1 then s.setReg Slot.chm0 Off.CHM0.PPSIN s.tod else s

/-- R469: the counter crosses a second: PTP_PPS_OUT rises while PPSOUT is 1. -/
def State.ppsOut (s : State) : State :=
  { s with mantel := { s.mantel with ppsOut := s.flag Slot.chm0 Off.CHM0.PTPCTL 0 } }

end Sys2Proof.Machine
end

