-- ==== Sys2Proof/Machine/Flex.lean ====
section
/-!
DEFINITION. The flexible ports: links and CXL devices (R426 to R428, R433, R571), inbound requests (R432), the endpoint (R431), and
doorbell stores by any party (R27).
-/

namespace Sys2Proof.Machine

/-! ## Links -/

/-- The far window of a port. -/
def inWindow (p a : Nat) : Bool := a / 2 ^ 40 == p + 1

/-- R428: the capacity of a CXL device as CAP holds it. -/
def cxlCapacity (n : Nat) : Nat := min (2 ^ 40) (n / 2 ^ 28 * 2 ^ 28)

/-- MAXW as it counts: values above x16 are x16. -/
def widthOf (w : Nat) : Nat := if 4 < w then 4 else w

/-- MAXGEN as it counts: values outside 1 to 5 are 5. -/
def genOf (g : Nat) : Nat := if g = 0 ∨ 5 < g then 5 else g

/-- R433: what a CXL device that did not keep its memory holds when its link comes up again. -/
def State.farContents (s : State) (p : Nat) (k : LinkPartner) : State :=
  match k.memory with
  | none => s
  | some bs =>
    let base := (p + 1) * 2 ^ 40
    let s := { s with
      mem := s.mem.filter (fun e => !inWindow p e.1)
      lines := { s.lines with poison := s.lines.poison.filter (fun l => !inWindow p (l * 64)) ++ k.poison.map (fun l => base / 64 + l.toNat) } }
    bs.foldl (fun s (o, b) => s.poke (base + o.toNat) [b]) s

/-- R427: the widths and rates at which a link operates: all of them below PCIe, and x4 or wider at 32 GT/s below CXL. -/
def linkAllowed (cxl : Bool) (w g : Nat) : Bool := !cxl || (decide (2 ≤ w) && g == 5)

/-- R426 to R428: a port's link comes up. -/
def State.linkComesUp (s : State) (p : Nat) (k : LinkPartner) : State :=
  let page := Slot.fxp p
  if !s.blockOn page || s.portMode p == 0 || s.portUp p then s
  else
    let w := min (widthOf (s.fld page Off.FXP.MODE 2 3)) (widthOf k.width.toNat)
    let g := min (genOf (s.fld page Off.FXP.MODE 5 3)) (genOf k.gen.toNat)
    let cxl := s.portMode p == 1
    if !linkAllowed cxl w g then s
    else
    let s := if p = 0 then { s with mantel := { s.mantel with perst := false } } else s
    let s := s.setReg page Off.FXP.LINK (1 + b2n (cxl && k.type3) * 2 + w * 4 + g * 32)
    if !cxl then s
    else if !k.type3 then s.setErr page Off.FXP.FXPERR 5
    else (s.setReg page Off.FXP.CAP (cxlCapacity k.capacity.toNat)).farContents p k

/-- R433: a port's link goes down: its window is unpopulated, and a CXL port's cached lines are invalidated. `cxl` is whether
the port has been a CXL port. -/
def State.linkGoesDown (s : State) (p : Nat) (cxl : Bool) : State :=
  let page := Slot.fxp p
  if !s.portUp p then s
  else
    let s := (s.setReg page Off.FXP.LINK 0).setReg page Off.FXP.CAP 0
    let s := (s.setErr page Off.FXP.FXPERR 0).ashLog 0x40 page none none 0 (p + 2 ^ 8)
    if cxl then s.invalidate (inWindow p) else s

/-- R428: a CXL device's event record is copied into the ash log. -/
def State.cxlEvent (s : State) (p : Nat) : State :=
  if s.portMode p = 1 ∧ s.portUp p then s.ashLog 0x40 (Slot.fxp p) none none 0 (p + 4 * 2 ^ 8) else s

/-- R427, R430: a link error: counted, and logged below a root port or reported to the host. -/
def State.aerError (s : State) (p : Nat) (corr : Bool) : State :=
  if s.portMode p = 0 then s
  else
    let s := s.incSat (Slot.fxp p) Off.FXP.AERCNT (if corr then 0 else 32) 32 1
    if s.portMode p = 3 then { s with out := s.out ++ [.aer (BitVec.ofNat 2 p)] }
    else if corr then s else s.ashLog 0x40 (Slot.fxp p) none none 0 (p + 2 * 2 ^ 8)

/-- R426: the host drives PERST_N of port 0 in endpoint mode; the link goes down with it. -/
def State.perstAssert (s : State) : State :=
  if s.portMode 0 = 3 then { s with mantel := { s.mantel with perst := true } }.linkGoesDown 0 false else s

/-! ## Outbound requests -/

/-- R429, R431: the address that an outbound memory request carries, offset + OBOFF. -/
def State.busAddr (s : State) (p a : Nat) : Nat := (a % 2 ^ 40 + s.reg (Slot.fxp p) Off.FXP.OBOFF) % 2 ^ 64

/-- R429: the request that an outbound store or load of a PCIe port makes: in ECAM layout for the configuration space of a root port. -/
def State.outbound (s : State) (p a : Nat) (data : List Byte ⊕ Nat) : Output :=
  let o := a % 2 ^ 40
  if s.portMode p = 2 ∧ 0xFFF0000000 ≤ o then
    .pcieConfig (BitVec.ofNat 2 p) (BitVec.ofNat 8 (o / 2 ^ 20)) (BitVec.ofNat 5 (o / 2 ^ 15)) (BitVec.ofNat 3 (o / 2 ^ 12)) (BitVec.ofNat 12 o) data
  else match data with
    | .inl bs => .pcieWrite (BitVec.ofNat 2 p) (BitVec.ofNat 64 (s.busAddr p a)) bs
    | .inr n => .pcieRead (BitVec.ofNat 2 p) (BitVec.ofNat 64 (s.busAddr p a)) n

/-! ## Doorbells -/

/-- R464: what a store to a queue doorbell does. -/
def State.doorbellAt (s : State) (a v : Nat) : State := s.doorbell ((a - 0xF30000000000) / 8) v

/-- R27, R464: a store to a queue doorbell; it is held while Chimney's queues are Quiesced (R52), and while it would write a line that a
reservation set holds (R248). -/
def State.ringDoorbell (s : State) (a v : Nat) : State :=
  if s.blockOn Slot.chm1 && !s.writesHeld (s.doorbellAt a v) then s.doorbellAt a v else s.park (.door a (BitVec.ofNat 64 v))

/-! ## MSI-X (R431) -/

/-- The offset of the PBA in BAR4; the table is at 0. -/
abbrev pbaOff : Nat := 0x2000

/-- A byte of the MSI-X table as PCIe resets it: every vector is masked. -/
def msixDefault (o : Nat) : Byte := if o < 1024 ∧ o % 16 = 12 then 1 else 0

/-- A byte of BAR4. -/
def State.msixByte (s : State) (o : Nat) : Byte :=
  if pbaOff ≤ o ∧ o < pbaOff + 8 then BitVec.ofNat 8 (bitsOf s.msixPba.toNat (8 * (o - pbaOff)) 8)
  else SMap.get msixDefault s.msix o

/-- A vector is masked: by bit 0 of its vector control, by the function's mask bit, or while the host has not enabled MSI-X. -/
def State.msixMasked (s : State) (v : Nat) : Bool :=
  bitAt (s.msixByte (16 * v + 12)).toNat 0 || bitAt s.msixCtl.toNat 0 || !bitAt s.msixCtl.toNat 1

/-- Send a vector, or set its pending bit while it is masked. -/
def State.msixSend (s : State) (v : Nat) : State :=
  if s.msixMasked v then { s with msixPba := s.msixPba ||| BitVec.ofNat 64 (2 ^ v) }
  else { s with msixPba := s.msixPba &&& ~~~(BitVec.ofNat 64 (2 ^ v)), out := s.out ++ [.msix (BitVec.ofNat 6 v)] }

/-- MSIXCMD.GO: ignored outside endpoint mode. -/
def State.msixCommand (s : State) (v : Nat) : State := if s.portMode 0 = 3 ∧ s.portUp 0 then s.msixSend v else s

/-- Vectors that are unmasked with their pending bits set are sent. -/
def State.msixPending (s : State) : State :=
  (List.range 64).foldl (fun s v => if bitAt s.msixPba.toNat v && !s.msixMasked v then s.msixSend v else s) s

/-- A host write to the table. -/
def State.msixWrite (s : State) (o : Nat) (bs : List Byte) : State :=
  let keep := (bs.zipIdx.filter (fun (_, i) => decide (o + i < 1024))).foldl
    (fun m (b, i) => SMap.set msixDefault m (o + i) b) s.msix
  ({ s with msix := keep } : State).msixPending

/-! ## Configuration space of the endpoint (R431) -/

/-- The BAR that a configuration register holds a half of, by 8-byte slot from 0x10: the type bits of its low half and its size. -/
def State.barShape (s : State) (i : Nat) : Nat × Nat :=
  let exp := s.fld (Slot.fxp 0) Off.FXP.INCTL 6 6
  match i with
  | 0 => (0xC, if 12 ≤ exp ∧ exp ≤ 40 then 2 ^ exp else 0)
  | 1 => (0x4, 0x400000)
  | _ => (0x4, 0x4000)

/-- The 64 bits that a BAR shows: the address that the host has given it, a multiple of its size, with its type; none shows 0. -/
def State.barWord (s : State) (i : Nat) : Nat :=
  let (type, size) := s.barShape i
  if size = 0 then 0 else (s.bars[i]?.map (·.toNat)).getD 0 / size * size + type

/-- Where the model puts the MSI-X capability. -/
abbrev msixCap : Nat := 0x40

/-- A configuration register that the spec gives: the BARs at 0x10 to 0x24, the pointer to the capability list at 0x34, and the MSI-X
capability with its table of 64 vectors at 0 and its PBA in BAR4. `w` is what the spec leaves open of the register. -/
def State.configWord (s : State) (reg w : Nat) : Nat :=
  if 0x10 ≤ reg ∧ reg < 0x28 then bitsOf (s.barWord ((reg - 0x10) / 8)) (reg / 4 % 2 * 32) 32
  else if reg = 0x34 then msixCap
  else if reg = msixCap then 0x11 + bitsOf w 8 8 * 2 ^ 8 + 63 * 2 ^ 16 + s.msixCtl.toNat * 2 ^ 30
  else if reg = msixCap + 4 then 4
  else if reg = msixCap + 8 then pbaOff + 4
  else w

/-- A host write of a configuration register: an address of a BAR, or the enable and mask bits of MSI-X. What it does to a register that
the spec does not give stays with the host's side. -/
def State.configSet (s : State) (reg v : Nat) : State :=
  if 0x10 ≤ reg ∧ reg < 0x28 then
    let i := (reg - 0x10) / 8
    let old := (s.bars[i]?.map (·.toNat)).getD 0
    { s with bars := s.bars.setIfInBounds i (BitVec.ofNat 64 (putBits old (reg / 4 % 2 * 32) 32 v)) }
  else if reg = msixCap then ({ s with msixCtl := BitVec.ofNat 2 (v / 2 ^ 30) } : State).msixPending
  else s

/-! ## Inbound requests (R432) -/

/-- What a target resolves to: a physical address, a doorbell, a byte of BAR4, or nothing that the port answers. -/
inductive InReach where
  | window (a : Nat)
  | door (a : Nat)
  | bar4 (o : Nat)
  | none
  deriving DecidableEq, Repr

/-- R431, R432: what a request of `n` bytes reaches. -/
def State.reaches (s : State) (p n : Nat) (t : Target) : InReach :=
  let page := Slot.fxp p
  let base := s.fld page Off.FXP.INBASE 12 36 * 4096
  let exp := s.fld page Off.FXP.INCTL 6 6
  let size := if 12 ≤ exp ∧ exp ≤ 40 then 2 ^ exp else 0
  let on := s.flag page Off.FXP.INCTL 0
  let window (a : Nat) : InReach := if on && decide (base ≤ a) && decide (a + n ≤ base + size) then .window a else .none
  match t with
  | .phys a => if s.portMode p = 2 then window a.toNat else .none
  | .bar0 o => if s.portMode p = 3 then window (base + o.toNat) else .none
  | .bar2 o => if s.portMode p = 3 ∧ on ∧ o.toNat + n ≤ 0x400000 then .door (0xF30000000000 + o.toNat) else .none
  | .bar4 o => if s.portMode p = 3 ∧ o.toNat + n ≤ 0x4000 then .bar4 o.toNat else .none

/-- R432: a line that a request names accepts it: ordinary, populated, its key not refused, and no far-key-table line written
(R572). -/
def State.inboundLine (s : State) (p x : Nat) (store : Bool) : Bool :=
  s.ordinary x && s.populated (if store then .store else .load) x && !s.keyLost x
    && keyAllows (s.keyByte x) (s.fld (Slot.fxp p) Off.FXP.INCTL 1 4) store && !(store && s.fktLine x)

/-- R432: the memory a request names accepts it. -/
def State.inboundOk (s : State) (p a n : Nat) (store : Bool) : Bool := (linesTouched a n).all (fun l => s.inboundLine p (l * 64) store)

/-- R391: a request that a lost key byte refuses is counted. -/
def State.inboundLost (s : State) (p a n : Nat) (store : Bool) : State :=
  match (linesTouched a n).find? (fun l => !s.inboundLine p (l * 64) store) with
  | some l => if s.populated .load (l * 64) then s.countKeyLost (l * 64) else s
  | none => s

/-- The address a request names, as the ash log has it. -/
def targetAddr : Target → Nat
  | .phys a => a.toNat
  | .bar0 o => o.toNat
  | .bar2 o => o.toNat
  | .bar4 o => o.toNat

/-- R432: a refused request: FXPERR.UR and the ash log. -/
def State.inboundRefused (s : State) (p : Nat) (t : Target) : State :=
  (s.setErr (Slot.fxp p) Off.FXP.FXPERR 2).ashLog 0x40 (Slot.fxp p) none none (targetAddr t) (p + 3 * 2 ^ 8)

/-- The answer to a read. -/
def State.reply (s : State) (p : Nat) (data : Option (List Byte)) (poisoned : Bool) : State :=
  { s with out := s.out ++ [.pcieReply (BitVec.ofNat 2 p) data poisoned] }

/-- R432, R422: an inbound read. -/
def State.inboundRead (s : State) (p : Nat) (t : Target) (n : Nat) : State :=
  match s.reaches p n t with
  | .window a =>
    if s.inboundOk p a n false then
      (s.devRead a n).reply p (some (s.bytes a n)) (s.anyPoison a n)
    else ((s.inboundLost p a n false).inboundRefused p t).reply p none false
  | .door _ => s.reply p (some (zeros n)) false
  | .bar4 o => s.reply p (some ((List.range n).map (fun i => s.msixByte (o + i)))) false
  | .none => (s.inboundRefused p t).reply p none false

/-- R427, R432: an inbound write. A poisoned one sets FXPERR.POISON, and leaves the lines that it names poisoned. -/
def State.inboundWrite (s : State) (p : Nat) (t : Target) (bs : List Byte) (poisoned : Bool) : State :=
  let s := if poisoned then s.setErr (Slot.fxp p) Off.FXP.FXPERR 3 else s
  match s.reaches p bs.length t with
  | .window a =>
    if s.inboundOk p a bs.length true then
      let s := s.devWrite a bs
      let s := if poisoned then (linesTouched a bs.length).foldl State.poisonLine s else s
      let m := s.fld (Slot.fxp p) Off.FXP.MSIADDR 3 61 * 8
      if m ≠ 0 ∧ a < m + 8 ∧ m < a + bs.length then s.setErr (Slot.fxp p) Off.FXP.FXPERR 4 else s
    else (s.inboundLost p a bs.length true).inboundRefused p t
  | .door a =>
    if poisoned then s
    else if a % 8 = 0 ∧ bs.length = 8 then s.ringDoorbell a (leNat bs) else s.inboundRefused p t
  | .bar4 o => if poisoned then s else s.msixWrite o bs
  | .none => s.inboundRefused p t

/-- R431: a host configuration request to port 0: retried until the endpoint is enabled. Of its registers the spec gives the BARs and
MSI-X. -/
def State.inboundConfig (s : State) (reg : Nat) (value : Option (BitVec 32)) : State :=
  if !s.flag (Slot.fxp 0) Off.PAGE.CTL 0 || s.portMode 0 != 3 then { s with out := s.out ++ [.pcieRetry] }
  else match value with
    | some v => (s.configSet reg v.toNat).reply 0 (some []) false
    | none =>
      let w := (Config.pcieConfig s.fresh (BitVec.ofNat 12 reg)).toNat
      { s with fresh := s.fresh + 1 }.reply 0 (some (leBytes 4 (s.configWord reg w))) false

/-- R248, R52, R414: a request waits while a reservation holds a line it names, or near memory that it names does not serve accesses. -/
def State.inboundHeld (s : State) (p : Nat) : Inbound → Bool
  | .read t n => match s.reaches p n.toNat t with
    | .window a => s.lineHeld a n.toNat || s.nearStops a n.toNat
    | .door _ | .bar4 _ | .none => false
  | .write t bs _ => match s.reaches p bs.length t with
    | .window a => s.lineHeld a bs.length || s.nearStops a bs.length
    | .door _ | .bar4 _ | .none => false
  | .config _ _ => false

/-- Serve an inbound request. -/
def State.serveInbound (s : State) (p : Nat) : Inbound → State
  | .read t n => s.inboundRead p t n.toNat
  | .write t bs poisoned => s.inboundWrite p t bs poisoned
  | .config reg v => s.inboundConfig reg.toNat v

/-- Whether a piece of held work is an inbound request of a port. -/
def inboundOf (p : Nat) : Work → Option Inbound
  | .inbound q r => if q.toNat = p then some r else none
  | .write _ _ _ | .door _ _ | .packet _ | .mirror _ _ | .store _ _ _ | .debug _ | .group _ _ | .event _ _ | .dura _ => none

/-- The first held request of a port, and the held work without it. -/
def takeInbound (p : Nat) : List Work → Option (Inbound × List Work)
  | [] => none
  | w :: t => match inboundOf p w with
    | some r => some (r, t)
    | none => (takeInbound p t).map (fun (r, t') => (r, w :: t'))

/-- Serve the held requests of a port in order (R432), up to the first that waits. -/
def State.serveHeld (s : State) (p : Nat) : Nat → State
  | 0 => s
  | fuel + 1 => match takeInbound p s.parked with
    | none => s
    | some (r, rest) =>
      if !s.blockOn (Slot.fxp p) || s.inboundHeld p r then s
      else ({ s with parked := rest }.serveInbound p r).serveHeld p fuel

/-- An inbound request arrives: nothing while the link is down; it is held while the port is Quiesced (R52), a reservation
holds a line it names (R248), or an earlier request of the port is held. -/
def State.inbound (s : State) (p : Nat) (r : Inbound) : State :=
  if !s.portUp p then s
  else ({ s with parked := s.parked ++ [Work.inbound (BitVec.ofNat 2 p) r] } : State).serveHeld p (s.parked.length + 1)

/-- R431: a configuration request reaches port 0, whose link it does not need; an enabled port that is Quiesced holds it (R52). -/
def State.configRequest (s : State) (reg : BitVec 12) (value : Option (BitVec 32)) : State :=
  if s.flag (Slot.fxp 0) Off.PAGE.CTL 0 && s.portMode 0 == 3 then
    ({ s with parked := s.parked ++ [Work.inbound 0 (.config reg value)] } : State).serveHeld 0 (s.parked.length + 1)
  else s.inboundConfig reg.toNat value

end Sys2Proof.Machine
end

