-- ==== Sys2Proof/Machine/Bellows.lean ====
section
/-!
DEFINITION. Bellows: channels and rings (R479 to R482), descriptors (R484 to R491), completion and errors (R492 to R494).
-/

namespace Sys2Proof.Machine

/-! ## Channels -/

/-- R479: where the entry of a channel lies. -/
def State.chanAt (s : State) (c : Nat) : Nat := s.reg Slot.bel Off.BEL.CHBASE + c * 64

/-- An active channel. -/
def State.chan (s : State) (c : BitVec 6) : Option Chan := s.chans.find? (·.chan == c)

/-- Put an active channel back. -/
def State.putChan (s : State) (k : Chan) : State :=
  { s with chans := s.chans.map (fun x => if x.chan = k.chan then k else x) }

/-- The outcome of a CHCMD. -/
def State.chcmdSts (s : State) (refused : Bool) : State := s.setFlag Slot.bel Off.BEL.CHCMD 33 refused

/-- R479: descriptor `i` of a ring. -/
def Chan.descAt (k : Chan) (i : Nat) : Nat := k.rbase.toNat + i % 2 ^ k.dexp * 64

/-- R480, R481: CHCMD ENABLE. -/
def State.chanEnable (s : State) (c : BitVec 6) : State :=
  let a := s.chanAt c.toNat
  if !s.nearPop a || s.poisoned a then s.chcmdSts true
  else
    let rbase := s.ld a 8
    let ctl := s.ld (a + 8) 8
    let prod := s.ld (a + 0x10) 8
    let cons := s.ld (a + 0x18) 8
    let dexp := bitsOf ctl 0 5
    let ok := bitsOf ctl 9 54 == 0 && s.ld (a + 0x20) 32 == 0 && decide (4 ≤ dexp ∧ dexp ≤ 16)
      && rbase % (2 ^ dexp * 64) == 0 && s.nearRange rbase (2 ^ dexp * 64) && decide (cons ≤ prod ∧ prod ≤ cons + 2 ^ dexp)
    if !ok then s.chcmdSts true
    else
      let k : Chan := { chan := c, rbase := BitVec.ofNat 64 rbase, dexp := dexp, key := BitVec.ofNat 4 (bitsOf ctl 5 4),
                        prod := BitVec.ofNat 64 prod, cons := BitVec.ofNat 64 cons, work := none }
      let s : State := { s with chans := s.chans.filter (·.chan != c) ++ [k] }
      ((s.devRead a 64).devWrite (a + 8) (leBytes 8 (putBits ctl 63 1 1))).chcmdSts false

/-- R482: a doorbell store that is ignored. -/
def State.belDbErr (s : State) : State :=
  (s.incSat Slot.bel Off.BEL.DBCNT 0 32 1).setErr Slot.bel Off.BEL.BELERR 2

/-- R482: a doorbell store. -/
def State.belDoorbell (s : State) (c : BitVec 6) (index : Nat) : State :=
  match s.chan c with
  | none => s.belDbErr
  | some k => match extendIndex k.prod.toNat index with
    | none => s.belDbErr
    | some v =>
      if 2 ^ k.dexp < seqSub v k.cons.toNat then s.belDbErr else s.putChan { k with prod := BitVec.ofNat 64 v }

/-- R480: write a channel's PROD and CONS back and clear its ACTIVE. -/
def State.chanOff (s : State) (k : Chan) : State :=
  let a := s.chanAt k.chan.toNat
  let s : State := { s with chans := s.chans.filter (·.chan != k.chan) }
  let s := s.devWrite (a + 0x10) (wordBytes k.prod ++ wordBytes k.cons)
  s.devWrite (a + 8) (leBytes 8 (putBits (s.ld (a + 8) 8) 63 1 0))

/-- R494: a ring or list read that faults deactivates the channel; CONS stays on the descriptor. -/
def State.ringErr (s : State) (k : Chan) : State :=
  let a := k.descAt k.cons.toNat
  ((s.chanOff k).setErr Slot.bel Off.BEL.BELERR 1).ashLog 0x61 Slot.bel none none a k.chan.toNat

/-! ## Access -/

/-- R487, R488, R493, R572: the STATUS an access to the line of an address ends with; 0 when it is allowed. -/
def State.belStatus (s : State) (key : BitVec 4) (store : Bool) (a : Nat) : Nat :=
  let k : Acc := if store then .store else .load
  match rangeOf a with
  | .hob => if s.populated k a then 0 else 2
  | .near | .far _ =>
    if !s.ordinary a || !s.populated k a then 2
    else if s.keyLost a then 4
    else if !keyAllows (s.keyByte a) key.toNat store || (store && s.fktLine a) then 3
    else if !store && s.poisoned a then 4
    else 0
  | .reg | .rom | .door | .none => 2

/-- The segment an offset lies in: the address of the byte, the bytes left of the segment, and whether the segment begins
there. -/
def segAt : List (Nat × Nat) → Nat → Nat × Nat × Bool
  | [], _ => (0, 0, false)
  | (a, n) :: t, off => if off < n then (a + off, n - off, off == 0) else segAt t (off - n)

/-- Two physical ranges share a byte. -/
def overlap (a n b m : Nat) : Bool := decide (a < b + m) && decide (b < a + n)

/-- What reading an operand gives: bytes up to the first that cannot be read, the STATUS that stops there (0 when none does),
and whether a reserved line stops the reading for now. -/
structure BelRead where
  bytes  : List Byte
  status : Nat
  held   : Bool

/-- R489: read up to `n` bytes of an operand from an offset, line by line in order. `whole` is the contiguous operand each list
entry must not overlap (R490); the number bounds the pieces. -/
def State.belRead (s : State) (key : BitVec 4) (segs : List (Nat × Nat)) (whole : Option (Nat × Nat)) :
    Nat → Nat → Nat → BelRead
  | 0, _, _ => { bytes := [], status := 0, held := false }
  | fuel + 1, off, n =>
    if n = 0 then { bytes := [], status := 0, held := false }
    else
      let (a, room, first) := segAt segs off
      let laps := match whole with
        | some (b, m) => first && overlap a room b m
        | none => false
      let st := if laps then 5 else s.belStatus key false a
      if st ≠ 0 then { bytes := [], status := st, held := false }
      else if s.lineHeld a 1 then { bytes := [], status := 0, held := true }
      else
        let k := min n (min room (64 - a % 64))
        let r := s.belRead key segs whole fuel (off + k) (n - k)
        { r with bytes := s.bytes a k ++ r.bytes }

/-- R396, R423, R391: what the reading of an operand from an offset does: its bytes are read, and an access that a lost key byte refuses
is counted. -/
def State.belTaken (s : State) (segs : List (Nat × Nat)) (off : Nat) (r : BelRead) : State :=
  let s := (List.range r.bytes.length).foldl (fun s i => s.devRead (segAt segs (off + i)).1 1) s
  if r.status = 4 then s.countKeyLost (segAt segs (off + r.bytes.length)).1 else s

/-! ## Operations -/

/-- R484: the operations. -/
abbrev Bel.copy : Nat := 1
/-- FILL. -/
abbrev Bel.fill : Nat := 2
/-- GATHER. -/
abbrev Bel.gather : Nat := 3
/-- SCATTER. -/
abbrev Bel.scatter : Nat := 4
/-- COMPARE. -/
abbrev Bel.compare : Nat := 5
/-- DIGEST. -/
abbrev Bel.digest : Nat := 6
/-- CRC32C. -/
abbrev Bel.crc : Nat := 7

/-- The end of a piece of work with a STATUS and, when it is 0, its ARG. -/
def BelWork.ends (w : BelWork) (status : Nat) (result : List Byte) : BelWork :=
  { w with stop := some (BitVec.ofNat 8 status),
           result := if status = 0 then result else leBytes 8 w.done ++ zeros 24 }

/-- R486: ARG of a descriptor whose last byte is done. -/
def BelWork.final (w : BelWork) : List Byte :=
  if w.op = Bel.compare then leBytes 8 (2 ^ 64 - 1) ++ zeros 24
  else if w.op = Bel.digest then sm3 w.acc
  else if w.op = Bel.crc then leBytes 4 (crc32cFrom (leNat (w.arg.take 4)) w.acc) ++ zeros 28
  else w.arg

/-- BYTES counts what is written or digested. -/
def State.belCount (s : State) (n : Nat) : State := s.incWrap Slot.bel Off.BEL.BYTES 0 64 n

/-- R495: a line of which Bellows wrote `n` bytes waits for its write-back: the valid bytes that it had, `was`, and those written are
valid, and `old` is what lies beneath. -/
def State.belModified (s : State) (a n : Nat) (was : BitVec 64) (old : List Byte) : State :=
  if s.ordinary a then
    { s with dirty := { line := lineOf a, mask := was ||| coverMask a n, bel := true, stove := 0, ctx := 0, addr := a, old := old } :: s.dirty }
  else s

/-- R439: the bytes of a line that a modified copy holds valid. -/
def State.validMask (s : State) (line : Nat) : BitVec 64 := ((s.dirty.find? (·.line == line)).map (·.mask)).getD 0

/-- Write `bs`, which lie within one line, as the next bytes of a descriptor; `st` is the STATUS that follows them. -/
def State.belWrite (s : State) (key : BitVec 4) (w : BelWork) (a : Nat) (bs : List Byte) (st : Nat) : State × BelWork :=
  if bs = [] then (s, if st = 0 then w else w.ends st [])
  else
    let dst := s.belStatus key true a
    if dst ≠ 0 then (s.countKeyLost a, w.ends dst [])
    else
      let w := { w with done := w.done + bs.length }
      (((s.devWrite a bs).belModified a bs.length (s.validMask (lineOf a)) (s.beneath (lineOf a))).belCount bs.length,
        if st = 0 then w else w.ends st [])

/-- One line of a moving operation: COPY, FILL, GATHER and SCATTER. The Bool is whether a reserved line stops it for now. -/
def State.belMove (s : State) (key : BitVec 4) (w : BelWork) : State × BelWork × Bool :=
  let (a, room, first) := segAt w.dst w.done
  let n := min room (64 - a % 64)
  let src := w.src.headD (0, 0)
  if w.op = Bel.scatter ∧ first ∧ overlap a room src.1 w.total then (s, w.ends 5 [], false)
  else if s.lineHeld a 1 then (s, w, true)
  else if w.op = Bel.fill then
    let bs := (List.range n).map (fun j => (w.arg[(w.done + j) % 8]?).getD 0)
    let (s, w) := s.belWrite key w a bs 0
    (s, w, false)
  else
    let whole := if w.op = Bel.gather then some ((w.dst.headD (0, 0)).1, w.total) else none
    let r := s.belRead key w.src whole (2 * n) w.done n
    let s := s.belTaken w.src w.done r
    let (s, w) := s.belWrite key w a r.bytes r.status
    (s, w, r.held)

/-- The position of the first unequal byte of two lists. -/
def firstDiff (x y : List Byte) : Option Nat := ((x.zip y).findIdx? (fun (a, b) => a != b))

/-- One line of COMPARE. -/
def State.belCompare (s : State) (key : BitVec 4) (w : BelWork) : State × BelWork × Bool :=
  let (a, room, _) := segAt w.src w.done
  let n := min room (64 - a % 64)
  let x := s.belRead key w.src none (2 * n) w.done n
  let y := s.belRead key w.dst none (2 * n) w.done n
  let s := (s.belTaken w.src w.done x).belTaken w.dst w.done y
  match firstDiff x.bytes y.bytes with
  | some i => (s, w.ends 0 (leBytes 8 (w.done + i) ++ zeros 24), false)
  | none =>
    let w := { w with done := w.done + min x.bytes.length y.bytes.length }
    let st := if x.bytes.length ≤ y.bytes.length ∧ x.status ≠ 0 then x.status
      else if y.bytes.length < n then y.status else 0
    (s, if st = 0 then w else w.ends st [], x.held || y.held)

/-- One line of DIGEST or CRC32C. -/
def State.belCheck (s : State) (key : BitVec 4) (w : BelWork) : State × BelWork × Bool :=
  let (a, room, _) := segAt w.src w.done
  let n := min room (64 - a % 64)
  let r := s.belRead key w.src none 1 w.done n
  let s := s.belTaken w.src w.done r
  let w := { w with done := w.done + r.bytes.length, acc := w.acc ++ r.bytes }
  (if w.op = Bel.digest then s.belCount r.bytes.length else s, if r.status = 0 then w else w.ends r.status [], r.held)

/-- R489: up to `fuel` lines of a descriptor in progress, while `on` allows; it ends when its last byte is done. -/
def State.belRun (s : State) (key : BitVec 4) (w : BelWork) : Nat → State × BelWork
  | 0 => (s, w)
  | fuel + 1 =>
    if w.stop.isSome then (s, w)
    else
      let (s, w, held) :=
        if w.op = Bel.compare then s.belCompare key w
        else if w.op = Bel.digest ∨ w.op = Bel.crc then s.belCheck key w
        else s.belMove key w
      let w := if w.stop.isNone && w.done == w.total then w.ends 0 w.final else w
      if held then (s, w) else s.belRun key w fuel

/-! ## Descriptors -/

/-- R485: how the list of an operand reads: its entries, the STATUS that refuses it, or a ring error (R494). -/
inductive BelList where
  | entries (es : List (Nat × Nat))
  | refused (status : Nat)
  | ringErr
  deriving DecidableEq, Repr

/-- R485: read the entries of a list. -/
def State.belList (s : State) (key : BitVec 4) (a : Nat) : Nat → BelList
  | 0 => .entries []
  | n + 1 =>
    let bad (x : Nat) : Bool := !s.nearPop x || s.poisoned x || s.keyLost x
    if rangeOf a ≠ .near ∨ rangeOf (a + 15) ≠ .near then .refused 2
    else if bad a || bad (a + 15) then .ringErr
    else if !keyAllows (s.keyByte a) key.toNat false || !keyAllows (s.keyByte (a + 15)) key.toNat false then .refused 3
    else
      let addr := s.ld a 8
      let count := s.ld (a + 8) 4
      if count = 0 ∨ s.ld (a + 12) 4 ≠ 0 then .refused 1
      else match s.belList key (a + 16) n with
        | .entries es => .entries ((addr, count) :: es)
        | r => r

/-- The bytes of a list of segments. -/
def segTotal (segs : List (Nat × Nat)) : Nat := (segs.map (·.2)).sum

/-- R484: begin the descriptor of a channel: its operands, or the STATUS that refuses it; none for a ring error. -/
def State.belBegin (s : State) (k : Chan) : Option BelWork :=
  let a := k.descAt k.cons.toNat
  if !s.nearPop a || s.poisoned a || s.keyLost a || !keyAllows (s.keyByte a) k.key.toNat false then none
  else
    let ctl := s.ld a 8
    let src := s.ld (a + 8) 8
    let dst := s.ld (a + 0x10) 8
    let lenWord := s.ld (a + 0x18) 8
    let op := ctl % 16
    let len := bitsOf lenWord 0 40
    let list := bitAt ctl 6
    let takes := op == Bel.gather || op == Bel.scatter || (list && (op == Bel.digest || op == Bel.crc))
    let w : BelWork := { op := op, src := [], dst := [], total := 0, arg := s.bytes (a + 0x20) 32,
                         event := if bitAt ctl 4 then some (BitVec.ofNat 20 (bitsOf ctl 24 20)) else none,
                         done := 0, acc := [], leave := false, stop := none, result := [],
                         list := if takes then some (if op == Bel.scatter then dst else src, len) else none }
    let bad := op == 0 || decide (7 < op) || bitsOf ctl 7 9 != 0 || bitsOf ctl 44 20 != 0 || bitsOf lenWord 40 24 != 0
      || (list && op != Bel.digest && op != Bel.crc) || len == 0 || (takes && decide (4096 < len))
    if bad then some ({ w with list := none }.ends 1 [])
    else if !takes then some { w with src := [(src, len)], dst := [(dst, len)], total := len }
    else match s.belList k.key (if op = Bel.scatter then dst else src) len with
      | .ringErr => none
      | .refused st => some (w.ends st [])
      | .entries es =>
        let n := segTotal es
        some (if op = Bel.scatter then { w with src := [(src, n)], dst := es, total := n }
          else { w with src := es, dst := [(dst, n)], total := n })

/-- R490: COPY refuses overlapping operands before anything moves. -/
def BelWork.checkCopy (w : BelWork) : BelWork :=
  if w.op = Bel.copy ∧ w.stop.isNone ∧ overlap (w.src.headD (0, 0)).1 w.total (w.dst.headD (0, 0)).1 w.total then w.ends 5 []
  else w

/-- R396: the entries that a descriptor's list was read from. -/
def State.belLists (s : State) (w : BelWork) : State :=
  match w.list with
  | some (a, n) => s.devRead a (16 * n)
  | none => s

/-- The channel with the work of its next descriptor begun; none when it has nothing to do or its ring has failed. -/
def State.belStart (s : State) (c : BitVec 6) : State × Option (Chan × BelWork) :=
  if !s.blockOn Slot.bel then (s, none)
  else match s.chan c with
    | none => (s, none)
    | some k =>
      if k.cons = k.prod then (s, none)
      else match k.work with
        | some w => (s, some (k, w))
        | none => match s.belBegin k with
          | none => ((s.countKeyLost (k.descAt k.cons.toNat)).ringErr k, none)
          | some w => (((s.devRead (k.descAt k.cons.toNat) 64).belLists w), some (k, w.checkCopy))

/-- R491: a descriptor of 64 KiB or more needs leave before its first access. -/
def BelWork.needsLeave (w : BelWork) : Bool := w.stop.isNone && !w.leave && decide (65536 ≤ w.total)

/-- R484: work on the descriptor of a channel whose operation is `op`: up to `limit` lines, or all of them. -/
def State.belOperate (s : State) (op : Nat) (c : BitVec 6) (limit : Option Nat) : State :=
  match s.belStart c with
  | (s, none) => s
  | (s', some (k, w)) =>
    if w.op ≠ op then s
    else if w.needsLeave then (s'.putChan { k with work := some w }).askLeave (.bellows c)
    else
      let (s', w) := s'.belRun k.key w (limit.getD (w.total + 1))
      s'.putChan { k with work := some w }

/-- R492: complete a descriptor that has ended. -/
def State.belFinish (s : State) (k : Chan) (w : BelWork) (status : BitVec 8) : State :=
  let a := k.descAt k.cons.toNat
  if !s.nearPop a || s.keyLost a || !keyAllows (s.keyByte a) k.key.toNat true then (s.countKeyLost a).ringErr k
  else
    let ctl := s.ld a 8
    let s := s.devWrite (a + 0x20) w.result
    let s := s.devWrite a (leBytes 8 (putBits (putBits ctl 5 1 1) 16 8 status.toNat))
    let s := s.putChan { k with cons := k.cons + 1, work := none }
    let s := match w.event with
      | some ctx => s.deliverCtx 2 ctx
      | none => s
    if status = 0 then s
    else (s.setErr Slot.bel Off.BEL.BELERR 0).ashLog 0x60 Slot.bel none none a (k.chan.toNat + status.toNat * 2 ^ 8)

/-- R492: complete the descriptor of a channel, if it has ended. -/
def State.belComplete (s : State) (c : BitVec 6) : State :=
  match s.belStart c with
  | (s, none) => s
  | (s', some (k, w)) => match w.stop with
    | some st => s'.belFinish k w st
    | none => s

/-- R543: a Bellows channel withdraws its request for leave. -/
def State.dropBellowsLeave (s : State) (c : BitVec 6) : State :=
  { s with damper := Vector.ofFn (fun i =>
      let b := s.damper[i]
      { b with queue := b.queue.filter (· != LeaveReq.bellows c) }) }

/-- R480: CHCMD DISABLE: a descriptor in progress stops at its line boundary with STATUS 0x06. -/
def State.chanDisable (s : State) (c : BitVec 6) : State :=
  match s.chan c with
  | none => s.chcmdSts true
  | some k =>
    let s := s.dropBellowsLeave c
    let s := match k.work with
      | none => s
      | some w =>
        let w := if w.stop.isSome then w else w.ends 6 []
        s.belFinish k w (w.stop.getD 6)
    let s := match s.chan c with
      | some k => s.chanOff k
      | none => s
    s.chcmdSts false

/-- BEL.ACTIVE. -/
def State.belActive (s : State) : Nat := (s.chans.map (fun k => 2 ^ k.chan.toNat)).sum

end Sys2Proof.Machine
end

