-- ==== Sys2Proof/Machine/Grate.lean ====
section
/-!
DEFINITION. The Grate: spills (R306, R99 to R101), refills (R307, R102), placement and victims (R304, R305), flue binding
and preemption (R308 to R311), context and wake-group commands (R302, R313), quarantine (R370) and the scan-dump (R345).
-/

namespace Sys2Proof.Machine

/-! ## Spills -/

/-- Where a spill writes: the frame, its bytes so far, whether it is new, and the save-area fields step 6 writes. -/
structure SpillTo where
  addr   : Nat
  bytes  : List Byte
  isNew  : Bool
  free   : Option Nat
  spill  : Option Nat
  busy   : Bool

/-- R306 steps 2 to 4: the frame a spill uses; none when R101 forbids the spill. A new frame is read whole before it is written
(DESIGN CHOICE, assumption log 55). -/
def spillTarget (ctx : BitVec 20) : FM (Option SpillTo) := do
  let s ← get
  let cb := s.block ctx
  let free ← fLd ctx (cb + 0xB00) 8
  let spill ← fLd ctx (cb + 0xB10) 8
  let stat ← fLd ctx (cb + 0xB20) 8
  let old ← if spill ≠ 0 then (do
      let bs ← fLdBytes ctx spill 1024
      if (← get).verifies ctx bs && bitsOf (leNat (sliceBytes bs 0x10 8)) 17 2 == 1 then pure (some bs)
      else do
        modify (·.ashLog 0x11 Slot.grt none (some ctx.toNat) spill 0)
        pure none)
    else pure none
  match old with
  | some bs => pure (some { addr := spill, bytes := bs, isNew := false, free := none, spill := none, busy := false })
  | none =>
    if free ≠ 0 then do
      let bs ← fLdBytes ctx free 1024
      pure (some { addr := free, bytes := bs, isNew := true, free := some (leNat (sliceBytes bs 0 8)), spill := some free,
                   busy := false })
    else if !bitAt stat 0 then do
      let bs ← fLdBytes ctx (cb + 0x500) 1024
      pure (some { addr := cb + 0x500, bytes := bs, isNew := true, free := none, spill := some 0, busy := true })
    else pure none

/-- R306 step 5: the bytes of the spill frame: stale groups (all in a new frame), TTR in a new frame, header and seal. -/
def spillBytes (s : State) (b : Bank) (t : SpillTo) (seq : Nat) : List Byte :=
  let stale := (List.range 8).filter (fun k => t.isNew || !bitAt b.spillCur.toNat k)
  let body := stale.foldl (fun bs k => spliceBytes bs (slotOf k).1 (b.groupBytes k)) t.bytes
  let body := if t.isNew then spliceBytes body 0x2A0 (wordBytes b.ttr) else body
  s.sealed b.ctx (frameHeader 0 seq (descWord 0xFF 0xFF 1 false) b.ctx 0 b.dirty.toNat ++ body.drop 64)

/-- R306 steps 2 to 6 on the frames: true when the spill was made, false when R101 keeps the context resident. -/
def spillFrames (b : Bank) : FM Bool := do
  match ← spillTarget b.ctx with
  | none => pure false
  | some t => do
    let cb := (← get).block b.ctx
    let seq ← fLd b.ctx (cb + 0xB18) 8
    let _ ← frameAddr b.ctx (cb + 0xB00) 0x28 true
    fStBytes b.ctx t.addr (spillBytes (← get) b t seq)
    fSt b.ctx (cb + 0xB18) 8 (seq + 1)
    match t.free with
    | some v => fSt b.ctx (cb + 0xB00) 8 v
    | none => pure ()
    match t.spill with
    | some v => fSt b.ctx (cb + 0xB10) 8 v
    | none => pure ()
    if t.busy then do
      let stat ← fLd b.ctx (cb + 0xB20) 8
      fSt b.ctx (cb + 0xB20) 8 (stat ||| 1)
    pure true

/-- R605: the ST a spilled context has by its wait, and the wait fields of STATE. -/
def Bank.spillSt (b : Bank) : Nat × Nat :=
  match b.wait with
  | some (.event m _) => if bitAt m.toNat 4 then (St.ready, 0) else (St.waiting, m.toNat % 16 * 2 ^ 24)
  | some (.dura r) => (St.waiting, 2 ^ 28 + r.toNat * 2 ^ 29)
  | some (.ext _) | some (.leave _) | some .reserved | none => (St.ready, 0)

/-- A bucket's queue without the requests of a context. -/
def Bucket.unqueue (k : Bucket) (ctx : BitVec 20) : Bucket :=
  { k with queue := k.queue.filter (fun r =>
      match r with
      | .context c _ => c != ctx
      | .bellows _ | .engine | .sign | .handshake _ _ => true) }

/-- A context gives up what it waits for: its place in the damper queues, its reservation set, and what its pair has on the shelf. -/
def State.abandon (s : State) (ctx : BitVec 20) : State :=
  State.purge { s with
    resv := s.resv.filter (·.ctx != ctx)
    shelf := s.shelf.filter (·.ctx != ctx)
    damper := Vector.ofFn (fun i => (s.damper[i]).unqueue ctx) }

/-- A context is charged `n` cycles more in all while it is not resident. -/
def State.chargeAway (s : State) (ctx : BitVec 20) (n : Nat) : State :=
  { s with charges := SMap.set (fun _ => 0) s.charges ctx.toNat (SMap.get (fun _ => 0) s.charges ctx.toNat + n) }

/-- R306 step 7: release a bank; damper leave it holds goes back, and what its context has been charged is kept. -/
def State.releaseBank (s : State) (b : Bank) : State :=
  let s := ((s.abandon b.ctx).dropBank b.ctx).chargeAway b.ctx b.charged
  match b.leave with
  | some c => s.returnLeave (hearthOf b.stove) c
  | none => s

/-- R306: report a spill that failed; the context stays resident, as the reports made so far have left it. -/
def State.spillFailed (s : State) (b : Bank) : State :=
  let b := (s.bankOf b.ctx).getD b
  ((s.putBank { b with spillBad := true }).incSat (Slot.hrtB (hearthOf b.stove)) Off.HRTB.NOSPILL 0 32 1).attention

/-- The order that a context spilled with `st` stands in: a ready or waiting one that is in its order keeps its place there (R308,
R314). -/
def State.orderFor (s : State) (st : Nat) (ctx : BitVec 20) : State :=
  if st = St.ready then (if s.order.ready.contains ctx then s else s.toReady ctx)
  else if st = St.waiting then (if s.order.waiting.contains ctx then s else s.toWaiting ctx)
  else s.toNone ctx

/-- R306: spill the context of a bank at a boundary point. `dest` overrides the ST and HREASON that R605 gives. The Bool is
whether the spill was made. -/
def State.spill (s : State) (b : Bank) (dest : Option (Nat × Nat)) : State × Bool :=
  let s := (s.putBank b).drain b.ctx
  match spillFrames b s with
  | .error e s =>
    let s := s.ashLog 0x10 Slot.grt (some b.stove.toNat) (some b.ctx.toNat) e.addr e.kind
    (s.spillFailed b, false)
  | .ok false s =>
    let s := s.ashLog 0x13 Slot.grt (some b.stove.toNat) (some b.ctx.toNat) (s.cxa b.ctx) 0
    (s.spillFailed b, false)
  | .ok true s =>
    let b := (s.bankOf b.ctx).getD b
    let (st, waits) := match dest with
      | some (st, _) => (st, 0)
      | none => b.spillSt
    let hr := match dest with
      | some (_, h) => h
      | none => 0
    let s := s.setCtxState b.ctx (stateWord st b.evpend.toNat hr + waits)
    let sch := s.sched b.ctx
    let s := s.devWriteN (s.dirAt b.ctx + 8) 8 (putBits sch 28 36 (b.ttr.toNat / 4096))
    let s := (s.releaseBank b).orderFor st b.ctx
    (s.incSat (Slot.hrtB (hearthOf b.stove)) Off.HRTB.SPILLS 0 32 1, true)

/-- R282, R285, R360: what an execution of WAIT or DURW is charged when something ends its wait. -/
def Bank.waitCost (b : Bank) : Nat :=
  match b.wait with
  | some (.event _ _) => if b.psw.rf then 7 else 3
  | some (.dura _) => if b.psw.rf then 5 else 2
  | some (.ext _) | some (.leave _) | some .reserved | none => 0

/-- R285, R605: a spill that ends the execution of a WAIT or DURW, which is charged. -/
def State.spillOut (s : State) (b : Bank) (dest : Option (Nat × Nat)) : State × Bool :=
  match s.spill b dest with
  | (s, true) => (s.chargeAway b.ctx b.waitCost, true)
  | (s, false) => (s, false)

/-! ## Refills -/

/-- R307 steps 1 to 5 on the frames: the bank loaded from the spill frame and whether it was the reserve frame, or the
HREASON of the refusal with the frame's address. The reserve frame is taken whenever SPILL is 0 and RSVBUSY is 1, whatever set RSVBUSY
(DESIGN CHOICE, assumption log 55). -/
def refillFrames (ctx : BitVec 20) (stove : BitVec 6) (slot : BitVec 5) (evpend : Nat) : FM (Except (Nat × Nat) (Bank × Bool × Psw)) := do
  let s ← get
  let cb := s.block ctx
  let spill ← fLd ctx (cb + 0xB10) 8
  let stat ← fLd ctx (cb + 0xB20) 8
  let reserve := spill == 0 && bitAt stat 0
  let fa := if reserve then cb + 0x500 else spill
  let bs ← fLdBytes ctx fa 1024
  let s ← get
  let desc := leNat (sliceBytes bs 0x10 8)
  let p := leNat (sliceBytes bs 0x290 16)
  if !s.verifies ctx bs then pure (.error (1, fa))
  else if bitsOf desc 17 2 ≠ 1 ∨ !bitAt desc 7 then pure (.error (8, fa))
  else if bitAt desc 16 ∧ (bitAt p 68 ∨ bitAt p 78 ∨ (bitAt desc 6 ∧ bitAt (leNat (sliceBytes bs 0x280 16)) 127)) then
    pure (.error (2, fa))
  else
    let b0 := Bank.fresh stove slot ctx
    let b1 := ((List.range 7).filter (bitAt desc)).foldl
      (fun b k => b.loadGroup k (sliceBytes bs (slotOf k).1 (slotOf k).2)) b0
    let q : Psw := if s.stepping.contains ctx then { Psw.ofNat p with dbg := true } else Psw.ofNat p
    let b := { b1 with
      psw := s.loadRf ctx q
      charged := SMap.get (fun _ => 0) s.charges ctx.toNat
      ttr := wordAt bs 0x2A0
      spillCur := BitVec.ofNat 8 desc
      dirty := BitVec.ofNat 7 (leNat (sliceBytes bs 0x28 8))
      evpend := BitVec.ofNat 4 evpend }
    if reserve then fSt ctx (cb + 0xB10) 8 0
    pure (.ok (b, reserve, q))

/-- R377: HALT breaks the refire of the resident context that it has named, at this boundary point. -/
def State.haltBreak (s : State) (ctx : BitVec 20) : State :=
  if !s.halting.contains ctx then s
  else
    let t : State := { s with halting := s.halting.filter (· != ctx) }
    match t.bankOf ctx with
    | some b => if b.psw.rf then t.refireBreak b else t
    | none => t

/-- R307: make a context resident in a bank, or hold it. -/
def State.refillAt (s : State) (ctx : BitVec 20) (stove : BitVec 6) (slot : BitVec 5) : State :=
  let ev := bitsOf (s.ctxState ctx) 15 4
  let refuse (s : State) (reason fa : Nat) : State :=
    ((s.hold ctx reason).ashLog 0x12 Slot.grt (some stove.toNat) (some ctx.toNat) fa reason).attention
  match refillFrames ctx stove slot ev s with
  | .error e s => refuse s 3 e.addr
  | .ok (.error (reason, fa)) s => refuse s reason fa
  | .ok (.ok (b, reserve, q)) s =>
    let s := s.setCtxState ctx (St.resident + stove.toNat * 2 ^ 4 + slot.toNat * 2 ^ 10)
    let s := { s with banks := s.banks ++ [b], stepping := s.stepping.filter (· != ctx), fresh := s.fresh + 1,
                      charges := SMap.set (fun _ => 0) s.charges ctx.toNat 0 }
    let s := s.incSat (Slot.hrtB (hearthOf stove)) Off.HRTB.REFILLS 0 32 1
    let s := (s.breakLoaded ctx q).haltBreak ctx
    let b := (s.bankOf ctx).getD b
    if reserve then
      s.enter b { code := 0x14, fav := true, phys := !bitAt (s.cxa ctx) 0, faddr := s.block ctx + 0x500 } b.psw (b.imageAt b.psw.ia) none none 8
    else s

/-! ## Placement -/

/-- A stove that can take a context: enabled, not in reset, locked or quarantined (R303, R370). -/
def State.stoveTakes (s : State) (n : Nat) : Bool :=
  s.flag (Slot.stv n) Off.PAGE.CTL 0 && !s.flag (Slot.stv n) Off.PAGE.STS 4
    && s.flag (Slot.hrtA (n / 8)) Off.PAGE.CTL 0 && s.fld (Slot.stv n) Off.STV.STATUS 0 2 == 0

/-- The free banks of a stove. -/
def State.freeBanks (s : State) (n : Nat) : Nat :=
  if s.stoveTakes n then 32 - (s.banks.filter (·.stove.toNat == n)).length else 0

/-- The free banks of a hearth. -/
def State.freeHearth (s : State) (h : Nat) : Nat := ((List.range 8).map (fun i => s.freeBanks (8 * h + i))).sum

/-- The member of a list with the greatest measure, the first on a tie. -/
def firstMax (f : Nat → Nat) : List Nat → Option Nat
  | [] => none
  | x :: t => match firstMax f t with
    | none => some x
    | some y => if f y > f x then some y else some x

/-- R304: the hearth of HMASK with the most free banks, the lowest number on a tie. -/
def State.chooseHearth (s : State) (ctx : BitVec 20) : Option Nat :=
  firstMax s.freeHearth ((List.range 8).filter (fun h => bitAt (s.sched ctx) (8 + h)))

/-- R304: the stove of a hearth with the most free banks, when one has any. -/
def State.chooseStove (s : State) (h : Nat) : Option Nat :=
  (firstMax s.freeBanks ((List.range 8).map (8 * h + ·))).filter (fun n => s.freeBanks n > 0)

/-- R304: a free bank of a stove; which one is not stated (assumption log 12). -/
def State.freeSlot (s : State) (stove : Nat) : Nat :=
  let free := (List.range 32).filter (fun k => !s.banks.any (fun b => b.stove.toNat == stove && b.slot.toNat == k))
  free.getD (Config.bankPick s.fresh % free.length) 0

/-- R305: the victim a hearth spills for an incoming context: longest waiting, else the lowest-priority unbound ready
context below the incoming priority that became ready latest. -/
def State.victim (s : State) (h : Nat) (ctx : BitVec 20) : Option Bank :=
  let ok (b : Bank) : Bool := hearthOf b.stove == h && !b.spillBad && s.stoveTakes b.stove.toNat
  let bankIf (p : Bank → Bool) (c : BitVec 20) : Option Bank := (s.bankOf c).filter (fun b => ok b && p b)
  match s.order.waiting.findSome? (bankIf (fun b => match b.wait with
      | some (.event _ _) | some (.dura _) => true
      | some (.ext _) | some (.leave _) | some .reserved | none => false)) with
  | some b => some b
  | none =>
    let cands := s.order.ready.filterMap (bankIf (fun b => b.flue.isNone && b.wait.isNone && decide (s.prio b.ctx < s.prio ctx)))
    cands.foldl (fun best b => match best with
      | none => some b
      | some a => if s.prio b.ctx ≤ s.prio a.ctx then some b else some a) none

/-- R304, R305, R307: place and refill a ready context that is not resident. -/
def State.refill (s : State) (ctx : BitVec 20) : State :=
  if s.st ctx ≠ St.ready ∨ (s.bankOf ctx).isSome ∨ s.routerQuiet then s
  else match s.chooseHearth ctx with
    | none => s
    | some h =>
      match s.chooseStove h with
      | some n => s.refillAt ctx (BitVec.ofNat 6 n) (BitVec.ofNat 5 (s.freeSlot n))
      | none =>
        match s.victim h ctx with
        | none => s
        | some v =>
          match s.spillOut v none with
          | (s, true) => s.refillAt ctx v.stove v.slot
          | (s, false) => s

/-! ## Flues -/

/-- R308: the ready resident context of a stove to bind: highest priority, earliest ready. -/
def State.toBind (s : State) (stove : BitVec 6) : Option Bank :=
  let cands := s.order.ready.filterMap (fun c => (s.bankOf c).filter (fun b =>
    b.stove == stove && b.flue.isNone && b.wait.isNone && s.st b.ctx == St.resident))
  cands.foldl (fun best b => match best with
    | none => some b
    | some a => if s.prio b.ctx > s.prio a.ctx then some b else some a) none

/-- A bound context leaves its flue and, when it is ready, joins the tail of its priority (R308, R311). -/
def State.unbind (s : State) (b : Bank) : State :=
  let s := s.putBank { b with flue := none, due := false }
  if b.wait.isSome then s else s.toReady b.ctx

/-- R309, R310: another ready context of the stove that is unbound and whose priority passes a test. -/
def State.rival (s : State) (b : Bank) (p : Nat → Bool) : Bool :=
  s.banks.any (fun x => x.stove == b.stove && x.ctx != b.ctx && x.flue.isNone && x.wait.isNone && p (s.prio x.ctx))

/-- R310: the bound context that priority preemption takes: the lowest priority of four bound ones, bound longest, all of
them below some ready unbound context. -/
def State.ppreVictim (s : State) (stove : BitVec 6) : Option Bank :=
  let bound := s.order.bound.filterMap (fun c => (s.bankOf c).filter (fun b => b.stove == stove && b.flue.isSome))
  if bound.length < 4 then none
  else
    let low := bound.foldl (fun best b => match best with
      | none => some b
      | some a => if s.prio b.ctx < s.prio a.ctx then some b else some a) (none : Option Bank)
    low.filter (fun v => s.rival v (fun p => bound.all (fun x => decide (s.prio x.ctx < p))))

/-! ## Commands -/

/-- R331: the ember state of a context is given up, and its leave returned. -/
def State.dropEmber (s : State) (ctx : BitVec 20) : State :=
  let s' := { s with embers := s.embers.filter (·.ctx != ctx) }
  match s.embers.find? (·.ctx == ctx) with
  | some e => match e.leave with
    | some c => s'.returnLeave e.bucket c
    | none => s'
  | none => s'

/-- R371: a context's policy asks for 0x16. -/
def State.asks16 (s : State) (b : Bank) : Bool :=
  if s.mandatory b.ctx then
    (List.range 4).any (fun i => s.rangeCovers i (s.wgOf b.ctx) && s.flag Slot.grt (Off.GRT.RFMR0 + 8 * i) 32)
  else s.flag (Slot.hrtB (hearthOf b.stove)) Off.HRTB.RFCTL 0

/-- R370 steps 3 and 4 for one context, and an EVICT after one of them failed: enter 0x16 where that is due, which is charged (R371), and
spill. A failed access leaves the context resident, never bound again. -/
def State.spillQuar (s : State) (b : Bank) (dest : Option (Nat × Nat)) : State × Bool :=
  if !b.due16 then s.spillOut b dest
  else
    let s := s.drain b.ctx
    match entrySteps b.ctx { code := 0x16, faddr := b.stove.toNat } b.psw 0 none none (s, []) with
    | .error f (s, _) =>
      ((s.ashLog 0x10 Slot.grt (some b.stove.toNat) (some b.ctx.toNat) f.err.addr f.err.kind).spillFailed b, false)
    | .ok h (s, acc) =>
      let n := 8 + s.openCharge b.stove acc
      let b := { b with wait := none, wdrawn := none, due16 := false, charged := b.charged + n }.setPsw (s.loadRf b.ctx h)
      let s := ((s.serve b.stove acc).1.putBank b).breakLoaded b.ctx h
      s.spill ((s.bankOf b.ctx).getD b) dest

/-- R370 step 3 for one context: its uncommitted work is discarded. -/
def State.quarantineOne (s : State) (b : Bank) : State :=
  let s := s.dropEmber b.ctx
  let s := s.abandon b.ctx
  let s := match b.leave with
    | some c => s.returnLeave (hearthOf b.stove) c
    | none => s
  let due := s.asks16 b
  let b := { b with flue := none, leave := none, resume := 0, saved := none, lis := none, due16 := due,
                    wdrawn := if b.wait.isSome then b.wdrawn else none }
  let b' := if due then b else b.setPsw (s.loadRf b.ctx b.psw)
  if due then (s.spillQuar b none).1
  else
    let s := (s.putBank b').breakLoaded b.ctx b.psw
    (s.spill ((s.bankOf b.ctx).getD b') none).1

/-- R302: discard a context's pending alarms: VALID of every record clears. -/
def discardAlarms (ctx : BitVec 20) (base : Nat) : List Nat → FM Unit
  | [] => pure ()
  | i :: t => do
    let h ← fLd ctx (base + 64 * i) 8
    if bitAt h 8 then fSt ctx (base + 64 * i) 8 (putBits h 8 1 0)
    discardAlarms ctx base t

/-- R302: a context reset. -/
def State.resetContext (s : State) (ctx : BitVec 20) : State :=
  let s := match discardAlarms ctx (s.block ctx + 0x900) recordSlots s with
    | .ok _ s => s
    | .error _ s => s
  let s := match s.bankOf ctx with
    | some b => s.releaseBank b
    | none => s
  let s := s.dropEmber ctx
  (s.setCtxState ctx (stateWord St.stopped 0 0)).toNone ctx

/-- R302: the outcome bits of CTXSTS. -/
def State.ctxSts (s : State) (refused : Bool) : State := s.setFlag Slot.grt Off.GRT.CTXSTS 1 refused

/-- R302: CTXCMD START. -/
def State.ctxStart (s : State) (ctx : BitVec 20) : State :=
  let st := s.st ctx
  if st = St.stopped ∨ st = St.held then
    let s := { s with stepping := s.stepping.filter (· != ctx) }
    ((s.setCtxState ctx (stateWord St.ready (bitsOf (s.ctxState ctx) 15 4) 0)).toReady ctx).ctxSts false
  else s.ctxSts true

/-- R271, R354, R401, R465: a withdrawn instruction whose wait an alarm may end: a pair before its pass A, and otherwise a POST, a JAPP, a
SETKEY, a SEND or a RECV, while it waits for leave, for a line or for its claim. -/
def Withdrawn.abandons (x : Withdrawn) (rf : Bool) : Bool :=
  ((rf && !x.began) || (!rf && [0x400, 0x401, 0x800, 0x702, 0x703].contains x.op.toNat))
    && (match x.cause with
      | .leave _ | .reserved | .ext .line | .ext .claim => true
      | .ext .fetch | .ext .storeSpace | .ext .drain | .ext .sm3 | .ext .device | .event _ _ | .dura _ => false)

/-- R306 step 1, R311, R327: a context leaves its flue at a boundary point, after the alarms that are due there (R325): between
instructions, in the wait of a WAIT or DURW, and where an alarm may end a wait. A context without a flue may leave its bank at once. -/
def State.mayLeave (s : State) (b : Bank) : Bool :=
  b.flue.isNone || ((s.alarmOf b).isNone && b.resume == 0 && (match b.wait, b.wdrawn with
    | some (.event _ _), _ | some (.dura _), _ | none, none => true
    | _, some x => x.abandons b.psw.rf
    | some _, none => false))

/-- R302, R370: a STOP or an EVICT of a resident context: its spill, and the outcome. -/
def State.spillCommand (s : State) (b : Bank) (dest : Option (Nat × Nat)) : State :=
  match s.spillQuar b dest with
  | (s, ok) => s.ctxSts (!ok)

/-- R302, R377: a STOP of a resident context, with the break of its refire when it is a HALT that succeeds. -/
def State.stopResident (s : State) (b : Bank) : State :=
  let t := s.haltBreak b.ctx
  match t.bankOf b.ctx with
  | none => t.ctxSts true
  | some c =>
    if t.st b.ctx ≠ St.resident then t.ctxSts true
    else match t.spillQuar c (some (St.stopped, 0)) with
      | (t, true) => t.ctxSts false
      | (_, false) => ({ s with halting := s.halting.filter (· != b.ctx) } : State).spillCommand b (some (St.stopped, 0))

/-- R302: a context command on a resident context: at its boundary point, and BUSY until then. -/
def State.atBoundary (s : State) (op : Nat) (b : Bank) (act : State → State) : State :=
  if s.mayLeave b then act s
  else { s with ctxBusy := some (op, b.ctx) }.setFlag Slot.grt Off.GRT.CTXSTS 0 true |>.ctxSts false

/-- R302: CTXCMD STOP. -/
def State.ctxStop (s : State) (ctx : BitVec 20) : State :=
  let st := s.st ctx
  if st = St.ready ∨ st = St.waiting then
    ((s.setCtxState ctx (stateWord St.stopped (bitsOf (s.ctxState ctx) 15 4) 0)).toNone ctx).ctxSts false
  else if st = St.resident then
    match s.bankOf ctx with
    | some b => s.atBoundary 2 b (·.stopResident b)
    | none => s.ctxSts true
  else s.ctxSts true

/-- R302: CTXCMD EVICT. -/
def State.ctxEvict (s : State) (ctx : BitVec 20) : State :=
  match s.bankOf ctx with
  | some b => if s.st ctx = St.resident then s.atBoundary 3 b (·.spillCommand b none) else s.ctxSts true
  | none => s.ctxSts true

/-- R302: CTXCMD PREEMPT. -/
def State.ctxPreempt (s : State) (ctx : BitVec 20) : State :=
  match s.bankOf ctx with
  | some b =>
    if s.st ctx = St.resident then s.atBoundary 4 b (fun s => (if b.flue.isSome then s.unbind b else s).ctxSts false)
    else s.ctxSts true
  | none => s.ctxSts true

/-- R302: the context command in progress, once its context has come to a boundary point or has left its bank. -/
def State.finishCtx (s : State) : State :=
  match s.ctxBusy with
  | none => s
  | some (op, ctx) =>
    let done : State := ({ s with ctxBusy := none } : State).setFlag Slot.grt Off.GRT.CTXSTS 0 false
    match s.bankOf ctx with
    | none => if op = 2 then done.ctxStop ctx else done
    | some b =>
      if s.st ctx = St.resident ∧ !s.mayLeave b then s
      else match op with
        | 2 => done.ctxStop ctx
        | 3 => done.ctxEvict ctx
        | _ => done.ctxPreempt ctx

/-- R302: CTXCMD ALARM: the deadline comes from CTXARG. -/
def State.ctxAlarm (s : State) (ctx : BitVec 20) : State :=
  if s.st ctx = St.unused then s.ctxSts true
  else (s.devWriteN (s.dirAt ctx + 16) 8 (s.reg Slot.grt Off.GRT.CTXARG)).ctxSts false

/-- R302: CTXCMD ATTN. -/
def State.ctxAttn (s : State) (ctx : BitVec 20) : State :=
  if s.st ctx = St.unused ∨ s.st ctx = St.locked then s.ctxSts true
  else (s.queueAlarm ctx 0x23 0 0 0).1.ctxSts false

/-- R302: CTXCMD RESET. -/
def State.ctxReset (s : State) (ctx : BitVec 20) : State :=
  if s.st ctx = St.unused ∨ s.st ctx = St.locked then s.ctxSts true
  else (s.resetContext ctx).ctxSts false

/-- R313: WGCMD: set EN, clear EN, or clear the counts. -/
def State.wgCommand (s : State) (op g : Nat) : State :=
  let a := s.wgAt g
  if op = 1 then s.devWriteN a 8 (putBits (s.ld a 8) 0 1 1)
  else if op = 2 then s.devWriteN a 8 (putBits (s.ld a 8) 0 1 0)
  else if op = 3 then s.devWrite (a + 8) (zeros 24)
  else s

/-! ## Quarantine -/

/-- R370: quarantine a stove; RFLAST and RFLADDR are already recorded. -/
def State.quarantine (s : State) (stove : BitVec 6) : State :=
  let page := Slot.stv stove.toNat
  let s := s.setFlag page Off.STV.STATUS 1 true
  let s := s.setFlag (Slot.hrtA (hearthOf stove)) Off.HRTA.HSTS (8 + stove.toNat % 8) true
  let s := s.incSat (Slot.hrtB (hearthOf stove)) Off.HRTB.RFQUAR 0 32 1
  let s := s.ashLog 0x21 page (some stove.toNat) none (s.reg page Off.STV.RFLADDR) (s.reg page Off.STV.RFLAST)
  let s := { s with lines := { s.lines with cover := s.lines.cover.filter (·.stove != stove) } }
  (s.banks.filter (·.stove == stove)).foldl (fun s b => s.quarantineOne ((s.bankOf b.ctx).getD b)) s

/-- R372: RFCMD.QUAR, which the write has set, quarantines a healthy stove; RFLADDR is zero for ITEM 0xF. -/
def State.quarCommand (s : State) (stove : BitVec 6) : State :=
  let page := Slot.stv stove.toNat
  if s.fld page Off.STV.STATUS 0 2 ≠ 0 then s
  else ((s.setFld page Off.STV.RFLAST 0 4 0xF).setReg page Off.STV.RFLADDR 0).quarantine stove

/-! ## The scan-dump -/

/-- R345: dump one context of a locked stove into its spill frame, or physically into the dump area. -/
def State.dumpOne (s : State) (b : Bank) : State :=
  let s := s.dropEmber b.ctx
  let fresh := (List.range 8).foldl (fun bs k => spliceBytes bs (slotOf k).1 (b.groupBytes k)) (zeros 1024)
  let body := spliceBytes fresh 0x2A0 (wordBytes b.ttr)
  let frame := s.sealed b.ctx
    (frameHeader 0 0 (descWord 0xFF 0xFF 1 false) b.ctx 0 b.dirty.toNat ++ body.drop 64)
  let ev := bitsOf (s.ctxState b.ctx) 15 4
  let attempt : FM Bool := do
    let cb := (← get).block b.ctx
    let spill ← fLd b.ctx (cb + 0xB10) 8
    if spill = 0 then pure false
    else do
      fStBytes b.ctx spill frame
      pure true
  match attempt s with
  | .ok true s' =>
    let (st, waits) := b.spillSt
    ((s'.setCtxState b.ctx (stateWord st ev 0 + waits)).releaseBank b).orderFor st b.ctx
  | .ok false _ | .error _ _ =>
    let s := s.devWrite (s.reg Slot.grt Off.GRT.DUMPBASE + b.stove.toNat * 0x8000 + b.slot.toNat * 0x400) frame
    ((s.hold b.ctx 5).releaseBank b).toNone b.ctx

/-- R345: the scan-dump of a locked stove. -/
def State.dump (s : State) (stove : BitVec 6) : State :=
  let s := (s.banks.filter (·.stove == stove)).foldl State.dumpOne s
  s.setFlag (Slot.stv stove.toNat) Off.STV.STATUS 2 true

end Sys2Proof.Machine
end

