-- ==== Sys2Proof/Machine/RegRead.lean ====
section
/-!
DEFINITION. What a read of a register returns (R34, R39, R40, R43): listed and reset values, fields the device derives from
its state, and the effect of a stove context's load on read-clear fields (R45).
-/

namespace Sys2Proof.Machine

/-- STV[nn].FLUES: BANK, BOUND and WDRAWN of each flue. -/
def State.fluesWord (s : State) (n : Nat) : Nat :=
  ((List.range 4).map (fun f =>
    match s.boundTo (BitVec.ofNat 6 n) (BitVec.ofNat 2 f) with
    | some b => (b.slot.toNat + 2 ^ 5 + b2n b.wdrawn.isSome * 2 ^ 6) * 2 ^ (8 * f)
    | none => 0)).sum

/-- A mask of the banks of a stove that pass a test. -/
def State.bankMask (s : State) (n : Nat) (p : Bank → Bool) : Nat :=
  ((s.banks.filter (fun b => b.stove.toNat == n && p b)).map (fun b => 2 ^ b.slot.toNat)).sum

/-- STV[nn].PINS: the lines pinned in a stove's hob. -/
def State.pinsOf (s : State) (n : Nat) : Nat :=
  ((s.banks.filter (·.stove.toNat == n)).map (·.pins.length)).sum

/-- NMC.PINCNT of the selected pin. -/
def State.pinCnt (s : State) : Nat :=
  let p := s.fld Slot.nmc Off.NMC.PINSEL 0 10
  if p > 639 then 0
  else (SMap.get (fun _ => (0 : BitVec 32)) s.lines.pins p).toNat + b2n (s.lines.erased.contains p) * 2 ^ 32

/-- R577: 64 bits of an ash log entry. -/
def State.ashWord (s : State) (i j : Nat) : Nat :=
  bitsOf (SMap.get (fun _ => (0 : BitVec 256)) s.ash.entries i).toNat (64 * j) 64

/-- R40, R54: QACK of a page: HRT[n].B and the STV pages show their hearth's. -/
def State.qack (s : State) (slot : Nat) : Bool :=
  match pageKind slot with
  | some .hrtB => s.flag (slot - 1) Off.PAGE.STS 0
  | some .stv => s.flag slot Off.PAGE.STS 0 || s.flag (Slot.hrtA ((slot - 0x40) / 8)) Off.PAGE.STS 0
  | _ => s.flag slot Off.PAGE.STS 0

/-- R40: INRST of a page. -/
def State.inRst (s : State) (slot : Nat) : Bool :=
  match pageKind slot with
  | some .hrtB => s.flag (slot - 1) Off.PAGE.STS 4
  | _ => s.flag slot Off.PAGE.STS 4

/-- R39, R10: BUSY of a page: its block has an operation in progress, which a Quiesced block has not. -/
def State.pageBusy (s : State) (slot : Nat) : Bool :=
  !s.qack slot && (match pageKind slot with
    | some .grt => s.flag slot Off.GRT.CTXSTS 0
    | some .chm1 => s.flag slot Off.CHM1.QCMD 32 || s.flag slot Off.CHM1.RULECMD 32
    | some .bel => s.chans.any (·.work.isSome)
    | some .sec => s.secOp.any (·.done.isNone)
    | some .tpc => s.flag slot Off.TPC.STS 3
    | some .emb => !s.rekindles.isEmpty
    | some .rst => s.flag slot Off.RST.RSTSTS 0
    | some .dev | some .man | some .clk | some .pwr | some .ash | some .dbg | some .key | some .nmc | some .fxp | some .chm0
    | some .hrtA | some .hrtB | some .stv | none => false)

/-- R39: PAGE_STS. -/
def State.pageSts (s : State) (slot : Nat) : Nat :=
  b2n (s.qack slot) + b2n (s.pageBusy slot) * 2 + b2n (s.errs slot) * 4 + b2n (s.berr slot) * 8
    + b2n (s.inRst slot) * 16

/-- 64 bits of a fused or enrolled value. -/
def wordOf {w : Nat} (v : BitVec w) (j : Nat) : Nat := bitsOf v.toNat (64 * j) 64

/-- DEV.PUB0 to PUB7: the key that PUBSEL names. -/
def State.pubWord (s : State) (j : Nat) : Nat :=
  if s.flag Slot.dev Off.DEV.PUBSEL 0 then wordOf s.fuses.attPub j else wordOf s.fuses.idPub j

/-- SEC.KDIG0 to KDIG3: the digest that KSEL names; zero where there is no such slot. -/
def State.kdigWord (s : State) (j : Nat) : Nat :=
  let cls := s.fld Slot.sec Off.SEC.KSEL 0 2
  let slot := s.fld Slot.sec Off.SEC.KSEL 8 4
  if cls = 3 ∨ (cls = 1 ∧ 4 ≤ slot) then 0
  else wordOf (SMap.get (fun _ => (0 : BitVec 256)) s.enrolled (16 * cls + slot)) j

/-- Whether an offset is one of `n` consecutive registers from `base`. -/
def offIn (off base n : Nat) : Bool := decide (base ≤ off) && decide (off < base + 8 * n)

/-- What a read of a block register returns, by page kind: derived registers, else what the register map shows. -/
def State.blockRead (s : State) (k : PageKind) (slot off : Nat) : Nat :=
  match k with
  | .stv =>
    let n := slot - 0x40
    if off = Off.STV.FLUES then s.fluesWord n
    else if off = Off.STV.RESIDENT then s.bankMask n (fun _ => true)
    else if off = Off.STV.READY then s.bankMask n (fun b => b.wait.isNone)
    else if off = Off.STV.PINS then s.pinsOf n
    else s.withQ slot off
  | .nmc => if off = Off.NMC.PINCNT then s.pinCnt else s.withQ slot off
  | .ash =>
    if off = Off.ASH.WRIDX then s.ash.next + b2n s.ash.frozen * 2 ^ 10
    else if off = Off.ASH.OVFCNT then s.ash.dropped
    else if offIn off Off.ASH.ENT0 4 then s.ashWord (s.fld Slot.ash Off.ASH.SEL 0 10) ((off - Off.ASH.ENT0) / 8)
    else s.withQ slot off
  | .dev => if offIn off Off.DEV.PUB0 8 then s.pubWord ((off - Off.DEV.PUB0) / 8) else s.withQ slot off
  | .sec =>
    if offIn off Off.SEC.KDIG0 4 then s.kdigWord ((off - Off.SEC.KDIG0) / 8)
    else if offIn off Off.SEC.VKH0 4 then wordOf s.fuses.vendor ((off - Off.SEC.VKH0) / 8)
    else s.withQ slot off
  | .chm0 => if off = Off.CHM0.STATVAL then s.statVal else s.withQ slot off
  | .bel => if off = Off.BEL.ACTIVE then s.belActive else s.withQ slot off
  | .rst => if off = Off.RST.BOOTCTL then b2n s.boot * 2 ^ 32 else s.withQ slot off
  | .emb => if off = Off.EMB.REKCMD then b2n (!s.rekindles.isEmpty) * 2 ^ 32 else s.withQ slot off
  | .man | .clk | .pwr | .dbg | .tpc | .key | .fxp | .chm1 | .grt | .hrtA | .hrtB => s.withQ slot off

/-- What a read of a register returns. In reset a block register reads its reset value (R38). -/
def State.regRead (s : State) (slot off : Nat) : Nat :=
  match pageKind slot with
  | none => 0
  | some k =>
    if off = Off.PAGE.STS then s.pageSts slot
    else if off < 0x40 then s.withQ slot off
    else if s.inRst slot then (regReset (regKey slot off)).toNat
    else s.blockRead k slot off

/-- R45: a stove context's load clears the read-clear fields of the register. -/
def State.clearRc (s : State) (slot off : Nat) : State :=
  match (pageKind slot).bind (fun k => findRow k off) with
  | none => s
  | some r => r.fields.foldl (fun s f => if f.acc = .rc then s.setFld slot off f.lo f.width 0 else s) s

end Sys2Proof.Machine
end

