-- ==== Sys2Proof/Machine/Ops.lean ====
section
/-!
DEFINITION. The named operations of an executing context: the instruction monad, the order of access checks (R394, R135,
R28, R31), reading and writing operand pieces, register writes, damper leave (R543), and stops.
-/

namespace Sys2Proof.Machine

/-- Why an instruction's work stops before it completes. -/
inductive Stop where
  /-- a synchronous exception (R138) -/
  | exc (e : Exc)
  /-- a wait: the microword is withdrawn (R273) -/
  | wait (c : WaitCause)
  /-- behaviour the spec calls Unpredictable without naming an effect -/
  | fault (f : Fault)
  deriving DecidableEq, Repr

/-- Where IA goes when the instruction completes. -/
inductive NextIa where
  /-- to the next instruction, or to the same one while RCNT counts (R140) -/
  | advance
  /-- it stays: units remain (R219) -/
  | stay
  /-- to a target (R156) -/
  | jump (a : Word)
  /-- the whole PSW is loaded (R104, R139) -/
  | load (p : Psw)
  /-- past the instruction, and then exception 0x19 is entered (R336) -/
  | svc (n : BitVec 16)
  deriving DecidableEq, Repr

/-- An effect outside the bank and ordinary memory, performed once when the instruction commits (R358). -/
inductive Effect where
  /-- a store to a device range -/
  | device (addr : Nat) (bytes : List Byte)
  /-- a store to a hob operand store, by mode 12 or through a hob window, at its window address (R129) -/
  | hob (addr : Nat) (bytes : List Byte)
  /-- SIGNAL to a context (R315) or to a wake group (R314) -/
  | signalCtx (ctx : BitVec 20)
  | signalGroup (g : Nat)
  /-- the PSW that is loaded asks for refire with DBG = 1 (R377) -/
  | refireBroken
  deriving DecidableEq, Repr

/-- How a Cpu works: on an instruction alone, on forming the line set of a refire pair (R350), on one of its passes, or towards a
micro-trap, before any write. -/
inductive Pass where
  | plain
  | form
  | a
  | b
  | trap
  deriving DecidableEq, Repr

/-- An executing context: its bank, the rest of the machine, the bank as of the last committed part (R118), what the
physical world has left to answer, the volatile reads made (R366), surcharges (R281), what commits at the end, the reads that a
execution made before its wait or micro-trap (R84, R386), those made so far, the time of day latched for the instruction (R368), the
accesses that open timing charges (R290), the bytes written (R363), how it works, the units of the line set and of the claim that it
forms (R350), and the wait for a claim or for the SM3 unit that the physical world holds ready. -/
structure Cpu where
  b     : Bank
  s     : State
  ck    : Bank
  dev   : List Completion
  vol   : List (Option Nat × Nat)
  sur   : Nat
  next  : NextIa
  after : List Effect
  replay : List Kept
  log    : List Kept
  latch  : Nat
  acc    : List Access
  wrote  : List (Nat × List Byte)
  pass   : Pass
  set    : List Nat
  claim  : List Nat
  block  : Option ExtWait

/-- A Cpu that works in another way on the same instruction. -/
def Cpu.as (c : Cpu) (p : Pass) : Cpu := { c with pass := p }

/-- The instruction monad. The value of a whole instruction is its steady count before surcharges (R282). -/
abbrev M := EStateM Stop Cpu

/-- Raise an exception. -/
def raise {α : Type} (e : Exc) : M α := throw (.exc e)

/-- Raise an exception that records no address. -/
def raiseCode {α : Type} (code : Nat) : M α := raise { code := code }

/-- Raise when a condition holds at the end of a routine; a micro-trap comes before it (R171, R204). -/
def raiseLate (b : Bool) (code : Nat) : M Unit := do
  if b && (← get).pass != .trap then raiseCode code else pure ()

/-- Raise when a condition holds. -/
def raiseIf (c : Bool) (code : Nat) : M Unit := if c then raiseCode code else pure ()

/-- Raise an exception when a condition holds. -/
def raiseWhen (p : Prop) [Decidable p] (e : Exc) : M Unit := if p then raise e else pure ()

/-- The executing bank. -/
def getB : M Bank := do return (← get).b

/-- The PSW. -/
def getPsw : M Psw := do return (← get).b.psw

/-- Update the bank. -/
def modB (f : Bank → Bank) : M Unit := modify (fun c => { c with b := f c.b })

/-- Update the machine around the bank. -/
def modS (f : State → State) : M Unit := modify (fun c => { c with s := f c.s })

/-- Update the PSW. -/
def modPsw (f : Psw → Psw) : M Unit := modB (fun b => b.setPsw (f b.psw))

/-- A long instruction has completed: IP is cleared. -/
def clearIp : M Unit := modPsw (fun p => { p with ip := false })

/-- Set the condition code. -/
def setCc (v : BitVec 2) : M Unit := modPsw (fun p => { p with cc := v })

/-- Read a general register. -/
def readG (r : BitVec 4) : M Word := do return (← get).b.getG r

/-- Write a general register. -/
def writeG (r : BitVec 4) (v : Word) : M Unit := modB (·.setG r v)

/-- Where IA goes at completion. -/
def setNext (n : NextIa) : M Unit := modify (fun c => { c with next := n })

/-- Add surcharges (R281). -/
def surcharge (n : Nat) : M Unit := modify (fun c => { c with sur := c.sur + n })

/-- Add an effect performed at commit (R358). -/
def addEffect (e : Effect) : M Unit := modify (fun c => { c with after := c.after ++ [e] })

/-- Run work only to learn whether it would succeed: its effects are kept when it does and dropped when it does not. -/
def probe {α : Type} (m : M α) : M (Option α) := fun c =>
  match m c with
  | .ok a c' => .ok (some a) c'
  | .error _ _ => .ok none c

/-! ## Access checks -/

/-- How an operand reaches memory: as a logical address under the PSW (R21), as scratch under CXA.CT (R133), or as a
physical address without translation or key (R131). -/
inductive Via where
  | logical
  | scratch
  | physical
  deriving DecidableEq, Repr

/-- A checked piece of an operand: its address in the operand's space, its physical address, its length, and whether it is
a mode 12 access to the stove's own hob (R127). -/
structure Piece where
  la  : Nat
  pa  : Nat
  len : Nat
  own : Bool
  /-- what open timing charges for the way the operand lies (R290) -/
  align : Nat := 0
  deriving DecidableEq, Repr

/-- The scratch area is physical when CXA.CT is 0 (R133). -/
def scratchCt : M Bool := do
  let c ← get
  return bitAt (c.s.cxa c.b.ctx) 0

/-- R394 steps 0 to 4: translate one access. A table line that a reservation set holds is waited for (R248); a pair has its translations
from when its set was formed (R386). -/
def translateAccess (k : Acc) (te : Bool) (la : Nat) (e : Exc) : M Nat := do
  let c ← get
  if !te then
    if la / 2 ^ 48 ≠ 0 then raise { e with code := 0x03 } else pure la
  else if la / 2 ^ 48 ≠ 0 then raise { e with code := 0x11 }
  else if c.s.nearStalls c.b.stove (c.s.walkLines c.b.ttr.toNat la)
      ∨ ((c.pass = .plain ∨ c.pass = .form) ∧ (c.s.walkLines c.b.ttr.toNat la).any (c.s.heldByOther c.b.ctx)) then throw (.wait (.ext .line))
  else match c.s.walk c.b.ttr.toNat la with
    | .fail code ea bad => do
      modS (·.walkFailed (some c.b.stove.toNat) (some c.b.ctx.toNat) ea la bad)
      raise { e with code := code }
    | .ok pa w x u =>
      if !c.b.psw.sup && !u then raise { e with code := 0x11 }
      else if (k = .store ∧ !w) ∨ (k = .fetch ∧ !x) then raise { e with code := 0x10 }
      else pure pa

/-- R28: the ranges that user state never reaches. -/
def protectedRange (a : Nat) : Bool :=
  match rangeOf a with
  | .hob | .reg | .rom => true
  | .near | .far _ | .door | .none => false

/-- How an access records a failure (R394): its space, its kind and its half. -/
def accessExc (k : Acc) (via : Via) (la : Nat) (second ct : Bool) : Exc :=
  { code := 0, fav := true, w := k = .store, x := k = .fetch, split2 := second,
    phys := via = .physical ∨ (via = .scratch ∧ !ct), faddr := la }

/-- R27, R35, R429: the sizes that the doorbells, the register window and configuration space take. -/
def sizeRule (s : State) (k : Acc) (pa len total : Nat) (e : Exc) : M Unit :=
  match rangeOf pa with
  | .door => raiseWhen (k = .store ∧ (total ≠ 8 ∨ len ≠ 8 ∨ pa % 8 ≠ 0)) { e with code := 0x04 }
  | .reg => if total ≠ 8 ∨ len ≠ 8 ∨ pa % 8 ≠ 0 then throw (.fault .registerAccess) else pure ()
  | .far p =>
    raiseWhen (s.portMode p = 2 ∧ pa % 2 ^ 40 ≥ 0xFFF0000000 ∧ !(len = total ∧ (len = 1 ∨ len = 2 ∨ len = 4) ∧ pa % len = 0))
      { e with code := 0x04 }
  | .near | .hob | .rom | .none => pure ()

/-- R391: an access to a frame whose key byte is lost is counted and fails. -/
def keyLostRule (s : State) (pa : Nat) (e : Exc) : M Unit :=
  if s.keyLost pa then do
    modS (·.countKeyLost pa)
    raise { e with code := 0x21 }
  else pure ()

/-- R394 steps 5 and 6 in ordinary memory: the key, the far key table, and the marks of the frame. -/
def ordinaryRule (s : State) (k : Acc) (via : Via) (key : BitVec 4) (pa : Nat) (e : Exc) : M Unit :=
  if s.ordinary pa then do
    keyLostRule s pa e
    raiseWhen (via ≠ .physical ∧ !keyAllows (s.keyByte pa) key.toNat (k = .store)) { e with code := 0x10 }
    raiseWhen (k = .store ∧ s.fktLine pa) { e with code := 0x10 }
    modS (·.markFrame pa (k = .store))
  else pure ()

/-- R394 steps 0 to 6: check one access of `len` bytes at `la` up to its data. `total` is the whole operand's length, which
the size rules of the doorbells (R27), of the register window (R35) and of configuration space (R429) use. -/
def reachAccess (k : Acc) (via : Via) (la len total : Nat) (second : Bool) : M Nat := do
  let ct ← scratchCt
  let psw ← getPsw
  let te := match via with
    | .logical => psw.te
    | .scratch => ct
    | .physical => false
  let e := accessExc k via la second ct
  let pa ← translateAccess k te la e
  raiseWhen (via ≠ .physical ∧ !psw.sup ∧ protectedRange pa) { e with code := 0x02 }
  let s := (← get).s
  raiseWhen (!s.populated k pa) { e with code := 0x03, phys := true, faddr := pa }
  sizeRule s k pa len total e
  ordinaryRule s k via psw.key pa e
  pure pa

/-- R394: check one access, with step 7: a load or fetch takes its data intact from the line, or a load from the context's own
buffered store (R422). -/
def checkAccess (k : Acc) (via : Via) (la len total : Nat) (second : Bool) : M Nat := do
  let pa ← reachAccess k via la len total second
  let c ← get
  let ct ← scratchCt
  raiseWhen (k ≠ .store ∧ c.s.ordinary pa ∧ c.s.poisoned pa ∧ !(k = .load ∧ c.s.forwarded c.b.ctx pa len))
    { accessExc k via la second ct with code := 0x21 }
  pure pa

/-- The accesses logged since a point. -/
def Cpu.since (c : Cpu) (n : Nat) : List Access := c.acc.drop n

/-- An access check and how it ended, kept. -/
def keepingReach (m : M Nat) : M Nat := fun c =>
  match m c with
  | .ok pa c' => .ok pa { c' with log := c'.log ++ [.reach pa (c'.since c.acc.length)] }
  | .error e c' => .error e c'

/-- A read and how it ended, kept. -/
def keepingRead (m : M (List Byte)) : M (List Byte) := fun c =>
  match m c with
  | .ok bs c' => .ok bs { c' with log := c'.log ++ [.read bs (c'.since c.acc.length)] }
  | .error (.exc e) c' => .error (.exc e) { c' with log := c'.log ++ [.failed e (c'.since c.acc.length)] }
  | .error (.wait x) c' => .error (.wait x) c'
  | .error (.fault f) c' => .error (.fault f) c'

/-- What an execution has done stands as it did: the first thing replayed, with the rest still to come. -/
def replayed (k : Kept) (t : List Kept) (acc : List Access) : M Unit :=
  modify (fun c => { c with replay := t, log := c.log ++ [k], acc := c.acc ++ acc })

/-- R386: a check that an execution has made is not made again when it goes on; else it is made, and kept. -/
def keptReach (m : M Nat) : M Nat := do
  match (← get).replay with
  | .reach pa acc :: t => do
    replayed (.reach pa acc) t acc
    pure pa
  | .read _ _ :: _ | .failed _ _ :: _ | [] => keepingReach m

/-- R22: a read that an execution has made is not made again when it goes on; else it is made, and kept. -/
def keptRead (m : M (List Byte)) : M (List Byte) := do
  match (← get).replay with
  | .read bs acc :: t => do
    replayed (.read bs acc) t acc
    pure bs
  | .failed e acc :: t => do
    replayed (.failed e acc) t acc
    raise e
  | .reach _ _ :: _ | [] => keepingRead m

/-- The pieces of `n` bytes from `a`: cut at every 64-byte line (R134). -/
def cutLines : Nat → Nat → Nat → List (Nat × Nat)
  | 0, _, _ => []
  | fuel + 1, a, n =>
    if n = 0 then []
    else
      let k := min n (64 - a % 64)
      (a, k) :: cutLines fuel (a + k) (n - k)

/-- The pieces of one operand part. -/
def pieces (a n : Nat) : List (Nat × Nat) := cutLines (n / 64 + 2) a n

/-- R31: the row an address falls in, for the rule on halves in different rows; CXL ports count as one row. -/
def State.rowOf (s : State) (a : Nat) : Range :=
  match rangeOf a with
  | .far p => if s.portMode p = 1 then .far 4 else .far p
  | r => r

/-- R135 step 1: check the pieces of an operand in order, each by every kind of access it needs; `check` checks one access, given its
kind, address and length and whether it is of the second half. -/
def checkPiecesBy (check : Acc → Nat → Nat → Bool → M Nat) (ks : List Acc) (via : Via) (first : Option Range) :
    List (Nat × Nat) → M (List Piece)
  | [] => pure []
  | (la, len) :: t => do
    let la := la % 2 ^ 64
    let mut pa := 0
    for k in ks do
      pa ← keptReach (check k la len first.isSome)
    let r := (← get).s.rowOf pa
    match first with
    | some f => if f ≠ r then
        raise { code := 0x04, fav := true, w := ks.contains .store, split2 := true, faddr := la, phys := via = .physical }
    | none => pure ()
    let rest ← checkPiecesBy check ks via (some (first.getD r)) t
    let align := (if first.isNone && t.isEmpty then blockCharge pa len else 0) + ((t.head?.map (fun n => pageCharge la len n.1)).getD 0)
    pure ({ la := la, pa := pa, len := len, own := false, align := align } :: rest)

/-- R135 step 1: check the pieces of an operand of `total` bytes. Where R31's 0x04 stands among the checks of the second half is not
stated; it is raised after its key and its data (DESIGN CHOICE, assumption log 53). -/
def checkPieces (ks : List Acc) (via : Via) (total : Nat) (first : Option Range) (ps : List (Nat × Nat)) : M (List Piece) :=
  checkPiecesBy (fun k la len second => checkAccess k via la len total second) ks via first ps

/-! ## Reading and writing pieces -/

/-- Log an access that open timing charges (R290). -/
def noteAccess (a : Access) : M Unit := modify (fun c => { c with acc := c.acc ++ [a] })

/-- R435: before a device access every earlier store of the context becomes visible. -/
def drainOwn : M Unit := do
  let ctx := (← getB).ctx
  modS (·.drain ctx)

/-- Record a volatile read (R366, R367). -/
def noteVolatile (pa v : Nat) : M Unit := modify (fun c => { c with vol := c.vol ++ [(some pa, v)] })

/-- R430: the completion of a load from device memory, and what the port sends for it (R429). None yet is a wait (R273), and so is a
port that is Quiesced (R52). -/
def takeCompletion (pa len : Nat) (e : Exc) : M (List Byte) := do
  let c ← get
  let p := pa / 2 ^ 40 - 1
  match c.dev with
  | [] => throw (.wait (.ext .device))
  | x :: t =>
    if !c.s.blockOn (Slot.fxp p) then throw (.wait (.ext .device))
    else
      set { c with dev := t, s := { c.s with out := c.s.out ++ [c.s.outbound p pa (.inr len)] } }
      match x with
      | .data v => pure (leBytes len v.toNat)
      | .refused => raise { e with code := 0x03, phys := true, faddr := pa }
      | .poisoned => do
        modS (·.setErr (Slot.fxp p) Off.FXP.FXPERR 3)
        raise { e with code := 0x21 }
      | .timeout => do
        modS (·.setErr (Slot.fxp p) Off.FXP.FXPERR 1)
        raise { e with code := 0x21 }

/-- R22, R26, R27, R430: make the read of one piece in a device range, once every earlier store is visible. While a line set is only
being formed (R350) no device is read. -/
def loadDevice (p : Piece) (second : Bool) : M (List Byte) := do
  if (← get).pass = .form then pure (zeros p.len)
  else do
  drainOwn
  let s := (← get).s
  let e : Exc := { code := 0, fav := true, split2 := second, faddr := p.la }
  match rangeOf p.pa with
  | .hob => pure (s.bytes p.pa p.len)
  | .reg => do
    let slot := (p.pa - 0xF10000000000) / 4096
    let off := p.pa % 4096
    modS (·.clearRc slot off)
    pure (leBytes p.len (s.regRead slot off))
  | .rom => pure ((List.range p.len).map (fun i => Config.romByte (p.pa - 0xF20000000000 + i)))
  | .far _ => takeCompletion p.pa p.len e
  | .door | .near | .none => pure (zeros p.len)

/-- R295: make the read of one piece of ordinary memory: forwarded from a buffered store that holds it whole, or after the stores it
partly overlaps have been written. -/
def loadOrdinary (p : Piece) : M (List Byte) := do
  let c ← get
  let bs := c.s.viewBytes (c.s.ownStores c.b.ctx) p.pa p.len
  let extra := if c.s.partial' c.b.ctx p.pa p.len then 6 else 0
  if !c.s.forwarded c.b.ctx p.pa p.len then
    noteAccess { kind := .load, pa := p.pa, len := p.len, own := false, align := p.align + extra }
  modS (·.drainOver c.b.ctx p.pa p.len)
  pure bs

/-- Make the read of one piece. -/
def loadPiece (p : Piece) (second : Bool) : M (List Byte) := do
  let c ← get
  if p.own then do
    noteAccess { kind := .load, pa := p.pa, len := p.len, own := true, align := p.align }
    pure (c.s.bytes p.pa p.len)
  else if c.s.ordinary p.pa then loadOrdinary p
  else do
    noteAccess { kind := .load, pa := p.pa, len := p.len, own := false, align := p.align }
    loadDevice p second

/-- R366: a load from the register window, a hob window, a doorbell or device memory is volatile; the kindling ROM is not. -/
def Piece.volatile (p : Piece) (s : State) : Bool := !p.own && !s.ordinary p.pa && rangeOf p.pa != .rom

/-- Read the pieces of an operand, first byte first (R135 step 2). -/
def readPieces : List Piece → Bool → M (List Byte)
  | [], _ => pure []
  | p :: t, second => do
    let a ← keptRead (loadPiece p second)
    if p.volatile (← get).s then noteVolatile p.pa (leNat a)
    let b ← readPieces t true
    pure (a ++ b)

/-- Write one checked piece at commit: a buffered store, or a store to a hob or a device (R358, R435, R438). A micro-trap comes before
every write (R171, R204). -/
def writePiece (p : Piece) (bs : List Byte) : M Unit := do
  let c ← get
  if c.pass = .trap then pure ()
  else do
  noteAccess { kind := .store, pa := p.pa, len := p.len, own := p.own, align := p.align }
  modify (fun c => { c with wrote := c.wrote ++ [(p.pa, bs)] })
  if !p.own && c.s.ordinary p.pa then
    modS (fun s => { s with stores := s.stores ++
      [{ ctx := c.b.ctx, stove := c.b.stove, addr := p.pa, bytes := bs, old := false }] })
  else do
    drainOwn
    addEffect (if rangeOf p.pa = .hob then .hob p.pa bs else .device p.pa bs)

/-- The pieces of an operand with the bytes that go to each, first byte first. -/
def dealBytes : List Piece → List Byte → List (Piece × List Byte)
  | [], _ => []
  | p :: t, bs => (p, bs.take p.len) :: dealBytes t (bs.drop p.len)

/-- A piece with its bytes put at its place in address order (R136). -/
def insertPiece (x : Piece × List Byte) : List (Piece × List Byte) → List (Piece × List Byte)
  | [] => [x]
  | y :: t => if y.1.la < x.1.la then y :: insertPiece x t else x :: y :: t

/-- Write pieces one after another. -/
def writeDealt : List (Piece × List Byte) → M Unit
  | [] => pure ()
  | (p, bs) :: t => do
    writePiece p bs
    writeDealt t

/-- R136: write the pieces of an operand, in address order. -/
def writePieces (ps : List Piece) (bs : List Byte) : M Unit := writeDealt ((dealBytes ps bs).foldr insertPiece [])

/-! ## Damper leave -/

/-- R543: take damper leave of `cost` heat units. Leave the context already holds is used; else it queues in its hearth's
bucket and waits. A context resumed from a micro-trap asks for none (R171). -/
def takeLeave (cost : Nat) : M Unit := do
  let c ← get
  if c.b.resume ≠ 0 then pure ()
  else match c.b.leave with
    | some _ => pure ()
    | none => do
      let h := hearthOf c.b.stove
      modS (fun s =>
        if (s.damper[h]?.map (fun k => k.queue.contains (.context c.b.ctx cost))).getD true then s
        else match s.damper[h]? with
          | some k => { s with damper := s.damper.setIfInBounds h { k with queue := k.queue ++ [.context c.b.ctx cost] } }
          | none => s)
      throw (.wait (.leave cost))

/-! ## Reservation sets -/

/-- Put a number at its place in an ascending list without repeats. -/
def insertAsc (x : Nat) : List Nat → List Nat
  | [] => [x]
  | y :: t => if x < y then x :: y :: t else if x = y then y :: t else y :: insertAsc x t

/-- Ascending, without repeats. -/
def ascending (ls : List Nat) : List Nat := ls.foldr insertAsc []

/-- The units that a context's reservation set holds. -/
def State.holds (s : State) (ctx : BitVec 20) : List Nat := ((s.resv.find? (·.ctx == ctx)).map (·.held)).getD []

/-- A context's reservation set becomes this. -/
def State.setResv (s : State) (r : Resv) : State := { s with resv := r :: s.resv.filter (·.ctx != r.ctx) }

/-- A context's reservation set is released, and lines that waited for it to be invalidated are (R425). -/
def State.release (s : State) (ctx : BitVec 20) : State := State.purge { s with resv := s.resv.filter (·.ctx != ctx) }

/-- R248, R249, R352: hold the units of a set beside those already held, in ascending order. When another set holds one, the units below
it are kept and it is waited for; those above it that were held out of turn are released. -/
def State.takeUnits (s : State) (ctx : BitVec 20) (units : List Nat) : State × Bool :=
  let all := ascending (units ++ s.holds ctx)
  match all.find? (s.heldByOther ctx) with
  | none => (s.setResv { ctx := ctx, want := [], held := all }, true)
  | some l =>
    ((s.setResv { ctx := ctx, want := all.filter (fun x => decide (l ≤ x)), held := all.filter (fun x => decide (x < l)) }).purge, false)

/-- R248, R249: hold every line of a reservation set, or wait for the first that another set holds. A refire pair holds its set before
its passes, and forms it here (R350). -/
def reserve (units : List Nat) : M Unit := do
  let c ← get
  match c.pass with
  | .form => modify (fun c => { c with set := c.set ++ units })
  | .a | .b | .trap => pure ()
  | .plain => match c.s.takeUnits c.b.ctx units with
    | (s, true) => set { c with s := s }
    | (s, false) => do
      set { c with s := s }
      throw (.wait .reserved)

/-- R244: the reservation set is released at local commit, or when the instruction ends without its effect. A pair releases its set
when it ends (R350). -/
def releaseLines : M Unit := do
  let c ← get
  if c.pass = .plain then modS (·.release c.b.ctx) else pure ()

/-- R249, R358: claim a ring or a queue, whose units are held from then on; a claim that another holds is waited for. -/
def claimUnits (units : List Nat) : M Unit := do
  let c ← get
  match c.pass with
  | .form => modify (fun c => { c with claim := c.claim ++ units })
  | .a | .b | .trap => pure ()
  | .plain =>
    if c.block = some .claim ∨ units.any (c.s.heldByOther c.b.ctx) then throw (.wait (.ext .claim))
    else modS (fun s => s.setResv { ctx := c.b.ctx, want := [], held := ascending (units ++ s.holds c.b.ctx) })

/-- R250: the hearth's SM3 unit may be busy with appends queued before. -/
def awaitSm3 : M Unit := do
  let c ← get
  if c.block = some .sm3 ∧ (c.pass = .plain ∨ c.pass = .a) then throw (.wait (.ext .sm3)) else pure ()

/-- The units of a list of pieces. -/
def pieceUnits (s : State) (ps : List Piece) : List Nat :=
  ps.flatMap (fun p => if p.own || s.ordinary p.pa || rangeOf p.pa == .hob then unitsTouched p.pa p.len else [])

/-- R351: the units of a line set: lines of ordinary memory and blocks that mode 12 touches. -/
def setUnits (s : State) (ps : List Piece) : List Nat :=
  ps.flatMap (fun p => if p.own || s.ordinary p.pa then unitsTouched p.pa p.len else [])

/-- R248, R273: an ordinary access to a line that a reservation set holds waits, and so does one that near memory does not serve now
(R52, R414). While a line set is formed its units are added to it (R350). -/
def awaitLines (ps : List Piece) : M Unit := do
  let c ← get
  if c.s.nearStalls c.b.stove (pieceUnits c.s ps) then throw (.wait (.ext .line))
  else if c.pass = .form then modify (fun c => { c with set := c.set ++ setUnits c.s ps })
  else if c.replay.isEmpty && (pieceUnits c.s ps).any (c.s.heldByOther c.b.ctx) then throw (.wait (.ext .line))
  else pure ()

/-- R352: a load that forming the line set needs has its line reserved before it is read: a pointer, a stack word, a frame header or a
posting descriptor. -/
def awaitNeeded (ps : List Piece) : M Unit := do
  let c ← get
  if c.pass = .form then
    match c.s.takeUnits c.b.ctx (setUnits c.s ps) with
    | (s, true) => set { c with s := s, set := c.set ++ setUnits c.s ps }
    | (s, false) => do
      set { c with s := s }
      throw (.wait .reserved)
  else awaitLines ps

end Sys2Proof.Machine
end

