-- ==== Sys2Proof/Machine/Units.lean ====
section
/-!
DEFINITION. The units of a stove in the two ways that refire runs them (R361, R362): straight, as pass A and every unrefired
instruction, and on transformed operands, as pass B, with the inverse that the comparator applies to the result.
-/

namespace Sys2Proof.Machine

/-- How the units of a stove are set. -/
inductive Mode where
  | straight
  | transformed
  deriving DecidableEq, Repr

/-- R362: the complement of an exact value: ~x. -/
def comp (x : Int) : Int := -x - 1

/-- R361: the binary adder; transformed it forms ~a + ~b + 1, which is ~(a + b). -/
def addUnit (m : Mode) (a b : Int) : Int :=
  match m with
  | .straight => a + b
  | .transformed => comp (comp a + comp b + 1)

/-- R361, R362: the binary adder on a difference; transformed it forms ~a + b, which is ~(a - b). -/
def subUnit (m : Mode) (a b : Int) : Int :=
  match m with
  | .straight => a - b
  | .transformed => comp (comp a + b)

/-- The bits of a `w`-bit number, inverted. -/
def invBits (w v : Nat) : Nat := 2 ^ w - 1 - v

/-- R361: the logic unit on AND; transformed, OR of inverted operands. -/
def andUnit (m : Mode) (w a b : Nat) : Nat :=
  match m with
  | .straight => a &&& b
  | .transformed => invBits w (invBits w a ||| invBits w b)

/-- R361: the logic unit on OR; transformed, AND of inverted operands. -/
def orUnit (m : Mode) (w a b : Nat) : Nat :=
  match m with
  | .straight => a ||| b
  | .transformed => invBits w (invBits w a &&& invBits w b)

/-- R361: the logic unit on XOR; transformed, XOR of inverted operands, which needs no inverse. -/
def xorUnit (m : Mode) (w a b : Nat) : Nat :=
  match m with
  | .straight => a ^^^ b
  | .transformed => invBits w a ^^^ invBits w b

/-- R361: the logic unit on NOT. -/
def notUnit (m : Mode) (w a : Nat) : Nat :=
  match m with
  | .straight => invBits w a
  | .transformed => invBits w (invBits w (invBits w a))

/-- R361: the shifter to the left; transformed, of the inverted operand with ones entering. -/
def shlUnit (m : Mode) (w a c : Nat) : Nat :=
  match m with
  | .straight => if c < w then a * 2 ^ c % 2 ^ w else 0
  | .transformed => invBits w (if c < w then (invBits w a * 2 ^ c + (2 ^ c - 1)) % 2 ^ w else 2 ^ w - 1)

/-- R361: the shifter to the right; transformed, of the inverted operand with ones entering. -/
def shrUnit (m : Mode) (w a c : Nat) : Nat :=
  match m with
  | .straight => if c < w then a / 2 ^ c else 0
  | .transformed => invBits w (if c < w then invBits w a / 2 ^ c + (2 ^ w - 2 ^ (w - c)) else 2 ^ w - 1)

/-- R361: the shifter on a signed value to the right; transformed, of the complement, whose sign bit enters. -/
def sraUnit (m : Mode) (x : Int) (c : Nat) : Int :=
  match m with
  | .straight => x / (2 ^ c : Nat)
  | .transformed => comp (comp x / (2 ^ c : Nat))

/-- R361: the shifter on a signed value to the left; transformed, of the complement with ones entering. -/
def slaUnit (m : Mode) (x : Int) (c : Nat) : Int :=
  match m with
  | .straight => x * (2 ^ c : Nat)
  | .transformed => comp (comp x * (2 ^ c : Nat) + ((2 ^ c : Nat) - 1))

/-- R361: the multiplier; transformed, of both operands negated, whose product is unchanged. -/
def mulUnit (m : Mode) (a b : Int) : Int :=
  match m with
  | .straight => a * b
  | .transformed => -a * -b

/-- R361: the divider's quotient; transformed, of both operands negated, whose quotient is unchanged. -/
def quotUnit (m : Mode) (a b : Int) : Int :=
  match m with
  | .straight => a.tdiv b
  | .transformed => (-a).tdiv (-b)

/-- R361: the divider's remainder; transformed, of both operands negated, and negated. -/
def remUnit (m : Mode) (a b : Int) : Int :=
  match m with
  | .straight => a.tmod b
  | .transformed => -((-a).tmod (-b))

/-- R362: the nine's complement over 64 digits. -/
def nines (x : Int) : Int := (10 ^ 64 : Nat) - 1 - x

/-- R361, R362: the decimal adder; transformed, it forms comp(a) - b, which is comp(a + b). -/
def decAddUnit (m : Mode) (a b : Int) : Int :=
  match m with
  | .straight => a + b
  | .transformed => nines (nines a - b)

/-- R362: the decimal adder on a difference; transformed, it forms comp(a) + b, which is comp(a - b). -/
def decSubUnit (m : Mode) (a b : Int) : Int :=
  match m with
  | .straight => a - b
  | .transformed => nines (nines a + b)

/-- R361: the decimal adder on one value, which it aligns, checks or copies; transformed, on its complement. -/
def decPassUnit (m : Mode) (a : Int) : Int :=
  match m with
  | .straight => a
  | .transformed => nines (nines a)

/-- R361: the decimal multiplier; transformed, of the multiplicand one digit further left, whose product is ten times as great. -/
def decMulUnit (m : Mode) (a b : Int) : Int :=
  match m with
  | .straight => a * b
  | .transformed => (10 * a * b).tdiv 10

/-- R361: the decimal divider's quotient; transformed, of both operands one digit further left. -/
def decQuotUnit (m : Mode) (a b : Int) : Int :=
  match m with
  | .straight => a.tdiv b
  | .transformed => (10 * a).tdiv (10 * b)

/-- R361: the decimal divider's remainder; transformed, ten times as great. -/
def decRemUnit (m : Mode) (a b : Int) : Int :=
  match m with
  | .straight => a.tmod b
  | .transformed => ((10 * a).tmod (10 * b)).tdiv 10

/-- R361: the binary-decimal converter; transformed, on the value negated. -/
def convUnit (m : Mode) (a : Int) : Int :=
  match m with
  | .straight => a
  | .transformed => -(-a)

/-- R361: the data move path; transformed, it carries the data inverted. -/
def moveUnit (m : Mode) (bs : List Byte) : List Byte :=
  match m with
  | .straight => bs
  | .transformed => (bs.map (~~~·)).map (~~~·)

end Sys2Proof.Machine
end

