-- ==== Sys2Proof/Machine/Flags.lean ====
section
/-!
DEFINITION. Condition codes: the arithmetic codes of the binary and decimal units (R147, R184), overflow under FOM and DOM
(R148, R183), and the codes of the logical and comparing instructions (R152 to R154).
-/

namespace Sys2Proof.Machine

/-- The signed value of a `w`-bit pattern. -/
def signed (w v : Nat) : Int := sextInt w v

/-- R147, R184: 0b00 zero, 0b01 negative, 0b10 positive. -/
def signCc (v : Int) : BitVec 2 := if v = 0 then 0 else if v < 0 then 1 else 2

/-- R147: the arithmetic code of a `w`-bit result without overflow. -/
def arithCc (w v : Nat) : BitVec 2 := signCc (signed w v)

/-- R147: whether an exact value lies outside the signed range of `w` bits. -/
def overflows (w : Nat) (e : Int) : Bool := decide (e < -(2 ^ (w - 1) : Nat) ∨ (2 ^ (w - 1) : Nat) ≤ e)

/-- R148: set CC for an exact result, raising 0x06 on overflow while FOM is 1. -/
def setArith (w : Nat) (e : Int) : M Unit := do
  let p ← getPsw
  if overflows w e then do
    raiseLate p.fom 0x06
    setCc 3
  else setCc (signCc e)

/-- R152, R153: 0b00 zero, 0b01 nonzero. -/
def zeroCc (v : Nat) : BitVec 2 := if v = 0 then 0 else 1

/-- R154, R186: 0b00 equal, 0b01 less, 0b10 greater. -/
def cmpCc (a b : Int) : BitVec 2 := if a = b then 0 else if a < b then 1 else 2

/-- R153: TST's code: 0b00 none of b's bits, 0b01 some, 0b11 all. -/
def tstCc (t b : Nat) : BitVec 2 := if t = 0 then 0 else if t ≠ b then 1 else 3

end Sys2Proof.Machine
end

