-- ==== Sys2Proof/Machine/Operands.lean ====
section
/-!
DEFINITION. Operand specifiers (R114, R115), the encoding checks of an instruction (R110 to R113, R138 orders 2 to 5),
address formation in every mode (R115 to R117, R123 to R133), and reading and writing operands at their widths (R120, R121).
-/

namespace Sys2Proof.Machine

/-! ## Specifiers -/

/-- MODE of a specifier (R114). -/
def spMode (sp : BitVec 32) : Nat := bitsOf sp.toNat 28 4
/-- BASE of a specifier. -/
def spBase (sp : BitVec 32) : BitVec 4 := BitVec.ofNat 4 (bitsOf sp.toNat 24 4)
/-- INDEX of a specifier. -/
def spIndex (sp : BitVec 32) : BitVec 4 := BitVec.ofNat 4 (bitsOf sp.toNat 20 4)
/-- The SCALE multiplier. -/
def spScale (sp : BitVec 32) : Nat := 2 ^ bitsOf sp.toNat 18 2
/-- DISP, unsigned. -/
def spDispU (sp : BitVec 32) : Nat := bitsOf sp.toNat 0 18
/-- DISP, signed. -/
def spDisp (sp : BitVec 32) : Int := sextInt 18 sp.toNat
/-- The 28-bit signed immediate of mode 3, sign-extended to 64 bits (R115). -/
def spImm (sp : BitVec 32) : Word := BitVec.ofNat 64 (wrapInt 64 (sextInt 28 sp.toNat))

/-- R115: the fields that must be zero in each mode, and the reserved mode. -/
def specShape (sp : BitVec 32) : Bool :=
  let m := spMode sp
  let idx := spIndex sp == 0
  let scl := bitsOf sp.toNat 18 2 == 0
  let dsp := spDispU sp == 0
  if m = 0 ∨ m = 2 then idx && scl && dsp
  else if m = 1 then idx && scl && dsp && spBase sp < 8
  else if m = 3 ∨ m = 5 then true
  else if m = 4 ∨ m = 6 ∨ m = 7 ∨ m = 9 then idx && scl
  else if m = 8 then spBase sp == 0 && idx && scl
  else if m = 10 ∨ m = 11 then spIndex sp < 4 && scl
  else if m = 12 then spBase sp == 0 && idx
  else if m = 13 ∨ m = 14 then spBase sp < 2 && (spBase sp == 1 || (idx && scl))
  else false

/-- What an instruction allows in one specifier position (R111): unused, or a list of modes. -/
inductive Pos where
  | unused
  | modes (ms : List Nat)
  deriving DecidableEq, Repr

/-- R111: a specifier against its position. -/
def Pos.accepts : Pos → BitVec 32 → Bool
  | .unused, sp => sp == 0
  | .modes ms, sp => ms.contains (spMode sp) && specShape sp

/-- The modes of a memory operand (R145). -/
def memModes : List Nat := [4, 5, 6, 7, 8, 9, 10, 11, 12, 13, 14]

/-- What decides the encoding checks of an instruction: accepted FMT values, privilege, positions, LEN and other rules that
the word alone decides, and whether REP may repeat it (R143). -/
structure Shape where
  fmts   : List Nat
  priv   : Bool := false
  opd1   : Pos := .unused
  opd2   : Pos := .unused
  opd3   : Pos := .unused
  rule   : Word112 → Bool := fun w => w.len == 0
  repeats : Bool := true

/-- R138 orders 2 to 5: 0x01 for FMT, 0x02 for privilege, 0x04 for the encoding, 0x04 for the REP rule. -/
def checkShape (sh : Shape) (w : Word112) : M Unit := do
  let p ← getPsw
  raiseIf (!sh.fmts.contains w.fmt.toNat) 0x01
  raiseIf (sh.priv && !p.sup) 0x02
  raiseIf (!(sh.opd1.accepts w.opd1 && sh.opd2.accepts w.opd2 && sh.opd3.accepts w.opd3 && sh.rule w)) 0x04
  raiseIf (!sh.repeats && p.rcnt != 0) 0x04

/-- R110: the width in bytes of a binary or floating-point FMT. -/
def fmtBytes (fmt : BitVec 4) : Nat :=
  match fmt.toNat with
  | 1 => 1 | 2 => 2 | 3 => 4 | 4 => 8 | 6 => 4 | 7 => 8 | _ => 0

/-- R112: L1 as a length in bytes. -/
def lenL1 (len : BitVec 16) : Nat := bitsOf len.toNat 10 5 + 1
/-- R112: L2 as a length in bytes. -/
def lenL2 (len : BitVec 16) : Nat := bitsOf len.toNat 5 5 + 1
/-- R112: L3 as a length in bytes. -/
def lenL3 (len : BitVec 16) : Nat := bitsOf len.toNat 0 5 + 1
/-- R112: FLAG. -/
def lenFlag (len : BitVec 16) : Bool := bitAt len.toNat 15

/-! ## Address formation -/

/-- The byte ranges of an operand, in operand order, with how they reach memory. -/
structure Place where
  via   : Via
  parts : List (Nat × Nat)
  /-- mode 12: an offset in the stove's own hob -/
  own   : Bool := false
  deriving DecidableEq, Repr

/-- A 64-bit sum that wraps (R116). -/
def addWrap (a : Nat) (d : Int) : Nat := wrapInt 64 ((a : Int) + d)

/-- R116: the last byte of an operand lies inside the 64-bit space. -/
def inSpace (a n : Nat) : Bool := decide (a + n ≤ 2 ^ 64)

/-- R123: load the 8-byte pointer of mode 9. -/
def loadPointer (a : Nat) : M Nat := do
  if !inSpace a 8 then raise { code := 0x04, fav := true, faddr := a }
  let ps ← checkPieces [.load] .logical 8 none (pieces a 8)
  awaitNeeded ps
  return leNat (← readPieces ps false)

/-- R124 to R126: the parts of a modulo operand. -/
def moduloParts (mk : Nat) (o n : Nat) : M (List (Nat × Nat)) := do
  let base := mk % 2 ^ 64
  let e := bitsOf mk 64 6
  let size := 2 ^ e
  if e < 6 ∨ 32 < e ∨ bitsOf mk 70 58 ≠ 0 ∨ base % 64 ≠ 0 ∨ size < n ∨ 2 ^ 64 < base + size then raiseCode 0x04
  let o := o % size
  let k := min n (size - o)
  pure (if k < n then [(base + o, k), (base, n - k)] else [(base + o, n)])

/-- R130, R132: the signed offset of modes 13 and 14. -/
def areaOffset (sp : BitVec 32) : M Int := do
  let b ← getB
  if spBase sp = 0 then pure (spDisp sp)
  else pure (sextInt 64 (addWrap ((b.getG (spIndex sp)).toNat * spScale sp) (spDisp sp)))

/-- R26: where the hob window shows a stove's operand store. -/
def hobBase (stove : BitVec 6) : Nat := 0xF00000000000 + stove.toNat * 0x80000

/-- R115 to R117: form the address of a memory operand of `n` bytes, with its register update. -/
def formPlace (sp : BitVec 32) (n : Nat) : M Place := do
  let b ← getB
  let r := spBase sp
  let gb := (b.getG r).toNat
  let d := spDisp sp
  let plain (a : Nat) : M Place := do
    raiseIf (!inSpace a n) 0x04
    pure { via := .logical, parts := [(a, n)] }
  match spMode sp with
  | 4 => plain (addWrap gb d)
  | 5 => plain (addWrap (gb + (b.getG (spIndex sp)).toNat * spScale sp) d)
  | 6 => do
    writeG r (BitVec.ofNat 64 (gb + n))
    plain (addWrap gb d)
  | 7 => do
    let a := addWrap gb (-(n : Int))
    writeG r (BitVec.ofNat 64 a)
    plain (addWrap a d)
  | 8 => plain (addWrap b.psw.ia.toNat d)
  | 9 => do plain (← loadPointer (addWrap gb d))
  | 10 => do
    let ps ← moduloParts (b.getM (BitVec.ofNat 2 (spIndex sp).toNat)).toNat (addWrap gb d) n
    pure { via := .logical, parts := ps }
  | 11 => do
    let ps ← moduloParts (b.getM (BitVec.ofNat 2 (spIndex sp).toNat)).toNat (addWrap gb d) n
    writeG r (BitVec.ofNat 64 (gb + n))
    pure { via := .logical, parts := ps }
  | 12 => do
    raiseIf (!b.psw.sup) 0x02
    let o := spDispU sp * spScale sp
    pure { via := .physical, parts := [(hobBase b.stove + o, n)], own := true }
  | 13 => do
    let o ← areaOffset sp
    raiseIf (!b.msg.v || decide (o < 0) || decide ((b.msg.len.toNat : Int) < o + n)) 0x04
    pure { via := .physical, parts := [(b.msg.buf.toNat + o.toNat, n)] }
  | _ => do
    let o ← areaOffset sp
    raiseIf (decide (o < 0) || decide ((4096 : Int) < o + n)) 0x04
    let c ← get
    pure { via := .scratch, parts := [(c.s.block b.ctx + 0x1000 + o.toNat, n)] }

/-- R128, R135, R394 step 5: the pieces of an operand in the stove's own hob lie within its operand store. -/
def checkOwn (ks : List Acc) (second : Bool) : List (Nat × Nat) → M (List Piece)
  | [] => pure []
  | (a, n) :: t => do
    let c ← get
    raiseWhen (hobBase c.b.stove + c.s.opSize c.b.stove.toNat < a + n)
      { code := 0x03, fav := true, w := ks.head? = some .store, split2 := second, phys := true, faddr := a }
    let rest ← checkOwn ks true t
    let align := (if !second && t.isEmpty then blockCharge a n else 0) + ((t.head?.map (fun x => pageCharge a n x.1)).getD 0)
    pure ({ la := a, pa := a, len := n, own := true, align := align } :: rest)

/-- R135, R394: check a formed operand for every kind of access it needs. -/
def checkPlace (p : Place) (ks : List Acc) (n : Nat) : M (List Piece) := do
  let cut := p.parts.flatMap (fun (a, k) => pieces a k)
  let ps ← if p.own then checkOwn ks false cut else checkPieces ks p.via n none cut
  awaitLines ps
  pure ps

/-! ## Operands -/

/-- An operand after formation: a register with the value it held then (R117), an immediate, or checked memory. -/
inductive Opnd where
  | g (r : BitVec 4) (v : Word)
  | d (r : BitVec 3)
  | f (r : BitVec 4)
  | imm (v : Word)
  | mem (ps : List Piece)
  deriving DecidableEq, Repr

/-- R138 order 6: form one specifier: a data operand of `n` bytes with the accesses it needs, and its surcharge (R281). -/
def formOpnd (sp : BitVec 32) (n : Nat) (ks : List Acc) : M Opnd := do
  match spMode sp with
  | 0 => return .g (spBase sp) (← readG (spBase sp))
  | 1 => pure (.d (BitVec.ofNat 3 (spBase sp).toNat))
  | 2 => pure (.f (spBase sp))
  | 3 => pure (.imm (spImm sp))
  | _ => do
    let p ← formPlace sp n
    let ps ← checkPlace p ks n
    surcharge ks.length
    pure (.mem ps)

/-- R281, R119: form an address operand of length `n`: its effective address, with the pointer's surcharge in mode 9. -/
def formAddress (sp : BitVec 32) (n : Nat) : M Place := do
  if spMode sp = 9 then surcharge 1
  formPlace sp n

/-- The first byte's address of a formed place. -/
def Place.addr (p : Place) : Nat := (p.parts.head?.map (·.1)).getD 0

/-- The bytes of an operand of `n` bytes, first byte first. -/
def readOpnd (o : Opnd) (n : Nat) : M (List Byte) := do
  match o with
  | .g _ v => pure (leBytes n v.toNat)
  | .imm v => pure (leBytes n v.toNat)
  | .d r => return beBytes 32 ((← getB).getD r).toNat
  | .f r => return leBytes n ((← getB).getF r).toNat
  | .mem ps => readPieces ps false

/-- R120, R121: the value of a binary or floating-point operand of `n` bytes. -/
def readVal (o : Opnd) (n : Nat) : M Nat := do return leNat (← readOpnd o n)

/-- Write the bytes of an operand; registers narrower than 64 bits get zeros above (R120, R61). -/
def writeOpnd (o : Opnd) (bs : List Byte) : M Unit := do
  match o with
  | .g r _ => writeG r (BitVec.ofNat 64 (leNat bs))
  | .imm _ => pure ()
  | .d r => modB (·.setD r (BitVec.ofNat 256 (beNat bs)))
  | .f r => modB (·.setF r (BitVec.ofNat 64 (leNat bs)))
  | .mem ps => writePieces ps bs

/-- Write a value of `n` bytes. -/
def writeVal (o : Opnd) (n v : Nat) : M Unit := writeOpnd o (leBytes n v)

end Sys2Proof.Machine
end

