-- ==== Sys2Proof/Machine/Security.lean ====
section
/-!
DEFINITION. The security engine: its random source (R498), software operations (R500 to R502), identity (R504), quotes (R515),
the sealed configuration (R516, R518), two-party commit (R519 to R527), and DBGCMD (R528, R529).
-/

namespace Sys2Proof.Machine

/-! ## The random source -/

/-- RNGSTS.HEALTHY. -/
def State.rngOk (s : State) : Bool := s.flag Slot.sec Off.SEC.RNGSTS 0

/-- R498: a health test fails. -/
def State.rngFail (s : State) : State :=
  let s := (s.setFlag Slot.sec Off.SEC.RNGSTS 0 false).incSat Slot.sec Off.SEC.RNGSTS 16 32 1
  (s.setErr Slot.sec Off.SEC.SECERR 0).ashLog 0x70 Slot.sec none none 0 (s.fld Slot.sec Off.SEC.RNGSTS 16 32)

/-- R498: a later health test passes. -/
def State.rngPass (s : State) : State := s.setFlag Slot.sec Off.SEC.RNGSTS 0 true

/-- R498: `n` random bytes and the state after their draws. -/
def State.randomBytes (s : State) (n : Nat) : State × List Byte :=
  let k := ceilDiv n 32
  ({ s with fresh := s.fresh + k },
   ((List.range k).flatMap (fun i => leBytes 32 (Config.random (s.fresh + i)).toNat)).take n)

/-! ## Identity and the sealed configuration -/

/-- R504: the identity block. -/
def State.identBlock (s : State) : List Byte :=
  (List.range 12).flatMap (fun i => leBytes 8 (s.reg Slot.dev (Off.DEV.DIELO0 + 8 * i)))

/-- R504: the identity digest. -/
def State.identDigest (s : State) : List Byte :=
  sm3 (s.identBlock ++ vecBytes 64 s.fuses.idPub ++ vecBytes 64 s.fuses.attPub)

/-- The D bits of a register (R46). -/
def dMask (slot off : Nat) : Nat := clsMask .d slot off

/-- R516: the D bits of a register, the other bits zero. -/
def State.dWord (s : State) (slot off : Nat) : Nat := s.reg slot off &&& dMask slot off

/-- R516: the D registers a record holds, in its order from 0x490. -/
def recordRegs : List (Nat × Nat) :=
  [(Slot.pwr, Off.PWR.CEILING), (Slot.rst, Off.RST.BOOTPOL), (Slot.dbg, Off.DBG.DBGEN)]
    ++ (List.range 16).map (fun i => (Slot.key, Off.KEY.VAULT0 + 8 * i))
    ++ (List.range 8).map (fun i => (Slot.chm1, Off.CHM1.MSET0 + 8 * i))
    ++ (List.range 4).map (fun i => (Slot.grt, Off.GRT.RFMR0 + 8 * i))

/-- The digest of an enrolled key by 16 × class + slot; zero for an empty slot. -/
def State.digestOf (s : State) (i : Nat) : List Byte := vecBytes 32 (SMap.get (fun _ => (0 : BitVec 256)) s.enrolled i)

/-- R516: the sealed configuration record with a commit sequence. -/
def State.cfgRecord (s : State) (cseq : Nat) : List Byte :=
  leBytes 8 cseq ++ leBytes 8 (s.dWord Slot.sec Off.SEC.ENROL)
    ++ ((List.range 16) ++ (List.range 4).map (16 + ·) ++ (List.range 16).map (32 + ·)).flatMap s.digestOf
    ++ recordRegs.flatMap (fun (k, o) => leBytes 8 (s.dWord k o)) ++ zeros 120

/-- TPC.CSEQ: the commit sequence of the record in force. -/
def State.cseq (s : State) : Nat := s.reg Slot.tpc Off.TPC.CSEQ

/-- Set the D bits of a register. -/
def State.setD (s : State) (slot off v : Nat) : State :=
  let m := dMask slot off
  s.setReg slot off (s.reg slot off - s.dWord slot off + (v &&& m))

/-- R517: apply a record to the D fields and the enrolled keys. -/
def State.applyRecord (s : State) (rec' : List Byte) : State :=
  let at' (o n : Nat) : Nat := leNat (sliceBytes rec' o n)
  let s := s.setD Slot.sec Off.SEC.ENROL (at' 8 8)
  let s := ((List.range 16) ++ (List.range 4).map (16 + ·) ++ (List.range 16).map (32 + ·)).zipIdx.foldl
    (fun (s : State) (i, j) => { s with enrolled := SMap.set (fun _ => 0) s.enrolled i (BitVec.ofNat 256 (at' (0x10 + 32 * j) 32)) }) s
  let s := recordRegs.zipIdx.foldl (fun s ((k, o), j) => s.setD k o (at' (0x490 + 8 * j) 8)) s
  s.setReg Slot.tpc Off.TPC.CSEQ (at' 0 8)

/-- R49: the pages that have D fields, among them every page of the record. -/
def sealedPages : List Nat := [Slot.pwr, Slot.rst, Slot.dbg, Slot.sec, Slot.key, Slot.chm1, Slot.grt]

/-! ## Quotes -/

/-- R515: bytes 0x000 to 0x0EF of a quote. -/
def State.quoteBody (s : State) (nonce : List Byte) : List Byte :=
  let img := s.reg Slot.emb Off.EMB.IMAGE
  let state := 0xA1 + b2n (s.flag Slot.emb Off.EMB.BOOTSTS 0) * 2 ^ 8 + b2n (s.flag Slot.emb Off.EMB.BOOTSTS 1) * 2 ^ 9
    + s.fld Slot.dbg Off.DBG.DBGEN 0 2 * 2 ^ 10 + b2n (s.flag Slot.dbg Off.DBG.DBGSTS 1) * 2 ^ 12 + bitsOf img 32 32 * 2 ^ 16
  leBytes 8 1 ++ leBytes 8 (s.reg Slot.dev Off.DEV.SERIAL) ++ leBytes 8 s.cseq ++ leBytes 8 s.tod ++ leBytes 8 state
    ++ leBytes 8 (img % 2 ^ 32) ++ nonce ++ (s.mantel.digests ++ zeros (96 - s.mantel.digests.length)).take 96
    ++ sm3 (s.cfgRecord s.cseq) ++ s.identDigest

/-- R515: a signed quote over a nonce. -/
def State.quote (s : State) (nonce : List Byte) : State × List Byte :=
  let body := s.quoteBody nonce
  let (s, sig) := s.sign (sm3 body)
  (s, body ++ sig)

/-! ## Operations for software -/

/-- Every byte of a buffer lies in populated near memory. -/
def State.nearBuf (s : State) (a n : Nat) : Bool := n == 0 || s.nearRange a n

/-- R501: the buffers an operation reads and writes, or none when its block is refused with STATUS 0x01. -/
def secBuffers (op a alen b c : Nat) : Option (List (Nat × Nat) × List (Nat × Nat)) :=
  if op = 1 then (if 1 ≤ alen ∧ alen ≤ 4096 then some ([], [(b, alen)]) else none)
  else if op = 2 then some ([(a, 32), (c, 128)], [])
  else if op = 3 then some ([(a, 32)], [(b, 304)])
  else if op = 4 then (if 1 ≤ alen ∧ alen ≤ 65536 then some ([(a, alen), (c, 28)], [(b, alen + 16)]) else none)
  else if op = 5 then (if 1 ≤ alen ∧ alen ≤ 65536 then some ([(a, alen + 16), (c, 28)], [(b, alen)]) else none)
  else if op = 6 then some ([], [(b, 1536)])
  else none

/-- R500: the OP of a block. -/
def State.secOpcode (s : State) (blk : Nat) : Nat := s.ld blk 8 % 16

/-- R500, R502: the STATUS that refuses a block before anything is done; 0 when none does. -/
def State.secRefusal (s : State) (blk : Nat) : Nat :=
  if blk % 64 ≠ 0 then 1
  else if !s.nearBuf blk 64 then 2
  else if s.poisoned blk || s.keyLost blk then 3
  else
    let ctl := s.ld blk 8
    let op := ctl % 16
    if bitsOf ctl 4 4 ≠ 0 ∨ bitsOf ctl 17 47 ≠ 0 ∨ s.ld (blk + 0x28) 24 ≠ 0 then 1
    else match secBuffers op (s.ld (blk + 8) 8) (s.ld (blk + 0x10) 8) (s.ld (blk + 0x18) 8) (s.ld (blk + 0x20) 8) with
      | none => 1
      | some (ins, outs) =>
        if !((ins ++ outs).all (fun (a, n) => s.nearBuf a n)) then 2
        else if (op == 1 || op == 3) && !s.rngOk then 5
        else if ins.any (fun (a, n) => s.anyPoison a n || s.anyKeyLost a n) then 3
        else 0

/-- R391: a read of the engine that stops where a key byte is lost is counted. -/
def State.secLost (s : State) (blk : Nat) : State :=
  if s.poisoned blk || s.keyLost blk then s.countLost blk 64
  else match secBuffers (s.secOpcode blk) (s.ld (blk + 8) 8) (s.ld (blk + 0x10) 8) (s.ld (blk + 0x18) 8) (s.ld (blk + 0x20) 8) with
    | some (ins, _) => match ins.find? (fun (a, n) => s.anyKeyLost a n) with
      | some (a, n) => s.countLost a n
      | none => s
    | none => s

/-- R501: perform an operation whose block passes: the state and its STATUS. -/
def State.secPerform (s : State) (blk : Nat) : State × Nat :=
  let s := s.devRead blk 64
  let at' (o : Nat) : Nat := s.ld (blk + o) 8
  let a := at' 8
  let alen := at' 0x10
  let b := at' 0x18
  let c := at' 0x20
  match s.secOpcode blk with
  | 1 =>
    let (s, bs) := s.randomBytes alen
    (s.devWrite b bs, 0)
  | 2 =>
    let ok := sm2Verify (s.bytes c 64) (s.bytes a 32) (s.bytes (c + 64) 64)
    ((s.devRead a 32).devRead c 128, if ok then 0 else 0x10)
  | 3 =>
    let (s, q) := (s.devRead a 32).quote (s.bytes a 32)
    (s.devWrite b q, 0)
  | 4 =>
    let (ct, tag) := gcmEncrypt (s.bytes c 16) (s.bytes (c + 16) 12) [] (s.bytes a alen)
    (((s.devRead a alen).devRead c 28).devWrite b (ct ++ tag), 0)
  | 5 =>
    let s' := (s.devRead a (alen + 16)).devRead c 28
    match gcmDecrypt (s.bytes c 16) (s.bytes (c + 16) 12) [] (s.bytes a alen) (s.bytes (a + alen) 16) with
    | some pt => (s'.devWrite b pt, 0)
    | none => (s', 4)
  | 6 => (s.devWrite b (s.cfgRecord s.cseq), 0)
  | _ => (s, 1)

/-- R500: GO starts the operation at OPADDR; a GO while BUSY sets OVR. -/
def State.secGo (s : State) : State :=
  if s.secOp.isSome then s.setFlag Slot.sec Off.SEC.OPSTS 1 true
  else { s with secOp := some { block := BitVec.ofNat 64 (s.reg Slot.sec Off.SEC.OPADDR), leave := false, done := none } }.setFlag
    Slot.sec Off.SEC.OPSTS 0 true

/-- R501: the engine performs the software operation in progress when its OP is `op`; VERIFY and QUOTE wait for leave, and the whole waits
while it would write a line that a reservation set holds (R248). -/
def State.secStep (s : State) (op : Nat) : State :=
  match s.secOp with
  | none => s
  | some x =>
    let blk := x.block.toNat
    if !s.blockOn Slot.sec || x.done.isSome || s.secOpcode blk != op then s
    else
      let st := s.secRefusal blk
      if st ≠ 0 then
        let s := if st = 3 then s.secLost blk else s
        { s with secOp := some { x with done := some (BitVec.ofNat 8 st) } }
      else if (op = 2 ∨ op = 3) ∧ !x.leave then s.askLeave .engine
      else
        let (t, st) := s.secPerform blk
        s.unlessHeld { t with secOp := some { x with done := some (BitVec.ofNat 8 st) } }

/-- R502: completion: STATUS and then DONE, BUSY cleared, and SECERR.OPERR for an error. -/
def State.secComplete (s : State) : State :=
  match s.secOp with
  | none => s
  | some x =>
    let blk := x.block.toNat
    let refusal := s.secRefusal blk
    let st : Option Nat := match x.done with
      | some st => some st.toNat
      | none => if refusal = 0 then none else some refusal
    match st with
    | none => s
    | some st =>
      if !s.blockOn Slot.sec then s
      else
        let s := if s.nearBuf blk 64 && blk % 64 == 0 then
            s.devWrite blk (leBytes 8 (putBits (putBits (s.ld blk 8) 8 8 st) 16 1 1))
          else s
        let s := { s with secOp := none }.setFlag Slot.sec Off.SEC.OPSTS 0 false
        if st = 0 ∨ st = 0x10 then s else s.setErr Slot.sec Off.SEC.SECERR 1

/-! ## Change blocks (R519, R520) -/

/-- R519: an item of a change block. -/
inductive Item where
  | setReg (slot off mask value : Nat)
  | enrol (idx digest : Nat)
  | remove (idx : Nat)
  | vkey (frame count kb : Nat)
  deriving DecidableEq, Repr

/-- R516: the slots a class has: 16 officers, 4 owners, 16 peers. -/
def classSlots (cls : Nat) : Nat := if cls = 1 then 4 else if cls ≤ 2 then 16 else 0

/-- R519: read one item of 64 bytes; none when it is malformed. -/
def readItem (bs : List Byte) : Option Item :=
  let w (i : Nat) : Nat := leNat (sliceBytes bs (8 * i) 8)
  let zeroFrom (i : Nat) : Bool := leNat (bs.drop (8 * i)) == 0
  let keyed := w 1 ≤ 2 && decide (w 2 < classSlots (w 1))
  match w 0 with
  | 1 =>
    if w 1 < 256 ∧ w 2 < 4096 ∧ zeroFrom 5 ∧ w 3 ≠ 0 ∧ w 3 &&& dMask (w 1) (w 2) = w 3 ∧ ¬(w 1 = Slot.sec ∧ w 2 = Off.SEC.ENROL) then
      some (.setReg (w 1) (w 2) (w 3) (w 4))
    else none
  | 2 => if keyed && w 3 == 0 then some (.enrol (16 * w 1 + w 2) (leNat (bs.drop 32))) else none
  | 3 => if keyed && zeroFrom 3 then some (.remove (16 * w 1 + w 2)) else none
  | 4 =>
    if w 1 % 4096 = 0 ∧ 1 ≤ w 2 ∧ w 2 ≤ 256 ∧ w 3 < 256 ∧ zeroFrom 4 then some (.vkey (w 1) (w 2) (w 3)) else none
  | _ => none

/-- R519: the items of a block; none when one is malformed. -/
def readItems (bs : List Byte) : Nat → Option (List Item)
  | 0 => some []
  | n + 1 => do
    let i ← readItem (bs.take 64)
    let t ← readItems (bs.drop 64) n
    pure (i :: t)

/-- The items of a staged block. -/
def blockItems (bs : List Byte) : Option (List Item) :=
  let n := leNat (bs.take 8)
  if 1 ≤ n ∧ n ≤ 255 ∧ leNat (sliceBytes bs 16 48) = 0 then readItems (bs.drop 64) n else none

/-- Enrol or remove a key: its digest and its bit of SEC.ENROL. -/
def State.setEnrolled (s : State) (idx digest : Nat) (on : Bool) : State :=
  let s := { s with enrolled := SMap.set (fun _ => 0) s.enrolled idx (BitVec.ofNat 256 digest) }
  s.setFlag Slot.sec Off.SEC.ENROL idx on

/-- R520: apply an item to the D fields; key bytes change later. -/
def State.applyItem (s : State) : Item → State
  | .setReg k o m v => s.setReg k o (s.reg k o - (s.reg k o &&& m) + (v &&& m))
  | .enrol i d => s.setEnrolled i d true
  | .remove i => s.setEnrolled i 0 false
  | .vkey _ _ _ => s

/-- The frames the VKEY items name, with their new key bytes, in order. -/
def vkeyFrames (items : List Item) : List (Nat × Nat) :=
  items.flatMap (fun i => match i with
    | .vkey f n kb => (List.range n).map (fun j => (f + 4096 * j, kb))
    | .setReg _ _ _ _ | .enrol _ _ | .remove _ => [])

/-- R520, R403: every enabled vault range is naturally aligned with SIZE 12 to 42. -/
def State.vaultsOk (s : State) : Bool :=
  (List.range 16).all (fun i =>
    let v := s.reg Slot.key (Off.KEY.VAULT0 + 8 * i)
    let size := bitsOf v 36 6
    !bitAt v 63 || (decide (12 ≤ size ∧ size ≤ 42) && bitsOf v 0 36 * 4096 % 2 ^ size == 0))

/-- R520: every enabled mirror set names enrolled peer slots, with NPEERS 1 or 2, and 1 for a shadow. -/
def State.msetsOk (s : State) : Bool :=
  (List.range 8).all (fun i =>
    let m := s.msetReg i
    let n := bitsOf m 40 2
    let peer (k : Nat) : Bool := s.flag Slot.sec Off.SEC.ENROL (32 + k)
    !bitAt m 63 || ((n == 1 || (n == 2 && !bitAt m 43)) && peer (bitsOf m 32 4) && (n == 1 || peer (bitsOf m 36 4))))

/-- R520: the VKEY frames are few enough, all vault frames under the resulting ranges, and populated ordinary memory. -/
def State.vkeysOk (s : State) (fs : List (Nat × Nat)) : Bool :=
  decide (fs.length ≤ 256)
    && fs.all (fun (f, kb) => s.inVault f && s.ordinary f && s.populated .load f && kb / 32 == 0)

/-- R520: the conditions on the result of a change. -/
def State.resultOk (s : State) (items : List Item) : Bool :=
  decide (2 ≤ ((List.range 16).filter (s.flag Slot.sec Off.SEC.ENROL)).length)
    && s.vaultsOk && s.msetsOk && s.vkeysOk (vkeyFrames items)

/-- The configuration that a change results in. -/
def State.changed (s : State) (items : List Item) : State := items.foldl State.applyItem s

/-! ## TPC commands (R521 to R525) -/

/-- STS.STATE: IDLE 0, STAGED 1, ONE 2, TWO 3. -/
def State.tpcState (s : State) : Nat := s.fld Slot.tpc Off.TPC.STS 0 3

/-- STS.BUSY. -/
def State.tpcBusy (s : State) : Bool := s.flag Slot.tpc Off.TPC.STS 3

/-- Set STS.ERR. -/
def State.tpcErr (s : State) (e : Nat) : State := s.setFld Slot.tpc Off.TPC.STS 8 8 e

/-- R521: a command is refused. -/
def State.tpcRefuse (s : State) (e : Nat) : State := (s.tpcErr e).setErr Slot.tpc Off.TPC.TPCERR 0

/-- Four registers that hold 32 bytes. -/
def State.setDigestRegs (s : State) (slot off : Nat) (bs : List Byte) : State :=
  (List.range 4).foldl (fun s i => s.setReg slot (off + 8 * i) (leNat (sliceBytes bs (8 * i) 8))) s

/-- The bytes of four registers. -/
def State.digestRegs (s : State) (slot off : Nat) : List Byte :=
  (List.range 4).flatMap (fun i => leBytes 8 (s.reg slot (off + 8 * i)))

/-- The pages that the items of a change touch. -/
def itemPages (items : List Item) : List Nat :=
  (items.filterMap (fun i => match i with
    | .setReg k _ _ _ => some k
    | .enrol _ _ | .remove _ => some Slot.sec
    | .vkey _ _ _ => none)).eraseDups

/-- Set or clear PAGE_LOCK.STAGED of pages. -/
def State.markStaged (s : State) (pages : List Nat) (on : Bool) : State :=
  pages.foldl (fun s k => s.setFlag k Off.PAGE.LOCK 1 on) s

/-- R525: SECS of WINDOW as it counts. -/
def windowSecs (w : Nat) : Nat := if w = 0 ∨ 600 < w then 600 else w

/-- A block the device reads with key 0 in populated near memory, whole. -/
def State.readable (s : State) (a n : Nat) : Bool :=
  s.nearBuf a n && !s.anyPoison a n && (linesTouched a n).all (fun l => !s.keyLost (l * 64))

/-- R391: a block that the device cannot read for the loss of a key byte is counted. -/
def State.unread (s : State) (a n : Nat) : State := if s.nearBuf a n then s.countLost a n else s

/-- R521: STAGE. -/
def State.tpcStage (s : State) : State :=
  let a := s.reg Slot.tpc Off.TPC.ARG
  let s := s.tpcErr 0
  if s.tpcBusy || s.tpcState != 0 then s.tpcRefuse 9
  else if a % 64 ≠ 0 then s.tpcRefuse 8
  else if !s.readable a 64 then (s.unread a 64).tpcRefuse 8
  else
    let s := s.devRead a 64
    let n := s.ld a 8
    if n = 0 ∨ 255 < n then s.tpcRefuse 1
    else if !s.readable a (64 + 64 * n) then (s.unread a (64 + 64 * n)).tpcRefuse 8
    else
      let s := s.devRead a (64 + 64 * n)
      let bs := s.bytes a (64 + 64 * n)
      match blockItems bs with
      | none => s.tpcRefuse 1
      | some items =>
        if leNat (sliceBytes bs 8 8) ≠ s.cseq then s.tpcRefuse 3
        else if !(s.changed items).resultOk items then s.tpcRefuse 2
        else if !s.rngOk then s.tpcRefuse 0xB
        else
          let (s, nonce) := s.randomBytes 32
          let s := (s.setDigestRegs Slot.tpc Off.TPC.NONCE0 nonce).setDigestRegs Slot.tpc Off.TPC.DIGEST0 (sm3 bs)
          let s := s.setReg Slot.tpc Off.TPC.EXPIRY (s.tod + windowSecs (s.fld Slot.tpc Off.TPC.WINDOW 0 10) * 10 ^ 10)
          let s := { s with staged := some { block := bs, addr := BitVec.ofNat 64 a, sign := none, leave := false } }
          (s.markStaged (itemPages items) true).setFld Slot.tpc Off.TPC.STS 0 3 1

/-- R522: the message an officer signs. -/
def State.signMessage (s : State) : List Byte :=
  s.digestRegs Slot.tpc Off.TPC.DIGEST0 ++ s.digestRegs Slot.tpc Off.TPC.NONCE0
    ++ leBytes 8 (s.reg Slot.dev Off.DEV.SERIAL) ++ leBytes 8 (s.cseq + 1)

/-- R518: the factory state: CSEQ 0 and no key enrolled. -/
def State.factory (s : State) : Bool := s.cseq == 0 && s.dWord Slot.sec Off.SEC.ENROL == 0

/-- R523, R527: the ERR that refuses the signature block at an address, but for the signature itself; 0 when none does. -/
def State.signRefusal (s : State) (items : List Item) (a : Nat) : Nat :=
  if !s.readable a 144 then 8
  else
    let slot := s.ld a 1
    let who := if s.factory then s.changed items else s
    if slot / 16 ≠ 0 ∨ s.ld (a + 1) 15 ≠ 0 then 1
    else if s.reg Slot.tpc Off.TPC.EXPIRY ≤ s.tod then 7
    else if !who.flag Slot.sec Off.SEC.ENROL slot || who.digestOf slot != sm3 (s.bytes (a + 0x10) 64) then 4
    else if s.tpcState = 2 ∧ s.fld Slot.tpc Off.TPC.STS 16 4 = slot then 6
    else 0

/-- R523: verify the signature of a block that passes the other checks, with leave held. -/
def State.tpcVerify (s : State) (a : Nat) : State :=
  let slot := s.ld a 1
  if !sm2Verify (s.bytes (a + 0x10) 64) s.signMessage (s.bytes (a + 0x50) 64) then s.tpcRefuse 5
  else if s.tpcState = 1 then (s.setFld Slot.tpc Off.TPC.STS 16 4 slot).setFld Slot.tpc Off.TPC.STS 0 3 2
  else (s.setFld Slot.tpc Off.TPC.STS 20 4 slot).setFld Slot.tpc Off.TPC.STS 0 3 3

/-- The signature block is read: its frames are marked (R396), or the loss of a key byte is counted (R391). -/
def State.signRead (s : State) (a : Nat) : State := if s.readable a 144 then s.devRead a 144 else s.unread a 144

/-- R521, R523: SIGN. The first time the command asks for leave and is BUSY; once its leave is granted it verifies. -/
def State.tpcSign (s : State) : State :=
  match s.staged with
  | none => (s.tpcErr 0).tpcRefuse 9
  | some x =>
    let items := (blockItems x.block).getD []
    match x.sign with
    | some a =>
      if !x.leave then (s.tpcErr 0).tpcRefuse 9
      else
        let s := { s with staged := some { x with sign := none, leave := false } }.setFlag Slot.tpc Off.TPC.STS 3 false
        let e := s.signRefusal items a.toNat
        if e = 0 then (s.signRead a.toNat).tpcVerify a.toNat else (s.signRead a.toNat).tpcRefuse e
    | none =>
      let s := s.tpcErr 0
      let a := s.reg Slot.tpc Off.TPC.ARG
      let e := s.signRefusal items a
      if s.tpcState = 3 then s.tpcRefuse 9
      else if e ≠ 0 then (s.signRead a).tpcRefuse e
      else ({ s.signRead a with staged := some { x with sign := some (BitVec.ofNat 64 a) } }.setFlag Slot.tpc Off.TPC.STS 3 true).askLeave .sign

/-- Discard the staged change and its signatures (R521). -/
def State.tpcDiscard (s : State) : State :=
  let items := (s.staged.bind (fun x => blockItems x.block)).getD []
  let s := { s with staged := none }.markStaged (itemPages items) false
  let s := { s with damper := Vector.ofFn (fun i =>
      let b := s.damper[i]
      { b with queue := b.queue.filter (· != LeaveReq.sign) }) }
  s.setReg Slot.tpc Off.TPC.STS (s.fld Slot.tpc Off.TPC.STS 8 8 * 2 ^ 8)

/-- R521: CLEAR. -/
def State.tpcClear (s : State) : State :=
  let s := s.tpcErr 0
  if s.tpcBusy || s.tpcState == 0 then s.tpcRefuse 9 else s.tpcDiscard

/-- R525: TOD has reached EXPIRY. -/
def State.tpcExpire (s : State) : State :=
  if s.tpcState = 0 ∨ s.tod < s.reg Slot.tpc Off.TPC.EXPIRY then s
  else s.tpcDiscard.setErr Slot.tpc Off.TPC.TPCERR 1

/-! ## COMMIT (R524, R526) -/

/-- The flash device that holds the sealed-configuration copies: the device of slot A, or that of slot B when A is absent. -/
def State.cfgFlash (s : State) : Fin 2 := if s.mantel.flash[0].present then 0 else 1

/-- A configuration copy: the record and its 64-byte signature. -/
def copyCseq (bs : List Byte) : Nat := leNat (bs.take 8)

/-- R517: a copy verifies and matches the non-volatile store. A signature that the device itself made over the record counts as
verifying (the device's own signatures are free values). -/
def State.copyOk (s : State) (bs : List Byte) : Bool :=
  let rec' := bs.take 1536
  let sig := sliceBytes bs 1536 64
  let d : BitVec 256 := BitVec.ofNat 256 (leNat (sm3 rec'))
  bs.length ≥ 1600 && d == s.mantel.nvDigest && copyCseq bs == s.mantel.nvSeq.toNat
    && (s.mantel.signed.contains (d, BitVec.ofNat 512 (leNat sig)) || sm2Verify (vecBytes 64 s.fuses.idPub) rec' sig)

/-- Write a sealed-configuration copy. -/
def State.writeCopy (s : State) (second : Bool) (bs : List Byte) : State :=
  let f := s.mantel.flash[s.cfgFlash]
  let f := if second then { f with copy1 := bs } else { f with copy0 := bs }
  { s with mantel := { s.mantel with flash := s.mantel.flash.set s.cfgFlash f } }

/-- R524 step 2: the older copy is the one that does not hold the record in force, copy 0 when both do. -/
def State.olderIsSecond (s : State) : Bool :=
  let f := s.mantel.flash[s.cfgFlash]
  s.copyOk f.copy0 && !s.copyOk f.copy1

/-- R524 step 2: write a record and its signature: older copy, non-volatile store, other copy, as far as the writes succeed.
The Bool is whether all did. -/
def State.storeRecord (s : State) (rec' : List Byte) (fault : StoreFault) : State × Bool :=
  let (s, sig) := s.sign (sm3 rec')
  let d : BitVec 256 := BitVec.ofNat 256 (leNat (sm3 rec'))
  let second := s.olderIsSecond
  let s := { s with mantel := { s.mantel with signed := (d, BitVec.ofNat 512 (leNat sig)) :: s.mantel.signed } }
  if !s.mantel.flash[s.cfgFlash].present || fault == .flash then (s, false)
  else
    let s := s.writeCopy second (rec' ++ sig)
    if 100000 ≤ s.mantel.nvWrites ∨ fault = .store then (s, false)
    else
      let s := { s with mantel := { s.mantel with
        nvSeq := BitVec.ofNat 64 (copyCseq rec'), nvDigest := d, nvWrites := s.mantel.nvWrites + 1 } }
      if fault = .other then (s, false) else (s.writeCopy (!second) (rec' ++ sig), true)

/-- R526: the mirror sets that a change alters while they are enabled: their own register, or a peer key they name. -/
def State.setsChanged (s t : State) : List Nat :=
  (List.range 8).filter (fun i => s.msetOn i &&
    (s.msetReg i != t.msetReg i || s.peerDigest (s.setPeer i false) != t.peerDigest (s.setPeer i false)
      || (bitsOf (s.msetReg i) 40 2 == 2 && s.peerDigest (s.setPeer i true) != t.peerDigest (s.setPeer i true))))

/-- Run an update for both peers of a set. -/
def bothPeers (s : State) (i : Nat) (f : State → Nat → Bool → State) : State := f (f s i false) i true

/-- R526: close the sessions of a set with CLOSE, and log it (R578). -/
def State.closeSide (s : State) (i : Nat) (peer : Bool) : State :=
  match s.session? i peer with
  | none => s
  | some x => ((s.closeSession x).dropSession i peer).ashLog 0x51 Slot.chm1 none none 0 (i + b2n peer * 2 ^ 3 + 7 * 2 ^ 8)

/-- R524 step 3: change the key byte of one VKEY frame; one that has become unpopulated is skipped and logged. -/
def State.applyVkey (s : State) (cseq : Nat) (f kb : Nat) : State :=
  if s.populated .load f then s.setKey f kb false false
  else s.ashLog 0x71 Slot.tpc none none f cseq

/-- The pages whose D fields two states disagree on. -/
def State.pagesChanged (s t : State) : List Nat :=
  sealedPages.filter (fun k =>
    recordRegs.any (fun (k', o) => k' == k && s.dWord k o != t.dWord k o)
      || (k == Slot.sec && (s.dWord Slot.sec Off.SEC.ENROL != t.dWord Slot.sec Off.SEC.ENROL || s.enrolled != t.enrolled)))

/-- R524 steps 3 to 5, R526: put the new configuration in force. -/
def State.tpcApply (s : State) (x : Staged) (items : List Item) : State :=
  let new := s.cseq + 1
  let pages := s.pagesChanged (s.changed items)
  let sets := s.setsChanged (s.changed items)
  let s := sets.foldl (fun s i => bothPeers s i State.closeSide) s
  let s := s.changed items
  let s := (vkeyFrames items).foldl (fun s (f, kb) => s.applyVkey new f kb) s
  let s := sets.foldl (fun s i =>
    let s := (s.setFld Slot.chm1 Off.CHM1.MSTS (2 * i) 2 0).refault i
    bothPeers s i State.mirrorStart) s
  let s := pages.foldl (fun s k => (s.setFld k Off.PAGE.LOCK 16 16 new).setFlag k Off.PAGE.LOCK 0 true) s
  let s := s.tpcDiscard.setReg Slot.tpc Off.TPC.CSEQ new
  s.ashLog 0x71 Slot.tpc none none x.addr.toNat new

/-- R524: COMMIT. `fault` is what the flash and the store did. It waits while a reservation holds a line of a VKEY frame
(R404). -/
def State.tpcCommit (s : State) (fault : StoreFault) : State :=
  let s0 := s
  let s := s.tpcErr 0
  match s.staged with
  | none => s.tpcRefuse 9
  | some x =>
    let items := (blockItems x.block).getD []
    let t := s.changed items
    if s.tpcBusy || s.tpcState != 3 then s.tpcRefuse 9
    else if (vkeyFrames items).any (fun (f, _) => s.lineHeld f 4096) then s0
    else if s.reg Slot.tpc Off.TPC.EXPIRY ≤ s.tod then s.tpcRefuse 7
    else if !t.vkeysOk (vkeyFrames items) then s.tpcRefuse 2
    else if !s.rngOk then s.tpcRefuse 0xB
    else match s.storeRecord (t.cfgRecord (s.cseq + 1)) fault with
      | (s, false) => s.tpcRefuse 0xA
      | (s, true) => s.tpcApply x items

/-! ## DBGCMD (R528, R529) -/

/-- The PSW of a context: its bank's, or the one it was spilled with; none when its frame cannot be read. -/
def State.spilledPsw (s : State) (ctx : BitVec 20) : Option Psw :=
  match s.bankOf ctx with
  | some b => some b.psw
  | none =>
    let read : FM Psw := do
      let cb := s.block ctx
      let spill ← fLd ctx (cb + 0xB10) 8
      let stat ← fLd ctx (cb + 0xB20) 8
      let frame := if spill = 0 ∧ bitAt stat 0 then cb + 0x500 else spill
      let p ← fLdBytes ctx (frame + 0x290) 16
      pure (Psw.ofNat (leNat p))
    match read s with
    | .ok v _ => some v
    | .error _ _ => none

/-- R528: DBGEN.LEVEL as it counts: the reserved value is 0. -/
def State.dbgLevel (s : State) : Nat :=
  let l := s.fld Slot.dbg Off.DBG.DBGEN 0 2
  if l = 3 then 0 else l

/-- R528: DBGCMD accepts a context at the level in force. -/
def State.dbgAccepts (s : State) (ctx : BitVec 20) : Bool :=
  s.dbgLevel == 2 || (s.dbgLevel == 1 && (s.spilledPsw ctx).any (!·.sup))

/-- The outcome of a context command given to DBGCMD: its REFUSED bit goes there, and CTXSTS keeps its value. -/
def State.dbgOutcome (was s : State) : State :=
  let r := s.flag Slot.grt Off.GRT.CTXSTS 1
  (s.setReg Slot.grt Off.GRT.CTXSTS (was.reg Slot.grt Off.GRT.CTXSTS)).setFlag Slot.dbg Off.DBG.DBGCMD 33 r

/-- R529, R377: HALT: STOP, which breaks the refire of a context whose RF is 1 at its next boundary point; a refused one breaks nothing. -/
def State.haltNow (s : State) (ctx : BitVec 20) : State :=
  let refired := (s.spilledPsw ctx).any (·.rf)
  let t := ({ s with halting := if refired then ctx :: s.halting else s.halting } : State).ctxStop ctx
  s.dbgOutcome (if t.flag Slot.grt Off.GRT.CTXSTS 1 then s.ctxStop ctx else t)

/-- R302, R529: a HALT waits for the boundary point of a resident context. -/
def State.haltWaits (s : State) (ctx : BitVec 20) : Bool :=
  match s.bankOf ctx with
  | some b => s.st ctx == St.resident && !s.mayLeave b
  | none => false

/-- R529: DBGCMD with OP 1 HALT, 2 RESUME, 3 STEP. -/
def State.dbgCommand (s : State) (op : Nat) (ctx : BitVec 20) : State :=
  if !s.dbgAccepts ctx then s.setFlag Slot.dbg Off.DBG.DBGCMD 33 true
  else match op with
    | 1 =>
      if s.haltWaits ctx then
        (({ s with haltBusy := some ctx } : State).setFlag Slot.dbg Off.DBG.DBGCMD 32 true).setFlag Slot.dbg Off.DBG.DBGCMD 33 false
      else s.haltNow ctx
    | 2 => s.dbgOutcome (s.ctxStart ctx)
    | 3 =>
      let t := s.ctxStart ctx
      s.dbgOutcome (if t.flag Slot.grt Off.GRT.CTXSTS 1 then t else { t with stepping := ctx :: t.stepping })
    | _ => s.setFlag Slot.dbg Off.DBG.DBGCMD 33 true

/-- R529: the HALT in progress, once its context has come to a boundary point or has left its bank. -/
def State.finishHalt (s : State) : State :=
  match s.haltBusy with
  | none => s
  | some ctx =>
    if s.haltWaits ctx then s
    else (({ s with haltBusy := none } : State).setFlag Slot.dbg Off.DBG.DBGCMD 32 false).haltNow ctx

/-- R529: a debug session opens. -/
def State.debugOpen (s : State) : State :=
  ((s.setFlag Slot.dbg Off.DBG.DBGSTS 0 true).setFlag Slot.dbg Off.DBG.DBGSTS 1 true).ashLog 0x72 Slot.dbg none none 0
    (s.fld Slot.dbg Off.DBG.DBGEN 0 2)

/-- R529: a debug session closes. -/
def State.debugClose (s : State) : State := s.setFlag Slot.dbg Off.DBG.DBGSTS 0 false

end Sys2Proof.Machine
end

