-- ==== Sys2Proof/Machine/Mantel.lean ====
section
/-!
DEFINITION. The Mantel: mastership (R531 to R533), clocks and the time of day (R536 to R540), the damper (R541 to R546), thermal
control (R547 to R549), forced power-down (R550), and the ash log's clear (R579).
-/

namespace Sys2Proof.Machine

/-! ## Mastership -/

/-- TOKEN.HOLDER of a Mantel core: north 1, south 2; 0 for any other source. -/
def coreOf : Src → Nat
  | .north => 1
  | .south => 2
  | .context | .debug => 0

/-- TOKEN.HOLDER. -/
def State.holder (s : State) : Nat := s.fld Slot.man Off.MAN.TOKEN 0 2

/-- R532: a Mantel core halted by the debug path makes no access. -/
def State.coreHalted (s : State) (src : Src) : Bool :=
  match src with
  | .north => s.flag Slot.man Off.MAN.CORESTS 2
  | .south => s.flag Slot.man Off.MAN.CORESTS 3
  | .context | .debug => false

/-- The physical address of a register. -/
def regAddr (slot off : Nat) : Nat := 0xF10000000000 + slot * 0x1000 + off

/-- R531: a write by the core that does not hold mastership is refused, counted and logged. -/
def State.refuseWrite (s : State) (core slot off : Nat) : State :=
  let s := s.incSat Slot.man Off.MAN.REFUSED 0 32 1
  (s.setErr Slot.man Off.MAN.MANERR 1).ashLog 0x81 Slot.man none none (regAddr slot off) core

/-- Where HBAGE holds a core's age. -/
def ageAt (core : Nat) : Nat := if core = 1 then 0 else 32

/-- R532: a core beats. -/
def State.beat (s : State) (core : Nat) : State := s.setFld Slot.man Off.MAN.HBAGE (ageAt core) 32 0

/-- HBTIMEOUT as it counts, in µs. -/
def State.beatLimit (s : State) : Nat :=
  let ms := s.fld Slot.man Off.MAN.HBTIMEOUT 0 10
  (if ms = 0 then 20 else ms) * 1000

/-- R532: a core claims mastership: it becomes holder when there is none or the holder's beat has expired. -/
def State.claim (s : State) (core : Nat) : State :=
  let h := s.holder
  if h ≠ core ∧ (h = 0 ∨ s.fld Slot.man Off.MAN.HBAGE (ageAt h) 32 > s.beatLimit) then
    let s := (s.setFld Slot.man Off.MAN.TOKEN 0 2 core).incWrap Slot.man Off.MAN.TOKEN 16 16 1
    (s.setErr Slot.man Off.MAN.MANERR 0).ashLog 0x80 Slot.man none none 0 (core + s.fld Slot.man Off.MAN.TOKEN 16 16 * 2 ^ 16)
  else s.refuseWrite core Slot.man Off.MAN.CLAIM

/-- R533: the holder gives up mastership. -/
def State.releaseToken (s : State) (core : Nat) : State :=
  if s.holder = core then s.setFld Slot.man Off.MAN.TOKEN 0 2 0 else s

/-- A write of MAN.CLAIM: its bits act in order; only a running Mantel core acts (R533). -/
def State.claimWrite (s : State) (src : Src) (v : Nat) : State :=
  let c := coreOf src
  if c = 0 ∨ s.coreHalted src then s
  else
    let s := if bitAt v 0 then s.beat c else s
    let s := if bitAt v 1 then s.claim c else s
    if bitAt v 2 then s.releaseToken c else s

/-- R528, R532: the debug path at level 0b10 halts a Mantel core. -/
def State.haltCore (s : State) (south : Bool) : State :=
  if s.dbgLevel = 2 then
    (s.setFlag Slot.man Off.MAN.CORESTS (if south then 3 else 2) true).setFlag Slot.man Off.MAN.CORESTS (if south then 1 else 0) false
  else s

/-! ## The time of day -/

/-- STEPREM, signed. -/
def State.stepRem (s : State) : Int := sextInt 64 (s.reg Slot.clk Off.CLK.STEPREM)

/-- Set STEPREM. -/
def State.setStepRem (s : State) (v : Int) : State := s.setReg Slot.clk Off.CLK.STEPREM (wrapInt 64 v)

/-- R538: RATE as it counts. -/
def State.todRate (s : State) : Int := max (-(2 ^ 26)) (min (2 ^ 26) (sextInt 32 (s.reg Slot.clk Off.CLK.TODRATE)))

/-- R538, R539: the counter on one Mantel clock: the nominal advance with its fraction, a positive STEPREM at once, and up to 16
units of a negative one taken off. -/
def State.todClock (s : State) : State :=
  let adv := (s.mantel.todFrac.toNat : Int) + 32 * 2 ^ 32 + s.todRate
  let units := adv / 2 ^ 32
  let rem := s.stepRem
  let take := if rem ≥ 0 then rem else max rem (-16)
  let s := { s with mantel := { s.mantel with todFrac := BitVec.ofInt 32 adv } }
  let s := s.setReg Slot.clk Off.CLK.TOD (wrapInt 64 (s.tod + units + take))
  s.setStepRem (rem - take)

/-- A µs passes for both beat ages. -/
def State.ageBeats (s : State) : State :=
  (s.incSat Slot.man Off.MAN.HBAGE 0 32 1).incSat Slot.man Off.MAN.HBAGE 32 32 1

/-- One Mantel clock, 312.5 MHz after the root PLL has first locked and 25 MHz before (R536). `ticks` counts 1/625 µs. -/
def State.tick (s : State) : State :=
  if !s.mantel.vsb then s
  else
    let run := s.flag Slot.clk Off.CLK.CLKSTS 3
    let s := if run then s.todClock else s
    let t := s.mantel.ticks + (if run then 2 else 25)
    let s := { s with mantel := { s.mantel with ticks := t % 625 } }
    if 625 ≤ t then s.ageBeats else s

/-- R540: TODSET: forward at once, backward as a negative step. -/
def State.todSet (s : State) (v : Nat) : State :=
  if s.tod ≤ v then s.setReg Slot.clk Off.CLK.TOD v else s.setStepRem (s.stepRem - (s.tod - v : Nat))

/-- R539: TODSTEP. -/
def State.todStep (s : State) (v : Nat) : State := s.setStepRem (s.stepRem + sextInt 64 v)

/-! ## The damper -/

/-- R541: the ceiling in W. -/
def State.ceilingW (s : State) : Nat :=
  let w := s.fld Slot.pwr Off.PWR.CEILING 0 16
  if w = 0 ∨ 420 < w then 420 else if w < 100 then 100 else w

/-- R541: the effective cap in W. -/
def State.effectiveCap (s : State) : Nat :=
  if s.flag Slot.pwr Off.PWR.CAP 16 then min (s.fld Slot.pwr Off.PWR.CAP 0 16) s.ceilingW else s.ceilingW

/-- R541: the pool of one µs. -/
def State.pool (s : State) : Nat :=
  let base := s.fld Slot.pwr Off.PWR.BASE 0 16
  if s.effectiveCap < base + 8 then 8000 else (s.effectiveCap - base) * 1000

/-- R542: the share of bucket `i`: hearths 0 to 7, then the device bucket. -/
def State.share (s : State) (i : Nat) : Nat :=
  max 0x100 (if i < 8 then s.fld (Slot.hrtA i) Off.HRTA.DAMPSHARE 0 16 else s.fld Slot.pwr Off.PWR.DEVSHARE 0 16)

/-- R542: one refill of bucket `i`. -/
def State.refillOf (s : State) (i : Nat) : Nat :=
  let sum := ((List.range 9).map s.share).sum
  let r := s.pool * s.share i / 2 ^ 16
  if 2 ^ 16 < sum then r * 2 ^ 16 / sum else r

/-- R542: every bucket refills, up to four refills. -/
def State.damperRefill (s : State) : State :=
  { s with damper := Vector.ofFn (fun i =>
      let k := s.damper[i]
      let r := s.refillOf i.val
      { k with level := min (k.level + r) (4 * r), cap := 4 * r }) }

/-- R544: the heat of a request. -/
def LeaveReq.cost : LeaveReq → Nat
  | .context _ c => c
  | .bellows _ => 2000
  | .engine | .sign | .handshake _ _ => 20000

/-- A request receives its leave, and what waited for it goes on. -/
def State.leaveGranted (s : State) : LeaveReq → State
  | .context ctx c => match s.bankOf ctx with
    | some b => s.wakeBank { b with leave := some c }
    | none => s
  | .bellows c => { s with chans := s.chans.map (fun k =>
      if k.chan = c then { k with work := k.work.map (fun w => { w with leave := true }) } else k) }
  | .engine => { s with secOp := s.secOp.map (fun x => { x with leave := true }) }
  | .sign => { s with staged := s.staged.map (fun x => { x with leave := true }) }
  | .handshake i peer => s.handshakeGranted i.toNat peer

/-- R543: the head of a bucket's queue may have its leave: the bucket holds the cost, or the cost exceeds four refills and the
bucket is full. -/
def Bucket.allows (k : Bucket) (cost : Nat) : Bool :=
  decide ((cost : Int) ≤ k.level) || (decide (k.cap < cost) && decide ((k.cap : Int) ≤ k.level))

/-- R543: the damper grants leave to the head of a bucket's queue, when it grants and the bucket allows. -/
def State.damperGrant (s : State) (i : Nat) : State :=
  match s.damper[i]? with
  | none => s
  | some k => match k.queue with
    | [] => s
    | r :: t =>
      if s.mantel.granting && k.allows r.cost then
        { s with damper := s.damper.setIfInBounds i { k with level := k.level - r.cost, queue := t } }.leaveGranted r
      else s

/-! ## Power -/

/-- A page that stays powered with the Mantel: DEV, MAN, CLK, PWR, RST and ASH. -/
def mantelSlot (slot : Nat) : Bool := decide (slot < 6)

/-- The registers that pass a test, each reduced to the bits a mask gives. -/
def State.keepRegs (s : State) (mask : Nat → Nat → Nat) : List (Nat × Word) :=
  s.regs.filterMap (fun (k, v) =>
    let r := (regReset k).toNat
    let m := mask (k / 4096) (k % 4096)
    let w : Word := BitVec.ofNat 64 (r - (r &&& m) + (v.toNat &&& m))
    if w = regReset k then none else some (k, w))

/-- A whole register. -/
abbrev allBits : Nat := 2 ^ 64 - 1

/-- An address of far memory. -/
def isFar (a : Nat) : Bool :=
  match rangeOf a with
  | .far _ => true
  | .near | .hob | .reg | .rom | .door | .none => false

/-- The modified lines that nothing has written back are lost: what lies beneath them stands. -/
def State.loseModified (s : State) : State :=
  { s.dirty.foldl (fun s m => s.poke (m.line * 64) m.old) s with dirty := [] }

/-- Everything outside the always-on domain loses its contents (R550, R551): what is left is the Mantel's own pages, the D bits
(R49), far memory in its devices, and what the model keeps of the outside. -/
def State.corelose (s : State) : State :=
  let s := s.loseModified
  { State.reset with
    pending := s.pending
    mem := s.mem.filter (fun e => isFar e.1)
    regs := s.keepRegs (fun k o => if mantelSlot k then allBits else dMask k o)
    lines := { State.reset.lines with poison := s.lines.poison.filter (fun l => isFar (l * 64)) }
    ash := s.ash
    boot := s.boot
    enrolled := s.enrolled
    fuses := s.fuses
    mantel := { s.mantel with core := false }
    fresh := s.fresh
    out := s.out }

/-- R550: a forced power-down with its cause, as the ash log has it. -/
def State.forceDown (s : State) (cause : Nat) : State :=
  if s.mantel.down || !s.mantel.vsb then s
  else
    let s := s.ashLog 0x85 Slot.pwr none none 0 cause
    let s := s.corelose
    ({ s with mantel := { s.mantel with down := true } } : State).setFld Slot.rst Off.RST.RSTCAUSE 8 4 7

/-- The low half of SERIAL, which keys of registers must equal. -/
def State.serialKey (s : State) : Nat := s.fld Slot.dev Off.DEV.SERIAL 0 32

/-- PWRCMD.OFF. -/
def State.powerCommand (s : State) (key : Nat) : State := if key = s.serialKey then s.forceDown 2 else s

/-- BROWN.MV as it counts. -/
def State.brownMv (s : State) : Nat := max 2500 (min 2700 (s.fld Slot.pwr Off.PWR.BROWN 0 12))

/-- A context that waits for leave leaves its flue (R546, R273), but in open timing (R289). -/
def State.leavesFlue (s : State) (b : Bank) : Bank :=
  match b.wait with
  | some (.leave _) => if s.openTiming b.stove then b else { b with flue := none }
  | some (.ext _) | some .reserved | some (.event _ _) | some (.dura _) | none => b

/-- R546: VIN has stayed at a value for 2 µs: below BROWN.MV the damper stops granting. -/
def State.brownout (s : State) (mv : Nat) : State :=
  if mv < s.brownMv ∧ s.mantel.granting then
    let off := (s.banks.filter (fun b => b.flue.isSome && (s.leavesFlue b).flue.isNone)).map (·.ctx)
    let s := { s with
      mantel := { s.mantel with granting := false }
      banks := s.banks.map s.leavesFlue
      order := { s.order with bound := s.order.bound.filter (fun c => !off.contains c) } }
    (s.setErr Slot.pwr Off.PWR.PWRERR 0).ashLog 0x83 Slot.pwr none none 0 mv
  else s

/-- R546: VIN has stayed at a value for 100 µs: above BROWN.MV + 100 mV granting resumes. -/
def State.brownRecovery (s : State) (mv : Nat) : State :=
  if mv > s.brownMv + 100 then { s with mantel := { s.mantel with granting := true } } else s

/-- R546: VIN has stayed at a value for 10 µs, or (none) a rail has left regulation. -/
def State.railFail (s : State) (mv : Option Nat) : State :=
  if s.mantel.core && (mv.map (fun v => decide (v < 2450))).getD true then
    (s.setErr Slot.pwr Off.PWR.PWRERR 3).forceDown 4
  else s

/-- R537: the reference fails, or the root PLL loses lock: holdover. -/
def State.refLoss (s : State) (unlock : Bool) : State :=
  if !s.flag Slot.clk Off.CLK.CLKSTS 1 then s
  else
    let s := if unlock then s else s.setFlag Slot.clk Off.CLK.CLKSTS 0 false
    let s := (s.setFlag Slot.clk Off.CLK.CLKSTS 1 false).setFlag Slot.clk Off.CLK.CLKSTS 2 true
    (s.setErr Slot.clk Off.CLK.CLKERR (if unlock then 1 else 0)).ashLog 0x82 Slot.clk none none 0 (if unlock then 2 else 1)

/-- R537: lock returns and the PLL leaves holdover. -/
def State.relock (s : State) : State :=
  if s.flag Slot.clk Off.CLK.CLKSTS 2 then s.setFld Slot.clk Off.CLK.CLKSTS 0 3 3 else s

/-- R537: holdover has lasted beyond HOLDMS. -/
def State.holdoverExpiry (s : State) : State :=
  if s.flag Slot.clk Off.CLK.CLKSTS 2 then
    let lost := !s.flag Slot.clk Off.CLK.CLKSTS 0
    (s.ashLog 0x82 Slot.clk none none 0 ((if lost then 1 else 2) + 4)).forceDown 3
  else s

/-! ## Thermal control -/

/-- The sensors in order: hearths 0 to 7, base die 0 to 3, in °C. -/
def sensorTemps (r : Readings) : List Int := r.hearths.toList.map (·.toInt) ++ r.bases.toList.map (·.toInt)

/-- TSET as it counts. -/
def State.tset (s : State) : Nat := max 85 (min 105 (s.fld Slot.pwr Off.PWR.TSET 0 8))

/-- R547: the duty of a hearth after a sample, in eighths. -/
def nextDuty (tset : Nat) (own : Int) (bases : List Int) (d : Nat) : Nat :=
  let gov := own :: bases
  if gov.any (fun t => decide (t > tset)) then max 1 (d - 1)
  else if gov.all (fun t => decide (t < (tset : Int) - 2)) then min 8 (d + 1)
  else d

/-- The position of the first greatest member of a list. -/
def firstHottest (ts : List Int) : Nat :=
  (ts.zipIdx.foldl (fun (best : Int × Nat) (x : Int × Nat) => if x.1 > best.1 then x else best) (ts.headD 0, 0)).2

/-- R547: the readings as registers show them. -/
def State.showReadings (s : State) (r : Readings) : State :=
  let at8 (l : List (BitVec 8)) : Nat := leNat l
  let hot := firstHottest (sensorTemps r)
  let s := s.setReg Slot.pwr Off.PWR.HTEMP0 (at8 r.hearths.toList)
  let s := s.setReg Slot.pwr Off.PWR.HTEMP1 (at8 r.bases.toList)
  let s := s.setReg Slot.pwr Off.PWR.VINMON r.vin.toNat
  s.setReg Slot.pwr Off.PWR.THERM (((r.hearths.toList ++ r.bases.toList)[hot]?.map (·.toNat)).getD 0 + hot * 2 ^ 8)

/-- R547, R548: the Mantel reads the sensors and sets the duties. -/
def State.thermal (s : State) (r : Readings) : State :=
  if !s.mantel.vsb then s
  else
    let s := s.showReadings r
    let tooHot := (sensorTemps r).any (fun t => decide (t > 105))
    let bases := r.bases.toList.map (·.toInt)
    let duty (h : Nat) : Nat :=
      if tooHot then 1 else nextDuty s.tset ((r.hearths.toList[h]?.map (·.toInt)).getD 0) bases (s.fld Slot.pwr Off.PWR.THROTTLE (4 * h) 4)
    let word := ((List.range 8).map (fun h => duty h * 2 ^ (4 * h))).sum
    let low := (List.range 8).any (fun h => decide (duty h < 8))
    let s := s.setReg Slot.pwr Off.PWR.THROTTLE word
    let s := if low then s.setErr Slot.pwr Off.PWR.PWRERR 1 else s
    let was := s.mantel.hot
    let s := { s with mantel := { s.mantel with hot := tooHot } }
    if tooHot then
      let s := s.setErr Slot.pwr Off.PWR.PWRERR 2
      if was then s else s.ashLog 0x84 Slot.pwr none none 0 (s.reg Slot.pwr Off.PWR.THERM)
    else s

/-- R548: a sensor has stayed above 105 °C for 10 ms. -/
def State.overtemp (s : State) : State := if s.mantel.hot then s.forceDown 5 else s

/-- R549: the comparator trips at 115 °C. -/
def State.thermalTrip (s : State) : State :=
  if s.mantel.vsb then
    let s := s.corelose
    { s with mantel := { s.mantel with tripped := true } }
  else s

/-! ## The ash log -/

/-- R579: ASHCMD.CLEAR. -/
def State.ashClear (s : State) (key : Nat) : State :=
  if key = s.serialKey then { s with ash := { entries := [], next := 0, frozen := false, dropped := 0 } } else s

end Sys2Proof.Machine
end

