-- ==== Sys2Proof/Machine/Boot.lean ====
section
/-!
DEFINITION. Boot images (R506 to R510), the Ember load (R511), start-up (R555, R556, R558) and its continuation by a recovery image
(R510) or a configuration record (R517).
-/

namespace Sys2Proof.Machine

/-! ## Boot images -/

/-- R507: a component of an image: its offset, length and digest. -/
structure Component where
  off    : Nat
  len    : Nat
  digest : List Byte
  deriving DecidableEq, Repr

/-- R507: the component a header describes at an offset. -/
def component (img : List Byte) (o : Nat) : Component :=
  { off := leNat (sliceBytes img o 8), len := leNat (sliceBytes img (o + 8) 8), digest := sliceBytes img (o + 16) 32 }

/-- The Mantel firmware, the Ember image and the supervisor loader of an image. -/
def kindlingOf (img : List Byte) : Component := component img 0x10
/-- The Ember image. -/
def emberOf (img : List Byte) : Component := component img 0x40
/-- The supervisor loader. -/
def loaderOf (img : List Byte) : Component := component img 0x70

/-- The bytes of a component. -/
def Component.bytes (c : Component) (img : List Byte) : List Byte := sliceBytes img c.off c.len

/-- R506: the space a slot gives an image. -/
abbrev slotSpace : Nat := 0x2000000 - 0x10000

/-- R508 0x02: the fixed fields, the reserved bytes, and components that lie within the slot with the lengths of R507. -/
def headerForm (img : List Byte) : Bool :=
  let fits (c : Component) (most : Nat) : Bool := decide (1 ≤ c.len ∧ c.len ≤ most ∧ c.off + c.len ≤ slotSpace)
  512 ≤ img.length && leNat (img.take 8) == 0x00A1000180640001 && leNat (sliceBytes img 0x121 7) == 0
    && leNat (sliceBytes img 0x1A8 88) == 0 && fits (kindlingOf img) 0x100000 && fits (emberOf img) 0x40000
    && (emberOf img).len % 16 == 0 && fits (loaderOf img) 0x1000000

/-- R508 0x05: the signer is the vendor and the policy lets it sign, or an enrolled owner whose key it is. -/
def State.signerOk (s : State) (img : List Byte) : Bool :=
  let signer := leNat (sliceBytes img 0x120 1)
  let spub := sliceBytes img 0x128 64
  if signer = 0xFF then spub == sliceBytes img 0xA0 64 && s.flag Slot.rst Off.RST.BOOTPOL 3
  else decide (signer < 4) && s.flag Slot.sec Off.SEC.ENROL (16 + signer) && s.digestOf (16 + signer) == sm3 spub

/-- R508: the first check that an image fails; 0 when it is accepted. `svn` is whether check 0x07 is made (R512 leaves it out). -/
def State.imageCheck (s : State) (present svn : Bool) (img : List Byte) : Nat :=
  let vpub := sliceBytes img 0xA0 64
  let whole (c : Component) : Bool := sm3 (c.bytes img) == c.digest
  if !present then 1
  else if !headerForm img then 2
  else if sm3 vpub ≠ vecBytes 32 s.fuses.vendor then 3
  else if !sm2Verify vpub (img.take 0x70) (sliceBytes img 0xE0 64) then 4
  else if !s.signerOk img then 5
  else if !sm2Verify (sliceBytes img 0x128 64) (img.take 0x128) (sliceBytes img 0x168 64) then 6
  else if svn ∧ leNat (sliceBytes img 8 4) < s.fld Slot.rst Off.RST.BOOTPOL 16 32 then 7
  else if !(whole (kindlingOf img) && whole (emberOf img) && whole (loaderOf img)) then 8
  else 0

/-- R509, R510: the slots to try, in order (0 A, 1 B). -/
def State.slotOrder (s : State) (bootsel : Nat) : List Nat :=
  let order := s.fld Slot.rst Off.RST.BOOTPOL 0 2
  let allowed : List Nat := if order = 2 then [0] else if order = 3 then [1] else if order = 1 then [1, 0] else [0, 1]
  let strap := s.flag Slot.rst Off.RST.BOOTPOL 2
  let first := if strap ∧ bootsel = 1 then some 0 else if strap ∧ bootsel = 2 then some 1 else none
  match first with
  | none => allowed
  | some f => f :: allowed.filter (· != f)

/-- The result of R508 for a slot. -/
def State.slotCheck (s : State) (i : Nat) : Nat :=
  match s.mantel.flash[i]? with
  | some f => s.imageCheck f.present true f.image
  | none => 1

/-- BOOTSTS: set the failure code of a slot. -/
def State.slotFail (s : State) (i c : Nat) : State := s.setFld Slot.emb Off.EMB.BOOTSTS (8 + 8 * i) 8 c

/-- R508, R510: try slots in order; the accepted slot, if any. -/
def State.trySlots (s : State) : List Nat → State × Option Nat
  | [] => (s, none)
  | i :: t =>
    let c := s.slotCheck i
    let s := s.slotFail i c
    if c = 0 then (s, some i) else (s.setFlag Slot.emb Off.EMB.BOOTSTS 2 true).trySlots t

/-! ## Start-up -/

/-- BOOTSTEP.STEP. -/
def State.bootStep (s : State) (n : Nat) : State := s.setReg Slot.rst Off.RST.BOOTSTEP n

/-- R558: start-up stops. -/
def State.bootHalt (s : State) (step fail : Nat) : State :=
  let s := s.setReg Slot.rst Off.RST.BOOTSTEP (step + fail * 2 ^ 4 + 2 ^ 12)
  s.ashLog 0x87 Slot.rst none none 0 (s.reg Slot.rst Off.RST.BOOTSTEP)

/-- Whether the start-up in progress follows a cold reset. -/
def State.coldBoot (s : State) : Bool := s.fld Slot.rst Off.RST.RSTCAUSE 0 3 == 4

/-- The image that was accepted, from its slot or from recovery. -/
def State.bootImage (s : State) : List Byte :=
  if s.flag Slot.emb Off.EMB.BOOTSTS 1 then (s.mantel.recovery.map (·.2))
  else match s.mantel.flash[s.fld Slot.emb Off.EMB.BOOTSTS 0 1]? with
    | some f => f.image
    | none => []

/-- Zero a range of near memory with the device's own writes: the bytes, and the poison of its lines. -/
def State.zeroRange (s : State) (a n : Nat) : State :=
  { s with
    mem := s.mem.filter (fun e => !(decide (a ≤ e.1) && decide (e.1 < a + n)))
    lines := { s.lines with poison := s.lines.poison.filter (fun l => !(decide (a ≤ l * 64) && decide (l * 64 < a + n))) } }

/-- Release a page: EN 1, QREQ and QACK 0. -/
def State.releasePage (s : State) (slot : Nat) : State :=
  (s.setReg slot Off.PAGE.CTL 1).setFlag slot Off.PAGE.STS 0 false

/-- R556: a handler PSW of context 0, and the PSW in its spill frame. -/
def loaderPsw (ia : Nat) (mcm : Bool) : Psw :=
  { Psw.zero with ia := BitVec.ofNat 64 ia, sup := true, mcm := mcm }

/-- R556: the spill frame of context 0. -/
def State.loaderFrame (s : State) : List Byte :=
  let body := spliceBytes (zeros 1024) 0x290 (leBytes 16 (loaderPsw 0x4000000 true).toNat)
  s.sealed 0 (frameHeader 0 0 (descWord 0xFF 0xFF 1 false) 0 0 0 ++ body.drop 64)

/-- R556: build the loader area for the loader's stove. -/
def State.loaderArea (s : State) (stove : Nat) (loader : List Byte) : State :=
  let s := s.zeroRange 0 0x2000000
  let s := s.poke 0 (leBytes 8 0x2000000 ++ leBytes 8 (7 + 2 ^ (8 + stove / 8)) ++ zeros 8 ++ leBytes 8 (stateWord St.stopped 0 0))
  let s := s.zeroRange 0x2000000 0x3000
  let s := s.poke 0x2000B40 ((List.range 8).flatMap (fun _ => leBytes 16 (loaderPsw 0x4000010 false).toNat))
  let s := s.pokeN 0x2000B10 8 0x2002000
  let s := s.pokeN 0x2000B18 8 1
  let s := s.poke 0x2002000 s.loaderFrame
  let s := s.zeroRange 0x3000000 0x20000
  let s := (s.zeroRange 0x4000000 (ceilDiv loader.length 64 * 64)).poke 0x4000000 loader
  let s := s.setReg Slot.grt Off.GRT.CDBASE 0
  let s := s.setReg Slot.grt Off.GRT.WGBASE 0x3000000
  s.setReg Slot.grt Off.GRT.DUMPBASE 0x3200000

/-- R555 step 7: the loader area, the loader's stove and context 0. -/
def State.boot7 (s : State) : State :=
  let s := s.bootStep 7
  match (List.range 64).find? (fun n => !s.flag (Slot.stv n) Off.STV.STATUS 0) with
  | none => s.bootHalt 7 7
  | some n =>
    let img := s.bootImage
    let s := s.loaderArea n ((loaderOf img).bytes img)
    let s := ((s.releasePage Slot.grt).releasePage (Slot.hrtA (n / 8))).releasePage (Slot.stv n)
    s.ctxStart 0

/-- R555 step 6, R414, R415: the channels train; near memory initialises after a cold reset. -/
def State.boot6 (s : State) : State :=
  let s := s.bootStep 6
  let s := s.setFlag Slot.nmc Off.NMC.NMSTS 0 true
  let bad := s.mantel.env.channels.toNat
  let s := ((List.range 40).filter (bitAt bad)).foldl State.failChannel s
  if s.fld Slot.nmc Off.NMC.NMSTS 8 8 = 0xFF then s.bootHalt 6 6
  else
    let s := if s.coldBoot then
        { s with
          mem := s.mem.filter (fun e => rangeOf e.1 != .near)
          lines := { s.lines with keys := [], epoch := [], keyLost := s.lines.keyLost.filter (fun f => isFar (f * 4096)),
                                  poison := s.lines.poison.filter (fun l => isFar (l * 64)) } }
      else s
    ((s.setFlag Slot.nmc Off.NMC.NMSTS 1 true).releasePage Slot.nmc).boot7

/-- R555 step 5, R511: the Ember load; a stove whose load fails locks up. -/
def State.boot5 (s : State) : State :=
  let s := s.bootStep 5
  let bad := s.mantel.env.embers.toNat
  let s := s.setReg Slot.emb Off.EMB.LOCKED (2 ^ 64 - 1 - bad)
  let s := s.setDigestRegs Slot.emb Off.EMB.EMBDIG0 (sm3 s.mantel.ember)
  let h := s.mantel.header
  let s := s.setReg Slot.emb Off.EMB.IMAGE (leNat (sliceBytes h 0xC 4) + leNat (sliceBytes h 8 4) * 2 ^ 32)
  let s := ((List.range 64).filter (bitAt bad)).foldl (fun s n => s.lockStove (BitVec.ofNat 6 n) none (5 + 0xF * 2 ^ 4) 0) s
  s.boot6

/-- R517: the record of the first copy that qualifies. -/
def State.qualifies (s : State) : Option (List Byte) :=
  let f := s.mantel.flash[s.cfgFlash]
  if !f.present then none
  else if s.copyOk f.copy0 then some (f.copy0.take 1536)
  else if s.copyOk f.copy1 then some (f.copy1.take 1536) else none

/-- R517, R49: put a sealed configuration in force and go on with step 5. -/
def State.bootSealed (s : State) (rec' : List Byte) : State :=
  let s := s.applyRecord rec'
  (sealedPages.foldl (fun s k => s.setFlag k Off.PAGE.LOCK 0 true) s).boot5

/-- R555 step 4: the seal key after a cold reset, and the sealed configuration. -/
def State.boot4 (s : State) : State :=
  let s := s.bootStep 4
  let ok := s.mantel.env.random
  let s := if ok then s.rngPass else s.rngFail
  if s.coldBoot && !ok then s.bootHalt 4 4
  else
    let s := if s.coldBoot then { s with sealKey := BitVec.ofNat 128 (Config.random s.fresh).toNat, fresh := s.fresh + 1 } else s
    match s.qualifies with
    | some r => s.bootSealed r
    | none => s.bootHalt 4 5

/-- R508, R511, R514: keep the accepted header, the Ember image and the digests, and go on with step 4. -/
def State.bootAccept (s : State) (img : List Byte) : State :=
  let digests := sm3 ((kindlingOf img).bytes img) ++ sm3 ((emberOf img).bytes img) ++ sm3 ((loaderOf img).bytes img)
  let s := { s with mantel := { s.mantel with header := img.take 512, ember := (emberOf img).bytes img, digests := digests } }
  (s.setFld Slot.man Off.MAN.CORESTS 0 2 3).boot4

/-- R555 step 3: the image. With BOOTSEL 0b11 the ROM waits for a recovery image. -/
def State.boot3 (s : State) : State :=
  let s := s.bootStep 3
  let s := s.setReg Slot.emb Off.EMB.BOOTSTS (9 * 2 ^ 8 + 9 * 2 ^ 16)
  let s := { s with mantel := { s.mantel with recovery := [] } }
  let sel := s.mantel.env.bootsel.toNat
  if sel = 3 then s
  else match s.trySlots (s.slotOrder sel) with
    | (s, none) => s.bootHalt 3 3
    | (s, some i) =>
      let s := s.setFlag Slot.emb Off.EMB.BOOTSTS 0 (i == 1)
      s.bootAccept s.bootImage

/-- R555 steps 2 to 7: VIN is valid and PORST_N high. `flash` is what the boot flash holds, when it is not what it held. -/
def State.powerUp (s : State) (env : BootEnv) (flash : Option (Flash × Flash)) : State :=
  if !s.mantel.vsb || s.mantel.core || s.mantel.down || s.mantel.tripped || s.flag Slot.rst Off.RST.BOOTSTEP 12 then s
  else
    let s := { s with mantel := { s.mantel with
      env := env
      granting := true
      flash := match flash with
        | some (a, b) => #v[a, b]
        | none => s.mantel.flash } }
    let s := s.bootStep 2
    if !env.rails then (s.setErr Slot.pwr Off.PWR.PWRERR 3).bootHalt 2 1
    else if !env.lock then (s.setErr Slot.pwr Off.PWR.PWRERR 3).bootHalt 2 2
    else
      let s := { s with mantel := { s.mantel with core := true } }
      (s.setReg Slot.clk Off.CLK.CLKSTS 0xB).boot3

/-! ## Continuing a start-up that waits -/

/-- R510: a chunk of the recovery image at an offset; with the last chunk the image is checked. The Bool is whether it was
accepted. -/
def State.recoveryChunk (s : State) (off : Nat) (last : Bool) (data : List Byte) : State × Bool :=
  let keep := s.mantel.recovery.filter (fun e => !(decide (off ≤ e.1) && decide (e.1 < off + data.length)))
  let new := data.zipIdx.foldl (fun m (b, i) => SMap.insert m (off + i) b) keep
  let s := { s with mantel := { s.mantel with recovery := new } }
  if !last then (s, true)
  else
    let img := new.map (·.2)
    let dense := (new.map (·.1)) == List.range new.length
    if dense ∧ s.imageCheck true true img = 0 then
      ((s.setFlag Slot.emb Off.EMB.BOOTSTS 1 true).bootAccept img, true)
    else ({ s with mantel := { s.mantel with recovery := [] } }, false)

/-- R517: while step 4 is stopped without a record, one that matches the store is accepted and start-up continues. -/
def State.acceptRecord (s : State) (rec' : List Byte) : State × Bool :=
  let d : BitVec 256 := BitVec.ofNat 256 (leNat (sm3 rec'))
  if d = s.mantel.nvDigest ∧ copyCseq rec' = s.mantel.nvSeq.toNat then
    let (s, sig) := s.sign (sm3 rec')
    let s := { s with mantel := { s.mantel with signed := (d, BitVec.ofNat 512 (leNat sig)) :: s.mantel.signed } }
    (((s.writeCopy false (rec' ++ sig)).writeCopy true (rec' ++ sig)).bootSealed rec', true)
  else (s, false)

end Sys2Proof.Machine
end

