-- ==== Sys2Proof/Machine/Reset.lean ====
section
/-!
DEFINITION. Resets (R551 to R554, R346, R372), the scan-dump command (R565), re-kindling (R512, R513) and release (R557).
-/

namespace Sys2Proof.Machine

/-! ## Re-kindling -/

/-- R512: the retained copy verifies. -/
def State.retainedOk (s : State) : Bool :=
  let h := s.mantel.header
  sm2Verify (sliceBytes h 0xA0 64) (h.take 0x70) (sliceBytes h 0xE0 64) && sm3 s.mantel.ember == (emberOf h).digest

/-- R512: the image of the slot that was booted, when it still passes. -/
def State.rereadImage (s : State) : Option (List Byte) :=
  if s.flag Slot.emb Off.EMB.BOOTSTS 1 then none
  else match s.mantel.flash[s.fld Slot.emb Off.EMB.BOOTSTS 0 1]? with
    | none => none
    | some f => if s.imageCheck f.present false f.image = 0 then some f.image else none

/-- R512 step 2: the state with a verifying retained copy, or none when no copy verifies. -/
def State.verifyRetained (s : State) : Option State :=
  if s.retainedOk then some s
  else s.rereadImage.map (fun img =>
    { s with mantel := { s.mantel with header := img.take 512, ember := (emberOf img).bytes img } })

/-- R512 steps 2 to 4: the store is loaded again, or the stove locks up with KIND 0x5. -/
def State.rekindle (s : State) (r : Rekindle) : State :=
  let n := r.stove.toNat
  match (if r.reload = .good then s.verifyRetained else none) with
  | some s =>
    let s := s.setFlag Slot.emb Off.EMB.LOCKED n true
    let s := s.incSat (Slot.stv n) Off.STV.EMBREK 0 16 1
    s.ashLog 0x23 Slot.emb (some n) none 0 r.upc.toNat
  | none =>
    let s := s.setFlag Slot.emb Off.EMB.LOCKED n false
    let s := s.ashLog 0x23 Slot.emb (some n) none 0 (r.upc.toNat + 2 ^ 16)
    s.lockStove r.stove none (5 + 0xF * 2 ^ 4) 0

/-- R512 step 1 for one context: the instruction in progress is discarded to its last commit, and its leave returned. A context
that waits for an event keeps waiting. -/
def State.discardWork (s : State) (b : Bank) : State :=
  match b.wait with
  | some (.event _ _) | some (.dura _) => s
  | some (.ext _) | some (.leave _) | some .reserved | none =>
    let s := s.abandon b.ctx
    let s := match b.leave with
      | some c => s.returnLeave (hearthOf b.stove) c
      | none => s
    let b' := { b with leave := none, wdrawn := none, wait := none, resume := 0, saved := none }
    if b.wait.isSome then s.wakeBank b' else s.putBank b'

/-- R512 step 1: a microword's parity fails, or REKCMD says so. -/
def State.parityError (s : State) (r : Rekindle) : State :=
  let page := Slot.stv r.stove.toNat
  let s := (s.incSat page Off.STV.EMBPAR 0 16 1).setFld page Off.STV.EMBPAR 16 14 r.upc.toNat
  let s := (s.banks.filter (·.stove == r.stove)).foldl State.discardWork s
  if s.blockOn Slot.emb && s.rekindles.isEmpty then s.rekindle r else { s with rekindles := s.rekindles ++ [r] }

/-- R513: the re-kindles that waited run, one stove at a time. -/
def State.runRekindles (s : State) : State := s.rekindles.foldl State.rekindle { s with rekindles := [] }

/-! ## The scan-dump -/

/-- R565: a dump of a stove; the Bool is whether it was refused. -/
def State.dumpCommand (s : State) (stove : BitVec 6) : State × Bool :=
  if s.flag (Slot.stv stove.toNat) Off.STV.STATUS 0 then (s.dump stove, false) else (s, true)

/-! ## Stove and hearth resets -/

/-- A page back at its reset values, but for SCRATCH, D bits and `keep`. -/
def State.resetPage (s : State) (slot : Nat) (keep : Nat → Nat) : State :=
  { s with
    regs := s.keepRegs (fun k o => if k ≠ slot then allBits else if o = Off.PAGE.SCRATCH then allBits else dMask k o ||| keep o)
    regsQ := s.regsQ.filter (fun e => e.1 / 4096 != slot) }

/-- R553 step 2, R346: the contexts of a stove: spilled, or discarded and held with HREASON 0x6. -/
def State.emptyStove (s : State) (stove : BitVec 6) : State :=
  let locked := s.flag (Slot.stv stove.toNat) Off.STV.STATUS 0
  (s.banks.filter (·.stove == stove)).foldl (fun s b0 =>
    match s.bankOf b0.ctx with
    | none => s
    | some b =>
      let b := { b with flue := none }
      if locked then ((s.dropEmber b.ctx).hold b.ctx 6).releaseBank b
      else match (s.putBank b).spillQuar b none with
        | (s, true) => if s.st b.ctx = St.ready then s.toReady b.ctx else s
        | (s, false) => (s.hold b.ctx 6).releaseBank b) s

/-- R512, R551: a stove locked with KIND 0x5 re-kindles before its reset; a re-kindle in progress ends first (R552). -/
def State.rekindleFirst (s : State) (stove : BitVec 6) : State :=
  let mine := s.rekindles.filter (·.stove == stove)
  let s := mine.foldl State.rekindle { s with rekindles := s.rekindles.filter (·.stove != stove) }
  if s.fld (Slot.stv stove.toNat) Off.STV.LOCKCAUSE 0 4 = 5 then s.rekindle { stove := stove, upc := 0, reload := .good } else s

/-- R553 step 4: a page is held in reset for 10 µs. -/
def State.holdInReset (s : State) (slot : Nat) : State :=
  { s.setFlag slot Off.PAGE.STS 4 true with resets := (slot, 10) :: s.resets.filter (·.1 != slot) }

/-- R553 step 4: a page leaves its reset Held, whatever was written to its header meanwhile. -/
def State.leaveReset (s : State) (slot : Nat) : State :=
  { (s.setReg slot Off.PAGE.CTL 2).setReg slot Off.PAGE.STS 1 with regsQ := s.regsQ.filter (fun e => e.1 / 4096 != slot) }

/-- R553 step 4: a µs passes for the pages held in reset. RSTSTS.BUSY shows 0 once none is. -/
def State.ageResets (s : State) : State :=
  let ended := s.resets.filter (fun x => decide (x.2 ≤ 1))
  let left := s.resets.filterMap (fun x => if x.2 ≤ 1 then none else some (x.1, x.2 - 1))
  let s := ended.foldl (fun s x => s.leaveReset x.1) ({ s with resets := left } : State)
  if s.resets.isEmpty then s.setFlag Slot.rst Off.RST.RSTSTS 0 false else s

/-- R542, R553, R443: what a µs brings: the damper refills, resets end, and pauses of transmission end. -/
def State.microsecond (s : State) : State := ((s.damperRefill.ageResets).agePauses 1000000).flushTx

/-- R346, R372, R553: one stove goes through its reset. A stove whose store cannot be loaded stays locked. -/
def State.resetStovePart (s : State) (stove : BitVec 6) : State :=
  let n := stove.toNat
  let s := s.emptyStove stove
  let s := s.rekindleFirst stove
  let s := { s with lines := { s.lines with cover := s.lines.cover.filter (·.stove != stove) } }
  let dead := s.fld (Slot.stv n) Off.STV.LOCKCAUSE 0 4 == 5 && !s.flag Slot.emb Off.EMB.LOCKED n
  let s := s.resetPage (Slot.stv n) (fun o =>
    if o = Off.STV.EMBREK then allBits
    else if dead ∧ (o = Off.STV.STATUS ∨ o = Off.STV.LOCKCAUSE ∨ o = Off.STV.LOCKADDR) then allBits else 0)
  let s := s.setFlag (Slot.hrtA (n / 8)) Off.HRTA.HSTS (n % 8) dead
  let s := s.setFlag (Slot.hrtA (n / 8)) Off.HRTA.HSTS (8 + n % 8) false
  (s.emptyFetch stove).holdInReset (Slot.stv n)

/-- R553: a stove reset. -/
def State.resetStove (s : State) (stove : BitVec 6) : State :=
  (s.resetStovePart stove).incSat Slot.rst Off.RST.COUNTS 48 16 1

/-- R553: a hearth reset. -/
def State.resetHearth (s : State) (h : BitVec 3) : State :=
  let n := h.toNat
  let s := (List.range 8).foldl (fun s i => s.emptyStove (BitVec.ofNat 6 (8 * n + i))) s
  let s := s.wbinv n []
  let s := (List.range 8).foldl (fun s i => s.resetStovePart (BitVec.ofNat 6 (8 * n + i))) s
  let hsts := s.reg (Slot.hrtA n) Off.HRTA.HSTS
  let s := (s.resetPage (Slot.hrtA n) (fun _ => 0)).resetPage (Slot.hrtB n) (fun _ => 0)
  let s := s.setReg (Slot.hrtA n) Off.HRTA.HSTS hsts
  let s := ({ s with damper := s.damper.setIfInBounds n Bucket.reset } : State).holdInReset (Slot.hrtA n)
  s.incSat Slot.rst Off.RST.COUNTS 32 16 1

/-! ## Device resets -/

/-- RSTCAUSE.SOURCE of a reset. -/
inductive ResetBy where
  | vsb | porst | warmN | rstcmd | mgmt (i : Iface)
  deriving DecidableEq, Repr

/-- The encoding of a source. -/
def ResetBy.code : ResetBy → Nat
  | .vsb => 0 | .porst => 1 | .warmN => 2 | .rstcmd => 3
  | .mgmt .i3c => 4 | .mgmt .uart => 5 | .mgmt .jtag => 6

/-- The fuses of the DEV page. -/
def fusedReg (slot off : Nat) : Bool := slot == Slot.dev && decide (Off.DEV.DIELO0 ≤ off ∧ off ≤ Off.DEV.STEP)

/-- R551, R49: the register bits that a cold reset keeps: fuses, D bits and the reset counts. -/
def coldKeep (slot off : Nat) : Nat :=
  if fusedReg slot off ∨ (slot = Slot.rst ∧ off = Off.RST.COUNTS) then allBits else dMask slot off

/-- R549: a cold reset is refused after a thermal trip while a sensor still reads above 105 °C. -/
def State.coldRefused (s : State) : Bool := s.mantel.tripped && s.mantel.hot

/-- R551, R48, R533: a cold reset; start-up stands at step 2 until the core rails come up. -/
def State.coldReset (s : State) (by' : ResetBy) : State :=
  if s.coldRefused || !s.mantel.vsb then s
  else
    let s := s.corelose
    let m := s.mantel
    let s := { s with
      regs := s.keepRegs coldKeep
      boot := true
      mantel := { Mantel.reset with
        hot := m.hot, ticks := m.ticks, header := m.header, ember := m.ember, nvSeq := m.nvSeq, nvDigest := m.nvDigest,
        nvWrites := m.nvWrites, signed := m.signed, flash := m.flash, env := m.env } }
    let s := (s.bootStep 2).setReg Slot.rst Off.RST.RSTCAUSE (4 + by'.code * 2 ^ 8)
    s.incSat Slot.rst Off.RST.COUNTS 0 16 1

/-- R554: a modified line is written back; a failure is logged and no context is told. -/
def State.flushLine (s : State) (m : ModLine) : State :=
  let a := m.line * 64
  let s := s.giveUp m.line
  let far := rangeOf a != .near
  if s.populated .load a then (if far then s else s.setEpoch m.line)
  else
    let d : LateFlags := { far := far, unpop := true, rmw := false }
    let ctx := if m.bel then none else some m.ctx.toNat
    (s.poke a m.old).ashLog 0x33 Slot.nmc (if m.bel then none else some m.stove.toNat) ctx a (d.detail false)

/-- R551, R554: what a warm device reset keeps of a register. -/
def warmKeep (slot off : Nat) : Nat :=
  let is (k o : Nat) : Bool := slot == k && off == o
  let whole := fusedReg slot off || off == Off.PAGE.SCRATCH
    || is Slot.man Off.MAN.TOKEN || is Slot.man Off.MAN.CORESTS || is Slot.clk Off.CLK.CLKSTS || is Slot.clk Off.CLK.TOD
    || is Slot.rst Off.RST.COUNTS || is Slot.bel Off.BEL.BYTES || is Slot.tpc Off.TPC.CSEQ || is Slot.dbg Off.DBG.DBGSTS
    || is Slot.nmc Off.NMC.CHFAIL || (0x40 ≤ slot && off == Off.STV.EMBREK)
  if whole then allBits
  else if is Slot.nmc Off.NMC.SCRUBSTS then 2 ^ 32 - 1
  else if is Slot.nmc Off.NMC.NMSTS then 0xFF04
  else if is Slot.sec Off.SEC.RNGSTS then (2 ^ 32 - 1) * 2 ^ 16
  else if off = Off.PAGE.LOCK then 0xFFFF0001
  else dMask slot off

/-- A wildcard rule with nothing left but its hits (R448). -/
def Rule.hitsOnly (r : Rule) : Rule := { value := 0, mask := 0, action := 0, hits := r.hits }

/-- R551, R554: a warm device reset; start-up runs from step 3. -/
def State.warmReset (s : State) (by' : ResetBy) : State :=
  let s := s.stores.foldl State.drainOne { s with stores := [] }
  let s := s.dirty.reverse.foldl State.flushLine s
  let m := s.mantel
  let t : State := { State.reset with
    pending := s.pending
    mem := s.mem.filter (fun e => rangeOf e.1 != .hob)
    regs := s.keepRegs warmKeep
    lines := { s.lines with cover := [], pins := [] }
    ash := s.ash
    sealKey := s.sealKey
    temps := s.temps
    charges := (s.banks.foldl (fun s b => s.chargeAway b.ctx b.charged) s).charges
    rules := s.rules.map (fun e => (e.1, e.2.hitsOnly))
    enrolled := s.enrolled
    fuses := s.fuses
    mantel := { m with granting := true, digests := [], perst := false, ppsOut := false }
    fresh := s.fresh
    out := s.out }
  let t := t.setReg Slot.rst Off.RST.RSTCAUSE (3 + by'.code * 2 ^ 8)
  (t.incSat Slot.rst Off.RST.COUNTS 16 16 1).boot3

/-- How far start-up has come: 0 while the core is off. -/
def State.bootReached (s : State) : Nat := if s.mantel.core then s.fld Slot.rst Off.RST.BOOTSTEP 0 4 else 0

/-- R552: a request dropped because a wider reset is in progress. -/
def State.dropReset (s : State) (level : Nat) : State := s.ashLog 0x86 Slot.rst none none 0 level

/-- R551, R552: a reset requested at a level: stove 1, hearth 2, warm 3, cold 4. -/
def State.requestReset (s : State) (level target : Nat) (by' : ResetBy) : State :=
  if level = 4 then s.coldReset by'
  else if !s.mantel.vsb then s
  else if level = 3 then (if s.bootReached < 3 then s.dropReset 3 else s.warmReset by')
  else if s.bootReached < 7 then s.dropReset level
  else if level = 2 then s.resetHearth (BitVec.ofNat 3 target)
  else if s.flag (Slot.hrtA (target % 64 / 8)) Off.PAGE.STS 4 then s.dropReset 1
  else s.resetStove (BitVec.ofNat 6 target)

/-- RSTSTS.REFUSED. -/
def State.rstSts (s : State) (refused : Bool) : State := s.setFlag Slot.rst Off.RST.RSTSTS 1 refused

/-- RSTSTS.BUSY: a page is held in reset. -/
def State.resetBusy (s : State) : State := if s.resets.isEmpty then s else s.setFlag Slot.rst Off.RST.RSTSTS 0 true

/-- RSTCMD. -/
def State.resetCommand (s : State) (level target key : Nat) : State :=
  if key ≠ s.serialKey ∨ level < 1 ∨ 4 < level ∨ (level = 2 ∧ 8 ≤ target) ∨ (level = 4 ∧ s.coldRefused) then s.rstSts true
  else ((s.rstSts false).requestReset level target .rstcmd).resetBusy

/-- R592: VSB has risen. -/
def State.vsbRise (s : State) : State :=
  if s.mantel.vsb then s
  else { s with mantel := { s.mantel with vsb := true } }

/-- R594: VSB falls: the always-on domain loses its contents too, and the core regulators switch off. -/
def State.vsbFall (s : State) : State :=
  let s := s.corelose
  let m := s.mantel
  { s with
    regs := s.keepRegs (fun k o => if fusedReg k o then allBits else dMask k o)
    boot := true
    ash := State.reset.ash
    mantel := { Mantel.reset with
      vsb := false, nvSeq := m.nvSeq, nvDigest := m.nvDigest, nvWrites := m.nvWrites, signed := m.signed, flash := m.flash,
      env := m.env } }

/-! ## Release -/

/-- R52: the Q fields written while a block was Quiesced take effect for the pages that pass a test. -/
def State.mergeQ (s : State) (p : Nat → Bool) : State :=
  let mine := s.regsQ.filter (fun e => p (e.1 / 4096))
  let s := mine.foldl (fun s e => s.setReg (e.1 / 4096) (e.1 % 4096) (s.withQ (e.1 / 4096) (e.1 % 4096))) s
  { s with regsQ := s.regsQ.filter (fun e => !p (e.1 / 4096)) }

/-- The pages that quiesce with a hearth (R54). -/
def hearthPage (h slot : Nat) : Bool :=
  slot == Slot.hrtA h || slot == Slot.hrtB h || (decide (Slot.stv (8 * h) ≤ slot) && decide (slot < Slot.stv (8 * h + 8)))

/-- A context leaves its flue as its hearth changes its timing mode. -/
def State.offFlue (s : State) (b : Bank) : State :=
  let s := s.putBank { b with flue := none, due := false }
  match b.wait with
  | none => s.toReady b.ctx
  | some (.event _ _) | some (.dura _) =>
    if s.order.waiting.contains b.ctx then { s with order := { s.order with bound := s.order.bound.filter (· != b.ctx) } }
    else s.toWaiting b.ctx
  | some (.ext _) | some (.leave _) | some .reserved => s.toNone b.ctx

/-- R8, R273, R289: a hearth goes on in its timing mode: in steady timing a context that waits does not keep its flue; in open timing only
flue 0 runs a context. -/
def State.leaveFlues (s : State) (h : Nat) : State :=
  let isOpen := s.flag (Slot.hrtA h) Off.HRTA.MODE 0
  let off := s.banks.filter (fun b => hearthOf b.stove == h &&
    (if isOpen then b.flue.isSome && b.flue != some 0 else b.flue.isSome && (b.wait.isSome || b.wdrawn.isSome)))
  off.foldl State.offFlue s

/-- R292: the fetch buffers of a hearth's stoves are emptied as it enters open timing. -/
def State.emptyFetches (s : State) (h : Nat) : State :=
  { s with caches := { s.caches with fetch := s.caches.fetch.filter (fun x => hearthOf x.1 != h) } }

/-- R557 step 2: a hearth leaves the boot: quiesced, TIMING 0, and released with its unlocked stoves. -/
def State.releaseHearth (s : State) (h : Nat) : State :=
  let s := (s.mergeQ (hearthPage h)).setFlag (Slot.hrtA h) Off.HRTA.MODE 0 false
  let s := s.releasePage (Slot.hrtA h)
  let s := (List.range 8).foldl (fun s i =>
    let k := Slot.stv (8 * h + i)
    if s.flag k Off.STV.STATUS 0 then s else s.releasePage k) s
  s.leaveFlues h

/-- R557: BOOTCTL.RELEASE. -/
def State.bootRelease (s : State) (hmask : Nat) : State :=
  if !s.boot then s.rstSts true
  else
    let s := { s with boot := false }.rstSts false
    (((List.range 8).filter (bitAt hmask)).foldl State.releaseHearth s).bootStep 9

end Sys2Proof.Machine
end

