-- ==== Sys2Proof/Machine/Mgmt.lean ====
section
/-!
DEFINITION. Management requests and their responses (R560 to R565).
-/

namespace Sys2Proof.Machine

/-- R561: the STATUS encodings. -/
abbrev Status.done : Nat := 0
/-- CRC or framing error. -/
abbrev Status.crc : Nat := 1
/-- Unknown OP. -/
abbrev Status.unknown : Nat := 2
/-- Bad payload. -/
abbrev Status.payload : Nat := 3
/-- Serial mismatch. -/
abbrev Status.serial : Nat := 4
/-- Not allowed in the present state. -/
abbrev Status.state : Nat := 5
/-- Busy. -/
abbrev Status.busy : Nat := 6

/-- R561: a response frame. Nothing is answered while VSB is off. -/
def State.answer (s : State) (i : Iface) (tag : BitVec 8) (status : Nat) (bytes : List Byte) : State :=
  if s.mantel.vsb then { s with out := s.out ++ [.mgmt i (BitVec.ofNat 8 status) tag bytes] } else s

/-- Answer a request. -/
def State.answerReq (s : State) (r : Mgmt) (status : Nat) (bytes : List Byte) : State := s.answer r.iface r.tag status bytes

/-- Answer with bytes, or with 0x03 when the payload is not of its length. -/
def State.answerRead (s : State) (r : Mgmt) (len : Nat) (bytes : List Byte) : State :=
  if r.payload.length = len then s.answerReq r Status.done bytes else s.answerReq r Status.payload []

/-- R562: IDENT. -/
def State.mgmtIdent (s : State) (r : Mgmt) : State :=
  s.answerRead r 0 (s.identBlock ++ vecBytes 64 s.fuses.idPub ++ vecBytes 64 s.fuses.attPub)

/-- The 32 bytes of an ash log entry. -/
def State.ashBytes (s : State) (i : Nat) : List Byte :=
  leBytes 32 (SMap.get (fun _ => (0 : BitVec 256)) s.ash.entries i).toNat

/-- R562, R579: ASHREAD. -/
def State.mgmtAshread (s : State) (r : Mgmt) : State :=
  let i := leNat r.payload
  if 1024 ≤ i then s.answerReq r Status.payload []
  else s.answerRead r 2 (s.ashBytes i ++ leBytes 2 s.ash.next ++ leBytes 4 s.ash.dropped)

/-- The 8-byte values of registers of a page. -/
def State.regBytes (s : State) (slot : Nat) (offs : List Nat) : List Byte := offs.flatMap (fun o => leBytes 8 (s.reg slot o))

/-- R562: LOCKREAD. -/
def State.mgmtLockread (s : State) (r : Mgmt) : State :=
  s.answerRead r 0
    ((List.range 64).flatMap (fun n => s.regBytes (Slot.stv n) [Off.STV.STATUS, Off.STV.LOCKCAUSE, Off.STV.LOCKADDR])
      ++ (List.range 8).flatMap (fun h => s.regBytes (Slot.hrtA h) [Off.HRTA.HSTS]))

/-- R562: THERMREAD. -/
def State.mgmtThermread (s : State) (r : Mgmt) : State :=
  s.answerRead r 0 (s.regBytes Slot.pwr
    [Off.PWR.THERM, Off.PWR.HTEMP0, Off.PWR.HTEMP1, Off.PWR.THROTTLE, Off.PWR.VINMON, Off.PWR.PWRERR])

/-- R562: MASTERREAD. -/
def State.mgmtMasterread (s : State) (r : Mgmt) : State :=
  s.answerRead r 0 (s.regBytes Slot.man [Off.MAN.TOKEN, Off.MAN.HBAGE, Off.MAN.CORESTS])

/-- SERIAL as a request gives it matches. -/
def State.serialIs (s : State) (bs : List Byte) : Bool := leNat bs == s.reg Slot.dev Off.DEV.SERIAL

/-- R552: whether a reset request of a level, for a target, is dropped. -/
def State.resetDropped (s : State) (level target : Nat) : Bool :=
  decide (level = 3 ∧ s.bootReached < 3) || decide (level < 3 ∧ s.bootReached < 7)
    || (level == 1 && s.flag (Slot.hrtA (target % 64 / 8)) Off.PAGE.STS 4)

/-- R562, R563: RESET. -/
def State.mgmtReset (s : State) (r : Mgmt) : State :=
  let level := leNat (r.payload.take 1)
  let target := leNat (sliceBytes r.payload 1 1)
  if r.payload.length ≠ 10 ∨ level < 1 ∨ 4 < level ∨ (level = 1 ∧ 64 ≤ target) ∨ (level = 2 ∧ 8 ≤ target) then
    s.answerReq r Status.payload []
  else if !s.serialIs (r.payload.drop 2) then s.answerReq r Status.serial []
  else if (level = 4 ∧ s.coldRefused) ∨ s.resetDropped level target then
    (s.answerReq r Status.state []).requestReset level target (.mgmt r.iface)
  else (s.answerReq r Status.done []).requestReset level target (.mgmt r.iface)

/-- R562, R563: POWERDOWN. -/
def State.mgmtPowerdown (s : State) (r : Mgmt) : State :=
  if r.payload.length ≠ 8 then s.answerReq r Status.payload []
  else if !s.serialIs r.payload then s.answerReq r Status.serial []
  else (s.answerReq r Status.done []).forceDown 1

/-- R564: the holder's firmware can serve a request: a core holds mastership, is not halted, and firmware has started. -/
def State.firmware (s : State) : Bool :=
  s.mantel.core && decide (3 ≤ s.bootReached)
    && match s.holder with
      | 1 => !s.coreHalted .north
      | 2 => !s.coreHalted .south
      | _ => false

/-- A request of R564: busy without firmware, then its payload, then whether it is allowed. -/
def State.served (s : State) (r : Mgmt) (form allowed : Bool) (f : State → State) : State :=
  if !s.firmware then s.answerReq r Status.busy []
  else if !form then s.answerReq r Status.payload []
  else if !allowed then s.answerReq r Status.state []
  else f s

/-- R564: QUOTE. -/
def State.mgmtQuote (s : State) (r : Mgmt) : State :=
  s.served r (r.payload.length == 32) (decide (4 < s.bootReached) && s.rngOk) (fun s =>
    let (s, q) := s.quote r.payload
    s.answerReq r Status.done q)

/-- R517, R564: CFGRECORD. -/
def State.mgmtCfgrecord (s : State) (r : Mgmt) : State :=
  s.served r (r.payload.length == 1536) (s.reg Slot.rst Off.RST.BOOTSTEP == 4 + 5 * 2 ^ 4 + 2 ^ 12) (fun s =>
    match s.acceptRecord r.payload with
    | (t, true) => t.answerReq r Status.done []
    | (t, false) => t.answerReq r Status.payload [])

/-- R510: recovery images come over I3C or UART. -/
def recoveryPort (i : Iface) : Bool :=
  match i with
  | .i3c | .uart => true
  | .jtag => false

/-- R510, R564: RECOVERY. -/
def State.mgmtRecovery (s : State) (r : Mgmt) : State :=
  let waits := s.mantel.env.bootsel == 3 && s.reg Slot.rst Off.RST.BOOTSTEP == 3 && recoveryPort r.iface
  s.served r (decide (8 ≤ r.payload.length)) waits (fun s =>
    match s.recoveryChunk (leNat (r.payload.take 4)) (bitAt (leNat (sliceBytes r.payload 4 4)) 0) (r.payload.drop 8) with
    | (t, true) => t.answerReq r Status.done []
    | (t, false) => t.answerReq r Status.payload [])

/-- R564, R565: DUMP. -/
def State.mgmtDump (s : State) (r : Mgmt) : State :=
  let n := leNat r.payload
  s.served r (r.payload.length == 1 && decide (n < 64)) true (fun s =>
    match s.dumpCommand (BitVec.ofNat 6 n) with
    | (t, false) => t.answerReq r Status.done []
    | (t, true) => t.answerReq r Status.state [])

/-- R561: a frame whose CRC or framing is bad. -/
def State.mgmtBad (s : State) (i : Iface) : State := s.answer i 0 Status.crc []

/-- R561: an unassigned OP. -/
def State.mgmtUnknown (s : State) (r : Mgmt) : State := s.answerReq r Status.unknown []

end Sys2Proof.Machine
end

