-- ==== Sys2Proof/Machine/RegWrite.lean ====
section
/-!
DEFINITION. Writes of register pages by any source (R36, R37, R43 to R51, R531), the quiesce handshake (R52 to R55), the actions
that registers start, and a context's stores to device ranges (R35, R27, R429).
-/

namespace Sys2Proof.Machine

/-! ## Actions -/

/-- R302: CTXCMD. -/
def State.ctxCommand (s : State) (op : Nat) (ctx : BitVec 20) : State :=
  match op with
  | 1 => s.ctxStart ctx
  | 2 => s.ctxStop ctx
  | 3 => s.ctxEvict ctx
  | 4 => s.ctxPreempt ctx
  | 5 => s.ctxAlarm ctx
  | 6 => s.ctxAttn ctx
  | 7 => s.ctxReset ctx
  | _ => s.ctxSts true

/-- R453: QCMD; a further write while BUSY is ignored. -/
def State.queueCommand (s : State) (op q : Nat) : State :=
  if s.flag Slot.chm1 Off.CHM1.QCMD 32 then s
  else match op with
    | 1 => s.queueEnable q
    | 2 => s.queueDisable q
    | 3 => s.queueFlush q
    | 4 => s.queueRelease q
    | 5 => s.queueRestart q
    | _ => s.qcmdSts true

/-- R480, R481: CHCMD. -/
def State.chanCommand (s : State) (op : Nat) (c : BitVec 6) : State :=
  match op with
  | 1 => s.chanEnable c
  | 2 => s.chanDisable c
  | _ => s.chcmdSts true

/-- R521: TPC.CMD; `fault` is what the flash and the store do at a COMMIT. -/
def State.tpcCommand (s : State) (op : Nat) (fault : StoreFault) : State :=
  match op with
  | 1 => s.tpcStage
  | 2 => s.tpcSign
  | 3 => s.tpcCommit fault
  | 4 => s.tpcClear
  | _ => (s.tpcErr 0).tpcRefuse 9

/-- R565: DUMPCMD. -/
def State.dumpRegister (s : State) (stove : BitVec 6) : State :=
  match s.dumpCommand stove with
  | (s, refused) => s.setFlag Slot.man Off.MAN.DUMPCMD 33 refused

/-- R391: the far frames whose key bytes are lost, as the poisoned lines of the far key table have it. -/
def State.farKeysLost (s : State) : State :=
  { s with lines := { s.lines with
      keyLost := s.lines.keyLost.filter (· < 2 ^ 24) ++ s.lines.poison.flatMap s.farKeyFrames } }

/-- R390: FKTEN changes once every cached far line has been written back and invalidated. -/
def State.fktChange (s : State) (on : Bool) : State :=
  if s.flag Slot.key Off.KEY.KEYCTL 1 = on then s
  else
    let s := s.dropCopies (fun l => isFar (l * 64))
    (s.setFlag Slot.key Off.KEY.KEYCTL 1 on).farKeysLost

/-- What the physical world does for the three registers whose actions need it: how a re-kindle loads, what fails in a COMMIT, and what
the write-backs of WBINV meet. -/
structure Outside where
  reload : Reload := .good
  fault  : StoreFault := .none
  found  : List (BitVec 42 × WriteBack) := []

/-- The action that a write of a register starts, beyond the fields it sets. -/
def State.act (s : State) (slot off v : Nat) (x : Outside) : State :=
  let go := bitAt v 8
  match pageKind slot with
  | some .grt =>
    if off = Off.GRT.CTXCMD then s.ctxCommand (bitsOf v 24 4) (BitVec.ofNat 20 v)
    else if off = Off.GRT.WGCMD then s.wgCommand (bitsOf v 12 4) (bitsOf v 0 12) else s
  | some .chm1 =>
    if off = Off.CHM1.QCMD then s.queueCommand (bitsOf v 24 4) (bitsOf v 0 19)
    else if off = Off.CHM1.RULECMD then s.ruleCommand (bitsOf v 28 2) (bitsOf v 0 10) (bitsOf v 16 10) else s
  | some .chm0 =>
    if off = Off.CHM0.STATSEL ∧ bitAt v 16 then s.clearStat (bitsOf v 0 3) (bitsOf v 8 4) else s
  | some .bel =>
    if off = Off.BEL.CHCMD then s.chanCommand (bitsOf v 8 4) (BitVec.ofNat 6 v)
    else if off = Off.BEL.DOORBELL then s.belDoorbell (BitVec.ofNat 6 v) (bitsOf v 32 32) else s
  | some .sec => if off = Off.SEC.OPCMD ∧ bitAt v 0 then s.secGo else s
  | some .tpc => if off = Off.TPC.CMD then s.tpcCommand (bitsOf v 0 4) x.fault else s
  | some .emb =>
    if off = Off.EMB.REKCMD ∧ go then s.parityError { stove := BitVec.ofNat 6 v, upc := 0, reload := x.reload } else s
  | some .dbg => if off = Off.DBG.DBGCMD then s.dbgCommand (bitsOf v 24 4) (BitVec.ofNat 20 v) else s
  | some .man => if off = Off.MAN.DUMPCMD ∧ go then s.dumpRegister (BitVec.ofNat 6 v) else s
  | some .clk => if off = Off.CLK.TODSTEP then s.todStep v else s
  | some .pwr => if off = Off.PWR.PWRCMD ∧ bitAt v 0 then s.powerCommand (bitsOf v 32 32) else s
  | some .rst =>
    if off = Off.RST.RSTCMD then s.resetCommand (bitsOf v 0 3) (bitsOf v 8 6) (bitsOf v 32 32)
    else if off = Off.RST.BOOTCTL ∧ bitAt v 0 then s.bootRelease (bitsOf v 8 8) else s
  | some .ash => if off = Off.ASH.ASHCMD ∧ bitAt v 0 then s.ashClear (bitsOf v 32 32) else s
  | some .nmc =>
    if off = Off.NMC.PINCTL then s.pinCommand (bitAt v 16) (bitAt v 17) (bitAt v 18)
    else if off = Off.NMC.FAILCMD ∧ go then s.failChannel (bitsOf v 0 6) else s
  | some .fxp => if off = Off.FXP.MSIXCMD ∧ go ∧ slot = Slot.fxp 0 then s.msixCommand (bitsOf v 0 6) else s
  | some .stv => if off = Off.STV.RFCMD ∧ bitAt v 0 then s.quarCommand (BitVec.ofNat 6 (slot - 0x40)) else s
  | some .hrtA => if off = Off.HRTA.CACHECTL ∧ bitAt v 0 then s.wbinv ((slot - 0x20) / 2) x.found else s
  | some .dev | some .key | some .hrtB | none => s

/-- R52: a register whose action is work of a block that can be Quiesced. -/
def actsForBlock (k : PageKind) (off : Nat) : Bool :=
  match k with
  | .grt => off == Off.GRT.CTXCMD || off == Off.GRT.WGCMD
  | .chm1 => off == Off.CHM1.QCMD || off == Off.CHM1.RULECMD
  | .bel => off == Off.BEL.CHCMD || off == Off.BEL.DOORBELL
  | .sec => off == Off.SEC.OPCMD
  | .nmc => off == Off.NMC.PINCTL || off == Off.NMC.FAILCMD
  | .fxp => off == Off.FXP.MSIXCMD
  | .dev | .man | .clk | .pwr | .rst | .ash | .dbg | .tpc | .emb | .key | .chm0 | .hrtA | .hrtB | .stv => false

/-- The register and bit that show a held command of a block as BUSY, and the bit that shows one that was ignored. -/
def busyBit (slot off : Nat) : Option (Nat × Nat × Option Nat) :=
  if slot = Slot.grt ∧ off = Off.GRT.CTXCMD then some (Off.GRT.CTXSTS, 0, some 2)
  else if slot = Slot.chm1 ∧ (off = Off.CHM1.QCMD ∨ off = Off.CHM1.RULECMD) then some (off, 32, none)
  else if slot = Slot.bel ∧ off = Off.BEL.CHCMD then some (off, 32, none)
  else if slot = Slot.dbg ∧ off = Off.DBG.DBGCMD then some (off, 32, none)
  else none

/-- R52, R248: hold an action that cannot be performed now; its register is BUSY. -/
def State.parkWrite (s : State) (slot off v : Nat) : State :=
  let t : State := s.park (.write slot off (BitVec.ofNat 64 v))
  match busyBit slot off with
  | none => t
  | some (o, i, _) => t.setFlag slot o i true

/-- A command register is BUSY. -/
def State.cmdBusy (s : State) (slot off : Nat) : Bool :=
  match busyBit slot off with
  | some (o, i, _) => s.flag slot o i
  | none => false

/-- R302: a command to a register that is BUSY is ignored, and CTXSTS tells so. -/
def State.ignoreWrite (s : State) (slot off : Nat) : State :=
  match busyBit slot off with
  | some (o, _, some j) => s.setFlag slot o j true
  | some (_, _, none) | none => s

/-- Perform or hold the action of a write: it is held while its block does not operate (R52), and while it would write a line that a
reservation set holds (R248). -/
def State.actOrPark (s : State) (k : PageKind) (slot off v : Nat) (x : Outside) : State :=
  if s.cmdBusy slot off then s.ignoreWrite slot off
  else if actsForBlock k off && (!s.blockOn slot || s.writesHeld (s.act slot off v x)) then s.parkWrite slot off v
  else s.act slot off v x

/-! ## Memory accesses of the debug path -/

/-- R528: what a debug access returns; none when it is refused. -/
def State.debugAnswer (s : State) (data : Option (List Byte)) : State := { s with out := s.out ++ [.debug data] }

/-- R528, R248, R52, R414: a debug access to ordinary memory that must wait. -/
def State.debugWaits (s : State) : DebugAccess → Bool
  | .readMem a n => s.lineHeld a.toNat n.toNat || s.nearStops a.toNat n.toNat
  | .writeMem a bs => s.lineHeld a.toNat bs.length || s.nearStops a.toNat bs.length
  | .readReg _ | .writeReg _ _ => false

/-- R528: the debug path reads or writes populated ordinary memory. -/
def State.debugNow (s : State) : DebugAccess → State
  | .readMem a n =>
    if s.anyPoison a.toNat n.toNat || s.anyKeyLost a.toNat n.toNat then (s.countLost a.toNat n.toNat).debugAnswer none
    else (s.devRead a.toNat n.toNat).debugAnswer (some (s.bytes a.toNat n.toNat))
  | .writeMem a bs =>
    if s.anyKeyLost a.toNat bs.length || (linesTouched a.toNat bs.length).any (fun l => s.fktLine (l * 64)) then
      (s.countLost a.toNat bs.length).debugAnswer none
    else (s.devWrite a.toNat bs).debugAnswer (some [])
  | .readReg _ | .writeReg _ _ => s

/-- R528: a debug access to populated ordinary memory, which is held while a reservation set holds a line of it (R248) or near memory does
not serve accesses (R52, R414). -/
def State.debugMemory (s : State) (x : DebugAccess) : State := if s.debugWaits x then s.park (.debug x) else s.debugNow x

/-! ## Held work -/

/-- Take a held command out of BUSY before it runs. -/
def State.unbusy (s : State) (slot off : Nat) : State :=
  match busyBit slot off with
  | some (o, i, _) => s.setFlag slot o i false
  | none => s

/-- Run one piece of held work of a block. -/
def State.runWork (s : State) : Work → State
  | .write slot off v => (s.unbusy slot off).act slot off v.toNat {}
  | .door a v => s.doorbellAt a v.toNat
  | .packet p => s.rocePacket p
  | .mirror h m => s.mirrorIn h m
  | .inbound p r => if s.portUp p.toNat then s.serveInbound p.toNat r else s
  | .store p a bs => if s.portUp p.toNat then { s with out := s.out ++ [s.outbound p.toNat a (.inl bs)] } else s
  | .debug x => s.debugNow x
  | .group cls g => s.routeGroup cls g
  | .event cls ctx => s.routeCtx cls ctx
  | .dura ring => s.routeDura ring

/-- The block that a piece of held work waits for. -/
def Work.block : Work → Nat
  | .write slot _ _ => slot
  | .door _ _ | .packet _ | .mirror _ _ => Slot.chm1
  | .inbound p _ | .store p _ _ => Slot.fxp p.toNat
  | .debug _ => Slot.nmc
  | .group _ _ | .event _ _ | .dura _ => Slot.grt

/-- R52, R248: a piece of held work can be done now. -/
def State.workReady (s : State) (w : Work) : Bool :=
  match w with
  | .group _ _ | .event _ _ | .dura _ => !s.routerQuiet
  | .inbound p r => s.blockOn (Slot.fxp p.toNat) && !s.inboundHeld p.toNat r
  | .debug x => !s.debugWaits x
  | .store p _ _ => s.blockOn (Slot.fxp p.toNat)
  | .write _ _ _ | .door _ _ | .packet _ | .mirror _ _ => s.blockOn w.block && !s.writesHeld (s.runWork w)

/-- R52: held work is done in order, for each block up to the first piece that still waits; then Chimney takes the frames that its input
buffers hold, and ports send those that waited. -/
def State.runHeld (s : State) : State :=
  let (t, kept) := s.parked.foldl (fun (s, kept) w =>
    if kept.any (fun x => Work.block x == w.block) || !State.workReady s w then (s, kept ++ [w]) else (State.runWork s w, kept))
    (({ s with parked := [] } : State), ([] : List Work))
  let t : State := { t with parked := kept ++ t.parked }
  let t := if t.blockOn Slot.chm1 then t.inbuf.foldl State.steer ({ t with inbuf := [] } : State) else t
  t.flushTx

/-- Nothing waits for what the next command may let go on. -/
def State.idle (s : State) : Bool :=
  s.watch.isEmpty && s.parked.isEmpty && s.inbuf.isEmpty && s.outbuf.isEmpty && s.ctxBusy.isNone && s.haltBusy.isNone

/-- What a command lets go on does so: a context command that waits for a boundary point (R302), Chimney's look at ring table entries
that have been written (R475), and held work. -/
def State.settle (s : State) : State := if s.idle then s else s.finishCtx.finishHalt.lookAtRings.runHeld

/-! ## The quiesce handshake -/

/-- R33: the slot has a quiesce control of its own. -/
def quiescesSlot (slot : Nat) : Bool := ((pageKind slot).map PageKind.quiesces).getD false

/-- R39: QREQ of a page. -/
def State.qreq (s : State) (slot : Nat) : Bool := s.flag slot Off.PAGE.CTL 1

/-- R52: QREQ is set. -/
def State.quiesceRequest (s : State) (slot : Nat) : State :=
  if quiescesSlot slot then s.setFlag slot Off.PAGE.CTL 1 true else s

/-- R52: the block becomes Quiesced. -/
def State.quiesceAck (s : State) (slot : Nat) : State :=
  if quiescesSlot slot && s.qreq slot then s.setFlag slot Off.PAGE.STS 0 true else s

/-- The pages whose Q fields a release of a page brings into force (R54). -/
def State.releases (s : State) (slot k : Nat) : Bool :=
  match pageKind slot with
  | some .hrtA => hearthPage ((slot - 0x20) / 2) k && (k < 0x40 || !s.qreq k)
  | some .stv => k == slot && !s.stoveQuiet (BitVec.ofNat 6 (slot - 0x40))
  | _ => k == slot

/-- R54: the stoves of a hearth that is released and whose own QREQ is 1 stay Quiesced. -/
def State.keepQuiet (s : State) (h : Nat) : State :=
  (List.range 8).foldl (fun s i =>
    let k := Slot.stv (8 * h + i)
    if s.qreq k then s.setFlag k Off.PAGE.STS 0 true else s) s

/-- R571, R426: what a change of a flexible port's MODE does as it takes effect: a link-down; and FXPERR.DEVTYPE when a port
other than 0 is set to endpoint mode, which acts as disabled. -/
def State.modeChanged (was s : State) (slot : Nat) : State :=
  let p := pageInst slot
  let raw (x : State) : Nat := x.fld slot Off.FXP.MODE 0 2
  let s := if raw s = 3 ∧ raw was ≠ 3 ∧ p ≠ 0 then s.setErr slot Off.FXP.FXPERR 5 else s
  if was.portMode p = s.portMode p then s else s.linkGoesDown p (was.portMode p == 1)

/-- R8, R54, R292: a hearth goes on: its stoves with a request of their own stay Quiesced, and its flues and fetch buffers are as its
timing mode has them. -/
def State.hearthGoesOn (was s : State) (slot : Nat) : State :=
  let h := (slot - 0x20) / 2
  let s := (s.keepQuiet h).leaveFlues h
  if s.flag slot Off.HRTA.MODE 0 && !was.flag slot Off.HRTA.MODE 0 then s.emptyFetches h else s

/-- R52, R53: QREQ is cleared: a request not yet acknowledged is withdrawn; a Quiesced block resumes, its Q fields take effect, and
its held work is served as the command ends. A page held in reset stays as it is (R553). -/
def State.quiesceRelease (s : State) (slot : Nat) : State :=
  if !quiescesSlot slot then s
  else
    let acked := s.flag slot Off.PAGE.STS 0
    let mirrored := s.blockOn Slot.chm1
    let s := s.setFlag slot Off.PAGE.CTL 1 false
    if !acked || s.flag slot Off.PAGE.STS 4 then s
    else
      let s0 := s.setFlag slot Off.PAGE.STS 0 false
      let s := s0.mergeQ (s0.releases slot)
      let s := match pageKind slot with
        | some .fxp => State.modeChanged s0 s slot
        | some .emb => s.runRekindles
        | some .hrtA => State.hearthGoesOn s0 s slot
        | _ => s
      if !mirrored && s.blockOn Slot.chm1 then s.mirrorResume else s

/-- R55: the bound of a block, in µs. -/
def State.quiesceBound (s : State) (slot : Nat) : Nat :=
  match pageKind slot with
  | some .hrtA | some .chm1 => 50
  | some .emb => 5
  | some .sec => 500
  | some .nmc => 200
  | some .fxp => max 50 (s.fld slot Off.FXP.CTO 0 16) + 10
  | _ => 20

/-- R55: the bound has passed without QACK. -/
def State.quiesceTimeout (s : State) (slot : Nat) : State :=
  if quiescesSlot slot && s.qreq slot && !s.flag slot Off.PAGE.STS 0 then
    s.ashLog 0x01 slot none none (regAddr slot 0) (s.quiesceBound slot)
  else s

/-! ## Fields -/

/-- R41: PAGE_ERR.LATE or DIRECT-D, with its ash log entry. -/
def State.badWrite (s : State) (slot off v bit cls : Nat) : State :=
  (s.withAlert slot (·.setFlag slot Off.PAGE.ERR bit true)).ashLog cls slot none none (regAddr slot off) v

/-- A W1S field is set. CACHECTL.WBINV of a Quiesced hearth, which runs at once (assumption log 31), is not: it reads 0. -/
def State.setW1s (s : State) (slot off : Nat) (f : Field) : State :=
  if off = Off.HRTA.CACHECTL ∧ pageKind slot = some .hrtA then s else s.setFld slot off f.lo f.width (2 ^ f.width - 1)

/-- R46: the block of a page is Quiesced for the purpose of its Q fields. -/
def State.quiesced (s : State) (slot : Nat) : Bool := s.qack slot

/-- The outcome of one field of a write: the state, and whether a B or a D rule was broken. -/
structure FieldsOut where
  s     : State
  late  : Bool
  dual  : Bool

/-- R43, R46, R50: one field of a write, by its class. -/
def State.writeField (o : FieldsOut) (slot off v : Nat) (f : Field) : Except Fault FieldsOut :=
  let s := o.s
  let new := bitsOf v f.lo f.width
  let old := bitsOf (s.withQ slot off) f.lo f.width
  match f.acc with
  | .ro | .rc => .ok o
  | .wo =>
    if f.cls = .b then
      (if s.boot then .ok { o with s := s.todSet new } else .ok { o with late := true })
    else .ok o
  | .w1c =>
    .ok { o with s := s.setFld slot off f.lo f.width (old - (old &&& new)) }
  | .w1s =>
    if new = 0 then .ok o
    else if f.cls = .q && !s.quiesced slot then .error .quiesceField
    else .ok { o with s := s.setW1s slot off f }
  | .rw =>
    match f.cls with
    | .l => .ok { o with s := s.setFld slot off f.lo f.width new }
    | .d => if new = old then .ok o else .ok { o with dual := true }
    | .b =>
      if new = old then .ok o
      else if !s.boot then .ok { o with late := true }
      else if slot = Slot.key ∧ off = Off.KEY.KEYCTL ∧ f.lo = 1 then .ok { o with s := s.fktChange (new = 1) }
      else .ok { o with s := s.setFld slot off f.lo f.width new }
    | .q =>
      if new = old then .ok o
      else if !s.quiesced slot then .error .quiesceField
      else
        let staged := putBits (s.withQ slot off) f.lo f.width new
        .ok { o with s := { s with regsQ := SMap.insert s.regsQ (regKey slot off) (BitVec.ofNat 64 staged) } }

/-- The fields of a write in order. -/
def writeFields (slot off v : Nat) : List Field → FieldsOut → Except Fault FieldsOut
  | [], o => .ok o
  | f :: t, o => match State.writeField o slot off v f with
    | .error e => .error e
    | .ok o => writeFields slot off v t o

/-- The header fields that a write reaches (R39); PAGE_CTL is written apart. -/
def headerFields (off : Nat) : List Field :=
  if off = Off.PAGE.ERR then [⟨"ERR", 2, 0, .l, .w1c, 0⟩]
  else if off = Off.PAGE.ERRMASK then [⟨"MASK", 2, 0, .l, .rw, 0⟩]
  else if off = Off.PAGE.ALERT then [⟨"ROUTE", 2, 0, .l, .rw, 4⟩, ⟨"WG", 27, 16, .l, .rw, 0⟩]
  else if off = Off.PAGE.SCRATCH then [⟨"SCRATCH", 63, 0, .l, .rw, 0⟩]
  else []

/-- R39, R52: a write of PAGE_CTL: EN by its class, then QREQ. -/
def State.writeCtl (s : State) (slot v : Nat) : Except Fault State :=
  if !quiescesSlot slot then .ok s
  else match State.writeField { s := s, late := false, dual := false } slot Off.PAGE.CTL v ⟨"EN", 0, 0, .q, .rw, 0⟩ with
    | .error e => .error e
    | .ok o =>
      let s := o.s
      if bitAt v 1 then .ok (s.quiesceRequest slot)
      else if s.qreq slot then .ok (s.quiesceRelease slot) else .ok s

/-- R43 to R51: apply a write to the registers of a page, with the alert of error bits that its fields clear or set. -/
def State.applyWrite (s : State) (k : PageKind) (slot off v : Nat) (x : Outside) : Except Fault State :=
  if off = Off.PAGE.CTL then s.writeCtl slot v
  else
    let fields := if off < 0x40 then headerFields off else ((findRow k off).map (·.fields)).getD []
    if 0x40 ≤ off ∧ fields ≠ [] ∧ s.inRst slot then .ok (s.withAlert slot (·.setFlag slot Off.PAGE.ERR 2 true))
    else match writeFields slot off v fields { s := s, late := false, dual := false } with
      | .error e => .error e
      | .ok o =>
        let s := if o.late then o.s.badWrite slot off v 0 0x02 else o.s
        let s := if o.dual then s.badWrite slot off v 1 0x03 else s
        .ok (if off < 0x40 then s else s.actOrPark k slot off v x)

/-- Whether a source reaches the register window at all: a running Mantel core while VSB is up, the debug path at an enabled
level (R528), a context. -/
def State.reachesRegs (s : State) (src : Src) : Bool :=
  match src with
  | .context => true
  | .north | .south => s.mantel.vsb && !s.coreHalted src
  | .debug => s.mantel.vsb && s.dbgLevel != 0

/-- A write of a register by a source, with what the physical world does for it. -/
def State.regWriteWith (s : State) (src : Src) (slot off v : Nat) (x : Outside) : Except Fault State :=
  match pageKind slot with
  | none => .ok s
  | some k =>
    if !s.reachesRegs src then .ok s
    else if slot = Slot.man ∧ off = Off.MAN.CLAIM then .ok (s.claimWrite src v)
    else
      let c := coreOf src
      if c ≠ 0 ∧ s.holder ≠ c then .ok (s.refuseWrite c slot off) else s.applyWrite k slot off v x

/-- A write of a register by a source. -/
def State.regWrite (s : State) (src : Src) (slot off v : Nat) : Except Fault State := s.regWriteWith src slot off v {}

/-! ## Stores of contexts to device ranges -/

/-- R429, R52: an outbound store of a port: sent, or held while the port is Quiesced and behind stores that are. -/
def State.sendStore (s : State) (p a : Nat) (bs : List Byte) : State :=
  let w : Work := .store (BitVec.ofNat 2 p) a bs
  if s.blockOn (Slot.fxp p) && !s.parked.any (fun x => x.block == Slot.fxp p) then s.runWork w else s.park w

/-- R35, R27, R429: a context's store to a device range, performed when its instruction commits. -/
def State.deviceStore (s : State) (src : Src) (a : Nat) (bs : List Byte) : Except Fault State :=
  match rangeOf a with
  | .reg =>
    if bs.length = 8 ∧ a % 8 = 0 then s.regWrite src ((a - 0xF10000000000) / 0x1000) (a % 0x1000) (leNat bs)
    else .error .registerAccess
  | .door => .ok (s.ringDoorbell a (leNat bs))
  | .far p => .ok (s.sendStore p a bs)
  | .near | .hob | .rom | .none => .ok (s.poke a bs)

end Sys2Proof.Machine
end

