-- ==== Sys2Proof/Machine/Refire.lean ====
section
/-!
DEFINITION. What refire compares (R356, R361 to R365): the compare items of a pass, their transforms, the smoke shelf, the upsets of
a try, the comparator, and volatile sources that diverge (R366, R367).
-/

namespace Sys2Proof.Machine

/-- R106: the 16-byte word of an instruction. -/
def insWord (op : BitVec 12) (w : Word112) : InsWord :=
  BitVec.ofNat 128 (w.opd3.toNat + w.opd2.toNat * 2 ^ 32 + w.opd1.toNat * 2 ^ 64 + w.len.toNat * 2 ^ 96
    + w.fmt.toNat * 2 ^ 112 + op.toNat * 2 ^ 116)

/-- R140: IA and RCNT after a completed iteration or instruction. -/
def Psw.advance (p : Psw) : Psw :=
  let ia := if p.rcnt.toNat ≤ 1 then p.ia + 16 else p.ia
  { p with ia := ia, rcnt := if p.rcnt = 0 then 0 else p.rcnt - 1 }

/-- The PSW an instruction leaves. The completion of an instruction that a micro-trap had interrupted ends what IP says of it
(R330). -/
def nextPsw (p : Psw) (resumed : Bool) : NextIa → Psw
  | .advance | .svc _ => { p.advance with ip := p.ip && !resumed }
  | .stay => { p with ip := true }
  | .jump a => { p with ia := a }
  | .load q => q

/-- The Cpu an instruction's work ends in. -/
def resultCpu : EStateM.Result Stop Cpu Nat → Cpu
  | .ok _ c => c
  | .error _ c => c

/-! ## Units and their transforms -/

/-- R361: the unit that delivers an instruction's results. -/
def unitOf (op : Nat) : DataUnit :=
  match op with
  | 0x010 | 0x011 | 0x017 | 0x018 | 0x040 => .adder
  | 0x020 | 0x021 | 0x022 | 0x023 | 0x041 => .logic
  | 0x030 | 0x031 | 0x032 | 0x033 => .shifter
  | 0x012 | 0x013 => .multiplier
  | 0x014 | 0x015 | 0x016 => .divider
  | 0x200 | 0x201 | 0x202 | 0x203 | 0x206 | 0x207 | 0x20A | 0x20B | 0x400 => .decimalAdder
  | 0x204 | 0x205 => .decimalMultiplier
  | 0x208 | 0x209 => .converter
  | 0x500 | 0x501 | 0x502 | 0x503 | 0x504 | 0x506 | 0x507 | 0x508 => .floating
  | 0x000 | 0x20C | 0x20D | 0x300 => .move
  | _ => .untransformed

/-- The nibbles of a 256-bit number, each mapped. -/
def mapNibbles (f : Nat → Nat) : Nat → Nat → Nat
  | 0, _ => 0
  | n + 1, v => f (v % 16) % 16 + 16 * mapNibbles f n (v / 16)

/-- R361: the value that a unit delivers in pass B for an item whose value is `v`. -/
def DataUnit.transform (u : DataUnit) (v : Nat) : Nat :=
  match u with
  | .adder | .logic | .shifter | .move => 2 ^ 256 - 1 - v % 2 ^ 256
  | .decimalAdder => mapNibbles (fun d => 9 + 16 - d) 64 v
  | .decimalMultiplier => v / 16 * 256 + v % 16
  | .converter => (2 ^ 256 - v % 2 ^ 256) % 2 ^ 256
  | .floating => v ^^^ 2 ^ 63
  | .multiplier | .divider | .untransformed => v

/-- R361: the inverse that the comparator applies; a digit that the multiplier should have left zero tells on the value. -/
def DataUnit.inverse (u : DataUnit) (v : Nat) : Nat :=
  match u with
  | .decimalMultiplier => v / 256 * 16 + v % 16 + v / 16 % 16 * 2 ^ 256
  | .adder | .logic | .shifter | .move | .decimalAdder | .converter | .floating | .multiplier | .divider | .untransformed => u.transform v

/-! ## Items -/

/-- Whether some specifier or implied register of an instruction names a register that it may write: by its number in RFLADDR. -/
def namesReg (op : BitVec 12) (w : Word112) (r : Nat) : Bool :=
  let at' (sp : BitVec 32) : Bool :=
    ((spMode sp == 0 || spMode sp == 6 || spMode sp == 7 || spMode sp == 11) && r == (spBase sp).toNat)
      || (spMode sp == 1 && r == 0x20 + (spBase sp).toNat) || (spMode sp == 2 && r == 0x10 + (spBase sp).toNat)
  !([0x040, 0x041, 0x100, 0x101, 0x203, 0x207, 0x506].contains op.toNat) && at' w.opd1

/-- The value of a register by its number in RFLADDR. -/
def Bank.regValue (b : Bank) (r : Nat) : Nat :=
  if r < 0x10 then (b.getG (BitVec.ofNat 4 r)).toNat
  else if r < 0x20 then (b.getF (BitVec.ofNat 4 (r - 0x10))).toNat
  else if r < 0x28 then (b.getD (BitVec.ofNat 3 (r - 0x20))).toNat
  else if r < 0x2C then (b.getM (BitVec.ofNat 2 (r - 0x28))).toNat
  else if r = 0x2C then b.msg.toNat
  else b.psw.toNat

/-- A register written by its number in RFLADDR; MSG and the PSW, whose items are compared and not written from the shelf, stay. -/
def Bank.setRegValue (b : Bank) (r v : Nat) : Bank :=
  if r < 0x10 then b.setG (BitVec.ofNat 4 r) (BitVec.ofNat 64 v)
  else if r < 0x20 then b.setF (BitVec.ofNat 4 (r - 0x10)) (BitVec.ofNat 64 v)
  else if r < 0x28 then b.setD (BitVec.ofNat 3 (r - 0x20)) (BitVec.ofNat 256 v)
  else b

/-- R363: the register-file writes of a pass: the registers that its instruction names to write and those that it changed. -/
def regItems (op : BitVec 12) (w : Word112) (b0 b : Bank) : List CompareItem :=
  (List.range 0x2E).filterMap (fun r =>
    if namesReg op w r || b0.regValue r != b.regValue r then
      some { kind := .reg, dest := r, unit := if r < 0x2C then unitOf op.toNat else .untransformed, value := b.regValue r }
    else none)

/-- The bytes of a store cut at 32-byte blocks, the width of a shelf entry. -/
def cutBlocks : Nat → Nat → List Byte → List (Nat × List Byte)
  | 0, _, _ => []
  | fuel + 1, a, bs =>
    if bs.isEmpty then [] else
      let k := 32 - a % 32
      (a, bs.take k) :: cutBlocks fuel (a + k) (bs.drop k)

/-- R363: the stores of a pass: address and bytes; the byte mask is the number of the bytes. -/
def storeItems (wrote : List (Nat × List Byte)) : List CompareItem :=
  (wrote.flatMap (fun (a, bs) => cutBlocks (bs.length / 32 + 2) a bs)).map (fun (a, bs) =>
    { kind := .store, dest := a + bs.length * 2 ^ 48, unit := .move, value := leNat bs })

/-- R363: the keys of a pass: for each frame that it reaches, the access key with the storage key found. -/
def keyItems (s : State) (key : BitVec 4) (acc : List Access) : List CompareItem :=
  let frames := ascending ((acc.filter (fun x => !x.own && s.ordinary x.pa)).map (fun x => frameOf x.pa))
  frames.map (fun f => { kind := .key, dest := f, unit := .untransformed, value := key.toNat * 256 + s.keyByte (f * 4096) })

/-- R358, R363: the external effects of a pass that are no stores: event deliveries, and for an instruction that claims, takes or tags
something, that it does so. -/
def effectItems (op : BitVec 12) (after : List Effect) (cc : BitVec 2) : List CompareItem :=
  (after.filterMap (fun e => match e with
    | .device _ _ | .hob _ _ | .refireBroken => none
    | .signalCtx c => some { kind := .effect, dest := c.toNat, unit := .untransformed, value := 1 }
    | .signalGroup g => some { kind := .effect, dest := g, unit := .untransformed, value := 2 }))
    ++ (if [0x400, 0x401, 0x700, 0x702, 0x703, 0x800].contains op.toNat then
        [{ kind := .effect, dest := op.toNat, unit := .untransformed, value := cc.toNat }] else [])

/-- R363: the compare items of a pass that began in `c0`. -/
def passItems (op : BitVec 12) (w : Word112) (c0 : Cpu) (r : EStateM.Result Stop Cpu Nat) : List CompareItem :=
  let c := resultCpu r
  let keys := keyItems c.s c0.b.psw.key c.acc
  match r with
  | .ok _ _ =>
    regItems op w c0.b c.b ++ storeItems c.wrote
      ++ [{ kind := .cc, dest := 0, unit := .untransformed, value := c.b.psw.cc.toNat },
          { kind := .target, dest := 0, unit := .untransformed, value := (nextPsw c.b.psw false c.next).ia.toNat }]
      ++ keys ++ effectItems op c.after c.b.psw.cc
  | .error (.exc e) _ =>
    [{ kind := .exc, dest := e.code, unit := .untransformed,
       value := e.faddr + 2 ^ 64 * (b2n e.fav + 2 * b2n e.w + 4 * b2n e.x + 8 * b2n e.split2 + 16 * b2n e.phys) }] ++ keys
  | .error (.wait _) _ | .error (.fault _) _ => keys

/-! ## The smoke shelf -/

/-- R356: a parity bit for each of the 32 bytes of a value. -/
def parityBits (v : BitVec 256) : BitVec 32 :=
  BitVec.ofNat 32 (((List.range 32).map (fun j =>
    ((List.range 8).filter (fun i => v.getLsbD (8 * j + i))).length % 2 * 2 ^ j)).sum)

/-- R356: the shelf entry of an item. -/
def CompareItem.entry (i : CompareItem) : ShelfEntry :=
  let v := BitVec.ofNat 256 i.value
  { kind := i.kind, dest := i.dest, unit := i.unit, value := v, parity := parityBits v }

/-- An upset in a unit: the item as the pass delivers it, none when it is lost; `raw` and `back` are the transform of the pass and its
inverse. -/
def CompareItem.upset (raw back : DataUnit → Nat → Nat) (i : CompareItem) (fs : List FlipKind) : Option CompareItem :=
  fs.foldl (fun x f => match x, f with
    | none, _ => none
    | some _, .lost => none
    | some i, .value m => some { i with value := back i.unit (raw i.unit i.value ^^^ m.toNat) }
    | some i, .dest m => some { i with dest := i.dest ^^^ m.toNat }) (some i)

/-- The items that a pass delivers under upsets. -/
def upsetItems (raw back : DataUnit → Nat → Nat) (fs : List Flip) (is : List CompareItem) : List CompareItem :=
  is.zipIdx.filterMap (fun (i, k) => i.upset raw back ((fs.filter (·.item == k)).map (·.kind)))

/-- R356: what pass A writes to the shelf. -/
def shelfOf (u : Upset) (is : List CompareItem) : List ShelfEntry := (upsetItems (fun _ v => v) (fun _ v => v) u.a is).map CompareItem.entry

/-- R365: shelf entries as the comparator reads them, with bits inverted while they lay there. -/
def readShelf (u : Upset) (es : List ShelfEntry) : List ShelfEntry :=
  es.zipIdx.map (fun (e, k) => { e with value := (u.shelf.filter (·.1 == k)).foldl (fun v x => v ^^^ x.2) e.value })

/-- R361: what pass B sends to the comparator, inverted again. -/
def backItems (u : Upset) (is : List CompareItem) : List CompareItem := upsetItems DataUnit.transform DataUnit.inverse u.b is

/-! ## The comparator -/

/-- RFLAST.ITEM for a value, and for a destination, that differs. -/
def ItemKind.code (k : ItemKind) (dest : Bool) : Nat :=
  match k with
  | .reg => if dest then 2 else 1
  | .store => if dest then 3 else 4
  | .cc => 5
  | .target => 6
  | .key => 7
  | .exc => 8
  | .effect => 9

/-- RFLADDR for an item: the address of a store, the number of a register, zero otherwise. -/
def rfladdr (k : ItemKind) (dest : Nat) : Nat :=
  match k with
  | .store => dest % 2 ^ 48
  | .reg => dest % 256
  | .cc | .target | .key | .exc | .effect => 0

/-- The first item on which the passes differ: RFLAST.ITEM, RFLADDR, and whether the shelf's parity failed. -/
structure Mismatch where
  item   : Nat
  addr   : Nat
  parity : Bool
  deriving DecidableEq, Repr

/-- R363 to R365: the comparator: the shelf against the items of pass B, first item first. An item present in one pass and absent in
the other is a mismatch. -/
def compareItems : List ShelfEntry → List CompareItem → Option Mismatch
  | [], [] => none
  | e :: _, [] => some { item := e.kind.code true, addr := rfladdr e.kind e.dest, parity := false }
  | [], i :: _ => some { item := i.kind.code true, addr := rfladdr i.kind i.dest, parity := false }
  | e :: es, i :: is =>
    if parityBits e.value ≠ e.parity then some { item := e.kind.code false, addr := rfladdr e.kind e.dest, parity := true }
    else if e.kind ≠ i.kind ∨ e.dest ≠ i.dest then some { item := e.kind.code true, addr := rfladdr e.kind e.dest, parity := false }
    else if e.value.toNat ≠ i.value % 2 ^ 256 ∨ 2 ^ 256 ≤ i.value then
      some { item := e.kind.code false, addr := rfladdr e.kind e.dest, parity := false }
    else compareItems es is

/-- R363, R367: the first volatile read whose value the two passes disagree on: its physical address, none inside for SAMPLE. -/
def divergence : List (Option Nat × Nat) → List (Option Nat × Nat) → Option (Option Nat)
  | (a, v) :: s, (b, w) :: t => if a = b ∧ v = w then divergence s t else some a
  | [], [] => none
  | (a, _) :: _, [] => some a
  | [], (b, _) :: _ => some b

/-! ## Commit -/

/-- Bytes of a store replaced where a later list of the same place gives others. -/
def patchStore (a : Nat) (new : List Byte) (b : BufStore) : BufStore :=
  if b.addr ≤ a ∧ a + new.length ≤ b.addr + b.bytes.length then { b with bytes := spliceBytes b.bytes (a - b.addr) new } else b

/-- An effect at commit that covers bytes which an item gives otherwise. -/
def patchEffect (a : Nat) (new : List Byte) : Effect → Effect
  | .device x bs => if x ≤ a ∧ a + new.length ≤ x + bs.length then .device x (spliceBytes bs (a - x) new) else .device x bs
  | .hob x bs => if x ≤ a ∧ a + new.length ≤ x + bs.length then .hob x (spliceBytes bs (a - x) new) else .hob x bs
  | .signalCtx c => .signalCtx c
  | .signalGroup g => .signalGroup g
  | .refireBroken => .refireBroken

/-- R350, R375: the shelf's items are what commits. They are what the pass wrote unless upsets that the comparator cannot see have
changed both passes alike; those are committed as they stand on the shelf. -/
def Cpu.commitEntry (c : Cpu) (e : ShelfEntry) : Cpu :=
  match e.kind with
  | .reg => if c.b.regValue e.dest = e.value.toNat then c else { c with b := c.b.setRegValue e.dest e.value.toNat }
  | .store =>
    let a := e.dest % 2 ^ 48
    let new := leBytes (e.dest / 2 ^ 48) e.value.toNat
    if c.wrote.any (fun (x, bs) => decide (x ≤ a ∧ a + new.length ≤ x + bs.length) && sliceBytes bs (a - x) new.length == new) then c
    else
      let buffered := c.s.stores.any (fun b => b.ctx == c.b.ctx && decide (b.addr ≤ a ∧ a + new.length ≤ b.addr + b.bytes.length))
      let s := if buffered || !c.s.ordinary a then c.s else c.s.poke a new
      { c with s := { s with stores := s.stores.map (fun b => if b.ctx == c.b.ctx then patchStore a new b else b) }
               after := c.after.map (patchEffect a new) }
  | .cc | .target | .key | .exc | .effect => c

/-- R350: commit the shelf items. -/
def Cpu.commitShelf (c : Cpu) (es : List ShelfEntry) : Cpu := es.foldl Cpu.commitEntry c

end Sys2Proof.Machine
end

