-- ==== Sys2Proof/Machine/Issue.lean ====
section
/-!
DEFINITION. One issue of an instruction: the fetch (R138 order 1), the instruction's body, the refire pair (R350 to R369), completion
with its charge (R278 to R293), exceptions (R332, R342) and withdrawn microwords (R273).
-/

namespace Sys2Proof.Machine

/-! ## The start of an instruction -/

/-- R292, R296: the access of a fetch, which pays for the stores it overlaps. -/
def State.fetchNote (s : State) (ctx : BitVec 20) (pa : Nat) : Access :=
  { kind := .fetch, pa := pa, len := 16, own := false, align := if (s.ownStores ctx).any (·.overlaps pa 16) then 6 else 0 }

/-- R138 order 1, R107, R296: the fetch of 16 bytes. A line that a reservation set holds is waited for (R248). -/
def fetchAt (a : Nat) : M Nat := do
  let pa ← checkAccess .fetch .logical a 16 16 false
  awaitLines [{ la := a, pa := pa, len := 16, own := false }]
  let c ← get
  modS (·.drainFetch c.b.ctx pa 16)
  noteAccess (c.s.fetchNote c.b.ctx pa)
  pure pa

/-- R138 order 1: the fetch of the instruction at IA. -/
def fetchCheck : M Unit := do
  let _ ← keptReach (fetchAt (← getPsw).ia.toNat)

/-- An executing context at the start of an instruction. -/
def Cpu.start (s : State) (b : Bank) (dev : List Completion) : Cpu :=
  { b := b, s := s, ck := b, dev := dev, vol := [], sur := 0, next := .advance, after := [], replay := [], log := [],
    latch := s.tod, acc := [], wrote := [], pass := .plain, set := [], claim := [], block := none }

/-- What an instruction's body needs: its opcode, and its meaning straight and with the units as pass B sets them (R361); their value is
the steady count of R282. -/
structure Body where
  op    : BitVec 12
  run   : Word112 → M Nat
  again : Word112 → M Nat

/-- An instruction whose units pass B transforms. -/
def both (op : BitVec 12) (f : Mode → Word112 → M Nat) : Body := ⟨op, f .straight, f .transformed⟩

/-- An instruction whose units pass B repeats. -/
def same (op : BitVec 12) (f : Word112 → M Nat) : Body := ⟨op, f, f⟩

/-- R109: an instruction whose OP the table does not assign raises 0x01, and nothing changes. -/
def unassigned (op : BitVec 12) : Body := same op (fun _ => do
  raiseCode 0x01
  pure 0)

/-- R109: a body, or the exception of another opcode that the table does not assign. -/
def Body.unlessOther (body : Body) : Option (BitVec 12) → Body
  | none => body
  | some op => if assignedOps.contains op.toNat then body else unassigned op

/-- R334: the image of the word that was fetched, so that an entry can name it. -/
def Cpu.withImage (c : Cpu) (op : BitVec 12) (w : Word112) : Cpu :=
  { c with b := { c.b with image := some (c.b.psw.ia, insWord op w) },
           ck := { c.ck with image := some (c.b.psw.ia, insWord op w) } }

/-- The body after the fetch. -/
def Body.fetched (body : Body) (w : Word112) : M Nat := do
  modify (fun c => c.withImage body.op w)
  body.run w

/-- The body of pass B, which makes no fetch (R351). -/
def Body.repeated (body : Body) (w : Word112) : M Nat := do
  modify (fun c => c.withImage body.op w)
  body.again w

/-! ## Withdrawal -/

/-- R273: the microword is withdrawn; in steady timing its context leaves the flue. What the microwords before it have done is kept
with it. -/
def State.withdraw (s : State) (b : Bank) (op : BitVec 12) (w : Word112) (cause : WaitCause) (trace : List Kept := [])
    (latch : Option Nat := none) (upsets : List Upset := []) (began : Bool := false) : State :=
  let wait : Option WaitCause := match cause with
    | .ext _ => none
    | c => some c
  let x : Withdrawn := { op := op, word := w, cause := cause, trace := trace, latch := latch, upsets := upsets, began := began }
  let b := { b with wdrawn := some x, wait := wait, flue := if s.openTiming b.stove then b.flue else none }
  let s := s.putBank b
  match cause with
  | .event _ _ | .dura _ => if s.order.waiting.contains b.ctx then s else s.toWaiting b.ctx
  | .leave _ | .reserved => if b.flue.isSome then s else s.toNone b.ctx
  | .ext _ => if b.flue.isSome then s else s.toReady b.ctx

/-- R386, R316: what is kept over a wait: nothing over a wait for an event, after which WAIT runs anew, nor over one that a refire pair
meets before its pass A or that discards it (R352, R360). -/
def keptOver (cause : WaitCause) (rf began : Bool) (trace : List Kept) : List Kept :=
  match cause with
  | .event _ _ => []
  | .dura _ => if rf then [] else trace
  | .ext _ | .leave _ | .reserved => if rf && !began then trace.take 1 else trace

/-! ## Charges -/

/-- R104: only a loaded PSW leaves microwords of a resumed instruction to count as retired. -/
def NextIa.resumes : NextIa → Nat → Nat
  | .load _, n => n
  | .advance, _ | .stay, _ | .jump _, _ | .svc _, _ => 0

/-- R104, R330: damper leave is used up at completion; only a loaded PSW keeps what an ember frame held. -/
def NextIa.leaves : NextIa → Option Nat → Option Nat
  | .load _, n => n
  | .advance, _ | .stay, _ | .jump _, _ | .svc _, _ => none

/-- R292: RETX empties the fetch buffer. -/
def NextIa.emptiesFetch : NextIa → Bool
  | .load _ => true
  | .advance | .stay | .jump _ | .svc _ => false

/-- R276, R284, R287: the charge of a completed instruction or unit. -/
def chargeOf (rf : Bool) (count resume : Nat) : Nat := if rf then 2 * count + 1 else count - resume

/-- A bank charged `n` cycles more. -/
def Bank.spend (b : Bank) (n : Nat) : Bank := { b with charged := b.charged + n, slice := b.slice + n }

/-- R290 to R292, R295: what the accesses of a completed instruction leave in the caches, and what open timing charges for them; there
the stores that the instruction before it left buffered are written now. -/
def Cpu.settle (c : Cpu) : Cpu :=
  let s := (c.s.serve c.b.stove c.acc).1
  let s := if c.next.emptiesFetch then s.emptyFetch c.b.stove else s
  { c with
    s := if c.s.openTiming c.b.stove then s.endInstr c.b.ctx else s
    b := c.b.spend (c.s.openCharge c.b.stove c.acc) }

/-! ## Commit -/

/-- R358: perform one effect of a context's instruction at commit. -/
def State.perform (s : State) (ctx : BitVec 20) : Effect → Except Fault State
  | .device a bs => s.deviceStore .context a bs
  | .hob a bs => .ok (s.poke a bs)
  | .signalCtx c => .ok (s.deliverCtx 1 c)
  | .signalGroup g => .ok (s.deliverGroup 1 g)
  | .refireBroken => .ok (match s.bankOf ctx with
    | some b => s.refireBreak b
    | none => s)

/-- Perform the effects of an instruction in order. -/
def State.performAll (s : State) (ctx : BitVec 20) : List Effect → Except Fault State
  | [] => .ok s
  | e :: t => do (← s.perform ctx e).performAll ctx t

/-- R370: count one committed pair for the stove and its hearth. -/
def State.countPair (s : State) (stove : BitVec 6) : State :=
  (s.incWrap (Slot.stv stove.toNat) Off.STV.RFPAIRS 0 48 1).incWrap (Slot.hrtB (hearthOf stove)) Off.HRTB.RFPAIRS 0 48 1

/-- R350: a pair ends: its line set and its claim are released, and its shelf partition is empty. -/
def State.endPair (s : State) (ctx : BitVec 20) : State :=
  { s.release ctx with shelf := s.shelf.filter (·.ctx != ctx) }

/-- Completion: charge, PSW, bank and effects; then SVC's entry (R336) or a debug step (R325). `extra` is what pass B's accesses charge
in open timing (R357). -/
def State.complete (s : State) (b0 : Bank) (c : Cpu) (count : Nat) (extra : Nat := 0) : Except Fault State :=
  let rf := b0.psw.rf
  let n := chargeOf rf (count + c.sur) b0.resume + extra
  let b := { c.b.setPsw (nextPsw c.b.psw (b0.resume != 0) c.next) with
    charged := c.b.charged + n, slice := c.b.slice + n, leave := c.next.leaves c.b.leave, resume := c.next.resumes c.b.resume,
    wdrawn := none, wait := none, cont := c.next = .stay, spillBad := false }
  let s := s.putBank b
  let s := if rf then (s.countPair b.stove).endPair b.ctx else s
  match s.performAll b.ctx c.after with
  | .error f => .error f
  | .ok s =>
    match s.bankOf b.ctx with
    | none => .ok s
    | some b =>
      match c.next with
      | .svc k => .ok (s.enter b { code := 0x19, faddr := k.toNat } b.psw 0 none none 8)
      | .advance | .stay | .jump _ | .load _ =>
        if b0.psw.dbg && b.psw.dbg then .ok (s.enter b { code := 0x18 } b.psw (b.imageAt b.psw.ia) b.lis none 8) else .ok s

/-! ## Exceptions -/

/-- R342: a context that consumed poisoned data while MCM is 0 is spilled and held. -/
def State.heldByPoison (s : State) (b : Bank) (addr : Nat) : State :=
  ((s.spill b (some (St.held, 4))).1.ashLog 0x16 Slot.grt (some b.stove.toNat) (some b.ctx.toNat) (addr / 64 * 64) 0).attention

/-- R342, R578: the physical line of poisoned data that an exception names: that of FADDR, translated where it is logical; a walk that
fails names the table line it stopped at. -/
def State.poisonAt (s : State) (b : Bank) (e : Exc) : Nat :=
  if e.phys ∨ !b.psw.te then e.faddr
  else match s.walk b.ttr.toNat e.faddr with
    | .ok pa _ _ _ => pa
    | .fail _ ea _ => ea

/-- A synchronous exception: the bank as of the last committed part, leave returned (R543), then entry or hold. -/
def State.takeException (s : State) (b : Bank) (e : Exc) (image : Nat) : State :=
  let s := match b.leave with
    | some c => s.returnLeave (hearthOf b.stove) c
    | none => s
  let s := s.endPair b.ctx
  let b := { b with leave := none, wdrawn := none, wait := none }
  let s := if e.code = 0x17 then s.incSat (Slot.hrtB (hearthOf b.stove)) Off.HRTB.RFDIV 0 32 1 else s
  if e.code = 0x21 ∧ !b.psw.mcm then (s.putBank b).heldByPoison b (s.poisonAt b e)
  else s.enter b e b.psw image b.lis none 8

/-- Where an instruction's accesses have left their lines when it raises an exception, which is charged for none of them (R283). -/
def Cpu.places (c : Cpu) : State := (c.s.serve c.b.stove c.acc).1

/-! ## Refire pairs -/

/-- R369: record a mismatch of a pair in RFLAST and RFLADDR. -/
def State.recordMismatch (s : State) (b : Bank) (m : Mismatch) (tries : Nat) : State :=
  let page := Slot.stv b.stove.toNat
  let s := s.setReg page Off.STV.RFLAST
    (m.item + b2n m.parity * 2 ^ 4 + min 7 tries * 2 ^ 5 + b.slot.toNat * 2 ^ 8 + b.ctx.toNat * 2 ^ 16)
  s.setReg page Off.STV.RFLADDR m.addr

/-- R369: a retry has matched: count and log the transient mismatch. -/
def State.noteTransient (s : State) (b : Bank) : State :=
  let page := Slot.stv b.stove.toNat
  let s := s.incSat page Off.STV.RFTRANS 0 32 1
  let s := s.incSat (Slot.hrtB (hearthOf b.stove)) Off.HRTB.RFTRANS 0 32 1
  s.ashLog 0x20 page (some b.stove.toNat) (some b.ctx.toNat) (s.reg page Off.STV.RFLADDR) (s.reg page Off.STV.RFLAST)

/-- How one try of a pair ends, or the pair. -/
inductive PairEnd where
  /-- a wait, and whether pass A has begun -/
  | wait (x : WaitCause) (c : Cpu) (began : Bool)
  | fault (f : Fault)
  /-- the exception that both passes raise, or 0x17 -/
  | exc (e : Exc) (c : Cpu)
  /-- the passes agree: count, Cpu, and what pass B's accesses charge in open timing -/
  | done (n : Nat) (c : Cpu) (extra : Nat)
  /-- the passes differ -/
  | differ (m : Mismatch) (c : Cpu)

/-- The Cpu a pass starts with: the pair's own, but for what has happened since: the side effects of volatile loads on registers, the
requests sent to devices and the completions taken, the time of day, and what is left to replay. -/
def Cpu.passFrom (c0 prev : Cpu) (p : Pass) (elapsed : Nat) : Cpu :=
  { c0 with
    pass := p
    s := ({ c0.s with regs := prev.s.regs, fresh := prev.s.fresh, out := prev.s.out } : State).setReg Slot.clk Off.CLK.TOD (wrapInt 64 (prev.s.tod + elapsed))
    dev := prev.dev, replay := prev.replay, log := prev.log, acc := if p = .a then c0.acc else [] }

/-- R356: the state with a pair's items on the shelf of its stove. -/
def State.shelve (s : State) (b : Bank) (es : List ShelfEntry) : State :=
  { s with shelf := { stove := b.stove, flue := b.flue.getD 0, ctx := b.ctx, entries := es } :: s.shelf.filter (·.ctx != b.ctx) }

/-- R350, R366: one try of a pair: pass A, whose items go to the shelf, and pass B, whose items the comparator checks. -/
def pairTry (body : Body) (w : Word112) (env : Env) (u : Upset) (c0 prev : Cpu) (again : Bool) : PairEnd :=
  let ra := body.fetched w (c0.passFrom prev .a (if again then env.elapsed else 0))
  let ca := resultCpu ra
  match ra with
  | .error (.wait x) c => .wait x c true
  | .error (.fault f) _ => .fault f
  | .error (.exc _) _ | .ok _ _ =>
    let shelf := shelfOf u (passItems body.op w c0 ra)
    let cb0 := c0.passFrom ca .b env.elapsed
    let onShelf (c : Cpu) : Cpu := { c with s := c.s.shelve c0.b shelf }
    match (if ca.replay.isEmpty then env.between else none) with
    | some x => .wait (.ext x) (onShelf cb0) true
    | none =>
      let rb := body.repeated w cb0
      let cb := resultCpu rb
      match rb with
      | .error (.wait x) c => .wait x (onShelf c) true
      | .error (.fault f) _ => .fault f
      | .error (.exc _) _ | .ok _ _ =>
        match divergence ca.vol cb.vol with
        | some a => .exc { code := 0x17, fav := a.isSome, phys := a.isSome, faddr := a.getD 0 }
            { c0 with s := { c0.s with regs := cb.s.regs, out := cb.s.out }, acc := ca.acc }
        | none =>
          match compareItems (readShelf u shelf) (backItems u (passItems body.op w c0 rb)) with
          | some m => .differ m cb
          | none =>
            let c := { cb with acc := ca.acc }.commitShelf (readShelf u shelf)
            match rb with
            | .ok n _ => .done n c (if c.s.openTiming c.b.stove then passBCharge c0.s cb.acc else 0)
            | .error (.exc e) _ => .exc e c
            | .error (.wait x) _ => .wait x c true
            | .error (.fault f) _ => .fault f

/-- R369: a pair that differs is tried again, up to the retry limit; `tries` counts the mismatches so far. -/
def pairTries (body : Body) (w : Word112) (env : Env) (us : List Upset) (c0 : Cpu) (limit : Nat) : Nat → Cpu → PairEnd
  | 0, prev => pairTry body w env (us.getD limit {}) c0 prev (limit != 0)
  | left + 1, prev =>
    let tries := limit - (left + 1)
    match pairTry body w env (us.getD tries {}) c0 prev (tries != 0) with
    | .differ m c => pairTries body w env us c0 limit left { c with s := c.s.recordMismatch c0.b m (tries + 1) }
    | .done n c extra => .done n (if tries = 0 then c else { c with s := c.s.noteTransient c0.b }) extra
    | .exc e c =>
      .exc e (if tries = 0 ∨ e.code = 0x17 then c else { c with s := c.s.noteTransient c0.b })
    | r => r

/-- R350: damper leave comes before the line set: the wait for leave that the instruction will ask for, if it has none. -/
def leaveFirst (body : Body) (w : Word112) (c : Cpu) : Option (WaitCause × Cpu) :=
  match body.fetched w { c.as .form with s := { c.s with resv := [] } } with
  | .error (.wait (.leave n)) c' => some (.leave n, { c with s := { c.s with damper := c'.s.damper } })
  | .error _ _ | .ok _ _ => none

/-- A forming that meets a claim which cannot be taken now (R445). -/
def noClaim : EStateM.Result Stop Cpu Nat → Bool
  | .error (.wait (.ext .claim)) _ => true
  | .error _ _ | .ok _ _ => false

/-- R350 to R352: form the line set and the claim of a pair, and hold them, or wait. It holds nothing while a line that only its
forming reads is waited for. -/
def formSet (body : Body) (w : Word112) (env : Env) (c : Cpu) : Except (WaitCause × Cpu) Cpu :=
  let at' (s : State) : Cpu := { c with s := { c.s with resv := s.resv } }
  let r := body.fetched w (c.as .form)
  match r with
  | .error (.wait .reserved) f => .error (.reserved, at' f.s)
  | .error (.wait (.ext .line)) f => .error (.ext .line, at' (f.s.release c.b.ctx))
  | .error _ f | .ok _ f =>
    match f.s.takeUnits c.b.ctx f.set with
    | (s, false) => .error (.reserved, at' s)
    | (s, true) =>
      if noClaim r ∨ (f.claim ≠ [] ∧ (env.wait = some .claim ∨ f.claim.any (s.heldByOther c.b.ctx))) then .error (.ext .claim, at' s)
      else .ok (at' (s.setResv { ctx := c.b.ctx, want := [], held := ascending (f.claim ++ s.holds c.b.ctx) }))

/-- R350: a refire pair, from its leave to its last try. -/
def runPair (body : Body) (w : Word112) (env : Env) (us : List Upset) (began : Bool) (c : Cpu) : PairEnd :=
  let limit := c.s.fld (Slot.stv c.b.stove.toNat) Off.STV.RFRETRY 0 3
  if began then pairTries body w env us c limit limit c
  else match leaveFirst body w c with
    | some (x, c) => .wait x c false
    | none => match formSet body w env c with
      | .error (x, c) => .wait x c false
      | .ok c => pairTries body w env us c limit limit c

/-! ## Resumed instructions -/

/-- The parts of a bank that a resumed instruction reads (R84). -/
def Bank.withSaved (b : Bank) (x : Saved) : Bank := { b with g := x.g, f := x.f, d := x.d, m := x.m }

/-- What a bank's micro-temporaries stand for after what an execution has done. -/
def Bank.saving (b : Bank) (reads : List Kept) : Saved := { g := b.g, f := b.f, d := b.d, m := b.m, reads := reads }

/-- The specifiers of an instruction that can be trapped inside, and whether it writes each (R171, R204). -/
def trappedSpecs (op : BitVec 12) (w : Word112) : List (BitVec 32 × Bool) :=
  if op = 0x205 then [(w.opd1, true), (w.opd2, true), (w.opd3, false)]
  else if op = 0x508 then [(w.opd1, true), (w.opd2, true), (w.opd3, true)]
  else [(w.opd1, true), (w.opd2, false), (w.opd3, false)]

/-- Whether the trapped instruction writes a register that mode `mode` names; a general register also by a register update. -/
def trappedWrites (op : BitVec 12) (w : Word112) (mode r : Nat) : Bool :=
  (trappedSpecs op w).any (fun (sp, wr) =>
      (spBase sp).toNat == r && ((wr && spMode sp == mode) || (mode == 0 && [6, 7, 11].contains (spMode sp))))
    || (op == 0x508 && mode == 0 && w.len.toNat == r)

/-- The registers after a resumed instruction: those it writes from its own result, the others as they are. -/
def Bank.resumed (b now : Bank) (op : BitVec 12) (w : Word112) : Bank :=
  { b with
    g := Vector.ofFn (fun i => if trappedWrites op w 0 i.val then b.g[i] else now.g[i])
    f := Vector.ofFn (fun i => if trappedWrites op w 2 i.val then b.f[i] else now.f[i])
    d := Vector.ofFn (fun i => if trappedWrites op w 1 (i.val) then b.d[i] else now.d[i])
    m := now.m }

/-- R171, R204: run a resumed instruction on what it had read before its micro-trap; after a wait, on what it has read since too. -/
def onSaved (x : Saved) (op : BitVec 12) (w : Word112) (m : M Nat) : M Nat := fun c =>
  match m { c with b := c.b.withSaved x, replay := if c.replay.isEmpty then x.reads else c.replay } with
  | .ok n c' => .ok n { c' with b := c'.b.resumed c.b op w }
  | .error e c' => .error e c'

/-! ## One issue -/

/-- R293: the accesses of an instruction that overran their charges in open timing. -/
def State.overrun (s : State) (b : Bank) (xs : List Excess) : State :=
  if s.openTiming b.stove then
    xs.foldl (fun s x => s.ashLog 0x18 (Slot.stv b.stove.toNat) (some b.stove.toNat) (some b.ctx.toNat) x.addr.toNat x.excess.toNat) s
  else s

/-- R248: a buffered store whose line another set holds is not written: work that would write one waits for the line. `entry` tells
an outcome that takes an exception entry, which writes them all (R332). -/
def unlessBlocked (entry : Bool) (m : M Nat) : M Nat := fun c =>
  let blocked := c.s.blockedStores c.b.ctx
  if blocked.isEmpty then m c
  else match m c with
    | .ok n c' => if !entry && blocked.all c'.s.stores.contains then .ok n c' else .error (.wait (.ext .line)) c
    | .error (.exc _) _ => .error (.wait (.ext .line)) c
    | .error e c' => if blocked.all c'.s.stores.contains then .error e c' else .error (.wait (.ext .line)) c

/-- R273: the microword of a Cpu is withdrawn, with what its execution has done. -/
def Cpu.withdraws (c : Cpu) (op : BitVec 12) (w : Word112) (x : WaitCause) : State :=
  c.s.withdraw c.ck op w x (keptOver x false false (c.log ++ c.replay))

/-- A body's work outside refire: its outcome. -/
def State.runPlain (b : Bank) (body : Body) (w : Word112) (c : Cpu) : Except Fault State :=
  let m := match b.saved with
    | some x => if b.resume = 0 then body.fetched w else onSaved x body.op w (body.fetched w)
    | none => body.fetched w
  match unlessBlocked (b.psw.dbg || body.op == 0x604) m c with
  | .error (.wait x) c => .ok (c.withdraws body.op w x)
  | .error (.fault f) _ => .error f
  | .error (.exc e) c => .ok (c.places.takeException c.ck e (insWord body.op w).toNat)
  | .ok n c => c.settle.s.complete b c.settle n

/-- R350: a body's work as a refire pair: its outcome. -/
def State.runRefired (b : Bank) (body : Body) (w : Word112) (env : Env) (us : List Upset) (began : Bool) (c : Cpu) :
    Except Fault State :=
  let keep (x : WaitCause) (c : Cpu) (began : Bool) : State :=
    let s := match x with
      | .event _ _ | .dura _ => c.s.endPair b.ctx
      | .ext _ | .leave _ | .reserved => c.s
    s.withdraw c.ck body.op w x (keptOver x true began (c.log ++ c.replay)) (some c.latch) us began
  if !(c.s.blockedStores b.ctx).isEmpty then .ok (keep (.ext .line) c began)
  else match runPair body w env us began c with
    | .wait x c began => .ok (keep x c began)
    | .fault f => .error f
    | .exc e c => .ok (c.places.takeException c.ck e (insWord body.op w).toNat)
    | .done n c extra => c.settle.s.complete b c.settle n extra
    | .differ m c =>
      let limit := c.s.fld (Slot.stv b.stove.toNat) Off.STV.RFRETRY 0 3
      .ok ((((c.s.recordMismatch b m limit).endPair b.ctx).putBank b).quarantine b.stove)

/-- The waits that the work of an instruction meets at its own place: a POST or JAPP its claim and the SM3 unit, SEND and RECV their
claim. -/
def ownWait (op : BitVec 12) : ExtWait → Bool
  | .claim => [0x400, 0x401, 0x702, 0x703].contains op.toNat
  | .sm3 => [0x400, 0x401].contains op.toNat
  | .line | .fetch | .storeSpace | .drain | .device => false

/-- The work of one issue of an instruction; a withdrawn one goes on where it waited. -/
def State.work (s : State) (b : Bank) (body : Body) (w : Word112) (env : Env) : Except Fault State :=
  let trace := (b.wdrawn.map (·.trace)).getD []
  let began := (b.wdrawn.map (·.began)).getD false
  let us := (b.wdrawn.map (·.upsets)).getD [] ++ env.upsets
  let latch := (b.wdrawn.bind (·.latch)).getD s.tod
  match env.wait.filter (fun x => !ownWait body.op x) with
  | some x => .ok (s.withdraw b body.op w (.ext x) trace (b.wdrawn.bind (·.latch)) us began)
  | none =>
    match fetchCheck { Cpu.start s b env.device with replay := trace, latch := latch, block := env.wait } with
    | .error (.exc e) c =>
      .ok (if (c.s.blockedStores b.ctx).isEmpty then c.places.takeException b e 0 else c.withdraws body.op w (.ext .line))
    | .error (.wait x) c => .ok (c.withdraws body.op w x)
    | .error (.fault f) _ => .error f
    | .ok _ c => if b.psw.rf then State.runRefired b body w env us began c else State.runPlain b body w c

/-- What the physical world has done by the time a context works: what has left the caches, what its fills find, and the accesses that
overran their charges. -/
def State.before (s : State) (b : Bank) (env : Env) : State :=
  (env.mem.foldl State.memFinding (env.evicted.foldl (fun s x => s.evict b.stove x) s)).overrun b env.excess

/-- One issue of an instruction by the context of a bank: its work, unless what happened before has stopped the stove. -/
def State.issueBank (s : State) (b : Bank) (body : Body) (w : Word112) (env : Env) : Except Fault State :=
  let s := s.before b env
  match s.bankOf b.ctx with
  | none => .ok s
  | some b =>
    if s.stoveRuns b.stove then (s.work b body w env).map (fun t => State.grantBare s t b.stove env.bare) else .ok s

/-- R377: at a boundary point a refired context in single step has its refire broken. -/
def State.boundary (s : State) (b : Bank) : State :=
  if b.psw.rf && b.psw.dbg then s.refireBreak b else s

/-- What a command leaves: what it lets go on does so, and the queue of waiting commands and the fuses (R503) stay as they are. -/
def State.after (s t : State) : State := { t.settle with pending := s.pending, fuses := s.fuses }

/-- A command's outcome. -/
def done (s t : State) : Host.Outcome State Fault Refusal := .next (s.after t)

/-- The outcome of a command that may stop. -/
def outcome (s : State) : Except Fault State → Host.Outcome State Fault Refusal
  | .ok t => done s t
  | .error f => .fault f

/-- R289: a flue whose issue cycles pass empty: in open timing all but flue 0. -/
def State.flueShut (s : State) (stove : BitVec 6) (flue : BitVec 2) : Bool := s.openTiming stove && flue != 0

/-- One issue cycle of a flue with an instruction for its context. The cycle passes empty when no context is bound, when the
stove or the flue does not issue, or when the bound context waits or has a withdrawn microword (R274, R289). -/
def issue (body : Body) (i : Issue) (s : State) : Host.Outcome State Fault Refusal :=
  match s.boundTo i.stove i.flue with
  | none => .next s
  | some b =>
    if !s.stoveRuns i.stove || s.flueShut i.stove i.flue || b.wait.isSome || b.wdrawn.isSome then .next s
    else
      let s' := s.boundary b
      match s'.bankOf b.ctx with
      | none => done s s'
      | some b => outcome s (s'.issueBank b body i.word i.env)

end Sys2Proof.Machine
end

