-- ==== Sys2Proof/Machine/Binary.lean ====
section
/-!
DEFINITION. The binary family (R145 to R155): moves, PSW forms, integer arithmetic, division, logic, shifts, comparisons.
-/

namespace Sys2Proof.Machine

/-- The binary widths .B .H .W .Q (R145). -/
def binFmts : List Nat := [1, 2, 3, 4]

/-- OPD1 of an instruction that reads and writes it: mode 0 or memory. -/
def regOrMem : Pos := .modes (0 :: memModes)

/-- A binary source: mode 0, 3 or memory. -/
def binSrc : Pos := .modes (0 :: 3 :: memModes)

/-- LEN[15] is a flag and the rest is zero. -/
def flagOnly (w : Word112) : Bool := w.len.toNat % 2 ^ 15 == 0

/-- R145: the shape of ADD, SUB, MUL, DIV, DIVU, AND, OR and XOR. -/
def shapeBoth : Shape := { fmts := binFmts, opd1 := regOrMem, opd2 := binSrc }

/-- R145: the shape of MULH and REM. -/
def shapeBothU : Shape := { fmts := binFmts, opd1 := regOrMem, opd2 := binSrc, rule := flagOnly }

/-- R145: the shape of CMP and TST. -/
def shapeCompare (rule : Word112 → Bool) : Shape := { fmts := binFmts, opd1 := binSrc, opd2 := binSrc, rule := rule }

/-- Form OPD1 as source and destination and OPD2 as source; their values. -/
def formBoth (w : Word112) : M (Opnd × Nat × Nat) := do
  let n := fmtBytes w.fmt
  let o1 ← formOpnd w.opd1 n [.load, .store]
  let o2 ← formOpnd w.opd2 n [.load]
  let a ← readVal o1 n
  let b ← readVal o2 n
  pure (o1, a, b)

/-- Form OPD1 as destination and OPD2 as source; the source's value. -/
def formMove (w : Word112) : M (Opnd × Nat) := do
  let n := fmtBytes w.fmt
  let o1 ← formOpnd w.opd1 n [.store]
  let o2 ← formOpnd w.opd2 n [.load]
  let b ← readVal o2 n
  pure (o1, b)

/-- R147, R148: deliver an exact integer result of `w` bits to OPD1. -/
def deliverArith (o : Opnd) (n : Nat) (e : Int) : M Unit := do
  setArith (8 * n) e
  writeVal o n (wrapInt (8 * n) e)

/-- R153: deliver a logical result to OPD1. -/
def deliverLogic (o : Opnd) (n v : Nat) : M Unit := do
  setCc (zeroCc v)
  writeVal o n v

/-- R361: a value of `n` bytes as the data move path delivers it. -/
def moveVal (m : Mode) (n v : Nat) : Nat :=
  match m with
  | .straight => v
  | .transformed => leNat (moveUnit m (leBytes n v))

/-- R69: the LEN of the PSW forms. -/
def pswRule (w : Word112) : Bool := w.len == 0x8000

/-- R69, R145: FMT 0x0 with LEN[15] = 0 is not an accepted form of MOV, AND or OR. -/
def pswFmt (w : Word112) : M Unit := raiseIf (w.fmt == 0 && !lenFlag w.len) 0x01

/-- R69: the encoding of MOVPSW. -/
def shapeMovPsw : Shape :=
  { fmts := [0], opd1 := .modes [0], rule := pswRule }

/-- R69: MOV from the PSW. -/
def movPswBody (m : Mode) (w : Word112) : M Nat := do
  pswFmt w
  checkShape shapeMovPsw w
  writeG (spBase w.opd1) (BitVec.ofNat 64 (moveVal m 8 (← getPsw).control))
  pure 1

/-- R69: the control-word bits no form may change (SUP, IP, RCNT, ES.SIG, ES.V and the reserved bits). -/
def fixedControl : Nat :=
  2 ^ 4 + 2 ^ 14 + (2 ^ 16 - 1) * 2 ^ 32 + 2 ^ 48 + 2 ^ 49 + 7 * 2 ^ 15 + 3 * 2 ^ 30 + (2 ^ 14 - 1) * 2 ^ 50

/-- R69: the control-word bits that user state may not change (KEY, RF, TE, AM, MCM, DBG). -/
def supControl : Nat := 15 + 2 ^ 5 + 2 ^ 6 + 2 ^ 11 + 2 ^ 12 + 2 ^ 13

/-- R69: check and apply a new control word. -/
def applyControl (new : Nat) : M Unit := do
  let p ← getPsw
  raiseIf ((new ^^^ p.control) &&& fixedControl != 0) 0x04
  raiseIf (!p.sup && (new ^^^ p.control) &&& supControl != 0) 0x02
  modPsw (fun p => Psw.ofControl p.ia new)

/-- R69: the shape of the AND and OR forms. -/
def shapePswOp : Shape := { fmts := [0], opd2 := .modes [0, 3], rule := pswRule }

/-- R69: AND into the PSW. -/
def andPswBody (m : Mode) (w : Word112) : M Nat := do
  pswFmt w
  checkShape shapePswOp w
  let v ← readVal (← formOpnd w.opd2 8 [.load]) 8
  applyControl (andUnit m 64 (← getPsw).control v)
  pure 1

/-- R69: OR into the PSW. -/
def orPswBody (m : Mode) (w : Word112) : M Nat := do
  pswFmt w
  checkShape shapePswOp w
  let v ← readVal (← formOpnd w.opd2 8 [.load]) 8
  applyControl (orUnit m 64 (← getPsw).control v)
  pure 1

/-- R147: the encoding of MOV. -/
def shapeMov : Shape :=
  { fmts := binFmts, opd1 := regOrMem, opd2 := binSrc }

/-- R147: MOV; FMT 0x0 is the PSW form of R69. -/
def movBody (m : Mode) (w : Word112) : M Nat := do
  if w.fmt = 0 then movPswBody m w
  else
  checkShape shapeMov w
  let (o, b) ← formMove w
  writeVal o (fmtBytes w.fmt) (moveVal m (fmtBytes w.fmt) b)
  pure 1

/-- The address modes of LEA, PIN and TESTKEY (R119). -/
def leaModes : List Nat := [4, 5, 8, 9, 10]

/-- R119: the encoding of LEA. -/
def shapeLea : Shape :=
  { fmts := [4], opd1 := .modes [0], opd2 := .modes leaModes }

/-- R119: LEA. -/
def leaBody (w : Word112) : M Nat := do
  checkShape shapeLea w
  let p ← formAddress w.opd2 1
  writeG (spBase w.opd1) (BitVec.ofNat 64 p.addr)
  pure 1

/-- R147: ADD. -/
def addBody (m : Mode) (w : Word112) : M Nat := do
  checkShape shapeBoth w
  let n := fmtBytes w.fmt
  let (o, a, b) ← formBoth w
  deliverArith o n (addUnit m (signed (8 * n) a) (signed (8 * n) b))
  pure 1

/-- R147: SUB. -/
def subBody (m : Mode) (w : Word112) : M Nat := do
  checkShape shapeBoth w
  let n := fmtBytes w.fmt
  let (o, a, b) ← formBoth w
  deliverArith o n (subUnit m (signed (8 * n) a) (signed (8 * n) b))
  pure 1

/-- R147: MUL. -/
def mulBody (m : Mode) (w : Word112) : M Nat := do
  checkShape shapeBoth w
  let n := fmtBytes w.fmt
  let (o, a, b) ← formBoth w
  deliverArith o n (mulUnit m (signed (8 * n) a) (signed (8 * n) b))
  pure 3

/-- R147: MULH. -/
def mulhBody (m : Mode) (w : Word112) : M Nat := do
  checkShape shapeBothU w
  let n := fmtBytes w.fmt
  let (o, a, b) ← formBoth w
  if lenFlag w.len then
    let r := (mulUnit m a b).toNat / 2 ^ (8 * n)
    setCc (if r = 0 then 0 else 2)
    writeVal o n r
  else
    let r := mulUnit m (signed (8 * n) a) (signed (8 * n) b) / (2 ^ (8 * n) : Nat)
    setCc (signCc r)
    writeVal o n (wrapInt (8 * n) r)
  pure 4

/-- R150: the count of a division of magnitudes. -/
def divCount (a b : Nat) : Nat := 5 + ceilDiv (max 1 (bitlength a + 1 - bitlength b)) 4

/-- R149: a signed division; `rem` selects the remainder. -/
def signedDivide (m : Mode) (rem : Bool) (w : Word112) : M Nat := do
  let n := fmtBytes w.fmt
  let (o, a, b) ← formBoth w
  raiseIf (b == 0) 0x07
  let x := signed (8 * n) a
  let y := signed (8 * n) b
  if x = -(2 ^ (8 * n - 1) : Nat) ∧ y = -1 then do
    raiseLate (← getPsw).fom 0x06
    setCc 3
    writeVal o n (if rem then 0 else wrapInt (8 * n) x)
  else do
    let r := if rem then remUnit m x y else quotUnit m x y
    setCc (signCc r)
    writeVal o n (wrapInt (8 * n) r)
  pure (divCount x.natAbs y.natAbs)

/-- R149: an unsigned division; `rem` selects the remainder. -/
def unsignedDivide (m : Mode) (rem : Bool) (w : Word112) : M Nat := do
  let n := fmtBytes w.fmt
  let (o, a, b) ← formBoth w
  raiseIf (b == 0) 0x07
  let r := (if rem then remUnit m a b else quotUnit m a b).toNat
  setCc (if r = 0 then 0 else 2)
  writeVal o n r
  pure (divCount a b)

/-- R149: DIV. -/
def divBody (m : Mode) (w : Word112) : M Nat := do
  checkShape shapeBoth w
  signedDivide m false w

/-- R149: DIVU. -/
def divuBody (m : Mode) (w : Word112) : M Nat := do
  checkShape shapeBoth w
  unsignedDivide m false w

/-- R149: REM. -/
def remBody (m : Mode) (w : Word112) : M Nat := do
  checkShape shapeBothU w
  if lenFlag w.len then unsignedDivide m true w else signedDivide m true w

/-- R147: the encoding of NEG. -/
def shapeNeg : Shape :=
  { fmts := binFmts, opd1 := regOrMem, opd2 := binSrc }

/-- R147: NEG. -/
def negBody (m : Mode) (w : Word112) : M Nat := do
  checkShape shapeNeg w
  let n := fmtBytes w.fmt
  let (o, b) ← formMove w
  deliverArith o n (subUnit m 0 (signed (8 * n) b))
  pure 1

/-- R147: the encoding of ABS. -/
def shapeAbs : Shape :=
  { fmts := binFmts, opd1 := regOrMem, opd2 := binSrc }

/-- R147: ABS. -/
def absBody (m : Mode) (w : Word112) : M Nat := do
  checkShape shapeAbs w
  let n := fmtBytes w.fmt
  let (o, b) ← formMove w
  deliverArith o n (if signed (8 * n) b < 0 then subUnit m 0 (signed (8 * n) b) else addUnit m 0 (signed (8 * n) b))
  pure 1

/-- R153: AND; FMT 0x0 is the PSW form of R69. -/
def andBody (m : Mode) (w : Word112) : M Nat := do
  if w.fmt = 0 then andPswBody m w
  else
  checkShape shapeBoth w
  let (o, a, b) ← formBoth w
  deliverLogic o (fmtBytes w.fmt) (andUnit m (8 * fmtBytes w.fmt) a b)
  pure 1

/-- R153: OR; FMT 0x0 is the PSW form of R69. -/
def orBody (m : Mode) (w : Word112) : M Nat := do
  if w.fmt = 0 then orPswBody m w
  else
  checkShape shapeBoth w
  let (o, a, b) ← formBoth w
  deliverLogic o (fmtBytes w.fmt) (orUnit m (8 * fmtBytes w.fmt) a b)
  pure 1

/-- R153: XOR. -/
def xorBody (m : Mode) (w : Word112) : M Nat := do
  checkShape shapeBoth w
  let (o, a, b) ← formBoth w
  deliverLogic o (fmtBytes w.fmt) (xorUnit m (8 * fmtBytes w.fmt) a b)
  pure 1

/-- R153: the encoding of NOT. -/
def shapeNot : Shape :=
  { fmts := binFmts, opd1 := regOrMem, opd2 := binSrc }

/-- R153: NOT. -/
def notBody (m : Mode) (w : Word112) : M Nat := do
  checkShape shapeNot w
  let n := fmtBytes w.fmt
  let (o, b) ← formMove w
  deliverLogic o n (notUnit m (8 * n) b)
  pure 1

/-! ## Shifts -/

/-- R151: the LEN of a shift; `left` says whether bit 14 is defined. -/
def shiftRule (left : Bool) (w : Word112) : Bool :=
  bitsOf w.len.toNat 8 6 == 0 && (left || !bitAt w.len.toNat 14)
    && (if lenFlag w.len then w.opd2 == 0 else bitsOf w.len.toNat 0 8 == 0)

/-- R145, R151: the shape of a shift. -/
def shapeShift (left : Bool) (w : Word112) : Shape :=
  { fmts := binFmts, opd1 := regOrMem, opd2 := if lenFlag w.len then .unused else regOrMem, rule := shiftRule left }

/-- R151: form a shift: OPD1, its value, and the count. -/
def formShift (w : Word112) : M (Opnd × Nat × Nat) := do
  let n := fmtBytes w.fmt
  let o ← formOpnd w.opd1 n [.load, .store]
  if lenFlag w.len then do
    let a ← readVal o n
    pure (o, a, bitsOf w.len.toNat 0 8)
  else do
    let o2 ← formOpnd w.opd2 n [.load]
    let a ← readVal o n
    let c ← readVal o2 n
    pure (o, a, c % 256)

/-- R152: SHL. -/
def shlBody (m : Mode) (w : Word112) : M Nat := do
  checkShape (shapeShift false w) w
  let n := fmtBytes w.fmt
  let (o, a, c) ← formShift w
  deliverLogic o n (shlUnit m (8 * n) a c)
  pure 1

/-- R152: SHR. -/
def shrBody (m : Mode) (w : Word112) : M Nat := do
  checkShape (shapeShift false w) w
  let n := fmtBytes w.fmt
  let (o, a, c) ← formShift w
  deliverLogic o n (shrUnit m (8 * n) a c)
  pure 1

/-- R152: SHA. -/
def shaBody (m : Mode) (w : Word112) : M Nat := do
  checkShape (shapeShift true w) w
  let n := fmtBytes w.fmt
  let (o, a, c) ← formShift w
  let x := signed (8 * n) a
  if bitAt w.len.toNat 14 then deliverArith o n (slaUnit m x c)
  else do
    let r := sraUnit m x c
    setCc (signCc r)
    writeVal o n (wrapInt (8 * n) r)
  pure 1

/-- R152: a rotation of `w` bits to the left. -/
def rotl (w a c : Nat) : Nat := a * 2 ^ (c % w) % 2 ^ w + a / 2 ^ (w - c % w)

/-- R361: the shifter on a rotation; transformed, of the inverted operand. -/
def rotUnit (m : Mode) (w a c : Nat) : Nat :=
  match m with
  | .straight => rotl w a c
  | .transformed => invBits w (rotl w (invBits w a) c)

/-- R152: ROT. -/
def rotBody (m : Mode) (w : Word112) : M Nat := do
  checkShape (shapeShift true w) w
  let n := fmtBytes w.fmt
  let (o, a, c) ← formShift w
  let k := c % (8 * n)
  deliverLogic o n (rotUnit m (8 * n) a (if bitAt w.len.toNat 14 then k else 8 * n - k))
  pure 1

/-! ## Comparisons -/

/-- The two sources of CMP and TST. -/
def formSources (w : Word112) : M (Nat × Nat) := do
  let n := fmtBytes w.fmt
  let o1 ← formOpnd w.opd1 n [.load]
  let o2 ← formOpnd w.opd2 n [.load]
  let a ← readVal o1 n
  let b ← readVal o2 n
  pure (a, b)

/-- R361: the order of two values by the adder; transformed, of their complements, reversed. -/
def cmpUnit (m : Mode) (a b : Int) : BitVec 2 :=
  match m with
  | .straight => cmpCc a b
  | .transformed => cmpCc (comp b) (comp a)

/-- R154: CMP. -/
def cmpBody (m : Mode) (w : Word112) : M Nat := do
  checkShape (shapeCompare flagOnly) w
  let k := 8 * fmtBytes w.fmt
  let (a, b) ← formSources w
  setCc (if lenFlag w.len then cmpUnit m a b else cmpUnit m (signed k a) (signed k b))
  pure 1

/-- R153: TST. -/
def tstBody (m : Mode) (w : Word112) : M Nat := do
  checkShape (shapeCompare (fun w => w.len == 0)) w
  let (a, b) ← formSources w
  setCc (tstCc (andUnit m (8 * fmtBytes w.fmt) a b) b)
  pure 1

/-! ## The commands -/

/-- MOV (R147), or a word with an OP that the table does not assign (R109). -/
def execMov (m : MovIssue) (s : State) : Host.Outcome State Fault Refusal :=
  issue ((both 0x000 movBody).unlessOther m.other) m.issue s
/-- MOV_PSW (R69). -/
def execMovPsw (i : Issue) (s : State) : Host.Outcome State Fault Refusal := issue (both 0x000 movPswBody) i s
/-- AND_PSW (R69). -/
def execAndPsw (i : Issue) (s : State) : Host.Outcome State Fault Refusal := issue (both 0x020 andPswBody) i s
/-- OR_PSW (R69). -/
def execOrPsw (i : Issue) (s : State) : Host.Outcome State Fault Refusal := issue (both 0x021 orPswBody) i s
/-- LEA (R119). -/
def execLea (i : Issue) (s : State) : Host.Outcome State Fault Refusal := issue (same 0x001 leaBody) i s
/-- ADD (R147). -/
def execAdd (i : Issue) (s : State) : Host.Outcome State Fault Refusal := issue (both 0x010 addBody) i s
/-- SUB (R147). -/
def execSub (i : Issue) (s : State) : Host.Outcome State Fault Refusal := issue (both 0x011 subBody) i s
/-- MUL (R147). -/
def execMul (i : Issue) (s : State) : Host.Outcome State Fault Refusal := issue (both 0x012 mulBody) i s
/-- MULH (R147). -/
def execMulh (i : Issue) (s : State) : Host.Outcome State Fault Refusal := issue (both 0x013 mulhBody) i s
/-- DIV (R149). -/
def execDiv (i : Issue) (s : State) : Host.Outcome State Fault Refusal := issue (both 0x014 divBody) i s
/-- DIVU (R149). -/
def execDivu (i : Issue) (s : State) : Host.Outcome State Fault Refusal := issue (both 0x015 divuBody) i s
/-- REM (R149). -/
def execRem (i : Issue) (s : State) : Host.Outcome State Fault Refusal := issue (both 0x016 remBody) i s
/-- NEG (R147). -/
def execNeg (i : Issue) (s : State) : Host.Outcome State Fault Refusal := issue (both 0x017 negBody) i s
/-- ABS (R147). -/
def execAbs (i : Issue) (s : State) : Host.Outcome State Fault Refusal := issue (both 0x018 absBody) i s
/-- AND (R153). -/
def execAnd (i : Issue) (s : State) : Host.Outcome State Fault Refusal := issue (both 0x020 andBody) i s
/-- OR (R153). -/
def execOr (i : Issue) (s : State) : Host.Outcome State Fault Refusal := issue (both 0x021 orBody) i s
/-- XOR (R153). -/
def execXor (i : Issue) (s : State) : Host.Outcome State Fault Refusal := issue (both 0x022 xorBody) i s
/-- NOT (R153). -/
def execNot (i : Issue) (s : State) : Host.Outcome State Fault Refusal := issue (both 0x023 notBody) i s
/-- SHL (R152). -/
def execShl (i : Issue) (s : State) : Host.Outcome State Fault Refusal := issue (both 0x030 shlBody) i s
/-- SHR (R152). -/
def execShr (i : Issue) (s : State) : Host.Outcome State Fault Refusal := issue (both 0x031 shrBody) i s
/-- SHA (R152). -/
def execSha (i : Issue) (s : State) : Host.Outcome State Fault Refusal := issue (both 0x032 shaBody) i s
/-- ROT (R152). -/
def execRot (i : Issue) (s : State) : Host.Outcome State Fault Refusal := issue (both 0x033 rotBody) i s
/-- CMP (R154). -/
def execCmp (i : Issue) (s : State) : Host.Outcome State Fault Refusal := issue (both 0x040 cmpBody) i s
/-- TST (R153). -/
def execTst (i : Issue) (s : State) : Host.Outcome State Fault Refusal := issue (both 0x041 tstBody) i s

end Sys2Proof.Machine
end

