-- ==== Sys2Proof/Machine/ChimneyCmds.lean ====
section
/-!
DEFINITION. The commands of Chimney, its ports and its mirror sessions, one meaning each.
-/

namespace Sys2Proof.Machine

/-- FRAME_RECEIVE (R444). -/
def execFrameReceive (port : BitVec 3) (fcsOk : Bool) (bytes : List Byte) (s : State) : Host.Outcome State Fault Refusal :=
  done s (s.unlessHeld (s.receiveFrame port fcsOk bytes))

/-- SEND_DESCRIPTOR (R463). -/
def execSendDescriptor (queue : BitVec 19) (s : State) : Host.Outcome State Fault Refusal :=
  done s (s.unlessHeld (if s.chimneyOn then s.sendNext queue.toNat else s))

/-- DOORBELL_SEND_PRODUCER (R464). -/
def execDoorbellSendProducer (queue : BitVec 19) (index : BitVec 32) (s : State) : Host.Outcome State Fault Refusal :=
  done s (s.ringDoorbell (0xF30000000000 + 8 * queue.toNat) index.toNat)

/-- DOORBELL_RECEIVE_TAIL (R464). -/
def execDoorbellReceiveTail (queue : BitVec 19) (index : BitVec 32) (s : State) : Host.Outcome State Fault Refusal :=
  done s (s.ringDoorbell (0xF30000000000 + 8 * queue.toNat) (index.toNat + 2 ^ 32))

/-- QCMD_ENABLE (R453). -/
def execQcmdEnable (src : Src) (queue : BitVec 19) (s : State) : Host.Outcome State Fault Refusal :=
  outcome s (s.regWrite src Slot.chm1 Off.CHM1.QCMD (queue.toNat + 1 * 2 ^ 24))

/-- QCMD_DISABLE (R453). -/
def execQcmdDisable (src : Src) (queue : BitVec 19) (s : State) : Host.Outcome State Fault Refusal :=
  outcome s (s.regWrite src Slot.chm1 Off.CHM1.QCMD (queue.toNat + 2 * 2 ^ 24))

/-- QCMD_FLUSH (R453). -/
def execQcmdFlush (src : Src) (queue : BitVec 19) (s : State) : Host.Outcome State Fault Refusal :=
  outcome s (s.regWrite src Slot.chm1 Off.CHM1.QCMD (queue.toNat + 3 * 2 ^ 24))

/-- QCMD_RELEASE (R453). -/
def execQcmdRelease (src : Src) (queue : BitVec 19) (s : State) : Host.Outcome State Fault Refusal :=
  outcome s (s.regWrite src Slot.chm1 Off.CHM1.QCMD (queue.toNat + 4 * 2 ^ 24))

/-- QCMD_RESTART (R453). -/
def execQcmdRestart (src : Src) (queue : BitVec 19) (s : State) : Host.Outcome State Fault Refusal :=
  outcome s (s.regWrite src Slot.chm1 Off.CHM1.QCMD (queue.toNat + 5 * 2 ^ 24))

/-- RULECMD_LOAD (R448). -/
def execRulecmdLoad (src : Src) (first : BitVec 10) (last : BitVec 10) (s : State) : Host.Outcome State Fault Refusal :=
  outcome s (s.regWrite src Slot.chm1 Off.CHM1.RULECMD (first.toNat + last.toNat * 2 ^ 16 + 1 * 2 ^ 28))

/-- RULECMD_DUMP (R448). -/
def execRulecmdDump (src : Src) (first : BitVec 10) (last : BitVec 10) (s : State) : Host.Outcome State Fault Refusal :=
  outcome s (s.regWrite src Slot.chm1 Off.CHM1.RULECMD (first.toNat + last.toNat * 2 ^ 16 + 2 * 2 ^ 28))

/-- STATSEL_CLR (R442). -/
def execStatselClr (src : Src) (port : BitVec 3) (cnt : BitVec 4) (s : State) : Host.Outcome State Fault Refusal :=
  outcome s (s.regWrite src Slot.chm0 Off.CHM0.STATSEL (port.toNat + cnt.toNat * 2 ^ 8 + 2 ^ 16))

/-- ROCE_SEND_RECEIVE (R467). -/
def execRoceSendReceive (head : RoceHead) (part : RoceSend) (s : State) : Host.Outcome State Fault Refusal :=
  done s (s.unlessHeld (s.roceArrive { head := head, kind := .send part }))

/-- RDMA_WRITE_RECEIVE (R466). -/
def execRdmaWriteReceive (head : RoceHead) (part : RoceWrite) (s : State) : Host.Outcome State Fault Refusal :=
  done s (s.unlessHeld (s.roceArrive { head := head, kind := .write part }))

/-- RDMA_READ_RECEIVE (R466). -/
def execRdmaReadReceive (head : RoceHead) (va : Word) (rkey : BitVec 32) (len : BitVec 32) (s : State) : Host.Outcome State Fault Refusal :=
  done s (s.unlessHeld (s.roceArrive { head := head, kind := .read va rkey len }))

/-- ROCE_ACK_RECEIVE (R467). -/
def execRoceAckReceive (head : RoceHead) (syndrome : BitVec 8) (s : State) : Host.Outcome State Fault Refusal :=
  done s (s.unlessHeld (s.roceArrive { head := head, kind := .ack syndrome }))

/-- RC_ACK_TIMEOUT (R467). -/
def execRcAckTimeout (qp : BitVec 16) (s : State) : Host.Outcome State Fault Refusal :=
  done s (s.unlessHeld (s.rcTimeout qp.toNat))

/-- MIRROR_SESSION_START (R472). -/
def execMirrorSessionStart (set : BitVec 3) (peer : Bool) (s : State) : Host.Outcome State Fault Refusal :=
  done s (s.mirrorStart set.toNat peer)

/-- HELLO (R472). -/
def execHello (head : MirrorHead) (na : BitVec 256) (pub : BitVec 512) (eph : BitVec 512) (s : State) : Host.Outcome State Fault Refusal :=
  done s (s.unlessHeld (s.mirrorArrive head (.hello na pub eph)))

/-- HELLO_REPLY (R472). -/
def execHelloReply (head : MirrorHead) (nb : BitVec 256) (pub : BitVec 512) (eph : BitVec 512) (sig : BitVec 512) (s : State) : Host.Outcome State Fault Refusal :=
  done s (s.unlessHeld (s.mirrorArrive head (.helloReply nb pub eph sig)))

/-- CONFIRM (R472). -/
def execConfirm (head : MirrorHead) (sig : BitVec 512) (s : State) : Host.Outcome State Fault Refusal :=
  done s (s.unlessHeld (s.mirrorArrive head (.confirm sig)))

/-- RESUME (R473). -/
def execResume (head : MirrorHead) (ring : BitVec 12) (seq : Word) (chain : BitVec 256) (s : State) : Host.Outcome State Fault Refusal :=
  done s (s.unlessHeld (s.mirrorArrive head (.resume ring seq chain)))

/-- RECORDS (R476). -/
def execRecords (head : MirrorHead) (ring : BitVec 12) (seq : Word) (records : List (BitVec 1024)) (s : State) : Host.Outcome State Fault Refusal :=
  done s (s.unlessHeld (s.mirrorArrive head (.records ring seq records)))

/-- ACK (R474). -/
def execAck (head : MirrorHead) (ring : BitVec 12) (seq : Word) (chain : BitVec 256) (s : State) : Host.Outcome State Fault Refusal :=
  done s (s.unlessHeld (s.mirrorArrive head (.ack ring seq chain)))

/-- CLOSE (R474). -/
def execClose (head : MirrorHead) (reason : BitVec 32) (s : State) : Host.Outcome State Fault Refusal :=
  done s (s.unlessHeld (s.mirrorArrive head (.close reason)))

/-- MIRROR_RECORDS_SEND (R474). -/
def execMirrorRecordsSend (set : BitVec 3) (peer : Bool) (ring : BitVec 12) (s : State) : Host.Outcome State Fault Refusal :=
  done s (s.unlessHeld (s.recordsSend set.toNat peer ring))

/-- MIRROR_LOSS_TIMEOUT (R474). -/
def execMirrorLossTimeout (set : BitVec 3) (peer : Bool) (s : State) : Host.Outcome State Fault Refusal :=
  done s (s.unlessHeld (s.mirrorTimeout set.toNat peer))

/-- PTP_PPS_IN (R469). -/
def execPtpPpsIn (s : State) : Host.Outcome State Fault Refusal :=
  done s s.ppsIn

/-- PTP_PPS_OUT (R469). -/
def execPtpPpsOut (s : State) : Host.Outcome State Fault Refusal :=
  done s s.ppsOut

/-- PORT_LINK_UP (R472). -/
def execPortLinkUp (port : BitVec 3) (s : State) : Host.Outcome State Fault Refusal :=
  done s (s.portUpEvent port.toNat)

/-- PORT_LINK_DOWN (R462). -/
def execPortLinkDown (port : BitVec 3) (s : State) : Host.Outcome State Fault Refusal :=
  done s (s.portDownEvent port.toNat)

end Sys2Proof.Machine
end

