-- ==== Sys2Proof/Machine/Control.lean ====
section
/-!
DEFINITION. The control family: BR, BRC, CALL, RET (R155 to R157) and REP (R139).
-/

namespace Sys2Proof.Machine

/-- R145: the modes of a branch target. -/
def targetModes : Pos := .modes [0, 4, 5, 8, 9]

/-- R155: form a branch target and check its alignment. -/
def formTarget (sp : BitVec 32) : M Word := do
  let a ← if spMode sp = 0 then (do return (← readG (spBase sp)).toNat)
    else (do return (← formAddress sp 1).addr)
  raiseIf (a % 16 != 0) 0x04
  pure (BitVec.ofNat 64 a)

/-- R156: the encoding of BR. -/
def shapeBr : Shape :=
  { fmts := [0], opd1 := targetModes, repeats := false }

/-- R156: BR. -/
def brBody (w : Word112) : M Nat := do
  checkShape shapeBr w
  setNext (.jump (← formTarget w.opd1))
  pure 1

/-- R156: the encoding of BRC. -/
def shapeBrc : Shape :=
  { fmts := [0], opd1 := targetModes, rule := fun w => w.len.toNat / 16 == 0, repeats := false }

/-- R156: BRC; the target is formed and checked whether or not it is taken (R155). -/
def brcBody (w : Word112) : M Nat := do
  checkShape shapeBrc w
  let a ← formTarget w.opd1
  if bitAt w.len.toNat (← getPsw).cc.toNat then setNext (.jump a)
  pure 1

/-- R157: the encoding of CALL. -/
def shapeCall : Shape :=
  { fmts := [0], opd1 := targetModes, repeats := false }

/-- R157: CALL. A stack access that passes the top of the address space raises 0x04 without FADDR (DESIGN CHOICE, assumption log 56). -/
def callBody (w : Word112) : M Nat := do
  checkShape shapeCall w
  let a ← formTarget w.opd1
  let sp := addWrap (← readG 15).toNat (-8)
  let ia := (← getPsw).ia
  raiseIf (!inSpace sp 8) 0x04
  let ps ← checkPieces [.store] .logical 8 none (pieces sp 8)
  awaitLines ps
  writePieces ps (wordBytes (ia + 16))
  writeG 15 (BitVec.ofNat 64 sp)
  setNext (.jump a)
  pure 2

/-- R157: the encoding of RET. -/
def shapeRet : Shape :=
  { fmts := [0], repeats := false }

/-- R157: RET. A stack access that passes the top of the address space raises 0x04 without FADDR (DESIGN CHOICE, assumption log 56). -/
def retBody (w : Word112) : M Nat := do
  checkShape shapeRet w
  let sp := (← readG 15).toNat
  raiseIf (!inSpace sp 8) 0x04
  let ps ← checkPieces [.load] .logical 8 none (pieces sp 8)
  awaitNeeded ps
  let t := leNat (← readPieces ps false)
  raiseIf (t % 16 != 0) 0x04
  writeG 15 (BitVec.ofNat 64 (addWrap sp 8))
  setNext (.jump (BitVec.ofNat 64 t))
  pure 2

/-- R139: the encoding of REP. -/
def shapeRep : Shape :=
  { fmts := [0], opd1 := .modes [0], repeats := false }

/-- R139: REP. -/
def repBody (w : Word112) : M Nat := do
  checkShape shapeRep w
  let n := (← readG (spBase w.opd1)).toNat
  raiseIf (decide (65535 < n)) 0x04
  let p ← getPsw
  if n = 0 then setNext (.load { p with ia := p.ia + 32 })
  else setNext (.load { p with ia := p.ia + 16, rcnt := BitVec.ofNat 16 n })
  pure 1

/-- BR (R156). -/
def execBr (i : Issue) (s : State) : Host.Outcome State Fault Refusal := issue (same 0x100 brBody) i s
/-- BRC (R156). -/
def execBrc (i : Issue) (s : State) : Host.Outcome State Fault Refusal := issue (same 0x101 brcBody) i s
/-- CALL (R157). -/
def execCall (i : Issue) (s : State) : Host.Outcome State Fault Refusal := issue (same 0x102 callBody) i s
/-- RET (R157). -/
def execRet (i : Issue) (s : State) : Host.Outcome State Fault Refusal := issue (same 0x103 retBody) i s
/-- REP (R139). -/
def execRep (i : Issue) (s : State) : Host.Outcome State Fault Refusal := issue (same 0x104 repBody) i s

end Sys2Proof.Machine
end

