-- ==== Sys2Proof/Machine/Decimal.lean ====
section
/-!
DEFINITION. The packed decimal family (R172 to R201): the packed format, checking, delivery, arithmetic, scaling,
conversions and accumulator moves.
-/

namespace Sys2Proof.Machine

/-! ## The packed format -/

/-- The nibbles of a packed operand, most significant digit first, sign last (R172). -/
def nibbles (bs : List Byte) : List Nat := bs.flatMap (fun b => [b.toNat / 16, b.toNat % 16])

/-- R173: a valid sign nibble. -/
def signOk (n : Nat) : Bool := decide (10 ≤ n)

/-- R173: a minus sign. -/
def isMinus (n : Nat) : Bool := n == 0xB || n == 0xD

/-- The digits and the sign of a packed operand. -/
def splitPacked (bs : List Byte) : List Nat × Nat :=
  let ns := nibbles bs
  (ns.dropLast, ns.getLast?.getD 0)

/-- The integer a digit list spells. -/
def digitsNat (ds : List Nat) : Nat := ds.foldl (fun a d => a * 10 + d) 0

/-- R177: every digit and the sign are valid. -/
def packedOk (bs : List Byte) : Bool :=
  let (ds, sg) := splitPacked bs
  ds.all (fun d => decide (d ≤ 9)) && signOk sg

/-- R174: the value of a valid packed operand. -/
def packedVal (bs : List Byte) : Int :=
  let (ds, sg) := splitPacked bs
  if isMinus sg then -(digitsNat ds : Int) else digitsNat ds

/-- The low `n` digits of a magnitude, most significant first. -/
def natDigits (n m : Nat) : List Nat := (List.range n).map (fun i => m / 10 ^ (n - 1 - i) % 10)

/-- Pairs of nibbles as bytes. -/
def packNibbles : List Nat → List Byte
  | a :: b :: t => BitVec.ofNat 8 (a * 16 + b) :: packNibbles t
  | _ => []

/-- R175, R183: the low digits of a value in `n` bytes, with the preferred sign of the exact value. -/
def packedBytes (n : Nat) (v : Int) : List Byte :=
  packNibbles (natDigits (2 * n - 1) v.natAbs ++ [if v < 0 then 0xD else 0xC])

/-- R172: the digit capacity of `n` bytes. -/
def capacity (n : Nat) : Nat := 10 ^ (2 * n - 1)

/-! ## Operands -/

/-- OPD in mode 1 or memory (R181). -/
def accOrMem : Pos := .modes (1 :: memModes)

/-- Memory only. -/
def memOnly : Pos := .modes memModes

/-- R113: an accumulator's length field is 0b11111. -/
def accLen (sp : BitVec 32) (n : Nat) : Bool := spMode sp != 1 || n == 32

/-- R112: the LEN of two packed operands. -/
def lenTwo (w : Word112) : Bool :=
  !lenFlag w.len && bitsOf w.len.toNat 0 5 == 0 && accLen w.opd1 (lenL1 w.len) && accLen w.opd2 (lenL2 w.len)

/-- The value of a packed source, checked under R177. -/
def readPacked (o : Opnd) (n : Nat) : M Int := do
  let bs ← readOpnd o n
  raiseIf (!packedOk bs) 0x05
  pure (packedVal bs)

/-- R183: deliver a packed value of `n` bytes. -/
def deliverPacked (o : Opnd) (n : Nat) (v : Int) : M Unit := do
  if v.natAbs ≥ capacity n then do
    raiseLate (← getPsw).dom 0x08
    setCc 3
  else setCc (signCc v)
  writeOpnd o (packedBytes n v)

/-- The shape of ADDP, SUBP, CMPP and MULP (R181). -/
def shapeTwoP : Shape := { fmts := [5], opd1 := accOrMem, opd2 := accOrMem, rule := lenTwo }

/-- Form OPD1 (both) and OPD2 (source) and read both, checked. -/
def formTwoP (w : Word112) : M (Opnd × Int × Int) := do
  let o1 ← formOpnd w.opd1 (lenL1 w.len) [.load, .store]
  let o2 ← formOpnd w.opd2 (lenL2 w.len) [.load]
  let b1 ← readOpnd o1 (lenL1 w.len)
  let b2 ← readOpnd o2 (lenL2 w.len)
  raiseIf (!(packedOk b1 && packedOk b2)) 0x05
  pure (o1, packedVal b1, packedVal b2)

/-- R187: the count of the four adding instructions. -/
def addpCount (w : Word112) : Nat := 3 + ceilDiv (max (lenL1 w.len) (lenL2 w.len)) 8

/-- R186: ADDP. -/
def addpBody (m : Mode) (w : Word112) : M Nat := do
  checkShape shapeTwoP w
  let (o, a, b) ← formTwoP w
  deliverPacked o (lenL1 w.len) (decAddUnit m a b)
  pure (addpCount w)

/-- R186: SUBP. -/
def subpBody (m : Mode) (w : Word112) : M Nat := do
  checkShape shapeTwoP w
  let (o, a, b) ← formTwoP w
  deliverPacked o (lenL1 w.len) (decSubUnit m a b)
  pure (addpCount w)

/-- R186: ZAPP. -/
def zappBody (m : Mode) (w : Word112) : M Nat := do
  checkShape shapeTwoP w
  let o1 ← formOpnd w.opd1 (lenL1 w.len) [.store]
  let o2 ← formOpnd w.opd2 (lenL2 w.len) [.load]
  let b ← readPacked o2 (lenL2 w.len)
  deliverPacked o1 (lenL1 w.len) (decPassUnit m b)
  pure (addpCount w)

/-- R186: CMPP. -/
def cmppBody (m : Mode) (w : Word112) : M Nat := do
  checkShape shapeTwoP w
  let o1 ← formOpnd w.opd1 (lenL1 w.len) [.load]
  let o2 ← formOpnd w.opd2 (lenL2 w.len) [.load]
  let b1 ← readOpnd o1 (lenL1 w.len)
  let b2 ← readOpnd o2 (lenL2 w.len)
  raiseIf (!(packedOk b1 && packedOk b2)) 0x05
  setCc (cmpCc (decPassUnit m (packedVal b1)) (decPassUnit m (packedVal b2)))
  pure (addpCount w)

/-- R188, R189, R203: MULP. -/
def mulpBody (m : Mode) (w : Word112) : M Nat := do
  checkShape shapeTwoP w
  let (o, a, b) ← formTwoP w
  if 16 < lenL1 w.len ∨ 16 < lenL2 w.len then takeLeave 40
  deliverPacked o (lenL1 w.len) (decMulUnit m a b)
  pure (6 + lenL2 w.len)

/-- Significant digits of a magnitude of at most 64 digits; `sd 0` is 0 (R191). -/
def sigDigits (n : Nat) : Nat := ((List.range 64).filter (fun i => decide (10 ^ i ≤ n))).length

/-- R190: the encoding of DIVP. -/
def shapeDivp : Shape :=
  { fmts := [5], opd1 := accOrMem, opd2 := accOrMem, opd3 := accOrMem,
    rule := fun w => !lenFlag w.len && accLen w.opd1 (lenL1 w.len) && accLen w.opd2 (lenL2 w.len)
      && accLen w.opd3 (lenL3 w.len) }

/-- R190, R191: DIVP: quotient to OPD1, remainder to OPD2, written in the order remainder, quotient (R182). -/
def divpBody (m : Mode) (w : Word112) : M Nat := do
  checkShape shapeDivp w
  let o1 ← formOpnd w.opd1 (lenL1 w.len) [.store]
  let o2 ← formOpnd w.opd2 (lenL2 w.len) [.load, .store]
  let o3 ← formOpnd w.opd3 (lenL3 w.len) [.load]
  let b2 ← readOpnd o2 (lenL2 w.len)
  let b3 ← readOpnd o3 (lenL3 w.len)
  raiseIf (!(packedOk b2 && packedOk b3)) 0x05
  let a := packedVal b2
  let b := packedVal b3
  raiseIf (decide (b = 0)) 0x09
  let q := decQuotUnit m a b
  raiseIf (decide (q.natAbs ≥ capacity (lenL1 w.len))) 0x09
  takeLeave 60
  writeOpnd o2 (packedBytes (lenL2 w.len) (decRemUnit m a b))
  writeOpnd o1 (packedBytes (lenL1 w.len) q)
  setCc (signCc q)
  pure (12 + max 1 (sigDigits a.natAbs + 1 - sigDigits b.natAbs))

/-- R194: whether a right shift rounds the kept magnitude `m` up, with `r` of `p` dropped. -/
def srppUp (mode : Nat) (neg : Bool) (m r p : Nat) : Bool :=
  match mode with
  | 0 => false
  | 1 => decide (p ≤ 2 * r)
  | 2 => decide (p < 2 * r) || (2 * r == p && m % 2 == 1)
  | 3 => decide (0 < r) && !neg
  | 4 => decide (0 < r) && neg
  | _ => decide (0 < r)

/-- R194: the value of SRPP. -/
def srppValue (a k : Int) (mode : Nat) : Int :=
  if 0 ≤ k then a * (10 ^ k.toNat : Nat)
  else
    let p := 10 ^ (-k).toNat
    let m := a.natAbs / p
    let r := a.natAbs % p
    let m := if srppUp mode (decide (a < 0)) m r p then m + 1 else m
    if a < 0 then -(m : Int) else m

/-- R193: the encoding of SRPP. -/
def shapeSrpp : Shape :=
  { fmts := [5], opd1 := accOrMem, opd2 := .modes [0],
    rule := fun w => !lenFlag w.len && bitsOf w.len.toNat 0 10 == 0 && accLen w.opd1 (lenL1 w.len) }

/-- R193, R194: SRPP. -/
def srppBody (m : Mode) (w : Word112) : M Nat := do
  checkShape shapeSrpp w
  let o ← formOpnd w.opd1 (lenL1 w.len) [.load, .store]
  let ctl ← readVal (← formOpnd w.opd2 8 [.load]) 8
  let k := sextInt 8 ctl
  let mode := bitsOf ctl 8 3
  raiseIf (ctl / 2 ^ 11 != 0 || decide (5 < mode) || decide (63 < k.natAbs)) 0x04
  let a ← readPacked o (lenL1 w.len)
  deliverPacked o (lenL1 w.len) (decPassUnit m (srppValue a k mode))
  pure 4

/-- R195: the encoding of TSTP. -/
def shapeTstp : Shape :=
  { fmts := [5], opd1 := accOrMem,
    rule := fun w => !lenFlag w.len && bitsOf w.len.toNat 0 10 == 0 && accLen w.opd1 (lenL1 w.len) }

/-- R361: the digits that the decimal adder looks at; transformed, each nibble's fifteen's complement, which tells 0 to 9 from the rest. -/
def passDigits (m : Mode) (ds : List Nat) : List Nat :=
  match m with
  | .straight => ds
  | .transformed => (ds.map (15 - ·)).map (15 - ·)

/-- R195: TSTP. -/
def tstpBody (m : Mode) (w : Word112) : M Nat := do
  checkShape shapeTstp w
  let o ← formOpnd w.opd1 (lenL1 w.len) [.load]
  let (ds, sg) := splitPacked (← readOpnd o (lenL1 w.len))
  let badDigit := (passDigits m ds).any (fun d => decide (9 < d))
  setCc (BitVec.ofNat 2 (b2n badDigit * 2 + b2n (!signOk sg)))
  pure 2

/-- The binary operand of CVBP and CVDP: mode 0 or 8 bytes of memory (R181). -/
def binEight : Pos := .modes (0 :: memModes)

/-- R196: the encoding of CVBP. -/
def shapeCvbp : Shape :=
  { fmts := [5], opd1 := binEight, opd2 := accOrMem,
    rule := fun w => !lenFlag w.len && bitsOf w.len.toNat 10 5 == 0 && bitsOf w.len.toNat 0 5 == 0
      && accLen w.opd2 (lenL2 w.len) }

/-- R196: CVBP. -/
def cvbpBody (m : Mode) (w : Word112) : M Nat := do
  checkShape shapeCvbp w
  let o1 ← formOpnd w.opd1 8 [.store]
  let o2 ← formOpnd w.opd2 (lenL2 w.len) [.load]
  let v ← readPacked o2 (lenL2 w.len)
  deliverArith o1 8 (convUnit m v)
  pure 8

/-- R197: the encoding of CVDP. -/
def shapeCvdp : Shape :=
  { fmts := [5], opd1 := accOrMem, opd2 := binEight,
    rule := fun w => !lenFlag w.len && bitsOf w.len.toNat 0 10 == 0 && accLen w.opd1 (lenL1 w.len) }

/-- R197: CVDP. -/
def cvdpBody (m : Mode) (w : Word112) : M Nat := do
  checkShape shapeCvdp w
  let o1 ← formOpnd w.opd1 (lenL1 w.len) [.store]
  let v ← readVal (← formOpnd w.opd2 8 [.load]) 8
  deliverPacked o1 (lenL1 w.len) (convUnit m (signed 64 v))
  pure 10

/-- R200: the count of PACK and UNPK. -/
def packCount (w : Word112) : Nat := 2 + ceilDiv (max (lenL1 w.len) (lenL2 w.len)) 8

/-- R198: the encoding of PACK. -/
def shapePack : Shape :=
  { fmts := [5], opd1 := accOrMem, opd2 := memOnly,
    rule := fun w => bitsOf w.len.toNat 0 5 == 0 && accLen w.opd1 (lenL1 w.len) }

/-- R198: PACK. -/
def packBody (m : Mode) (w : Word112) : M Nat := do
  checkShape shapePack w
  let o1 ← formOpnd w.opd1 (lenL1 w.len) [.store]
  let o2 ← formOpnd w.opd2 (lenL2 w.len) [.load]
  let bs ← readOpnd o2 (lenL2 w.len)
  let ds := bs.map (fun b => b.toNat % 16)
  let sg := (bs.getLast?.map (fun b => b.toNat / 16)).getD 0
  raiseIf (ds.any (fun d => decide (9 < d)) || (!lenFlag w.len && !signOk sg)) 0x05
  let x : Int := digitsNat ds
  deliverPacked o1 (lenL1 w.len) (decPassUnit m (if !lenFlag w.len && isMinus sg then -x else x))
  pure (packCount w)

/-- R199: the bytes of a zoned result. -/
def zonedBytes (n : Nat) (v : Int) (unsigned : Bool) : List Byte :=
  let ds := natDigits n v.natAbs
  ds.dropLast.map (fun d => BitVec.ofNat 8 (0x30 + d))
    ++ (ds.getLast?.toList.map (fun d =>
      BitVec.ofNat 8 ((if unsigned then 0x30 else if v < 0 then 0xD0 else 0xC0) + d)))

/-- R199: the encoding of UNPK. -/
def shapeUnpk : Shape :=
  { fmts := [5], opd1 := memOnly, opd2 := accOrMem,
    rule := fun w => bitsOf w.len.toNat 0 5 == 0 && accLen w.opd2 (lenL2 w.len) }

/-- R199: UNPK. -/
def unpkBody (m : Mode) (w : Word112) : M Nat := do
  checkShape shapeUnpk w
  let o1 ← formOpnd w.opd1 (lenL1 w.len) [.store]
  let o2 ← formOpnd w.opd2 (lenL2 w.len) [.load]
  let v := decPassUnit m (← readPacked o2 (lenL2 w.len))
  if v.natAbs ≥ 10 ^ lenL1 w.len then do
    raiseIf (← getPsw).dom 0x08
    setCc 3
  else setCc (signCc v)
  writeOpnd o1 (zonedBytes (lenL1 w.len) v (lenFlag w.len))
  pure (packCount w)

/-- R201: the encoding of LDA. -/
def shapeLda : Shape :=
  { fmts := [5], opd1 := .modes [1], opd2 := memOnly,
    rule := fun w => !lenFlag w.len && bitsOf w.len.toNat 0 5 == 0 && lenL1 w.len == 32 }

/-- R201: LDA. -/
def ldaBody (m : Mode) (w : Word112) : M Nat := do
  checkShape shapeLda w
  let o1 ← formOpnd w.opd1 32 []
  let o2 ← formOpnd w.opd2 (lenL2 w.len) [.load]
  let bs ← readOpnd o2 (lenL2 w.len)
  writeOpnd o1 (moveUnit m (zeros (32 - lenL2 w.len) ++ bs))
  pure 2

/-- R201: the encoding of STA. -/
def shapeSta : Shape :=
  { fmts := [5], opd1 := memOnly, opd2 := .modes [1],
    rule := fun w => !lenFlag w.len && bitsOf w.len.toNat 0 5 == 0 && lenL2 w.len == 32 }

/-- R201: STA. -/
def staBody (m : Mode) (w : Word112) : M Nat := do
  checkShape shapeSta w
  let o1 ← formOpnd w.opd1 (lenL1 w.len) [.store]
  let bs ← readOpnd (← formOpnd w.opd2 32 []) 32
  writeOpnd o1 (moveUnit m (bs.drop (32 - lenL1 w.len)))
  pure 2

/-- ADDP (R186). -/
def execAddp (i : Issue) (s : State) : Host.Outcome State Fault Refusal := issue (both 0x200 addpBody) i s
/-- SUBP (R186). -/
def execSubp (i : Issue) (s : State) : Host.Outcome State Fault Refusal := issue (both 0x201 subpBody) i s
/-- ZAPP (R186). -/
def execZapp (i : Issue) (s : State) : Host.Outcome State Fault Refusal := issue (both 0x202 zappBody) i s
/-- CMPP (R186). -/
def execCmpp (i : Issue) (s : State) : Host.Outcome State Fault Refusal := issue (both 0x203 cmppBody) i s
/-- MULP (R188). -/
def execMulp (i : Issue) (s : State) : Host.Outcome State Fault Refusal := issue (both 0x204 mulpBody) i s
/-- DIVP (R190). -/
def execDivp (i : Issue) (s : State) : Host.Outcome State Fault Refusal := issue (both 0x205 divpBody) i s
/-- SRPP (R194). -/
def execSrpp (i : Issue) (s : State) : Host.Outcome State Fault Refusal := issue (both 0x206 srppBody) i s
/-- TSTP (R195). -/
def execTstp (i : Issue) (s : State) : Host.Outcome State Fault Refusal := issue (both 0x207 tstpBody) i s
/-- CVBP (R196). -/
def execCvbp (i : Issue) (s : State) : Host.Outcome State Fault Refusal := issue (both 0x208 cvbpBody) i s
/-- CVDP (R197). -/
def execCvdp (i : Issue) (s : State) : Host.Outcome State Fault Refusal := issue (both 0x209 cvdpBody) i s
/-- PACK (R198). -/
def execPack (i : Issue) (s : State) : Host.Outcome State Fault Refusal := issue (both 0x20A packBody) i s
/-- UNPK (R199). -/
def execUnpk (i : Issue) (s : State) : Host.Outcome State Fault Refusal := issue (both 0x20B unpkBody) i s
/-- LDA (R201). -/
def execLda (i : Issue) (s : State) : Host.Outcome State Fault Refusal := issue (both 0x20C ldaBody) i s
/-- STA (R201). -/
def execSta (i : Issue) (s : State) : Host.Outcome State Fault Refusal := issue (both 0x20D staBody) i s

end Sys2Proof.Machine
end

