-- ==== Sys2Proof/Machine/Strings.lean ====
section
/-!
DEFINITION. The long string and edit family (R206 to R237): register operands, address spaces, units with their interruption
points, and the seven instructions. One issue of one of them performs one unit.
-/

namespace Sys2Proof.Machine

/-! ## Operands -/

/-- R210: what an address register holds. -/
inductive Space where
  | logical
  | message
  | scratch
  deriving DecidableEq, Repr

/-- R210: a space field; 0b11 is reserved, and `longRule` refuses it before this is used. -/
def spaceOf (v : Nat) : Space := if v = 1 then .message else if v = 2 then .scratch else .logical

/-- The space field of LEN at bit `lo`. -/
def lenSpace (len : BitVec 16) (lo : Nat) : Space := spaceOf (bitsOf len.toNat lo 2)

/-- R209, R210: the space fields at the bits given hold no reserved value, and the bits of `mask` alone may be set. -/
def lenLegal (len : BitVec 16) (mask : BitVec 16) (spaces : List Nat) : Bool :=
  len &&& ~~~mask == 0 && spaces.all (fun lo => bitsOf len.toNat lo 2 != 3)

/-- R206: the even register of a pair operand, and the register after it. -/
def pairRegs (sp : BitVec 32) : List Nat := [(spBase sp).toNat, (spBase sp).toNat + 1]

/-- R206, R207: pairs are even, and every register named is distinct. -/
def longRegs (pairs singles : List (BitVec 32)) (more : List Nat) : Bool :=
  pairs.all (fun sp => (spBase sp).toNat % 2 == 0)
    && decide ((pairs.flatMap pairRegs ++ singles.map (fun sp => (spBase sp).toNat) ++ more).Nodup)

/-- The register number after `r`. -/
def succReg (r : BitVec 4) : BitVec 4 := r + 1

/-- A length register as a number. -/
def readNat (r : BitVec 4) : M Nat := do return (← readG r).toNat

/-- Advance a pair by `n` bytes. -/
def advancePair (r : BitVec 4) (n : Nat) : M Unit := do
  let a ← readG r
  let l ← readG (succReg r)
  writeG r (a + BitVec.ofNat 64 n)
  writeG (succReg r) (l - BitVec.ofNat 64 n)

/-- Advance a pair that a scan leaves `n` bytes further; one that stays where it is is not written. -/
def advanceScan (r : BitVec 4) (n : Nat) : M Unit := if n = 0 then pure () else advancePair r n

/-- R211: whether an extent is legal in its space. -/
def extentOk (b : Bank) (sp : Space) (a n : Nat) : Bool :=
  match sp with
  | .logical => n == 0 || decide (a + n ≤ 2 ^ 64)
  | .message => b.msg.v && decide (a + n ≤ b.msg.len.toNat)
  | .scratch => decide (a + n ≤ 4096)

/-- R211: check an extent. -/
def checkExtent (sp : Space) (a n : Nat) : M Unit := do
  raiseIf (!extentOk (← getB) sp a n) 0x04

/-- R210: how byte `a` of a space is reached: the route and the address on it. -/
def reachSpace (sp : Space) (a : Nat) : M (Via × Nat) := do
  let c ← get
  match sp with
  | .logical => pure (.logical, a % 2 ^ 64)
  | .message => pure (.physical, c.b.msg.buf.toNat + a)
  | .scratch => pure (.scratch, c.s.block c.b.ctx + 0x1000 + a)

/-- R22: a device range. -/
def State.device (s : State) (a : Nat) : Bool :=
  match rangeOf a with
  | .hob | .reg | .rom | .door => true
  | .far p => s.portMode p != 1
  | .near | .none => false

/-- R212: in logical space a byte in a device range raises 0x04; in user state 0x02 comes first. -/
def noDevice (k : Acc) (sp : Space) (x : Nat) (e : Exc) : M Unit := do
  match sp with
  | .logical => do
    let p ← getPsw
    let pa ← translateAccess k p.te x e
    raiseWhen (!p.sup ∧ protectedRange pa) { e with code := 0x02 }
    raiseWhen ((← get).s.device pa) { e with code := 0x04 }
  | .message | .scratch => pure ()

/-- R220: an exception of an access records the address that the access used, in its operand's space. -/
def recordedAs (e : Exc) (m : M Nat) : M Nat := fun c =>
  match m c with
  | .error (.exc f) c' => .error (.exc { e with code := f.code }) c'
  | .error x c' => .error x c'
  | .ok a c' => .ok a c'

/-- R212, R220, R394: make one access check of a long operand that lies within a line. -/
def longAccess (check : Via → Nat → M Nat) (k : Acc) (sp : Space) (a len : Nat) : M Piece := do
  let (via, x) ← reachSpace sp a
  let e := accessExc k via x false (← scratchCt)
  let pa ← keptReach (recordedAs e (do
    noDevice k sp x e
    check via x))
  pure { la := x, pa := pa, len := len, own := false }

/-- Check one access of a long operand up to its data. -/
def longReach (k : Acc) (sp : Space) (a len : Nat) : M Piece := longAccess (fun via x => reachAccess k via x len len false) k sp a len

/-- Check one access of a long operand, and its data when it loads. -/
def longCheck (k : Acc) (sp : Space) (a len : Nat) : M Piece := longAccess (fun via x => checkAccess k via x len len false) k sp a len

/-- R134: the pieces of a range of a space, cut at the lines it is reached by. -/
def longPieces (sp : Space) (a n : Nat) : M (List (Nat × Nat)) := do
  let (_, x) ← reachSpace sp a
  pure ((pieces x n).map (fun (y, k) => (a + (y - x), k)))

/-- Check a range of a long operand, piece by piece. -/
def longRange (k : Acc) (sp : Space) : List (Nat × Nat) → M (List Piece)
  | [] => pure []
  | (a, n) :: t => do
    let p ← longCheck k sp a n
    awaitLines [p]
    let rest ← longRange k sp t
    pure (p :: rest)

/-- Check a range of `n` bytes from `a` of a space. -/
def longOpnd (k : Acc) (sp : Space) (a n : Nat) : M (List Piece) := do longRange k sp (← longPieces sp a n)

/-- Read `n` bytes from `a` of a space. -/
def longRead (sp : Space) (a n : Nat) : M (List Byte) := do readPieces (← longOpnd .load sp a n) false

/-- Write bytes at `a` of a space. -/
def longWrite (sp : Space) (a : Nat) (bs : List Byte) : M Unit := do
  writePieces (← longOpnd .store sp a bs.length) bs

/-! ## Units and interruption points -/

/-- R217: whether the next byte of an operand lies in another page than its byte before, `k` bytes into the unit. -/
def crossesAt (a k : Nat) : Bool := 0 < k && (a + k) % 4096 == 0

/-- R217: the interruption points inside a unit of `n` bytes over operands given by address and bytes in the unit. -/
def unitPoints (ops : List (Nat × Nat)) (n : Nat) : List Nat :=
  (List.range n).filter (fun k => ops.any (fun (a, len) => decide (k < len) && crossesAt a k))

/-- R290: in open timing each page that an operand crosses within a unit is charged. -/
def noteCrossings (n : Nat) : M Unit :=
  if n = 0 then pure () else noteAccess { kind := .load, pa := 0, len := 0, own := true, align := 4 * n }

/-- R217: the page crossings among the first `j` bytes of a unit. -/
def crossings (ops : List (Nat × Nat)) (j : Nat) : Nat :=
  ((List.range j).map (fun k => ops.countP (fun (a, len) => decide (k < len) && crossesAt a k))).sum

/-- Run work, and hand back the exception it raises, if any. -/
def caught {α : Type} (m : M α) : M (Except Exc α) := fun c =>
  match m c with
  | .ok a c' => .ok (.ok a) c'
  | .error (.exc e) c' => .ok (.error e) c'
  | .error x c' => .error x c'

/-- How far a unit goes (R218): its bytes, whether a scan stopped there, and the exception that the next access raises. -/
structure Reached where
  bytes : Nat
  stop  : Bool
  exc   : Option Exc

/-- R218: an alarm is pending and enabled. -/
def alarmDue : M Bool := do
  let c ← get
  return (c.s.alarmOf c.b).isSome

/-- R218: whether an alarm is taken at an interruption point that execution reaches: one that was due then. A point that execution has
passed stays passed while what it has done is replayed. -/
def alarmHere : M Bool := do
  match (← get).replay with
  | [] =>
    if ← alarmDue then pure true
    else do
      let _ ← keptReach (pure 0)
      pure false
  | _ :: _ => do
    let _ ← keptReach (pure 0)
    pure false

/-- R218, R220: go through a unit from byte `k` along its interruption points. `first p` makes the first accesses beyond
point `p`; `seg k p` makes the accesses of bytes `k` to `p` and answers where a scan stops. -/
def scanUnit (n : Nat) (first : Nat → M Unit) (seg : Nat → Nat → M (Option Nat)) (k : Nat) : List Nat → M Reached
  | [] => do
    match ← seg k n with
    | some j => pure { bytes := j, stop := true, exc := none }
    | none => pure { bytes := n, stop := false, exc := none }
  | p :: t => do
    match ← seg k p with
    | some j => pure { bytes := j, stop := true, exc := none }
    | none =>
      if ← alarmHere then pure { bytes := p, stop := false, exc := none }
      else match ← caught (first p) with
        | .error e => pure { bytes := p, stop := false, exc := some e }
        | .ok () => scanUnit n first seg p t

/-- R218: the interruption points a unit uses: none under refire (R221). -/
def usablePoints (ps : List Nat) : M (List Nat) := do
  return if (← getPsw).rf then [] else ps

/-- R218, R220: a part of a unit commits as a unit of its own, charged `count`, and then the next access raises `e`,
which takes the place of a debug step of the part (DESIGN CHOICE, assumption log 58). -/
def commitPart {α : Type} (count : Nat) (e : Exc) : M α := do
  modify (fun c =>
    let b := { c.b.setPsw { c.b.psw with ip := true } with
      charged := c.b.charged + count, slice := c.b.slice + count, cont := true }
    { c with b := b, ck := b })
  raise e

/-- R218: commit `r.bytes` bytes of a unit over operands `ops` with `commit`, whose value says whether the instruction is complete, at
`count`. -/
def finishUnit (ops : List (Nat × Nat)) (r : Reached) (commit : Nat → Bool → M Bool) (count : Nat → Nat) : M Nat := do
  let done ← commit r.bytes r.stop
  noteCrossings (crossings ops r.bytes)
  match r.exc with
  | some e => commitPart (count r.bytes) e
  | none => do
    if done then clearIp else setNext .stay
    pure (count r.bytes)

/-- R236: the count of MOVL, CMPL and SRCH. -/
def countMove (n : Nat) : Nat := 3 + ceilDiv n 32

/-- R236: the count of TRL and TRTL. -/
def countTable (n : Nat) : Nat := 3 + ceilDiv n 8

/-! ## MOVL, CMPL, SRCH -/

/-- R206: a pair or a single operand is a mode 0 specifier. -/
def regOnly : Pos := .modes [0]

/-- R208, R209: the shape of MOVL and CMPL. -/
def shapeMovl : Shape :=
  { fmts := [0], opd1 := regOnly, opd2 := regOnly, repeats := false,
    rule := fun w => longRegs [w.opd1, w.opd2] [] [] && lenLegal w.len 0x0FFF [8, 10] }

/-- The padding byte. -/
def padByte (len : BitVec 16) : Byte := BitVec.ofNat 8 len.toNat

/-- The operands of a MOVL or CMPL: two pairs with their spaces, addresses and lengths, and the padding byte. -/
structure PairForm where
  d   : BitVec 4
  r   : BitVec 4
  sd  : Space
  ss  : Space
  gd  : Nat
  ld  : Nat
  gs  : Nat
  ls  : Nat
  pad : Byte
  deriving DecidableEq, Repr

/-- R207, R210, R211: the operands of a MOVL or CMPL, with their extents checked. -/
def formPairs (w : Word112) : M PairForm := do
  let d := spBase w.opd1
  let r := spBase w.opd2
  let x : PairForm := { d := d, r := r, sd := lenSpace w.len 8, ss := lenSpace w.len 10, gd := ← readNat d, ld := ← readNat (succReg d),
                        gs := ← readNat r, ls := ← readNat (succReg r), pad := padByte w.len }
  checkExtent x.sd x.gd x.ld
  checkExtent x.ss x.gs x.ls
  pure x

/-- R224: a destination that starts inside the source's bytes. -/
def PairForm.overlaps (x : PairForm) : Bool :=
  decide (x.sd = x.ss ∧ x.gs < x.gd ∧ x.gd < x.gs + min x.ld x.ls)

/-- The destination bytes of one unit of a MOVL. -/
def PairForm.moveLen (x : PairForm) : Nat := min 256 x.ld

/-- The operands of one unit of a MOVL: address and bytes in the unit. -/
def PairForm.moveOps (x : PairForm) : List (Nat × Nat) := [(x.gd, x.moveLen), (x.gs, min x.moveLen x.ls)]

/-- R217, R218: how far one unit of a MOVL goes. -/
def PairForm.moveReach (x : PairForm) : M Reached := do
  let n := x.moveLen
  let m := min n x.ls
  let points ← usablePoints (unitPoints x.moveOps n)
  let first (p : Nat) : M Unit := do
    if p < m && crossesAt x.gs p then let _ ← longCheck .load x.ss (x.gs + p) 1
    if crossesAt x.gd p then let _ ← longCheck .store x.sd (x.gd + p) 1
  let seg (k p : Nat) : M (Option Nat) := do
    let _ ← longOpnd .load x.ss (x.gs + k) (min p m - k)
    let _ ← longOpnd .store x.sd (x.gd + k) (p - k)
    pure none
  scanUnit n first seg 0 points

/-- R223: commit `j` bytes of a MOVL; whether it is complete. -/
def PairForm.moveCommit (x : PairForm) (m : Mode) (j : Nat) : M Bool := do
  let i := min j (min x.moveLen x.ls)
  let bs ← longRead x.ss x.gs i
  longWrite x.sd x.gd (moveUnit m (bs ++ List.replicate (j - i) x.pad))
  if 0 < x.moveLen then do
    advancePair x.d j
    advancePair x.r i
  if j = x.ld then do
    setCc (cmpCc x.ld x.ls)
    pure true
  else pure false

/-- R223: MOVL. -/
def movlBody (m : Mode) (w : Word112) : M Nat := do
  checkShape shapeMovl w
  let x ← formPairs w
  if x.overlaps then do
    setCc 3
    pure 3
  else finishUnit x.moveOps (← x.moveReach) (fun j _ => x.moveCommit m j) countMove

/-- The index of the first member that passes a test. -/
def firstIndex {α : Type} (p : α → Bool) : List α → Option Nat
  | [] => none
  | x :: t => if p x then some 0 else (firstIndex p t).map (· + 1)

/-- The 64-byte steps from `k` to `p` at which a scan reads: each within one line of each operand. -/
def scanSteps (addrs : List Nat) (k p : Nat) : List (Nat × Nat) :=
  let cuts := (List.range (p - k)).filter (fun i => i == 0 || addrs.any (fun a => (a + k + i) % 64 == 0))
  cuts.map (fun i => (k + i, ((cuts.find? (fun j => decide (i < j))).getD (p - k)) - i))

/-- Read step by step and stop after the first byte that `hit` names: the bytes examined. -/
def scanRead {α : Type} (read : Nat → Nat → M (List α)) (hit : α → Bool) : List (Nat × Nat) → M (Option Nat)
  | [] => pure none
  | (k, n) :: t => do
    match firstIndex hit (← read k n) with
    | some i => pure (some (k + i + 1))
    | none => scanRead read hit t

/-- Bytes `k` to `k + n` of an operand of `len` bytes, padded. -/
def readPadded (sp : Space) (a len : Nat) (pad : Byte) (k n : Nat) : M (List Byte) := do
  let i := min n (len - k)
  let bs ← longRead sp (a + k) i
  pure (bs ++ List.replicate (n - i) pad)

/-- The bytes of one unit of a CMPL. -/
def PairForm.compareLen (x : PairForm) : Nat := min 256 (max x.ld x.ls)

/-- Bytes `k` to `k + j` of both operands of a CMPL, padded, in pairs. -/
def PairForm.bothAt (x : PairForm) (k j : Nat) : M (List (Byte × Byte)) := do
  let bx ← readPadded x.sd x.gd x.ld x.pad k j
  let by' ← readPadded x.ss x.gs x.ls x.pad k j
  pure (bx.zip by')

/-- The operands of one unit of a CMPL: address and bytes in the unit. -/
def PairForm.compareOps (x : PairForm) : List (Nat × Nat) :=
  [(x.gd, min x.compareLen x.ld), (x.gs, min x.compareLen x.ls)]

/-- R217, R218: how far one unit of a CMPL goes, and whether two bytes differ there. Where both operands fault, the first operand's
exception is raised (DESIGN CHOICE, assumption log 58). -/
def PairForm.compareReach (x : PairForm) : M Reached := do
  let n := x.compareLen
  let points ← usablePoints (unitPoints x.compareOps n)
  let (_, ax) ← reachSpace x.sd x.gd
  let (_, ay) ← reachSpace x.ss x.gs
  let first (p : Nat) : M Unit := do
    if p < x.ld && crossesAt x.gd p then let _ ← longCheck .load x.sd (x.gd + p) 1
    if p < x.ls && crossesAt x.gs p then let _ ← longCheck .load x.ss (x.gs + p) 1
  let seg (k p : Nat) : M (Option Nat) := scanRead x.bothAt (fun (a, b) => a != b) (scanSteps [ax, ay] k p)
  scanUnit n first seg 0 points

/-- R225: commit `j` bytes of a CMPL, the last of which differs when `stop`; whether it is complete. -/
def PairForm.compareCommit (x : PairForm) (j : Nat) (stop : Bool) : M Bool := do
  let eq := if stop then j - 1 else j
  advanceScan x.d (min eq x.ld)
  advanceScan x.r (min eq x.ls)
  if stop then do
    let p ← x.bothAt eq 1
    setCc (match p with
      | (a, b) :: _ => if a.toNat < b.toNat then 1 else 2
      | [] => 0)
    pure true
  else if j = max x.ld x.ls then do
    setCc 0
    pure true
  else pure false

/-- R225: CMPL. -/
def cmplBody (w : Word112) : M Nat := do
  checkShape shapeMovl w
  let x ← formPairs w
  finishUnit x.compareOps (← x.compareReach) x.compareCommit countMove

/-- One scanned operand: its pair, space, address and length. -/
structure ScanForm where
  r  : BitVec 4
  sp : Space
  g  : Nat
  l  : Nat
  deriving DecidableEq, Repr

/-- R207, R210, R211: the operand that SRCH, TRL and TRTL scan, with its extent checked. -/
def formScan (w : Word112) : M ScanForm := do
  let r := spBase w.opd1
  let x : ScanForm := { r := r, sp := lenSpace w.len 8, g := ← readNat r, l := ← readNat (succReg r) }
  checkExtent x.sp x.g x.l
  pure x

/-- The bytes of one unit of a scan. -/
def ScanForm.len (x : ScanForm) : Nat := min 256 x.l

/-- R228: the byte SRCH looks for. -/
def srchHit (w : Word112) (b : Byte) : Bool := if lenFlag w.len then b != padByte w.len else b == padByte w.len

/-- R217, R218: how far one unit of a SRCH goes, and whether it found the byte there. -/
def ScanForm.srchReach (x : ScanForm) (w : Word112) : M Reached := do
  let points ← usablePoints (unitPoints [(x.g, x.len)] x.len)
  let (_, a) ← reachSpace x.sp x.g
  let first (p : Nat) : M Unit := do let _ ← longCheck .load x.sp (x.g + p) 1
  let seg (k p : Nat) : M (Option Nat) := scanRead (fun k j => longRead x.sp (x.g + k) j) (srchHit w) (scanSteps [a] k p)
  scanUnit x.len first seg 0 points

/-- R228: commit `j` bytes of a SRCH, the last of which is the one looked for when `stop`; whether it is complete. -/
def ScanForm.srchCommit (x : ScanForm) (j : Nat) (stop : Bool) : M Bool := do
  advanceScan x.r (if stop then j - 1 else j)
  if stop then do
    setCc 1
    pure true
  else if j = x.l then do
    setCc 2
    pure true
  else pure false

/-- R228: the encoding of SRCH. -/
def shapeSrch : Shape :=
  { fmts := [0], opd1 := regOnly, repeats := false,
    rule := fun w => longRegs [w.opd1] [] [] && lenLegal w.len 0x83FF [8] }

/-- R228: SRCH. -/
def srchBody (w : Word112) : M Nat := do
  checkShape shapeSrch w
  let x ← formScan w
  finishUnit [(x.g, x.len)] (← x.srchReach w) x.srchCommit countMove

/-! ## TRL and TRTL -/

/-- R217: translate and check both pages of a table at the start of a unit. A refire pair's line set holds the whole table (R351). -/
def checkTable (sp : Space) (t : Nat) : M Unit := do
  let n := min 256 (4096 - t % 4096)
  let p ← longReach .load sp t 1
  let q ← if n < 256 then (do return [{ ← longReach .load sp (t + n) 1 with len := 256 - n }]) else pure []
  if (← get).pass = .form then awaitLines ({ p with len := n } :: q) else pure ()

/-- The table byte of each byte of a list. -/
def lookup (sp : Space) (t : Nat) : List Byte → M (List Byte)
  | [] => pure []
  | b :: rest => do
    let v ← longRead sp (t + b.toNat) 1
    let vs ← lookup sp t rest
    pure (v ++ vs)

/-- The operands of a TRL or TRTL: what is scanned, and the table's space and address. -/
structure TableForm where
  x  : ScanForm
  st : Space
  t  : Nat
  deriving DecidableEq, Repr

/-- R207, R210, R211, R217: the operands of a TRL or TRTL, with their extents and the table's pages checked. -/
def formTable (w : Word112) : M TableForm := do
  let r := spBase w.opd1
  let x : ScanForm := { r := r, sp := lenSpace w.len 8, g := ← readNat r, l := ← readNat (succReg r) }
  let f : TableForm := { x := x, st := lenSpace w.len 10, t := ← readNat (spBase w.opd2) }
  checkExtent x.sp x.g x.l
  checkExtent f.st f.t 256
  checkTable f.st f.t
  pure f

/-- The table bytes of bytes `k` to `k + j` of the scanned operand. -/
def TableForm.functions (f : TableForm) (k j : Nat) : M (List Byte) := do lookup f.st f.t (← longRead f.x.sp (f.x.g + k) j)

/-- R217, R218: how far one unit of a TRL goes. -/
def TableForm.trlReach (f : TableForm) : M Reached := do
  let x := f.x
  let points ← usablePoints (unitPoints [(x.g, x.len)] x.len)
  let first (p : Nat) : M Unit := do
    let _ ← longCheck .load x.sp (x.g + p) 1
    let _ ← longCheck .store x.sp (x.g + p) 1
  let seg (k p : Nat) : M (Option Nat) := do
    let _ ← f.functions k (p - k)
    let _ ← longOpnd .store x.sp (x.g + k) (p - k)
    pure none
  scanUnit x.len first seg 0 points

/-- R226: commit `j` bytes of a TRL; whether it is complete. -/
def TableForm.trlCommit (f : TableForm) (j : Nat) : M Bool := do
  let bs ← f.functions 0 j
  longWrite f.x.sp f.x.g bs
  advanceScan f.x.r j
  pure (j == f.x.l)

/-- R226: the encoding of TRL. -/
def shapeTrl : Shape :=
  { fmts := [0], opd1 := regOnly, opd2 := regOnly, repeats := false,
    rule := fun w => longRegs [w.opd1] [w.opd2] [] && lenLegal w.len 0x0F00 [8, 10] }

/-- R226: TRL. -/
def trlBody (w : Word112) : M Nat := do
  checkShape shapeTrl w
  let f ← formTable w
  finishUnit [(f.x.g, f.x.len)] (← f.trlReach) (fun j _ => f.trlCommit j) countTable

/-- R217, R218: how far one unit of a TRTL goes, and whether a function byte is not zero there. -/
def TableForm.trtlReach (f : TableForm) : M Reached := do
  let x := f.x
  let points ← usablePoints (unitPoints [(x.g, x.len)] x.len)
  let (_, a) ← reachSpace x.sp x.g
  let first (p : Nat) : M Unit := do let _ ← longCheck .load x.sp (x.g + p) 1
  let perByte (k p : Nat) : List (Nat × Nat) := (scanSteps [a] k p).flatMap (fun (i, j) => (List.range j).map (fun y => (i + y, 1)))
  let seg (k p : Nat) : M (Option Nat) := scanRead f.functions (fun v => v != 0) (perByte k p)
  scanUnit x.len first seg 0 points

/-- R227: commit `j` bytes of a TRTL, the last of which has a function byte when `stop`; whether it is complete. -/
def TableForm.trtlCommit (f : TableForm) (to3 : BitVec 4) (j : Nat) (stop : Bool) : M Bool := do
  if stop then do
    let fs ← f.functions (j - 1) 1
    advanceScan f.x.r (j - 1)
    writeG to3 (BitVec.ofNat 64 (leNat (fs.take 1)))
    setCc (if j = f.x.l then 2 else 1)
    pure true
  else do
    advanceScan f.x.r j
    if j = f.x.l then setCc 0
    pure (j == f.x.l)

/-- R227: the encoding of TRTL. -/
def shapeTrtl : Shape :=
  { fmts := [0], opd1 := regOnly, opd2 := regOnly, opd3 := regOnly, repeats := false,
    rule := fun w => longRegs [w.opd1] [w.opd2, w.opd3] [] && lenLegal w.len 0x0F00 [8, 10] }

/-- R227: TRTL. -/
def trtlBody (w : Word112) : M Nat := do
  checkShape shapeTrtl w
  let f ← formTable w
  finishUnit [(f.x.g, f.x.len)] (← f.trtlReach) (f.trtlCommit (spBase w.opd3)) countTable

/-! ## EDIT and EDMK -/

/-- R230: the companion register's fields that the instruction owns, with significance, the three addresses and the pattern's
length, as one unit advances them, the mark once the unit has written it, and whether the unit has written the companion. -/
structure EditState where
  nib  : Bool
  nz   : Bool
  neg  : Bool
  seen : Bool
  run  : Bool
  sig  : Bool
  gd   : Word
  gs   : Word
  gp   : Word
  gl   : Word
  mark : Option Word
  own  : Bool
  deriving DecidableEq, Repr

/-- The operands of an EDIT or EDMK: FILL, FLOAT, the three spaces, and whether it is EDMK. -/
structure EditForm where
  fill : Byte
  flt  : Byte
  sd   : Space
  ss   : Space
  sp   : Space
  mark : Bool

/-- R231: the state and the output after a digit place or zero-keeping place `p` consumes source byte `b`; none when the
digit is not one. -/
def EditState.digit (e : EditState) (f : EditForm) (p b : Nat) : Option (EditState × Byte) :=
  let d := if e.nib then b % 16 else b / 16
  if 9 < d then none
  else
    let on := e.sig || d != 0 || p == 0xF1
    let out : Byte := if on then BitVec.ofNat 8 (0x30 + d) else f.fill
    let low := b % 16
    let seen := e.seen || (!e.sig && on)
    let e' : EditState := { e with sig := on, seen := seen, nz := e.nz || d != 0, run := false, own := true }
    if e.nib then some ({ e' with nib := false, gs := e.gs + 1 }, out)
    else if low ≤ 9 then some ({ e' with nib := true }, out)
    else some ({ e' with neg := e.neg || isMinus low, gs := e.gs + 1 }, out)

/-- R231: the state and the output after a pattern byte that consumes no digit. -/
def EditState.other (e : EditState) (f : EditForm) (p : Byte) : EditState × Byte :=
  if p = 0xF2 then ({ e with sig := false, nz := false, neg := false, seen := false, run := false, own := true }, f.fill)
  else if p = 0xF3 then ({ e with run := true, own := true }, f.fill)
  else if e.run then (e, if e.neg then p else f.fill)
  else (e, if e.sig then p else f.fill)

/-- R231: the end of one pattern byte: the mark, and the three advances. -/
def EditState.next (e : EditState) (f : EditForm) : EditState :=
  { e with mark := if f.mark && !e.sig then some e.gd else e.mark, gd := e.gd + 1, gp := e.gp + 1, gl := e.gl - 1 }

/-- A point inside an EDIT unit: the pattern bytes done, the state there, the bytes to store, the source byte last read in the unit, and
the page crossings so far. -/
structure EditAt where
  done  : Nat
  st    : EditState
  out   : List Byte
  src   : Option Word := none
  cross : Nat := 0

/-- R218: an access of a unit. When it is the first beyond an interruption point, the unit ends before it if an alarm is taken there,
or if it faults. -/
def beyond {α : Type} (point : Bool) (access : M α) : M (Except (Option Exc) α) := do
  if !point then return .ok (← access)
  else if ← alarmHere then pure (.error none)
  else match ← caught access with
    | .ok a => pure (.ok a)
    | .error e => pure (.error (some e))

/-- R217: the operand whose next byte is at `a` crosses a page, when its byte before it in the unit was at `last`. -/
def leavesPage (last : Option Word) (a : Word) : Bool := (last.map (fun l => l.toNat / 4096 != a.toNat / 4096)).getD false

/-- R211, R231, R218: one pattern byte: reads the pattern, the source when it consumes a digit, and checks the store, in this order
(DESIGN CHOICE, assumption log 58). A source byte outside its space raises 0x04 without FADDR and ends the unit whole (DESIGN CHOICE,
assumption log 58). `points` tells whether interruption points are used. -/
def editByte (f : EditForm) (points : Bool) (x : EditAt) : M (Except (Option Exc) EditAt) := do
  let e := x.st
  let crossP := x.done != 0 && e.gp.toNat % 4096 == 0
  let crossD := x.done != 0 && e.gd.toNat % 4096 == 0
  match ← beyond (points && crossP) (longRead f.sp e.gp.toNat 1) with
  | .error stop => pure (.error stop)
  | .ok pb =>
    let p := (pb.head?).getD 0
    let digit := p == 0xF0 || p == 0xF1
    let crossS := digit && leavesPage x.src e.gs
    raiseIf (digit && !extentOk (← getB) f.ss e.gs.toNat 1) 0x04
    match ← (if digit then beyond (points && crossS) (longRead f.ss e.gs.toNat 1) else pure (.ok [])) with
    | .error stop => pure (.error stop)
    | .ok sb =>
      match (if digit then e.digit f p.toNat ((sb.head?).getD 0).toNat else some (e.other f p)) with
      | none => raiseCode 0x05
      | some (e', out) =>
        match ← beyond (points && crossD) (longCheck .store f.sd e.gd.toNat 1) with
        | .error stop => pure (.error stop)
        | .ok _ => pure (.ok
          { done := x.done + 1, st := e'.next f, out := x.out ++ [out], src := if digit then some e.gs else x.src,
            cross := x.cross + b2n crossP + b2n crossS + b2n crossD })

/-- R231, R218: the pattern bytes of one unit, stopping at an interruption point where an alarm is due or the next access
faults. -/
def editUnit (f : EditForm) (points : Bool) : Nat → EditAt → M (EditAt × Option Exc)
  | 0, x => pure (x, none)
  | n + 1, x => do
    match ← editByte f points x with
    | .ok y => editUnit f points n y
    | .error stop => pure (x, stop)

/-- R230: the companion register after a unit. -/
def EditState.companion (e : EditState) (g : Word) : Word :=
  BitVec.ofNat 64 (g.toNat % 2 ^ 16 + b2n e.nib * 2 ^ 16 + b2n e.nz * 2 ^ 17 + b2n e.neg * 2 ^ 18 + b2n e.seen * 2 ^ 19
    + b2n e.run * 2 ^ 20)

/-- The operands of one issue of an EDIT or EDMK: the form, the companion's register and value, the mark register and the start
of the unit. -/
structure EditOpnds where
  f     : EditForm
  rc    : BitVec 4
  gc    : Word
  rm    : BitVec 4
  gm    : Word
  start : EditState

/-- R230 to R233: the operands of an EDIT or EDMK, checked; none when there is nothing to edit. -/
def formEdit (isMark : Bool) (w : Word112) : M (Option EditOpnds) := do
  let rd := spBase w.opd1
  let rp := spBase w.opd2
  let rc := spBase w.opd3
  let rm : BitVec 4 := BitVec.ofNat 4 (bitsOf w.len.toNat 0 4)
  let p ← getPsw
  let gc ← readG rc
  let gd ← readG rd
  let gs ← readG (succReg rd)
  let gp ← readG rp
  let gl ← readG (succReg rp)
  let f : EditForm := { fill := BitVec.ofNat 8 gc.toNat, flt := BitVec.ofNat 8 (gc.toNat / 256),
                        sd := lenSpace w.len 8, sp := lenSpace w.len 10, ss := lenSpace w.len 12, mark := isMark }
  checkExtent f.sd gd.toNat gl.toNat
  checkExtent f.sp gp.toNat gl.toNat
  raiseIf (gc.toNat / 2 ^ 21 != 0 || (p.ip && !p.esV)) 0x04
  if !p.ip && gl == 0 then pure none
  else do
    let bit (i : Nat) : Bool := p.ip && bitAt gc.toNat i
    let gm ← readG rm
    let start : EditState :=
      { nib := bit 16, nz := bit 17, neg := bit 18, seen := bit 19, run := bit 20, sig := p.ip && p.esSig,
        gd := gd, gs := gs, gp := gp, gl := gl, mark := if p.ip then none else some (gd - 1), own := !p.ip }
    pure (some { f := f, rc := rc, gc := gc, rm := rm, gm := gm, start := start })

/-- R231, R234: store the bytes of a unit, and the float character at the mark when the pattern ends; outside its space that raises 0x04
without FADDR and ends the unit whole (DESIGN CHOICE, assumption log 58). -/
def EditOpnds.store (x : EditOpnds) (at' : EditAt) : M Unit := do
  let e := at'.st
  let ps ← longOpnd .store x.f.sd x.start.gd.toNat at'.out.length
  if e.gl == 0 && x.f.mark && e.seen && x.f.flt != 0 then do
    let m := (e.mark.getD x.gm).toNat
    checkExtent x.f.sd m 1
    let ms ← longOpnd .store x.f.sd m 1
    writePieces ps at'.out
    writePieces ms [x.f.flt]
  else writePieces ps at'.out

/-- R230 to R235: the registers, the status and CC after a unit. -/
def EditOpnds.commit (x : EditOpnds) (w : Word112) (e : EditState) : M Unit := do
  let rd := spBase w.opd1
  let rp := spBase w.opd2
  let last := e.gl == 0
  if e.gl != x.start.gl then do
    writeG rd e.gd
    writeG (succReg rd) e.gs
    writeG rp e.gp
    writeG (succReg rp) e.gl
  if e.own then writeG x.rc (e.companion x.gc)
  match x.f.mark, e.mark with
  | true, some m => writeG x.rm m
  | _, _ => pure ()
  modPsw (fun q => { q with esSig := e.sig && !last, esV := !last })
  if last then setCc (if !e.nz then 0 else if e.neg then 1 else 2)

/-- R231: the encoding of EDIT. -/
def shapeEdit (isMark : Bool) : Shape :=
  { fmts := [0], opd1 := regOnly, opd2 := regOnly, opd3 := regOnly, repeats := false,
    rule := fun w => longRegs [w.opd1, w.opd2] [w.opd3] (if isMark then [bitsOf w.len.toNat 0 4] else [])
      && lenLegal w.len (if isMark then 0x3F0F else 0x3F00) [8, 10, 12] }

/-- R231 to R235: EDIT and EDMK. -/
def editAny (isMark : Bool) (w : Word112) : M Nat := do
  checkShape (shapeEdit isMark) w
  match ← formEdit isMark w with
  | none => do
    setCc 0
    pure 4
  | some x => do
    let p ← getPsw
    let (at', exc) ← editUnit x.f (!p.rf) (min 64 x.start.gl.toNat) { done := 0, st := x.start, out := [] }
    noteCrossings at'.cross
    x.store at'
    x.commit w at'.st
    match exc with
    | some e => commitPart (4 + at'.done) e
    | none => do
      if at'.st.gl == 0 then clearIp else setNext .stay
      pure (4 + at'.done)

/-- R231: EDIT. -/
def editBody (w : Word112) : M Nat := editAny false w

/-- R231, R234: EDMK. -/
def edmkBody (w : Word112) : M Nat := editAny true w

/-- MOVL (R223). -/
def execMovl (i : Issue) (s : State) : Host.Outcome State Fault Refusal := issue (both 0x300 movlBody) i s
/-- CMPL (R225). -/
def execCmpl (i : Issue) (s : State) : Host.Outcome State Fault Refusal := issue (same 0x301 cmplBody) i s
/-- TRL (R226). -/
def execTrl (i : Issue) (s : State) : Host.Outcome State Fault Refusal := issue (same 0x302 trlBody) i s
/-- TRTL (R227). -/
def execTrtl (i : Issue) (s : State) : Host.Outcome State Fault Refusal := issue (same 0x303 trtlBody) i s
/-- SRCH (R228). -/
def execSrch (i : Issue) (s : State) : Host.Outcome State Fault Refusal := issue (same 0x304 srchBody) i s
/-- EDIT (R231). -/
def execEdit (i : Issue) (s : State) : Host.Outcome State Fault Refusal := issue (same 0x305 editBody) i s
/-- EDMK (R231). -/
def execEdmk (i : Issue) (s : State) : Host.Outcome State Fault Refusal := issue (same 0x306 edmkBody) i s

end Sys2Proof.Machine
end

