-- ==== Sys2Proof/Machine/Ledger.lean ====
section
/-!
DEFINITION. The ledger family: POST (R238 to R251), JAPP (R261, R262) and DURW (R267), with the balances' own access rule (R239).
-/

namespace Sys2Proof.Machine

/-! ## Ring checks of a context -/

/-- R290: a context's instruction reads a ring table entry. -/
def ringRead (r : Nat) : M Ring := do
  let c ← get
  let a := c.s.ringAt r
  noteAccess { kind := .load, pa := a, len := 64, own := false, align := 0 }
  noteAccess { kind := .load, pa := a + 64, len := 64, own := false, align := 0 }
  pure (c.s.ring r)

/-- R244, R248, R262: a context's instruction reads a ring table entry, waiting while another claims it. `inSet` is whether a refire
pair has it in its line set: for DURW, as POST and JAPP claim it (R359). -/
def ringNow (inSet : Bool) (r : Nat) : M Ring := do
  let c ← get
  let a := c.s.ringAt r
  let ps : List Piece := [{ la := a, pa := a, len := 64, own := false }, { la := a + 64, pa := a + 64, len := 64, own := false }]
  if inSet || c.pass != .form then awaitLines ps
  ringRead r

/-- R255: the checks of POST, JAPP, DURW and SAMPLE on a ring table entry that `read` reads, made once in an execution. An entry with
poison raises 0x21 before the others (DESIGN CHOICE, assumption log 54). -/
def checkRingBy (read : M Ring) (r : Nat) : M Unit := do
  let _ ← keptRead (do
    let e ← read
    let c ← get
    let at' (code : Nat) : Exc := { code := code, fav := true, phys := true, faddr := c.s.ringAt r }
    modS (·.markRange (c.s.ringAt r) 128 false)
    if c.s.anyPoison (c.s.ringAt r) 128 then raise (at' 0x21)
    if !c.s.ringOk e then raise (at' 0x1A)
    if c.b.psw.key ≠ 0 ∧ c.b.psw.key.toNat ≠ e.key then raise (at' 0x10)
    pure [])

/-- R255: the checks of POST, JAPP and DURW on a ring table entry. -/
def checkRing (inSet : Bool) (r : Nat) : M Unit := checkRingBy (ringNow inSet r) r

/-- A ring number operand. -/
def ringOperand (sp : BitVec 32) : M Nat := do readVal (← formOpnd sp 8 [.load]) 8

/-- R261: a ring number is below 4,096; of an immediate the rule does not say so (DESIGN CHOICE, assumption log 54). -/
def ringNumber (r : Nat) : M Unit := raiseIf (decide (4096 ≤ r)) 0x04

/-- R244, R249, R262, R359: claim a ring; its entry as it stands under the claim. -/
def claimRing (r : Nat) : M Ring := do
  claimUnits (linesTouched ((← get).s.ringAt r) 128)
  ringNow false r

/-- R244, R262, R250: append a record under the claim, on the hearth's SM3 unit. -/
def appendRecord (r : Nat) (body : List Byte) : M Unit := do
  awaitSm3
  let c ← get
  let ws : List (Nat × List Byte) := (c.s.ring r).appendWrites (c.s.ringAt r) body
  let made (x : Nat × List Byte) : Access := { kind := .store, pa := x.1, len := x.2.length, own := false, align := 0 }
  set ({ c with
    acc := c.acc ++ ws.map made
    wrote := c.wrote ++ ws
    s := c.s.appendFor c.b.ctx c.b.stove (BitVec.ofNat 12 r) body } : Cpu)

/-! ## POST -/

/-- R239: check one access to a balance or limit field: every byte in near memory or CXL far memory. A byte in no range of the map
raises 0x03, not 0x04 (DESIGN CHOICE, assumption log 54). -/
def ledgerAccess (total : Nat) (k : Acc) (la len : Nat) (second : Bool) : M Nat := do
  let p ← getPsw
  let e := accessExc k .logical la second false
  let x ← translateAccess k p.te la e
  if !p.sup ∧ protectedRange x then raise { e with code := 0x02 }
  if (← get).s.device x then raise { e with code := 0x04 }
  checkAccess k .logical la len total second

/-- R239: the checked pieces of a balance or limit field. -/
def ledgerPieces (ks : List Acc) (total : Nat) (ps : List (Nat × Nat)) : M (List Piece) :=
  checkPiecesBy (ledgerAccess total) ks .logical none ps

/-- A balance operand: its effective address and its checked pieces. -/
def formBalance (sp : BitVec 32) (n : Nat) : M (Nat × List Piece) := do
  let p ← formPlace sp n
  let ps ← ledgerPieces [.load, .store] n (p.parts.flatMap (fun (a, k) => pieces a k))
  surcharge 2
  pure (p.addr, ps)

/-- The physical bytes of checked pieces, as ranges. -/
def ranges (ps : List Piece) : List (Nat × Nat) := ps.map (fun p => (p.pa, p.len))

/-- Whether two lists of ranges share a byte. -/
def rangesMeet (x y : List (Nat × Nat)) : Bool :=
  x.any (fun (a, n) => y.any (fun (b, m) => decide (a < b + m) && decide (b < a + n)))

/-- The distinct lines of ranges, ascending. -/
def rangeLines (x : List (Nat × Nat)) : List Nat := ascending (x.flatMap (fun (a, n) => linesTouched a n))

/-- The pieces that hold bytes `off` to `off + n` of an operand. -/
def subPieces : List Piece → Nat → Nat → List Piece
  | [], _, _ => []
  | p :: t, off, n =>
    if n = 0 then []
    else if p.len ≤ off then subPieces t (off - p.len) n
    else
      let k := min n (p.len - off)
      { p with la := p.la + off, pa := p.pa + off, len := k } :: subPieces t 0 (n - k)

/-- R240: the posting descriptor. -/
structure Posting where
  amount : List Byte
  lmode  : Nat
  llen   : Nat
  ring   : Nat
  tcode  : Nat
  loff   : Int
  ref    : List Byte
  deriving DecidableEq, Repr

/-- R240: the fields of the 64 descriptor bytes. -/
def postingOf (bs : List Byte) : Posting :=
  let ctl := leNat (sliceBytes bs 0x10 8)
  { amount := sliceBytes bs 0 16, lmode := bitsOf ctl 0 3, llen := bitsOf ctl 3 5, ring := bitsOf ctl 8 12
    tcode := bitsOf ctl 20 12, loff := sextInt 32 (bitsOf ctl 32 32), ref := sliceBytes bs 0x20 32 }

/-- R242: whether the descriptor breaks a rule other than the amount's format. -/
def Posting.bad (x : Posting) : Bool :=
  decide (4 ≤ x.lmode) || (decide (x.lmode < 2) && (x.llen != 0 || x.loff != 0)) || decide (packedVal x.amount < 0)

/-- R241: whether the limit mode refuses the balances after the movement. -/
def limitRefuses (lmode : Nat) (d k lim : Int) : Bool :=
  match lmode with
  | 1 => decide (d < 0)
  | 2 => decide (d < lim)
  | 3 => decide (lim < k)
  | _ => false

/-- R244: a POST that ends without its effect gives its leave back. -/
def giveLeaveBack : M Unit := do
  let c ← get
  match c.b.leave with
  | some n => do
    modS (·.returnLeave (hearthOf c.b.stove) n)
    modB (fun b => { b with leave := none })
  | none => pure ()

/-- R241: the checked pieces of the limit field; `base` is the effective address of its base balance. -/
def limitPieces (x : Posting) (base : Nat) : M (List Piece) := do
  if x.lmode < 2 then pure []
  else do
    let n := x.llen + 1
    let a := addWrap base x.loff
    raiseIf (!inSpace a n) 0x04
    ledgerPieces [.load] n (pieces a n)

/-- R243: the conditions on the reservation set of a POST. -/
def setRefused (p1 p2 pl : List Piece) : Bool :=
  decide (4 < (rangeLines (ranges p1 ++ ranges p2 ++ ranges pl)).length) || rangesMeet (ranges p1) (ranges p2)
    || rangesMeet (ranges pl) (ranges p1 ++ ranges p2)

/-- R352: a descriptor in memory has its lines reserved before a refire pair reads it. -/
def needOpnd : Opnd → M Unit
  | .mem ps => awaitNeeded ps
  | .g _ _ | .d _ | .f _ | .imm _ => pure ()

/-- A POST whose operands have been checked: the descriptor and its operand, and the pieces and bytes of the two balances and of the
limit field. -/
structure PostForm where
  x  : Posting
  o3 : Opnd
  p1 : List Piece
  p2 : List Piece
  ba : List Byte
  bk : List Byte
  bl : List Byte

/-- R238 to R249: form and check the operands of a POST, take its leave and its lines, and read the balances. -/
def formPost (w : Word112) : M PostForm := do
  let (a1, p1) ← formBalance w.opd1 (lenL1 w.len)
  let (a2, p2) ← formBalance w.opd2 (lenL2 w.len)
  let o3 ← formOpnd w.opd3 64 [.load, .store]
  drainOwn
  needOpnd o3
  let x := postingOf (← readOpnd o3 64)
  raiseIf (!packedOk x.amount) 0x05
  raiseIf x.bad 0x04
  checkRing false x.ring
  let pl ← limitPieces x (if x.lmode = 2 then a1 else a2)
  raiseIf (setRefused p1 p2 pl) 0x04
  takeLeave 80
  reserve (rangeLines (ranges p1 ++ ranges p2 ++ ranges pl))
  let ba ← readPieces p1 false
  let bk ← readPieces p2 false
  let bl ← readPieces pl false
  raiseIf (!(packedOk ba && packedOk bk && (x.lmode < 2 || packedOk bl))) 0x05
  pure { x := x, o3 := o3, p1 := p1, p2 := p2, ba := ba, bk := bk, bl := bl }

/-- The debit balance after the movement. -/
def PostForm.debit (f : PostForm) (m : Mode := .straight) : Int := decSubUnit m (packedVal f.ba) (packedVal f.x.amount)

/-- The credit balance after the movement. -/
def PostForm.credit (f : PostForm) (m : Mode := .straight) : Int := decAddUnit m (packedVal f.bk) (packedVal f.x.amount)

/-- The limit, 0 when the mode has none. -/
def PostForm.limit (f : PostForm) : Int := if f.x.lmode < 2 then 0 else packedVal f.bl

/-- R245: the condition code of a POST whose balances overflow or whose limit refuses it; 0 for one that goes on to its claim. -/
def PostForm.refusal (f : PostForm) (n1 n2 : Nat) (m : Mode := .straight) : BitVec 2 :=
  if capacity n1 ≤ (f.debit m).natAbs ∨ capacity n2 ≤ (f.credit m).natAbs then 2
  else if limitRefuses f.x.lmode (f.debit m) (f.credit m) f.limit then 1 else 0

/-- R258: the first 96 bytes of the record of a POST, whose sequence number is `q`. -/
def PostForm.record (f : PostForm) (q : Nat) (b : Bank) (tod : Nat) : List Byte :=
  let phys (ps : List Piece) : Nat := (ps.head?.map (·.pa)).getD 0
  recordBody q tod
    (packedBytes 16 (packedVal f.x.amount) ++ leBytes 8 (phys f.p1) ++ leBytes 8 (phys f.p2) ++ f.x.ref)
    (recordStatus f.x.tcode 1 b.psw.key.toNat b.ctx f.x.lmode)

/-- R244, R251: the effect of a POST: the record, both balances and SEQ, all of which become visible. SEQ waits in the store buffer where
another reservation set holds its line (R248, R249). -/
def PostForm.commit (f : PostForm) (e : Ring) (m : Mode) (n1 n2 : Nat) : M Unit := do
  let c ← get
  appendRecord f.x.ring (f.record e.head c.b c.latch)
  writePieces f.p1 (packedBytes n1 (f.debit m))
  writePieces f.p2 (packedBytes n2 (f.credit m))
  match f.o3 with
  | .mem ps => writePieces (subPieces ps 0x18 8) (leBytes 8 e.head)
  | .g _ _ | .d _ | .f _ | .imm _ => pure ()
  modS (·.drainFree c.b.ctx)

/-- R244: a POST ends without its effect: the lines, the claim and the leave are given back. -/
def postEnds (cc : BitVec 2) : M Unit := do
  giveLeaveBack
  releaseLines
  setCc cc

/-- R238: the shape of POST. -/
def shapePost : Shape :=
  let balance : Pos := .modes [4, 5, 6, 7, 8, 9, 10, 11]
  { fmts := [5], opd1 := balance, opd2 := balance, opd3 := .modes [4, 5, 6, 7, 8, 9, 14], repeats := false,
    rule := fun w => !lenFlag w.len && bitsOf w.len.toNat 0 5 == 0 }

/-- R244: POST. -/
def postBody (m : Mode) (w : Word112) : M Nat := do
  checkShape shapePost w
  let f ← formPost w
  let n1 := lenL1 w.len
  let n2 := lenL2 w.len
  if f.refusal n1 n2 m ≠ 0 then postEnds (f.refusal n1 n2 m)
  else do
    let e ← claimRing f.x.ring
    if e.full then postEnds 3
    else do
      f.commit e m n1 n2
      releaseLines
      setCc 0
  pure 48

/-! ## JAPP and DURW -/

/-- R262: the encoding of JAPP. -/
def shapeJapp : Shape :=
  { fmts := [0], opd1 := .modes [0], opd2 := .modes [0, 3], opd3 := .modes [4, 5, 6, 7, 8, 9, 13, 14], repeats := false,
    rule := fun w => w.len.toNat / 128 == 0 && decide (1 ≤ bitsOf w.len.toNat 0 7 ∧ bitsOf w.len.toNat 0 7 ≤ 68) }

/-- R258, R262: the first 96 bytes of the record of a JAPP, whose sequence number is `q`. -/
def jappRecord (q : Nat) (c : Cpu) (payload : List Byte) (len : Nat) : List Byte :=
  let p := payload ++ zeros (68 - len)
  recordBody q c.latch (p.take 64) (recordStatus (leNat (p.drop 64)) 2 c.b.psw.key.toNat c.b.ctx 0)

/-- R262: JAPP. -/
def jappBody (w : Word112) : M Nat := do
  let len := bitsOf w.len.toNat 0 7
  checkShape shapeJapp w
  let o1 ← formOpnd w.opd1 8 []
  let r ← ringOperand w.opd2
  let o3 ← formOpnd w.opd3 len [.load]
  ringNumber r
  drainOwn
  checkRing false r
  let payload ← readOpnd o3 len
  let e ← claimRing r
  if e.full then do
    releaseLines
    setCc 3
  else do
    let c ← get
    appendRecord r (jappRecord e.head c payload len)
    writeVal o1 8 e.head
    releaseLines
    setCc 0
  pure (24 + ceilDiv len 32)

/-- R267: the encoding of DURW. -/
def shapeDurw : Shape :=
  { fmts := [0], opd1 := .modes [0], opd2 := .modes [0, 3], repeats := false }

/-- R267: DURW. -/
def durwBody (w : Word112) : M Nat := do
  checkShape shapeDurw w
  let n ← readVal (← formOpnd w.opd1 8 []) 8
  let r ← ringOperand w.opd2
  ringNumber r
  checkRing true r
  let e ← ringNow true r
  if 0 ≤ seqDiff e.durable n then setCc 0
  else if seqDiff e.head n ≤ 0 then setCc 1
  else if e.fault then setCc 2
  else throw (.wait (.dura (BitVec.ofNat 12 r)))
  pure 2

/-- POST (R244). -/
def execPost (i : Issue) (s : State) : Host.Outcome State Fault Refusal := issue (both 0x400 postBody) i s
/-- JAPP (R262). -/
def execJapp (i : Issue) (s : State) : Host.Outcome State Fault Refusal := issue (same 0x401 jappBody) i s
/-- DURW (R267). -/
def execDurw (i : Issue) (s : State) : Host.Outcome State Fault Refusal := issue (same 0x402 durwBody) i s

end Sys2Proof.Machine
end

