-- ==== Sys2Proof/Machine/Context.lean ====
section
/-!
DEFINITION. The context family: SAVEH (R92 to R94), RESTH (R95, R96), SEALF (R90), RETX (R103 to R105) and SVC (R336).
-/

namespace Sys2Proof.Machine

/-! ## Frame accesses of an instruction -/

/-- R98: a frame access that fails raises its exception, as R394 records it. -/
def FrameErr.exc (e : FrameErr) : Exc :=
  { code := e.code, fav := true, w := e.w, phys := e.phys, faddr := e.faddr }

/-- Make a frame access of the executing context (R65). -/
def frameOp {α : Type} (m : FM α) : M α := fun c =>
  match m c.s with
  | .ok a s => .ok a { c with s := s }
  | .error e s => .error (.exc e.exc) { c with s := s }

/-- Whether the context's frame addresses are physical (R64). -/
def framePhys : M Bool := do return !(← scratchCt)

/-- Raise for a frame, with its address in FADDR. -/
def raiseFrame {α : Type} (code f : Nat) : M α := do raise { code := code, fav := true, phys := ← framePhys, faddr := f }

/-- R65: the pieces of `n` bytes of a frame or of the context block, checked for one kind of access. -/
def frReach (k : Acc) (a n : Nat) : M (List Piece) := do
  let ctx := (← getB).ctx
  let pa ← keptReach (frameOp (frameAddr ctx a n (k = .store)))
  pure ((pieces pa n).map (fun (x, m) => { la := a + (x - pa), pa := x, len := m, own := false }))

/-- Read bytes of a frame or the save-area control, whose lines a refire pair reserves before it reads them (R352). -/
def frLdBytes (a n : Nat) : M (List Byte) := do
  let ps ← frReach .load a n
  awaitNeeded ps
  readPieces ps false

/-- A number of a frame or the save-area control. -/
def frLd (a n : Nat) : M Nat := do return leNat (← frLdBytes a n)

/-- Check that a frame store would succeed. -/
def frCheck (a n : Nat) : M Unit := do awaitLines (← frReach .store a n)

/-- Write bytes of a frame: a buffered store (R98). -/
def frSt (a : Nat) (bs : List Byte) : M Unit := do writePieces (← frReach .store a bs.length) bs

/-- The context block of the executing context. -/
def ownBlock : M Nat := do
  let c ← get
  return c.s.block c.b.ctx

/-! ## SAVEH and RESTH -/

/-- R91: the groups that HALF and SEL name. -/
def selMask (len : BitVec 16) : Nat :=
  let half := b2n (bitAt len.toNat 0)
  let bit (i g : Nat) : Nat := b2n (bitAt len.toNat (2 + i)) * 2 ^ g
  bit 0 half + bit 1 (2 + half) + bit 2 (4 + half) + (if half = 0 then bit 3 6 else 0)

/-- R91: the form of SAVEH and RESTH. -/
def shapeFrames : Shape :=
  { fmts := [0], rule := fun w => w.len.toNat / 64 == 0 && !(bitAt w.len.toNat 0 && bitAt w.len.toNat 5), repeats := false }

/-- The groups of a mask, in the order of R92. -/
def maskGroups (m : Nat) : List Nat := (List.range 7).filter (bitAt m)

/-- R98, R104: the count of a SAVEH or RESTH that moved `g` groups. After a micro-trap the count is that of the whole
execution, whose groups before the trap the retired microwords tell. -/
def framesCount (b : Bank) (g : Nat) : Nat :=
  if b.resume = 0 then 4 + 2 * g else 4 + 2 * (g + (b.resume - 3) / 2)

/-- The lines of a frame's group slots, waited for before the first of them is stored or any part commits. -/
def awaitSlots (f groups : Nat) : M Unit := do
  let p ← frReach .store f 8
  let base := (p.head?.map (·.pa)).getD 0
  awaitLines ((maskGroups groups).flatMap (fun k =>
    (pieces (base + (slotOf k).1) (slotOf k).2).map (fun (x, n) => { la := f + (x - base), pa := x, len := n, own := false })))

/-- Commit what the bank holds now, so that a later exception keeps it (R118). -/
def commitBank : M Unit := modify (fun c => { c with ck := c.b })

/-- R98: charge the part an exception ends. -/
def chargePart (n : Nat) : M Unit := do
  modB (fun b => { b with charged := b.charged + n, slice := b.slice + n, cont := true })
  commitBank

/-- R92: a SAVEH in progress: its frame, the groups the frame is to hold and those it holds. -/
structure Saving where
  lis    : Lis
  desc   : Nat
  groups : Nat
  done   : Nat
  deriving DecidableEq, Repr

/-- R92: the header stage of a fresh SAVEH, one committed part (R98); none when there is nothing to store. -/
def saveStart (w : Word112) : M (Option Saving) := do
  let b ← getB
  let cb ← ownBlock
  let sel := selMask w.len
  let groups := if bitAt w.len.toNat 1 then sel else sel &&& b.dirty.toNat
  if groups = 0 then pure none
  else do
    let f ← frLd (cb + 0xB00) 8
    if f = 0 then raiseFrame 0x14 0
    if f % 1024 ≠ 0 then raiseFrame 0x04 f
    let nxt ← frLd f 8
    let seq ← frLd (cb + 0xB18) 8
    frCheck f 64
    frCheck (cb + 0xB18) 8
    frCheck (cb + 0xB00) 8
    awaitSlots f groups
    let half := bitAt w.len.toNat 0
    let hdr (sprog : Nat) : List Byte := frameHeader 0 seq (descWord groups sprog 0 half) b.ctx 0 0
    let acc := Config.sealBegin (← get).s.sealKey (coveredHeader (hdr groups))
    frSt f (hdr 0)
    frSt (cb + 0xB18) (leBytes 8 (seq + 1))
    frSt (cb + 0xB00) (leBytes 8 nxt)
    let lis : Lis := { frame := BitVec.ofNat 64 f, seq := BitVec.ofNat 64 seq, acc := acc }
    modB (fun b => { b.setPsw { b.psw with ip := true } with lis := some lis })
    commitBank
    pure (some { lis := lis, desc := descWord groups 0 0 half, groups := groups, done := 0 })

/-- R92, R94: continue an interrupted SAVEH. -/
def saveContinue (l : Lis) : M Saving := do
  let f := l.frame.toNat
  let seq ← frLd (f + 8) 8
  if seq ≠ l.seq.toNat then raiseFrame 0x15 f
  let d ← frLd (f + 0x10) 8
  frCheck (f + 0x10) 8
  awaitSlots f (bitsOf d 0 7)
  pure { lis := l, desc := d, groups := bitsOf d 0 7, done := bitsOf d 8 7 }

/-- R92: store the groups of a frame that it does not hold yet, at most `limit` of them; `g` groups were moved before.
A group that fails keeps what is stored (R98). -/
def saveGroups (limit : Nat) : List Nat → Nat → Saving → M (Nat × Saving)
  | [], g, x => pure (g, x)
  | k :: t, g, x =>
    if limit ≤ g then pure (g, x)
    else do
      let f := x.lis.frame.toNat
      let bytes := (← getB).groupBytes k
      match ← caught (do
          frCheck (f + (slotOf k).1) (slotOf k).2
          frCheck (f + 0x10) 8 : M Unit) with
      | .error e => do
        if (← getB).psw.ip then chargePart (framesCount (← getB) g)
        raise e
      | .ok () => do
        let done := x.done ||| 2 ^ k
        frSt (f + (slotOf k).1) bytes
        frSt (f + 0x10) (leBytes 8 (putBits x.desc 8 8 done))
        let lis := { x.lis with acc := Config.sealAdd x.lis.acc bytes }
        modB (fun b => { b with lis := some lis, dirty := b.dirty &&& ~~~ BitVec.ofNat 7 (2 ^ k) })
        commitBank
        saveGroups limit t (g + 1) { x with lis := lis, done := done }

/-- R92: the last stage of a SAVEH: the seal, and the saved chain. -/
def saveFinish (g : Nat) (x : Saving) : M Unit := do
  let cb ← ownBlock
  let f := x.lis.frame.toNat
  match ← caught (do
      let saved ← frLd (cb + 0xB08) 8
      frCheck (f + 0x20) 8
      frCheck f 8
      frCheck (cb + 0xB08) 8
      pure saved : M Nat) with
  | .error e => do
    chargePart (framesCount (← getB) g)
    raise e
  | .ok saved => do
    let ctx := (← getB).ctx
    frSt (f + 0x20) (wordBytes (Config.sealEnd x.lis.acc ctx false))
    frSt f (leBytes 8 saved)
    frSt (cb + 0xB08) (leBytes 8 f)
    modB (fun b => { b with lis := none })
    modPsw (fun p => { p with ip := false, cc := 0 })

/-- R92: SAVEH up to `limit` groups; a smaller limit than the groups is a micro-trap between groups (R94). -/
def savehUpTo (limit : Nat) (w : Word112) : M Nat := do
  checkShape shapeFrames w
  let b ← getB
  let start ← match b.psw.ip, b.lis with
    | true, some l => do pure (some (← saveContinue l))
    | _, _ => saveStart w
  match start with
  | none => do
    setCc 1
    pure 4
  | some x => do
    let todo := (maskGroups x.groups).filter (fun k => !bitAt x.done k)
    let (g, x) ← saveGroups limit todo 0 x
    if limit ≤ g then setNext .stay
    else saveFinish g x
    return framesCount (← getB) g

/-- R92: SAVEH. -/
def savehBody (w : Word112) : M Nat := savehUpTo 7 w

/-- R95: load the groups of a frame, at most `limit` of them; `g` groups were moved before. -/
def restoreGroups (limit f : Nat) (bs : List Byte) : List Nat → Nat → Nat → M Nat
  | [], g, _ => pure g
  | k :: t, g, done =>
    if limit ≤ g then pure g
    else do
      match ← caught (frCheck (f + 0x28) 8) with
      | .error e => do
        if 0 < g then chargePart (framesCount (← getB) g)
        raise e
      | .ok () => do
        let done := done ||| 2 ^ k
        let slot := sliceBytes bs (slotOf k).1 (slotOf k).2
        modB (fun b =>
          let b := b.loadGroup k slot
          { b with dirty := b.dirty &&& ~~~ BitVec.ofNat 7 (2 ^ k)
                   spillCur := b.spillCur &&& ~~~ BitVec.ofNat 8 (2 ^ k) })
        modPsw (fun p => { p with ip := true })
        frSt (f + 0x28) (leBytes 8 done)
        commitBank
        restoreGroups limit f bs t (g + 1) done

/-- R95: the last stage of a RESTH checks that the frame can go from the saved chain to the free chain; the head of the free chain. -/
def restoreFree (cb f : Nat) : M Nat := do
  let free ← frLd (cb + 0xB00) 8
  frCheck (cb + 0xB08) 8
  frCheck f 8
  frCheck (f + 0x28) 8
  frCheck (cb + 0xB00) 8
  pure free

/-- R95: a restored frame goes back to the free chain. -/
def restoreFinish (cb f free : Nat) (bs : List Byte) : M Unit := do
  frSt (cb + 0xB08) (sliceBytes bs 0 8)
  frSt f (leBytes 8 free)
  frSt (f + 0x28) (zeros 8)
  frSt (cb + 0xB00) (leBytes 8 f)
  modPsw (fun p => { p with ip := false, cc := 0 })

/-- R95: RESTH up to `limit` groups. It reads all 1,024 bytes of the frame, those that it neither verifies nor loads too (DESIGN CHOICE,
assumption log 55). -/
def resthUpTo (limit : Nat) (w : Word112) : M Nat := do
  checkShape shapeFrames w
  let ctx := (← getB).ctx
  let cb ← ownBlock
  let f ← frLd (cb + 0xB08) 8
  if f = 0 then do
    setCc 1
    pure 4
  else do
    let bs ← frLdBytes f 1024
    if !(← get).s.verifies ctx bs then raiseFrame 0x15 f
    let d := leNat (sliceBytes bs 0x10 8)
    if bitsOf d 17 2 ≠ 0 ∨ bitAt d 19 ≠ bitAt w.len.toNat 0 then raiseFrame 0x04 f
    if bitAt d 16 && bitAt d 6 && bitAt (leNat (sliceBytes bs 0x280 16)) 127 then raiseFrame 0x15 f
    let done := leNat (sliceBytes bs 0x28 8) % 256
    let todo := (maskGroups (selMask w.len &&& d)).filter (fun k => !bitAt done k)
    let g ← restoreGroups limit f bs todo 0 done
    if limit ≤ g then do
      setNext .stay
      return framesCount (← getB) g
    else
      match ← caught (restoreFree cb f) with
      | .error e => do
        if 0 < g then chargePart (framesCount (← getB) g)
        raise e
      | .ok free => do
        restoreFinish cb f free bs
        return framesCount (← getB) g

/-- R95: RESTH. -/
def resthBody (w : Word112) : M Nat := resthUpTo 7 w

/-! ## SEALF -/

/-- The frame operand of SEALF and RETX. -/
def shapeFrame : Shape := { fmts := [0], priv := true, opd1 := .modes [4, 5, 6, 7, 8, 9, 14], repeats := false }

/-- Read bytes of a frame operand: ordinary accesses under the PSW. -/
def readFrame (via : Via) (a n : Nat) : M (List Byte) := do
  let ps ← checkPieces [.load] via n none (pieces a n)
  awaitNeeded ps
  readPieces ps false

/-- R90 step 2: the reserved fields among the covered bytes are zero: of the header, of the M registers and MSG (R61, R62), of TTR (R380)
and of CODE; and NEXT and MASK of an exception frame are right. -/
def frameClean (kind : Nat) (bs : List Byte) : Bool :=
  let at' (o n : Nat) : Nat := leNat (sliceBytes bs o n)
  at' 0x10 8 / 2 ^ 20 == 0 && (kind == 0 || !bitAt (at' 0x10 8) 19) && at' 0x18 8 / 2 ^ 20 == 0 && at' 0x30 16 == 0
    && (kind == 2 || !bitAt (at' 0x10 8) 6
      || ((List.range 4).all (fun i => at' (0x240 + 16 * i) 16 / 2 ^ 70 == 0) && bitsOf (at' 0x280 16) 99 28 == 0))
    && (kind != 1 || (at' 0x2A0 8 % 4096 == 0 && at' 0x2A0 8 / 2 ^ 48 == 0))
    && (kind != 2 || (at' 0 8 == 0 && at' 0x10 1 == 0x80 && at' 0x50 8 / 2 ^ 15 == 0 && at' 0x90 112 == 0))

/-- R90 step 3: a PSW that a software frame may claim. -/
def claimOk (p : Nat) : Bool := pswLegal p && !bitAt p 68 && !bitAt p 78

/-- R90 steps 3 and 4. -/
def frameClaims (kind : Nat) (bs : List Byte) : Bool :=
  let at' (o n : Nat) : Nat := leNat (sliceBytes bs o n)
  (if kind = 2 then claimOk (at' 0x40 16) && bitsOf (at' 0x50 8) 12 2 == 0
   else if kind = 1 then bitAt (at' 0x10 8) 7 && claimOk (at' 0x290 16)
   else true)
    && (kind == 2 || !bitAt (at' 0x10 8) 6 || !bitAt (at' 0x280 16) 127)

/-- R90: SEALF. -/
def sealfBody (w : Word112) : M Nat := do
  checkShape shapeFrame w
  let p ← formAddress w.opd1 256
  let cb ← ownBlock
  let kind := bitsOf (leNat (← readFrame p.via (p.addr + 0x10) 8)) 17 2
  let n := kindLen kind
  raiseIf (kind == 3) 0x04
  raiseIf (p.addr % n != 0) 0x04
  raiseIf (!inSpace p.addr n || (p.via == .scratch && decide (cb + 0x2000 < p.addr + n))) 0x04
  let bs ← readFrame p.via p.addr n
  raiseIf (!frameClean kind bs || !frameClaims kind bs) 0x04
  let d := leNat (sliceBytes bs 0x10 8)
  let fr := spliceBytes bs 0x10 (leBytes 8 (putBits (putBits d 16 1 1) 8 8 d))
  let fr := spliceBytes fr 0x28 (zeros 8)
  let owner := BitVec.ofNat 20 (leNat (sliceBytes bs 0x18 8))
  let fr := (← get).s.sealed owner fr
  let ps ← checkPieces [.store] p.via 32 none (pieces (p.addr + 0x10) 32)
  awaitLines ps
  writePieces ps (sliceBytes fr 0x10 32)
  pure 6

/-! ## RETX -/

/-- The LIS of an exception frame (R83). -/
def lisOf (bs : List Byte) : Lis :=
  { frame := wordAt bs 0x70, seq := wordAt bs 0x78, acc := BitVec.ofNat 128 (leNat (sliceBytes bs 0x80 16)) }

/-- R329: the image generation and count edition of a stove's Ember image, as GEN holds them. -/
def State.imageGen (s : State) : Nat :=
  s.fld Slot.emb Off.EMB.IMAGE 0 32

/-- R84, R94: what an ember frame that the machine has written stands for, told by the bytes that its seal covers. -/
def State.emberOf (s : State) (frame : List Byte) : Option EmberUse :=
  (s.temps.find? (·.1 == coveredBytes frame)).map (·.2)

/-- R103, R104: RETX; P6 of R568: a refired context abandons the ember state. -/
def retxBody (w : Word112) : M Nat := do
  checkShape shapeFrame w
  let p ← formAddress w.opd1 256
  let at15 (a : Nat) (phys : Bool) : Exc := { code := 0x15, fav := true, phys := phys, faddr := a }
  raiseIf (p.addr % 256 != 0) 0x04
  let bs ← readFrame p.via p.addr 256
  let ph ← framePhys
  let opPhys := p.via == .scratch && ph
  let b ← getB
  let s := (← get).s
  let d := leNat (sliceBytes bs 0x10 8)
  let old := leNat (sliceBytes bs 0x40 16)
  let code := leNat (sliceBytes bs 0x50 8)
  let emb := bitAt code 12
  raiseIf (bitsOf d 17 2 != 2) 0x04
  if !s.verifies b.ctx bs then raise (at15 p.addr opPhys)
  if bitAt d 16 && (bitAt old 68 || bitAt old 78 || bitsOf code 12 2 != 0) then raise (at15 p.addr opPhys)
  raiseIf (!pswLegal old) 0x04
  let cb ← ownBlock
  if emb then do
    let fr ← frLdBytes (cb + 0x100) 1024
    let gen := leNat (sliceBytes fr 0x48 4) % 2 ^ 16
    if !s.verifies b.ctx fr || gen != s.imageGen % 2 ^ 16 then raise (at15 (cb + 0x100) ph)
    let use := s.emberOf fr
    let held := s.embers.find? (·.ctx == b.ctx)
    let fd := leNat (sliceBytes fr 0x50 8)
    if s.wantsRf b.ctx (Psw.ofNat old) then do
      modS (·.dropEmber b.ctx)
      modB (fun b => { b with resume := 0, saved := none, lis := none })
    else do
      modS (fun s => if held = use then { s with embers := s.embers.filter (·.ctx != b.ctx) } else s.dropEmber b.ctx)
      modB (fun b => { b with resume := fd % 2 ^ 16, leave := if held = use then use.bind (·.leave) else none,
                              lis := use.bind (·.lis), saved := use.bind (·.saved) })
  else do
    modS (·.dropEmber b.ctx)
    modB (fun x => { x with lis := if bitAt code 13 then some (lisOf bs) else none, resume := 0, saved := none })
  let s := (← get).s
  if s.wantsRf b.ctx (Psw.ofNat old) && (Psw.ofNat old).dbg then addEffect .refireBroken
  setNext (.load (s.loadRf b.ctx (Psw.ofNat old)))
  pure 6

/-- R336: the encoding of SVC. -/
def shapeSvc : Shape :=
  { fmts := [0], rule := fun _ => true, repeats := false }

/-- R336: SVC. -/
def svcBody (w : Word112) : M Nat := do
  checkShape shapeSvc w
  setNext (.svc w.len)
  pure 6

/-- SAVEH (R92). -/
def execSaveh (i : Issue) (s : State) : Host.Outcome State Fault Refusal := issue (same 0x600 savehBody) i s
/-- RESTH (R95). -/
def execResth (i : Issue) (s : State) : Host.Outcome State Fault Refusal := issue (same 0x601 resthBody) i s
/-- SEALF (R90). -/
def execSealf (i : Issue) (s : State) : Host.Outcome State Fault Refusal := issue (same 0x602 sealfBody) i s
/-- RETX (R103). -/
def execRetx (i : Issue) (s : State) : Host.Outcome State Fault Refusal := issue (same 0x603 retxBody) i s
/-- SVC (R336). -/
def execSvc (i : Issue) (s : State) : Host.Outcome State Fault Refusal := issue (same 0x604 svcBody) i s

end Sys2Proof.Machine
end

