-- ==== Sys2Proof/Machine/DeviceCmds.lean ====
section
/-!
DEFINITION. The commands of Bellows, the security engine, two-party commit, the debug path, near memory and the flexible ports,
one meaning each.
-/

namespace Sys2Proof.Machine

/-! ## The debug path -/

/-- R31: the first and last byte of an access lie in the same row, CXL memory being one. -/
def State.oneRow (s : State) (a n : Nat) : Bool := s.rowOf a == s.rowOf (a + n - 1)

/-- R528: the debug path reads memory physically, as a supervisor-state access with key 0. -/
def State.debugRead (s : State) (a n : Nat) : Except Fault State :=
  let ok := (linesTouched a n).all (fun l => s.populated .load (max a (l * 64)))
  if n = 0 then .ok (s.debugAnswer (some []))
  else if !ok || !s.oneRow a n then .ok (s.debugAnswer none)
  else if s.ordinary a then .ok (s.debugMemory (.readMem (BitVec.ofNat 64 a) (BitVec.ofNat 13 n)))
  else match rangeOf a with
    | .hob => .ok (s.debugAnswer (some (s.bytes a n)))
    | .reg =>
      if n = 8 ∧ a % 8 = 0 then .ok (s.debugAnswer (some (leBytes 8 (s.regRead ((a - 0xF10000000000) / 4096) (a % 4096)))))
      else .error .registerAccess
    | .rom => .ok (s.debugAnswer (some ((List.range n).map (fun i => Config.romByte (a - 0xF20000000000 + i)))))
    | .door => .ok (s.debugAnswer (some (zeros n)))
    | .far _ =>
      .ok ({ s with fresh := s.fresh + 1 }.debugAnswer (some ((List.range n).map (fun i => Config.deviceByte s.fresh (a + i)))))
    | .near | .none => .ok (s.debugAnswer none)

/-- R528: the debug path writes memory physically, as a supervisor-state access with key 0. -/
def State.debugWrite (s : State) (a : Nat) (bs : List Byte) : Except Fault State :=
  let n := bs.length
  let ok := (linesTouched a n).all (fun l => s.populated .store (max a (l * 64)))
  if n = 0 then .ok (s.debugAnswer (some []))
  else if !ok || !s.oneRow a n then .ok (s.debugAnswer none)
  else if s.ordinary a then .ok (s.debugMemory (.writeMem (BitVec.ofNat 64 a) bs))
  else if rangeOf a = .door ∧ (n ≠ 8 ∨ a % 8 ≠ 0) then .ok (s.debugAnswer none)
  else match s.deviceStore .debug a bs with
    | .ok s => .ok (s.debugAnswer (some []))
    | .error f => .error f

/-- R528, R37: an access of the debug path within DBGEN.LEVEL. -/
def State.debugAccess (s : State) (x : DebugAccess) : Except Fault State :=
  if !s.mantel.vsb || s.dbgLevel == 0 then .ok (s.debugAnswer none)
  else match x with
    | .readReg a =>
      if a.toNat % 8 = 0 then .ok (s.debugAnswer (some (leBytes 8 (s.regRead (a.toNat / 4096) (a.toNat % 4096)))))
      else .error .registerAccess
    | .writeReg a v =>
      if a.toNat % 8 = 0 then
        (match s.regWrite .debug (a.toNat / 4096) (a.toNat % 4096) v.toNat with
        | .ok s => .ok (s.debugAnswer (some []))
        | .error f => .error f)
      else .error .registerAccess
    | .readMem a n => if s.mantel.core then s.debugRead a.toNat n.toNat else .ok (s.debugAnswer none)
    | .writeMem a bs => if s.mantel.core then s.debugWrite a.toNat bs else .ok (s.debugAnswer none)

/-! ## Commands -/

/-- BEL_DOORBELL (R482). -/
def execBelDoorbell (src : Src) (chan : BitVec 6) (index : BitVec 32) (s : State) : Host.Outcome State Fault Refusal :=
  outcome s (s.regWrite src Slot.bel Off.BEL.DOORBELL (chan.toNat + index.toNat * 2 ^ 32))

/-- CHCMD_ENABLE (R481). -/
def execChcmdEnable (src : Src) (chan : BitVec 6) (s : State) : Host.Outcome State Fault Refusal :=
  outcome s (s.regWrite src Slot.bel Off.BEL.CHCMD (chan.toNat + 1 * 2 ^ 8))

/-- CHCMD_DISABLE (R480). -/
def execChcmdDisable (src : Src) (chan : BitVec 6) (s : State) : Host.Outcome State Fault Refusal :=
  outcome s (s.regWrite src Slot.bel Off.BEL.CHCMD (chan.toNat + 2 * 2 ^ 8))

/-- COPY (R484). -/
def execCopy (chan : BitVec 6) (limit : Option Nat) (s : State) : Host.Outcome State Fault Refusal :=
  done s (s.unlessHeld (s.belOperate Bel.copy chan limit))

/-- FILL (R484). -/
def execFill (chan : BitVec 6) (limit : Option Nat) (s : State) : Host.Outcome State Fault Refusal :=
  done s (s.unlessHeld (s.belOperate Bel.fill chan limit))

/-- GATHER (R484). -/
def execGather (chan : BitVec 6) (limit : Option Nat) (s : State) : Host.Outcome State Fault Refusal :=
  done s (s.unlessHeld (s.belOperate Bel.gather chan limit))

/-- SCATTER (R484). -/
def execScatter (chan : BitVec 6) (limit : Option Nat) (s : State) : Host.Outcome State Fault Refusal :=
  done s (s.unlessHeld (s.belOperate Bel.scatter chan limit))

/-- COMPARE (R486). -/
def execCompare (chan : BitVec 6) (limit : Option Nat) (s : State) : Host.Outcome State Fault Refusal :=
  done s (s.unlessHeld (s.belOperate Bel.compare chan limit))

/-- DIGEST (R486). -/
def execDigest (chan : BitVec 6) (limit : Option Nat) (s : State) : Host.Outcome State Fault Refusal :=
  done s (s.unlessHeld (s.belOperate Bel.digest chan limit))

/-- CRC32C (R486). -/
def execCrc32c (chan : BitVec 6) (limit : Option Nat) (s : State) : Host.Outcome State Fault Refusal :=
  done s (s.unlessHeld (s.belOperate Bel.crc chan limit))

/-- BEL_DESCRIPTOR_COMPLETE (R492). -/
def execBelDescriptorComplete (chan : BitVec 6) (s : State) : Host.Outcome State Fault Refusal :=
  done s (s.unlessHeld (s.belComplete chan))

/-- SEC_RANDOM (R501). -/
def execSecRandom (s : State) : Host.Outcome State Fault Refusal :=
  done s (s.secStep 1)

/-- SEC_VERIFY (R501). -/
def execSecVerify (s : State) : Host.Outcome State Fault Refusal :=
  done s (s.secStep 2)

/-- SEC_QUOTE (R515). -/
def execSecQuote (s : State) : Host.Outcome State Fault Refusal :=
  done s (s.secStep 3)

/-- SEC_ENCRYPT (R501). -/
def execSecEncrypt (s : State) : Host.Outcome State Fault Refusal :=
  done s (s.secStep 4)

/-- SEC_DECRYPT (R501). -/
def execSecDecrypt (s : State) : Host.Outcome State Fault Refusal :=
  done s (s.secStep 5)

/-- SEC_READCFG (R501). -/
def execSecReadcfg (s : State) : Host.Outcome State Fault Refusal :=
  done s (s.secStep 6)

/-- SEC_OP_COMPLETE (R502). -/
def execSecOpComplete (s : State) : Host.Outcome State Fault Refusal :=
  done s (s.unlessHeld s.secComplete)

/-- STAGE (R521). -/
def execStage (src : Src) (s : State) : Host.Outcome State Fault Refusal :=
  outcome s (s.regWrite src Slot.tpc Off.TPC.CMD (1))

/-- SIGN (R523). -/
def execSign (src : Src) (s : State) : Host.Outcome State Fault Refusal :=
  outcome s (s.regWrite src Slot.tpc Off.TPC.CMD (2))

/-- COMMIT (R524). -/
def execCommit (src : Src) (fault : StoreFault) (s : State) : Host.Outcome State Fault Refusal :=
  outcome s (s.regWriteWith src Slot.tpc Off.TPC.CMD 3 { fault := fault })

/-- CLEAR (R521). -/
def execClear (src : Src) (s : State) : Host.Outcome State Fault Refusal :=
  outcome s (s.regWrite src Slot.tpc Off.TPC.CMD (4))

/-- TPC_EXPIRY (R525). -/
def execTpcExpiry (s : State) : Host.Outcome State Fault Refusal :=
  done s s.tpcExpire

/-- RNG_HEALTH_FAIL (R498). -/
def execRngHealthFail (s : State) : Host.Outcome State Fault Refusal :=
  done s s.rngFail

/-- RNG_HEALTH_PASS (R498). -/
def execRngHealthPass (s : State) : Host.Outcome State Fault Refusal :=
  done s s.rngPass

/-- DBGCMD_HALT (R529). -/
def execDbgcmdHalt (src : Src) (ctx : BitVec 20) (s : State) : Host.Outcome State Fault Refusal :=
  outcome s (s.regWrite src Slot.dbg Off.DBG.DBGCMD (ctx.toNat + 1 * 2 ^ 24))

/-- DBGCMD_RESUME (R529). -/
def execDbgcmdResume (src : Src) (ctx : BitVec 20) (s : State) : Host.Outcome State Fault Refusal :=
  outcome s (s.regWrite src Slot.dbg Off.DBG.DBGCMD (ctx.toNat + 2 * 2 ^ 24))

/-- DBGCMD_STEP (R529). -/
def execDbgcmdStep (src : Src) (ctx : BitVec 20) (s : State) : Host.Outcome State Fault Refusal :=
  outcome s (s.regWrite src Slot.dbg Off.DBG.DBGCMD (ctx.toNat + 3 * 2 ^ 24))

/-- DEBUG_ACCESS (R528). -/
def execDebugAccess (access : DebugAccess) (s : State) : Host.Outcome State Fault Refusal :=
  outcome s (s.debugAccess access)

/-- DEBUG_SESSION_OPEN (R529). -/
def execDebugSessionOpen (s : State) : Host.Outcome State Fault Refusal :=
  done s s.debugOpen

/-- DEBUG_SESSION_CLOSE (R529). -/
def execDebugSessionClose (s : State) : Host.Outcome State Fault Refusal :=
  done s s.debugClose

/-- SCRUB_LINE (R419). -/
def execScrubLine (pair : BitVec 29) (lo hi : Misread) (s : State) : Host.Outcome State Fault Refusal :=
  done s (s.scrub pair.toNat lo hi)

/-- PINCTL_CLR (R416); the write keeps THRESH. -/
def execPinctlClr (src : Src) (s : State) : Host.Outcome State Fault Refusal :=
  outcome s (s.regWrite src Slot.nmc Off.NMC.PINCTL (s.fld Slot.nmc Off.NMC.PINCTL 0 16 + 2 ^ 16))

/-- PINCTL_ERASE (R417); the write keeps THRESH. -/
def execPinctlErase (src : Src) (s : State) : Host.Outcome State Fault Refusal :=
  outcome s (s.regWrite src Slot.nmc Off.NMC.PINCTL (s.fld Slot.nmc Off.NMC.PINCTL 0 16 + 2 ^ 17))

/-- PINCTL_UNERASE (R417); the write keeps THRESH. -/
def execPinctlUnerase (src : Src) (s : State) : Host.Outcome State Fault Refusal :=
  outcome s (s.regWrite src Slot.nmc Off.NMC.PINCTL (s.fld Slot.nmc Off.NMC.PINCTL 0 16 + 2 ^ 18))

/-- FAILCMD (R424). -/
def execFailcmd (src : Src) (channel : BitVec 6) (s : State) : Host.Outcome State Fault Refusal :=
  outcome s (s.regWrite src Slot.nmc Off.NMC.FAILCMD (channel.toNat + 2 ^ 8))

/-- MEM_RETRAIN (R424). -/
def execMemRetrain (channel : BitVec 6) (ok : Bool) (s : State) : Host.Outcome State Fault Refusal :=
  done s (if ok then s else s.failChannel channel.toNat)

/-- FXP_LINK_UP (R428). -/
def execFxpLinkUp (port : BitVec 2) (partner : LinkPartner) (s : State) : Host.Outcome State Fault Refusal :=
  done s (s.linkComesUp port.toNat partner)

/-- FXP_LINK_DOWN (R433). -/
def execFxpLinkDown (port : BitVec 2) (s : State) : Host.Outcome State Fault Refusal :=
  done s (s.linkGoesDown port.toNat (s.portMode port.toNat == 1))

/-- CXL_DEVICE_EVENT (R428). -/
def execCxlDeviceEvent (port : BitVec 2) (s : State) : Host.Outcome State Fault Refusal :=
  done s (s.cxlEvent port.toNat)

/-- INBOUND_READ (R432). -/
def execInboundRead (port : BitVec 2) (target : Target) (len : BitVec 13) (s : State) : Host.Outcome State Fault Refusal :=
  done s (s.inbound port.toNat (.read target len))

/-- INBOUND_WRITE (R432). -/
def execInboundWrite (port : BitVec 2) (target : Target) (w : InWrite) (s : State) : Host.Outcome State Fault Refusal :=
  done s (s.inbound port.toNat (.write target w.bytes w.poisoned))

/-- INBOUND_CONFIG_REQUEST (R431). -/
def execInboundConfigRequest (reg : BitVec 12) (value : Option (BitVec 32)) (s : State) : Host.Outcome State Fault Refusal :=
  done s (s.configRequest reg value)

/-- MSIXCMD (R431). -/
def execMsixcmd (src : Src) (vec : BitVec 6) (s : State) : Host.Outcome State Fault Refusal :=
  outcome s (s.regWrite src (Slot.fxp 0) Off.FXP.MSIXCMD (vec.toNat + 2 ^ 8))

/-- PERST_N_ASSERT (R426). -/
def execPerstNAssert (s : State) : Host.Outcome State Fault Refusal :=
  done s s.perstAssert

/-- AER_ERROR (R427). -/
def execAerError (port : BitVec 2) (corr : Bool) (s : State) : Host.Outcome State Fault Refusal :=
  done s (s.aerError port.toNat corr)

end Sys2Proof.Machine
end

