-- ==== Sys2Proof/Machine/Float.lean ====
section
/-!
DEFINITION. Floating point (R159 to R168): IEEE 754 binary32 and binary64 values as exact dyadic numbers, rounding by BRM,
the five exceptions, the arithmetic instructions, conversions, and DOT in units.
-/

namespace Sys2Proof.Machine

/-! ## Formats and values -/

/-- A format: precision (with the hidden bit) and exponent width. -/
structure FFmt where
  p : Nat
  e : Nat
  deriving DecidableEq, Repr

/-- R159: binary32 and binary64, by FMT 0x6 and 0x7. -/
def ffmt (fmt : Nat) : FFmt := if fmt = 6 then ⟨24, 8⟩ else ⟨53, 11⟩

/-- The bias. -/
def FFmt.bias (f : FFmt) : Nat := 2 ^ (f.e - 1) - 1

/-- The exponent of the unit in the last place of subnormals. -/
def FFmt.emin (f : FFmt) : Int := 1 - (f.bias : Int) - (f.p - 1 : Nat)

/-- A floating-point datum: NaN (signalling or quiet), infinity, or sign × magnitude × 2^exp. -/
inductive FVal where
  | nan (signalling : Bool)
  | inf (neg : Bool)
  | fin (neg : Bool) (mag : Nat) (exp : Int)
  deriving DecidableEq, Repr

/-- The datum a bit pattern encodes. -/
def FFmt.decode (f : FFmt) (v : Nat) : FVal :=
  let frac := bitsOf v 0 (f.p - 1)
  let ex := bitsOf v (f.p - 1) f.e
  let neg := bitAt v (f.p - 1 + f.e)
  if ex = 2 ^ f.e - 1 then
    if frac = 0 then .inf neg else .nan (!bitAt frac (f.p - 2))
  else if ex = 0 then .fin neg frac f.emin
  else .fin neg (frac + 2 ^ (f.p - 1)) (f.emin + (ex : Int) - 1)

/-- R160: the canonical quiet NaN. -/
def FFmt.qnan (f : FFmt) : Nat := (2 ^ (f.e + 1) - 1) * 2 ^ (f.p - 2)

/-- An infinity. -/
def FFmt.infBits (f : FFmt) (neg : Bool) : Nat := (2 ^ f.e - 1) * 2 ^ (f.p - 1) + b2n neg * 2 ^ (f.p - 1 + f.e)

/-- The largest finite magnitude. -/
def FFmt.maxBits (f : FFmt) (neg : Bool) : Nat := f.infBits neg - 1

/-- A zero. -/
def FFmt.zeroBits (f : FFmt) (neg : Bool) : Nat := b2n neg * 2 ^ (f.p - 1 + f.e)

/-- The flags of one operation, in FPF order: invalid 1, divide-by-zero 2, overflow 4, underflow 8, inexact 16 (R66, R161). -/
abbrev FFlags := Nat

/-! ## Rounding -/

/-- R66: whether BRM rounds a magnitude up: `rem` of `den` was dropped from the kept `m`. -/
def roundsUp (brm : Nat) (neg : Bool) (m rem den : Nat) : Bool :=
  match brm with
  | 0 => decide (den < 2 * rem) || (den == 2 * rem && m % 2 == 1)
  | 1 => false
  | 2 => decide (0 < rem) && !neg
  | _ => decide (0 < rem) && neg

/-- The quotient num × 2^exp / den scaled to units of 2^q: the kept magnitude, and remainder over denominator. -/
def scaleTo (num den : Nat) (exp q : Int) : Nat × Nat × Nat :=
  if q ≤ exp then
    let n := num * 2 ^ (exp - q).toNat
    (n / den, n % den, den)
  else
    let d := den * 2 ^ (q - exp).toNat
    (num / d, num % d, d)

/-- The exponent e with 2^e ≤ num × 2^exp / den < 2^(e+1), for num > 0. -/
def floorLog (num den : Nat) (exp : Int) : Int :=
  let g : Int := (num.log2 : Int) - (den.log2 : Int)
  let below : Bool := if 0 ≤ g then decide (num < den * 2 ^ g.toNat) else decide (num * 2 ^ (-g).toNat < den)
  exp + (if below then g - 1 else g)

/-- Round a nonzero magnitude num/den × 2^exp to units of 2^q: the rounded multiple and whether it was inexact. -/
def roundAt (brm : Nat) (neg : Bool) (num den : Nat) (exp q : Int) : Nat × Bool :=
  let (m, r, d) := scaleTo num den exp q
  (if roundsUp brm neg m r d then m + 1 else m, r != 0)

/-- R161: round a nonzero exact magnitude num/den × 2^exp to a format: the encoding and the flags. -/
def FFmt.round (f : FFmt) (brm : Nat) (neg : Bool) (num den : Nat) (exp : Int) : Nat × FFlags :=
  let sgn := b2n neg * 2 ^ (f.p - 1 + f.e)
  let e := floorLog num den exp
  let qn : Int := e - (f.p - 1 : Nat)
  let q := max qn f.emin
  let (m, inx) := roundAt brm neg num den exp q
  -- judged after rounding with an unbounded exponent
  let (mu, _) := roundAt brm neg num den exp qn
  let tiny := decide (qn + (if mu = 2 ^ f.p then 1 else 0) < f.emin)
  -- the encoding is linear in the multiple of 2^q
  let bits := m + (q - f.emin).toNat * 2 ^ (f.p - 1)
  if f.infBits false ≤ bits then
    let toInf := match brm with
      | 0 => true
      | 1 => false
      | 2 => !neg
      | _ => neg
    (if toInf then f.infBits neg else f.maxBits neg, 4 + 16)
  else (bits + sgn, (if tiny && inx then 8 else 0) + (if inx then 16 else 0))

/-- R161: the sign of an exact zero sum of opposite terms. -/
def zeroSign (brm : Nat) : Bool := brm == 3

/-- The exact sum of two signed dyadic numbers: signed numerator and exponent. -/
def addExact (n1 : Bool) (m1 : Nat) (e1 : Int) (n2 : Bool) (m2 : Nat) (e2 : Int) : Int × Int :=
  let e := min e1 e2
  let a : Int := (m1 * 2 ^ (e1 - e).toNat : Nat)
  let b : Int := (m2 * 2 ^ (e2 - e).toNat : Nat)
  ((if n1 then -a else a) + (if n2 then -b else b), e)

/-- Invalid from any signalling operand. -/
def anySnan (vs : List FVal) : Bool := vs.any (fun v => v == .nan true)

/-- Any NaN operand. -/
def anyNan (vs : List FVal) : Bool := vs.any (fun v => match v with
  | .nan _ => true
  | .inf _ | .fin _ _ _ => false)

/-- The NaN result of an operation with NaN operands (R160). -/
def FFmt.nanResult (f : FFmt) (vs : List FVal) : Nat × FFlags := (f.qnan, if anySnan vs then 1 else 0)

/-- The invalid default result. -/
def FFmt.invalid (f : FFmt) : Nat × FFlags := (f.qnan, 1)

/-- R161, R163: the sum of two data. -/
def FFmt.add (f : FFmt) (brm : Nat) (a b : FVal) : Nat × FFlags :=
  match a, b with
  | .nan _, _ | _, .nan _ => f.nanResult [a, b]
  | .inf x, .inf y => if x = y then (f.infBits x, 0) else f.invalid
  | .inf x, .fin _ _ _ => (f.infBits x, 0)
  | .fin _ _ _, .inf y => (f.infBits y, 0)
  | .fin n1 m1 e1, .fin n2 m2 e2 =>
    let (v, e) := addExact n1 m1 e1 n2 m2 e2
    if v = 0 then (f.zeroBits (if m1 = 0 ∧ m2 = 0 ∧ n1 = n2 then n1 else zeroSign brm), 0)
    else f.round brm (decide (v < 0)) v.natAbs 1 e

/-- The datum with its sign inverted. -/
def FVal.neg : FVal → FVal
  | .nan s => .nan s
  | .inf n => .inf (!n)
  | .fin n m e => .fin (!n) m e

/-- R163: the product. -/
def FFmt.mul (f : FFmt) (brm : Nat) (a b : FVal) : Nat × FFlags :=
  match a, b with
  | .nan _, _ | _, .nan _ => f.nanResult [a, b]
  | .inf x, .inf y => (f.infBits (x != y), 0)
  | .inf x, .fin y m _ => if m = 0 then f.invalid else (f.infBits (x != y), 0)
  | .fin x m _, .inf y => if m = 0 then f.invalid else (f.infBits (x != y), 0)
  | .fin x m e, .fin y k d =>
    if m * k = 0 then (f.zeroBits (x != y), 0) else f.round brm (x != y) (m * k) 1 (e + d)

/-- R161, R163: a + (b × c), rounded once; 0 × ∞ is invalid whatever the addend. -/
def FFmt.fma (f : FFmt) (brm : Nat) (a b c : FVal) : Nat × FFlags :=
  let zeroInf := match b, c with
    | .fin _ 0 _, .inf _ | .inf _, .fin _ 0 _ => true
    | _, _ => false
  if zeroInf then f.invalid
  else if anyNan [a, b, c] then f.nanResult [a, b, c]
  else
    let prod : FVal := match b, c with
      | .fin x m e, .fin y k d => .fin (x != y) (m * k) (e + d)
      | .inf x, .inf y | .inf x, .fin y _ _ | .fin x _ _, .inf y => .inf (x != y)
      | .nan s, _ | _, .nan s => .nan s
    f.add brm a prod

/-- R161, R163: the quotient. -/
def FFmt.div (f : FFmt) (brm : Nat) (a b : FVal) : Nat × FFlags :=
  match a, b with
  | .nan _, _ | _, .nan _ => f.nanResult [a, b]
  | .inf _, .inf _ => f.invalid
  | .inf x, .fin y _ _ => (f.infBits (x != y), 0)
  | .fin x _ _, .inf y => (f.zeroBits (x != y), 0)
  | .fin x m e, .fin y k d =>
    if k = 0 then (if m = 0 then f.invalid else (f.infBits (x != y), 2))
    else if m = 0 then (f.zeroBits (x != y), 0)
    else f.round brm (x != y) m k (e - d)

/-- The integer square root by bisection of bits: the largest r < 2^bits with r² ≤ n. -/
def isqrt (n : Nat) : Nat → Nat → Nat
  | 0, r => r
  | b + 1, r => if (r + 2 ^ b) * (r + 2 ^ b) ≤ n then isqrt n b (r + 2 ^ b) else isqrt n b r

/-- R161, R163: the square root. The root is taken to 2 bits beyond the precision, with a sticky bit below them. -/
def FFmt.sqrt (f : FFmt) (brm : Nat) (a : FVal) : Nat × FFlags :=
  match a with
  | .nan _ => f.nanResult [a]
  | .inf neg => if neg then f.invalid else (f.infBits false, 0)
  | .fin neg m e =>
    if m = 0 then (f.zeroBits neg, 0)
    else if neg then f.invalid
    else
      let k : Nat := 2 * (f.p + 2)
      let k := if (e - (k : Int)) % 2 = 0 then k else k + 1
      let n := m * 2 ^ k
      let r := isqrt n (n.log2 / 2 + 2) 0
      let sticky := if r * r = n then 0 else 1
      f.round brm false (2 * r + sticky) 1 ((e - (k : Int)) / 2 - 1)

/-- R163: the order of two data: none when unordered. -/
def fcompare (a b : FVal) : Option Int :=
  match a, b with
  | .nan _, _ | _, .nan _ => none
  | .inf x, .inf y => some (if x = y then 0 else if x then -1 else 1)
  | .inf x, .fin _ _ _ => some (if x then -1 else 1)
  | .fin _ _ _, .inf y => some (if y then 1 else -1)
  | .fin n1 m1 e1, .fin n2 m2 e2 => some (addExact n1 m1 e1 (!n2) m2 e2).1

/-- R164: convert a datum to an integer between bounds, rounding by a mode: the result and the flags. -/
def toRange (lo hi : Int) (brm : Nat) (a : FVal) : Int × FFlags :=
  match a with
  | .nan _ => (0, 1)
  | .inf neg => (if neg then lo else hi, 1)
  | .fin neg m e =>
    let (k, inx) := if m = 0 then (0, false) else roundAt brm neg m 1 e 0
    let v : Int := if neg then -(k : Int) else k
    if v < lo then (lo, 1) else if hi < v then (hi, 1) else (v, if inx then 16 else 0)

/-- R164: convert a datum to a signed integer of `w` bits, rounding by a mode: the result and the flags. -/
def toInteger (w brm : Nat) (a : FVal) : Int × FFlags :=
  toRange (-((2 ^ (w - 1) : Nat) : Int)) ((2 ^ (w - 1) : Nat) - 1) brm a

/-- R164: convert a signed integer to a format. -/
def FFmt.ofInt (f : FFmt) (brm : Nat) (v : Int) : Nat × FFlags :=
  if v = 0 then (0, 0) else f.round brm (decide (v < 0)) v.natAbs 1 0

/-- R164: convert between the two floating-point formats. -/
def FFmt.convert (f : FFmt) (brm : Nat) (a : FVal) : Nat × FFlags :=
  match a with
  | .nan _ => f.nanResult [a]
  | .inf neg => (f.infBits neg, 0)
  | .fin neg m e => if m = 0 then (f.zeroBits neg, 0) else f.round brm neg m 1 e

/-! ## Pass B

R361: transformed, the unit works on inverted signs with RU and RD exchanged, so that it delivers the negated result. For a product
or a quotient it is one factor's sign that is inverted: with both the result would keep its sign, and the exchange of RU and RD could
not be undone (assumption log 51). -/

/-- RU and RD exchanged. -/
def swapRm (rm : Nat) : Nat := if rm = 2 then 3 else if rm = 3 then 2 else rm

/-- An encoding with its sign inverted; the canonical NaN stands for itself. -/
def FFmt.negBits (f : FFmt) (v : Nat) : Nat := if v = f.qnan then v else v ^^^ 2 ^ (f.p - 1 + f.e)

/-- A result with its sign inverted. -/
def FFmt.negResult (f : FFmt) (r : Nat × FFlags) : Nat × FFlags := (f.negBits r.1, r.2)

/-- The adder in either mode. -/
def FFmt.addBy (f : FFmt) (m : Mode) (rm : Nat) (a b : FVal) : Nat × FFlags :=
  match m with
  | .straight => f.add rm a b
  | .transformed => f.negResult (f.add (swapRm rm) a.neg b.neg)

/-- The multiplier in either mode. -/
def FFmt.mulBy (f : FFmt) (m : Mode) (rm : Nat) (a b : FVal) : Nat × FFlags :=
  match m with
  | .straight => f.mul rm a b
  | .transformed => f.negResult (f.mul (swapRm rm) a.neg b)

/-- The fused multiply and add in either mode. -/
def FFmt.fmaBy (f : FFmt) (m : Mode) (rm : Nat) (a b c : FVal) : Nat × FFlags :=
  match m with
  | .straight => f.fma rm a b c
  | .transformed => f.negResult (f.fma (swapRm rm) a.neg b.neg c)

/-- The divider in either mode. -/
def FFmt.divBy (f : FFmt) (m : Mode) (rm : Nat) (a b : FVal) : Nat × FFlags :=
  match m with
  | .straight => f.div rm a b
  | .transformed => f.negResult (f.div (swapRm rm) a.neg b)

/-- The comparison in either mode; transformed, its relation is read reversed. -/
def fcompareBy (m : Mode) (a b : FVal) : Option Int :=
  match m with
  | .straight => fcompare a b
  | .transformed => fcompare b.neg a.neg

/-- The conversion to an integer in either mode. -/
def toIntegerBy (m : Mode) (w rm : Nat) (a : FVal) : Int × FFlags :=
  match m with
  | .straight => toInteger w rm a
  | .transformed =>
    let r := toRange (1 - (2 ^ (w - 1) : Nat)) (2 ^ (w - 1) : Nat) (swapRm rm) a.neg
    (-r.1, r.2)

/-- The conversion from an integer in either mode; a zero has no sign to invert. -/
def FFmt.ofIntBy (f : FFmt) (m : Mode) (rm : Nat) (v : Int) : Nat × FFlags :=
  match m with
  | .straight => f.ofInt rm v
  | .transformed => if v = 0 then f.ofInt (swapRm rm) 0 else f.negResult (f.ofInt (swapRm rm) (-v))

/-- The conversion between formats in either mode. -/
def FFmt.convertBy (f : FFmt) (m : Mode) (rm : Nat) (a : FVal) : Nat × FFlags :=
  match m with
  | .straight => f.convert rm a
  | .transformed => f.negResult (f.convert (swapRm rm) a.neg)

/-! ## Exceptions -/

/-- R162: raise the first enabled exception of an operation's flags, in the order invalid, divide-by-zero, others. -/
def raiseFp (fl : FFlags) : M Unit := do
  let en := fl &&& (← getPsw).fpe.toNat
  raiseLate (bitAt en 0) 0x0A
  raiseLate (bitAt en 1) 0x0B
  raiseLate (en != 0) 0x0C

/-- R162: OR an operation's flags into FPF. -/
def stickFp (fl : FFlags) : M Unit := modPsw (fun p => { p with fpf := p.fpf ||| BitVec.ofNat 5 fl })

/-- R162: deliver a floating-point result of `n` bytes. -/
def deliverFp (o : Opnd) (n : Nat) (r : Nat × FFlags) : M Unit := do
  raiseFp r.2
  stickFp r.2
  writeVal o n r.1

/-! ## Instructions -/

/-- .F4 and .F8 (R145). -/
def fpFmts : List Nat := [6, 7]

/-- A floating-point operand: mode 2 or memory. -/
def fpOpnd : Pos := .modes (2 :: memModes)

/-- The shape of FADD, FSUB, FMUL and FDIV. -/
def shapeFp : Shape := { fmts := fpFmts, opd1 := fpOpnd, opd2 := fpOpnd }

/-- Form OPD1 (both) and OPD2 (source) and read both as data. -/
def formFp (w : Word112) : M (Opnd × FVal × FVal) := do
  let n := fmtBytes w.fmt
  let o1 ← formOpnd w.opd1 n [.load, .store]
  let o2 ← formOpnd w.opd2 n [.load]
  let a ← readVal o1 n
  let b ← readVal o2 n
  let f := ffmt w.fmt.toNat
  pure (o1, f.decode a, f.decode b)

/-- BRM as a number. -/
def brm : M Nat := do return (← getPsw).brm.toNat

/-- R163: FADD. -/
def faddBody (m : Mode) (w : Word112) : M Nat := do
  checkShape shapeFp w
  let (o, a, b) ← formFp w
  deliverFp o (fmtBytes w.fmt) ((ffmt w.fmt.toNat).addBy m (← brm) a b)
  pure 2

/-- R163: FSUB. -/
def fsubBody (m : Mode) (w : Word112) : M Nat := do
  checkShape shapeFp w
  let (o, a, b) ← formFp w
  deliverFp o (fmtBytes w.fmt) ((ffmt w.fmt.toNat).addBy m (← brm) a b.neg)
  pure 2

/-- R163: FMUL. -/
def fmulBody (m : Mode) (w : Word112) : M Nat := do
  checkShape shapeFp w
  let (o, a, b) ← formFp w
  deliverFp o (fmtBytes w.fmt) ((ffmt w.fmt.toNat).mulBy m (← brm) a b)
  pure 2

/-- R163: the encoding of FMA. -/
def shapeFma : Shape :=
  { fmts := fpFmts, opd1 := fpOpnd, opd2 := fpOpnd, opd3 := fpOpnd }

/-- R163: FMA. -/
def fmaBody (m : Mode) (w : Word112) : M Nat := do
  checkShape shapeFma w
  let n := fmtBytes w.fmt
  let o1 ← formOpnd w.opd1 n [.load, .store]
  let o2 ← formOpnd w.opd2 n [.load]
  let o3 ← formOpnd w.opd3 n [.load]
  let f := ffmt w.fmt.toNat
  let a ← readVal o1 n
  let b ← readVal o2 n
  let c ← readVal o3 n
  deliverFp o1 n (f.fmaBy m (← brm) (f.decode a) (f.decode b) (f.decode c))
  pure 3

/-- R163, R544: FDIV. It asks for its leave once its operands are checked and read (DESIGN CHOICE, assumption log 57). -/
def fdivBody (m : Mode) (w : Word112) : M Nat := do
  checkShape shapeFp w
  let (o, a, b) ← formFp w
  takeLeave 10
  deliverFp o (fmtBytes w.fmt) ((ffmt w.fmt.toNat).divBy m (← brm) a b)
  pure (if w.fmt = 6 then 8 else 12)

/-- R163: the encoding of FSQRT. -/
def shapeFsqrt : Shape :=
  { fmts := [7], opd1 := fpOpnd, opd2 := fpOpnd }

/-- R163, R544: FSQRT. It asks for its leave once its operands are checked and read (DESIGN CHOICE, assumption log 57). -/
def fsqrtBody (w : Word112) : M Nat := do
  checkShape shapeFsqrt w
  let o ← formOpnd w.opd1 8 [.store]
  let b ← readVal (← formOpnd w.opd2 8 [.load]) 8
  takeLeave 15
  let f := ffmt 7
  deliverFp o 8 (f.sqrt (← brm) (f.decode b))
  pure 14

/-- R163: the encoding of FCMP. -/
def shapeFcmp : Shape :=
  { fmts := fpFmts, opd1 := fpOpnd, opd2 := fpOpnd, rule := flagOnly }

/-- R163, R161: FCMP; with S = 1 any NaN is invalid. -/
def fcmpBody (m : Mode) (w : Word112) : M Nat := do
  checkShape shapeFcmp w
  let n := fmtBytes w.fmt
  let o1 ← formOpnd w.opd1 n [.load]
  let o2 ← formOpnd w.opd2 n [.load]
  let f := ffmt w.fmt.toNat
  let a ← readVal o1 n
  let b ← readVal o2 n
  let x := f.decode a
  let y := f.decode b
  let fl := if anySnan [x, y] || (lenFlag w.len && anyNan [x, y]) then 1 else 0
  raiseFp fl
  stickFp fl
  setCc (match fcompareBy m x y with
    | none => 3
    | some d => if d = 0 then 0 else if d < 0 then 1 else 2)
  pure 1

/-- R164: the shape of FCVT: the formats of its operands decide their modes. -/
def shapeFcvt (w : Word112) : Shape :=
  let src := bitsOf w.len.toNat 0 4
  let isF (k : Nat) : Bool := k == 6 || k == 7
  { fmts := [3, 4, 6, 7]
    opd1 := if isF w.fmt.toNat then fpOpnd else regOrMem
    opd2 := if isF src then fpOpnd else regOrMem
    rule := fun w => bitsOf w.len.toNat 4 11 == 0 && [3, 4, 6, 7].contains src && src != w.fmt.toNat
      && (isF src || isF w.fmt.toNat) && !(lenFlag w.len && isF w.fmt.toNat) }

/-- R164: FCVT. -/
def fcvtBody (m : Mode) (w : Word112) : M Nat := do
  checkShape (shapeFcvt w) w
  let src := bitsOf w.len.toNat 0 4
  let n := fmtBytes w.fmt
  let k := fmtBytes (BitVec.ofNat 4 src)
  let o1 ← formOpnd w.opd1 n [.store]
  let b ← readVal (← formOpnd w.opd2 k [.load]) k
  let rm ← brm
  if w.fmt.toNat < 6 then do
    let (v, fl) := toIntegerBy m (8 * n) (if lenFlag w.len then 1 else rm) ((ffmt src).decode b)
    deliverFp o1 n (wrapInt (8 * n) v, fl)
  else if src < 6 then deliverFp o1 n ((ffmt w.fmt.toNat).ofIntBy m rm (signed (8 * k) b))
  else deliverFp o1 n ((ffmt w.fmt.toNat).convertBy m rm ((ffmt src).decode b))
  pure 2

/-! ## DOT -/

/-- R166: accumulate `k` elements: the accumulator's bits and the flags met; an enabled exception discards the unit. -/
def dotUnit (m : Mode) (f : FFmt) (rm n : Nat) : Nat → Nat → Nat → Nat → FFlags → M (Nat × FFlags)
  | 0, _, _, acc, fl => pure (acc, fl)
  | k + 1, a, b, acc, fl => do
    let pa ← checkPieces [.load] .logical n none (pieces a n)
    awaitLines pa
    let x := leNat (← readPieces pa false)
    let pb ← checkPieces [.load] .logical n none (pieces b n)
    awaitLines pb
    let y := leNat (← readPieces pb false)
    let (v, g) := f.fmaBy m rm (f.decode acc) (f.decode x) (f.decode y)
    raiseFp g
    dotUnit m f rm n k (addWrap a n) (addWrap b n) v (fl ||| g)

/-- R166: the registers, the flags and what follows after a unit of `k` elements of `len`. -/
def dotCommit (w : Word112) (k len : Nat) (a b : Word) (v : Nat) (fl : FFlags) : M Unit := do
  let n := fmtBytes w.fmt
  stickFp fl
  modB (·.setF (spBase w.opd1) (BitVec.ofNat 64 v))
  writeG (spBase w.opd2) (BitVec.ofNat 64 (a.toNat + k * n))
  writeG (spBase w.opd3) (BitVec.ofNat 64 (b.toNat + k * n))
  writeG (BitVec.ofNat 4 w.len.toNat) (BitVec.ofNat 64 (len - k))
  if k < len then setNext .stay else clearIp

/-- R165: the encoding of DOT. -/
def shapeDot : Shape :=
  { fmts := fpFmts, opd1 := .modes [2], opd2 := .modes [0], opd3 := .modes [0],
    rule := fun w => w.len.toNat / 16 == 0 && spBase w.opd2 != spBase w.opd3 && spBase w.opd2 != BitVec.ofNat 4 w.len.toNat
      && spBase w.opd3 != BitVec.ofNat 4 w.len.toNat }

/-- R165 to R168: DOT, one unit of at most 256 elements; units that remain leave IP on it. -/
def dotBody (m : Mode) (w : Word112) : M Nat := do
  let cnt := BitVec.ofNat 4 w.len.toNat
  checkShape shapeDot w
  let f := ffmt w.fmt.toNat
  let n := fmtBytes w.fmt
  let a ← readG (spBase w.opd2)
  let b ← readG (spBase w.opd3)
  let c ← readG cnt
  let len := c.toNat
  if len = 0 then do
    clearIp
    pure 4
  else do
    if 256 < len ∧ !(← getB).cont then takeLeave 200
    let k := min 256 len
    let acc := ((← getB).getF (spBase w.opd1)).toNat % 2 ^ (8 * n)
    let (v, fl) ← dotUnit m f (← brm) n k a.toNat b.toNat acc 0
    dotCommit w k len a b v fl
    pure (4 + ceilDiv k 4)

/-- FADD (R163). -/
def execFadd (i : Issue) (s : State) : Host.Outcome State Fault Refusal := issue (both 0x500 faddBody) i s
/-- FSUB (R163). -/
def execFsub (i : Issue) (s : State) : Host.Outcome State Fault Refusal := issue (both 0x501 fsubBody) i s
/-- FMUL (R163). -/
def execFmul (i : Issue) (s : State) : Host.Outcome State Fault Refusal := issue (both 0x502 fmulBody) i s
/-- FMA (R163). -/
def execFma (i : Issue) (s : State) : Host.Outcome State Fault Refusal := issue (both 0x503 fmaBody) i s
/-- FDIV (R163). -/
def execFdiv (i : Issue) (s : State) : Host.Outcome State Fault Refusal := issue (both 0x504 fdivBody) i s
/-- FSQRT (R163). -/
def execFsqrt (i : Issue) (s : State) : Host.Outcome State Fault Refusal := issue (same 0x505 fsqrtBody) i s
/-- FCMP (R163). -/
def execFcmp (i : Issue) (s : State) : Host.Outcome State Fault Refusal := issue (both 0x506 fcmpBody) i s
/-- FCVT (R164). -/
def execFcvt (i : Issue) (s : State) : Host.Outcome State Fault Refusal := issue (both 0x507 fcvtBody) i s
/-- DOT (R166). -/
def execDot (i : Issue) (s : State) : Host.Outcome State Fault Refusal := issue (both 0x508 dotBody) i s

end Sys2Proof.Machine
end

