-- ==== Sys2Proof/Machine/Sync.lean ====
section
/-!
DEFINITION. The event family: WAIT (R316), SIGNAL (R318), SEND (R461), RECV (R460), PIN and UNPIN (R323), SAMPLE (R320,
R321) and FENCE (R436).
-/

namespace Sys2Proof.Machine

/-- The classes of R312 that WAIT takes from a group's count too: QA, SG, AT. -/
def groupClasses : List Nat := [0, 1, 3]

/-- R316: take the pending events and counts of a mask; the classes taken. -/
def takeEvents (m : Nat) : List Nat → Nat → M Nat
  | [], r => pure r
  | x :: t, r => do
    let c ← get
    let pend := bitAt c.b.evpend.toNat x
    let a := c.s.wgAt (c.s.wgOf c.b.ctx) + wgCountOff x
    if bitAt m x && pend then do
      modB (fun b => { b with evpend := b.evpend &&& ~~~ BitVec.ofNat 4 (2 ^ x) })
      takeEvents m t (r + 2 ^ x)
    else if bitAt m x && groupClasses.contains x && decide (0 < c.s.ld a 8) then do
      modS (fun s => s.devWriteN a 8 (s.ld a 8 - 1))
      takeEvents m t (r + 2 ^ x)
    else takeEvents m t r

/-- R316: the encoding of WAIT. -/
def shapeWait : Shape :=
  { fmts := [0], opd1 := .modes [0], opd2 := .modes [0], repeats := false }

/-- R316: WAIT. -/
def waitBody (w : Word112) : M Nat := do
  checkShape shapeWait w
  let m := (← readG (spBase w.opd1)).toNat
  raiseIf (m == 0 || decide (32 ≤ m)) 0x04
  let r ← takeEvents m [0, 1, 3, 2] 0
  let dl ← readG (spBase w.opd2)
  let r := if bitAt m 4 && decide (dl.toNat ≤ (← get).latch) then r + 16 else r
  if r = 0 then throw (.wait (.event (BitVec.ofNat 5 m) dl))
  else do
    writeG (spBase w.opd1) (BitVec.ofNat 64 r)
    setCc 0
  pure 3

/-- R318: the encoding of SIGNAL. -/
def shapeSignal : Shape :=
  { fmts := [0], opd1 := .modes [0, 3], rule := fun w => bitsOf w.len.toNat 0 15 == 0 }

/-- R318: SIGNAL. -/
def signalBody (w : Word112) : M Nat := do
  checkShape shapeSignal w
  drainOwn
  let t ← readVal (← formOpnd w.opd1 8 []) 8
  let s := (← get).s
  if lenFlag w.len then do
    raiseIf (decide (4096 ≤ t)) 0x04
    if !bitAt (s.ld (s.wgAt t) 8) 0 then setCc 1
    else do
      addEffect (.signalGroup t)
      setCc 0
  else do
    raiseIf (decide (2 ^ 20 ≤ t)) 0x04
    if s.st (BitVec.ofNat 20 t) = St.unused then setCc 1
    else do
      addEffect (.signalCtx (BitVec.ofNat 20 t))
      setCc 0
  pure 2

/-! ## SEND and RECV -/

/-- R358, R359, R460, R461: RECV and SEND claim their queue; while CHM1 does not operate they wait for the claim (R445). -/
def claimQueue (q : Nat) : M Unit := do
  let c ← get
  if (c.pass = .plain ∨ c.pass = .form) ∧ !c.s.blockOn Slot.chm1 then throw (.wait (.ext .claim))
  else claimUnits (linesTouched (c.s.queueAt q) 128)

/-- R452: the state of a queue, as an instruction's use finds it. -/
def readQueue (q : Nat) : M Nat := do
  let c ← get
  let (s, v) := c.s.useQueue q
  set { c with s := s }
  pure v

/-- R321, R460, R461: a key other than 0 and the queue's is refused. -/
def checkQueueKey (q v : Nat) : M Unit := do
  let p ← getPsw
  if p.key ≠ 0 ∧ p.key.toNat ≠ qKey v then
    raise { code := 0x10, fav := true, phys := true, faddr := (← get).s.queueAt q }
  else pure ()

/-- R460: pass the SKIP headers at RXNEXT. -/
def State.passSkips (s : State) (v : Nat) : Nat → Nat → Nat
  | 0, n => n
  | fuel + 1, n =>
    if n = qRxProd v then n
    else
      let h := qSlotAt v n
      if bitAt (s.hdrFlags h) 0 then s.passSkips v fuel ((n + s.hdrSlots h) % 2 ^ 64) else n

/-- R460: the encoding of RECV. -/
def shapeRecv : Shape :=
  { fmts := [0], opd1 := .modes [0, 3], repeats := false }

/-- R460: RECV. -/
def recvBody (w : Word112) : M Nat := do
  checkShape shapeRecv w
  let q ← readVal (← formOpnd w.opd1 8 []) 8
  raiseIf (decide (524288 ≤ q)) 0x04
  claimQueue q
  let v ← readQueue q
  checkQueueKey q v
  let b ← getB
  if b.msg.v then modS (·.releaseMsg b.ctx b.msg)
  let v ← readQueue q
  let none' : Msg := { b.msg with v := false }
  if !qActive v || qSizeExp v == 0 || qOwner v || (← get).s.mirrorNames q then do
    modB (·.setMsg none')
    setCc 2
  else do
    let s := (← get).s
    let n := s.passSkips v (qSlots v) (qRxNext v)
    let v := qPut v 0x18 8 n
    if n = qRxProd v then do
      modS (·.setQueue q v)
      modB (·.setMsg none')
      setCc 1
    else do
      let h := qSlotAt v n
      let v := qPut v 0x18 8 ((n + s.hdrSlots h) % 2 ^ 64)
      let flen := s.ld (h + 0x08) 2
      let doff := s.ld (h + 0x0A) 2
      modS (fun s => (s.devWrite (h + 0x0C) (leBytes 2 (s.hdrFlags h ||| 2))).devWrite (h + 0x20) (leBytes 4 b.ctx.toNat))
      modS (·.setQueue q v)
      modB (·.setMsg { buf := BitVec.ofNat 64 (h + 64 + doff), len := BitVec.ofNat 16 (flen - doff), queue := BitVec.ofNat 19 q,
                       v := true })
      setCc 0
  releaseLines
  pure 4

/-- R461: check one piece of the bytes to send as a load; none when it lies in a device range. -/
def sendPiece (via : Via) (total : Nat) (second : Bool) (la len : Nat) : M (Option Nat) := do
  let pa ← keptReach (do
    let ct ← scratchCt
    let psw ← getPsw
    let te := match via with
      | .logical => psw.te
      | .scratch => ct
      | .physical => false
    let e := accessExc .load via la second ct
    let pa ← translateAccess .load te la e
    if (← get).s.device pa then do
      if via ≠ .physical ∧ !psw.sup ∧ protectedRange pa then raise { e with code := 0x02 }
      if !(← get).s.populated .load pa then raise { e with code := 0x03, phys := true, faddr := pa }
      pure pa
    else checkAccess .load via la len total second)
  pure (if (← get).s.device pa then none else some pa)

/-- R461: check the bytes to send: their physical address when they are contiguous in ordinary memory. -/
def sendPieces (via : Via) (total : Nat) (first : Option Nat) (next : Nat) (ok : Bool) : List (Nat × Nat) → M (Option Nat)
  | [] => pure (if ok then first else none)
  | (la, len) :: t => do
    let la := la % 2 ^ 64
    let r ← sendPiece via total first.isSome la len
    let pa := r.getD 0
    sendPieces via total (some (first.getD pa)) (pa + len) (ok && r.isSome && (first.isNone || pa == next)) t

/-- R462: a send descriptor. -/
def sendDesc (addr n : Nat) (ts reply : Bool) (hdr : Nat) : List Byte :=
  leBytes 8 addr ++ leBytes 2 n ++ leBytes 2 (b2n ts * 2 + b2n reply * 4 + b2n (hdr ≠ 0) * 8) ++ zeros 4 ++ leBytes 8 hdr
    ++ zeros 8

/-- R461: the encoding of SEND. -/
def shapeSend : Shape :=
  { fmts := [0], opd1 := .modes [0, 3], opd2 := .modes [4, 5, 8, 9, 13, 14], opd3 := .modes [0, 3],
    rule := fun w => w.len.toNat / 2 == 0, repeats := false }

/-- R461: SEND. -/
def sendBody (w : Word112) : M Nat := do
  checkShape shapeSend w
  let n ← readVal (← formOpnd w.opd3 8 []) 8
  let q ← readVal (← formOpnd w.opd1 8 []) 8
  raiseIf (decide (524288 ≤ q) || n == 0 || decide (65535 < n)) 0x04
  let p ← formAddress w.opd2 n
  let at' ← sendPieces p.via n none 0 true (p.parts.flatMap (fun (a, k) => pieces a k))
  match at' with
  | none => raiseCode 0x04
  | some pa => do
    claimQueue q
    let v ← readQueue q
    checkQueueKey q v
    let b ← getB
    if !qActive v || qDexp v == 0 || qTxOwn v || (← get).s.mirrorNames q || (qTxMode v == 1 && !b.msg.v) then setCc 2
    else if seqSub (qTxProd v) (qTxCons v) = 2 ^ qDexp v then setCc 1
    else do
      let mv ← if b.msg.v then readQueue b.msg.queue.toNat else pure 0
      let h := msgHeader mv b.msg.buf.toNat
      let r := if b.msg.v && (← get).s.releasable h b.ctx then h else 0
      drainOwn
      modS (·.devWrite (qDescAt v (qTxProd v)) (sendDesc pa n (bitAt w.len.toNat 0) (qTxMode v == 1) r))
      let v ← readQueue q
      modS (·.setQueue q (qPut v 0x30 8 (qTxProd v + 1)))
      modB (·.setMsg { b.msg with v := false })
      setCc 0
    releaseLines
    pure 6

/-! ## PIN -/

/-- The forms of PIN and UNPIN (R322). -/
def shapePin : Shape :=
  { fmts := [0], opd1 := .modes [4, 5, 8, 9, 10], rule := fun w => bitsOf w.len.toNat 5 10 == 0 }

/-- R323 step 1: check a line as a load; one outside near memory and CXL far memory raises 0x04. -/
def pinLine (a : Nat) : M Nat := keptReach (do
  let p ← getPsw
  let e := accessExc .load .logical a false false
  let pa ← translateAccess .load p.te a e
  raiseWhen (!p.sup ∧ protectedRange pa) { e with code := 0x02 }
  raiseWhen (!(← get).s.ordinary pa) { e with code := 0x04 }
  checkAccess .load .logical a 64 64 false)

/-- R323 step 1: the physical lines of `n` consecutive logical lines. -/
def pinLines : Nat → Nat → M (List Nat)
  | _, 0 => pure []
  | a, n + 1 => do
    raiseIf (decide (2 ^ 64 ≤ a)) 0x04
    let pa ← pinLine a
    let t ← pinLines (a + 64) n
    pure (lineOf pa :: t)

/-- R322, R323: PIN; LEN[15] makes it UNPIN. -/
def pinBody (w : Word112) : M Nat := do
  checkShape shapePin w
  let n := bitsOf w.len.toNat 0 5 + 1
  let p ← formAddress w.opd1 1
  let lines ← pinLines (p.addr / 64 * 64) n
  let c ← get
  if lenFlag w.len then do
    modB (fun b => { b with pins := b.pins.filter (fun l => !lines.contains l) })
    setCc 0
  else if 64 < c.b.pins.length + n ∨ 512 < c.s.pinsOf c.b.stove.toNat + n then setCc 1
  else do
    modB (fun b => { b with pins := lines.foldl (fun ps l => if ps.contains l then ps else ps ++ [l]) b.pins })
    setCc 0
  pure 3

/-! ## SAMPLE and FENCE -/

/-- R320, R321: the value of a queue source, none for a queue that is not active or has no such ring. -/
def sampleQueue (src q : Nat) : M (Option Nat) := do
  raiseIf (decide (524288 ≤ q)) 0x04
  let v ← readQueue q
  checkQueueKey q v
  if !qActive v then pure none
  else if src = 1 then pure (if qSizeExp v = 0 then none else some (seqSub (qRxProd v) (qRxNext v)))
  else pure (if qDexp v = 0 then none else some (2 ^ qDexp v - seqSub (qTxProd v) (qTxCons v)))

/-- R320: the encoding of SAMPLE. -/
def shapeSample (plain : Bool) : Shape :=
  { fmts := [0], opd1 := .modes [0], opd2 := if plain then .unused else .modes [0, 3],
    rule := fun w => decide (w.len.toNat ≤ 5) }

/-- R320: SAMPLE. -/
def sampleBody (w : Word112) : M Nat := do
  let src := bitsOf w.len.toNat 0 4
  let plain := src == 0 || src == 5
  checkShape (shapeSample plain) w
  let arg ← if plain then pure 0 else (do readVal (← formOpnd w.opd2 8 []) 8)
  let r ← match src with
    | 0 => do pure (some (← get).s.tod)
    | 5 => do pure (some (← getB).evpend.toNat)
    | 1 => sampleQueue 1 arg
    | 2 => sampleQueue 2 arg
    | _ => do
      ringNumber arg
      checkRingBy (ringRead arg) arg
      let e ← ringRead arg
      pure (some (if src = 3 then e.durable else e.head))
  modify (fun c => { c with vol := c.vol ++ [(none, r.getD 0)] })
  writeG (spBase w.opd1) (BitVec.ofNat 64 (r.getD 0))
  setCc (if r.isSome then 0 else 2)
  pure 2

/-- R436: the encoding of FENCE. -/
def shapeFence : Shape :=
  { fmts := [0] }

/-- R436: FENCE. -/
def fenceBody (w : Word112) : M Nat := do
  checkShape shapeFence w
  drainOwn
  pure 1

/-- WAIT (R316). -/
def execWait (i : Issue) (s : State) : Host.Outcome State Fault Refusal := issue (same 0x700 waitBody) i s
/-- SIGNAL (R318). -/
def execSignal (i : Issue) (s : State) : Host.Outcome State Fault Refusal := issue (same 0x701 signalBody) i s
/-- SEND (R461). -/
def execSend (i : Issue) (s : State) : Host.Outcome State Fault Refusal := issue (same 0x702 sendBody) i s
/-- RECV (R460). -/
def execRecv (i : Issue) (s : State) : Host.Outcome State Fault Refusal := issue (same 0x703 recvBody) i s
/-- PIN (R323). -/
def execPin (i : Issue) (s : State) : Host.Outcome State Fault Refusal := issue (same 0x704 pinBody) i s
/-- UNPIN (R323): the same opcode with LEN[15] = 1. -/
def execUnpin (i : Issue) (s : State) : Host.Outcome State Fault Refusal := issue (same 0x704 pinBody) i s
/-- SAMPLE (R320). -/
def execSample (i : Issue) (s : State) : Host.Outcome State Fault Refusal := issue (same 0x705 sampleBody) i s
/-- FENCE (R436). -/
def execFence (i : Issue) (s : State) : Host.Outcome State Fault Refusal := issue (same 0x706 fenceBody) i s

end Sys2Proof.Machine
end

