-- ==== Sys2Proof/Machine/Keys.lean ====
section
/-!
DEFINITION. The storage-key family: SETKEY (R398 to R401) and TESTKEY (R402).
-/

namespace Sys2Proof.Machine

/-- R398: the encoding of SETKEY. -/
def shapeSetkey : Shape :=
  { fmts := [0], priv := true, opd1 := .modes [0], opd2 := .modes [0, 3], rule := fun w => w.len.toNat / 4 == 0 }

/-- R398: SETKEY. -/
def setkeyBody (w : Word112) : M Nat := do
  checkShape shapeSetkey w
  drainOwn
  let f := (← readG (spBase w.opd1)).toNat / 4096 * 4096
  let at' (code : Nat) : Exc := { code := code, fav := true, phys := true, faddr := f }
  let s := (← get).s
  if f / 2 ^ 48 ≠ 0 ∨ !s.ordinary f ∨ !s.populated .load f then raise (at' 0x03)
  let kb := (← readVal (← formOpnd w.opd2 1 []) 8) % 256
  raiseIf (kb / 32 != 0) 0x04
  if s.inVault f then raise (at' 0x02)
  takeLeave 300
  reserve ((List.range 64).map (lineOf f + ·))
  let old := (← get).s.refChg f
  modS (·.setKey f kb (bitAt w.len.toNat 0) (bitAt w.len.toNat 1))
  setCc (BitVec.ofNat 2 old)
  releaseLines
  pure 16

/-- Run a check for its answer alone: nothing it does is kept. -/
def peek {α : Type} (m : M α) : M (Option α) := fun c =>
  match m c with
  | .ok a _ => .ok (some a) c
  | .error _ _ => .ok none c

/-- R402: steps 0 to 3 and 5 of R394 for one kind of access, and step 4. -/
def testReach (k : Acc) (la : Nat) : M (Option Nat) := do
  let p ← getPsw
  match ← peek (translateAccess k p.te la { code := 0 }) with
  | none => pure none
  | some pa =>
    let s := (← get).s
    pure (if (!p.sup && protectedRange pa) || !s.populated k pa then none else some pa)

/-- R402, R391: step 6 of R394. -/
def State.keyPasses (s : State) (pa key : Nat) (store : Bool) : Bool :=
  !s.ordinary pa || (!s.keyLost pa && keyAllows (s.keyByte pa) key store)

/-- R402: the encoding of TESTKEY. -/
def shapeTestkey : Shape :=
  { fmts := [0], opd1 := .modes [0], opd2 := .modes [4, 5, 8, 9, 10] }

/-- R402: TESTKEY. -/
def testkeyBody (w : Word112) : M Nat := do
  checkShape shapeTestkey w
  let a := (← formAddress w.opd2 1).addr
  let key := (← getPsw).key.toNat
  match ← testReach .load a with
  | none => do
    writeG (spBase w.opd1) 0
    setCc 3
  | some pa => do
    let st ← testReach .store a
    let s := (← get).s
    let ld := s.keyPasses pa key false
    let nokey := !s.ordinary pa
    let full := (if nokey then 0 else s.keyByte pa + s.refChg pa * 2 ^ 8) + b2n nokey * 2 ^ 10
    writeG (spBase w.opd1) (BitVec.ofNat 64 (if (← getPsw).sup then full else b2n nokey * 2 ^ 10))
    setCc (if !ld then 2 else if st.isSome && s.keyPasses pa key true then 0 else 1)
  pure 3

/-- SETKEY (R398). -/
def execSetkey (i : Issue) (s : State) : Host.Outcome State Fault Refusal := issue (same 0x800 setkeyBody) i s
/-- TESTKEY (R402). -/
def execTestkey (i : Issue) (s : State) : Host.Outcome State Fault Refusal := issue (same 0x801 testkeyBody) i s

end Sys2Proof.Machine
end

