-- ==== Sys2Proof/Machine/GrateEvents.lean ====
section
/-!
DEFINITION. What the stoves, the Grate and the fabric do of themselves: reissues (R272 to R274), leave, reservations and write-backs
(R249, R438, R440), timers (R326, R316), binding and preemption (R308 to R311), spills and refills, and alarms (R325 to R331, R340).
-/

namespace Sys2Proof.Machine

/-! ## Instructions by opcode -/

/-- R109: the body of an opcode, for a microword that is reissued. -/
def bodyOf (op : BitVec 12) (w : Word112) : Body :=
  match op.toNat with
  | 0x000 => if w.fmt = 0 then both 0x000 movPswBody else both 0x000 movBody
  | 0x001 => same 0x001 leaBody
  | 0x010 => both 0x010 addBody
  | 0x011 => both 0x011 subBody
  | 0x012 => both 0x012 mulBody
  | 0x013 => both 0x013 mulhBody
  | 0x014 => both 0x014 divBody
  | 0x015 => both 0x015 divuBody
  | 0x016 => both 0x016 remBody
  | 0x017 => both 0x017 negBody
  | 0x018 => both 0x018 absBody
  | 0x020 => if w.fmt = 0 then both 0x020 andPswBody else both 0x020 andBody
  | 0x021 => if w.fmt = 0 then both 0x021 orPswBody else both 0x021 orBody
  | 0x022 => both 0x022 xorBody
  | 0x023 => both 0x023 notBody
  | 0x030 => both 0x030 shlBody
  | 0x031 => both 0x031 shrBody
  | 0x032 => both 0x032 shaBody
  | 0x033 => both 0x033 rotBody
  | 0x040 => both 0x040 cmpBody
  | 0x041 => both 0x041 tstBody
  | 0x100 => same 0x100 brBody
  | 0x101 => same 0x101 brcBody
  | 0x102 => same 0x102 callBody
  | 0x103 => same 0x103 retBody
  | 0x104 => same 0x104 repBody
  | 0x200 => both 0x200 addpBody
  | 0x201 => both 0x201 subpBody
  | 0x202 => both 0x202 zappBody
  | 0x203 => both 0x203 cmppBody
  | 0x204 => both 0x204 mulpBody
  | 0x205 => both 0x205 divpBody
  | 0x206 => both 0x206 srppBody
  | 0x207 => both 0x207 tstpBody
  | 0x208 => both 0x208 cvbpBody
  | 0x209 => both 0x209 cvdpBody
  | 0x20A => both 0x20A packBody
  | 0x20B => both 0x20B unpkBody
  | 0x20C => both 0x20C ldaBody
  | 0x20D => both 0x20D staBody
  | 0x300 => both 0x300 movlBody
  | 0x301 => same 0x301 cmplBody
  | 0x302 => same 0x302 trlBody
  | 0x303 => same 0x303 trtlBody
  | 0x304 => same 0x304 srchBody
  | 0x305 => same 0x305 editBody
  | 0x306 => same 0x306 edmkBody
  | 0x400 => both 0x400 postBody
  | 0x401 => same 0x401 jappBody
  | 0x402 => same 0x402 durwBody
  | 0x500 => both 0x500 faddBody
  | 0x501 => both 0x501 fsubBody
  | 0x502 => both 0x502 fmulBody
  | 0x503 => both 0x503 fmaBody
  | 0x504 => both 0x504 fdivBody
  | 0x505 => same 0x505 fsqrtBody
  | 0x506 => both 0x506 fcmpBody
  | 0x507 => both 0x507 fcvtBody
  | 0x508 => both 0x508 dotBody
  | 0x600 => same 0x600 savehBody
  | 0x601 => same 0x601 resthBody
  | 0x602 => same 0x602 sealfBody
  | 0x603 => same 0x603 retxBody
  | 0x604 => same 0x604 svcBody
  | 0x700 => same 0x700 waitBody
  | 0x701 => same 0x701 signalBody
  | 0x702 => same 0x702 sendBody
  | 0x703 => same 0x703 recvBody
  | 0x704 => same 0x704 pinBody
  | 0x705 => same 0x705 sampleBody
  | 0x706 => same 0x706 fenceBody
  | 0x800 => same 0x800 setkeyBody
  | 0x801 => same 0x801 testkeyBody
  | _ => unassigned op

/-! ## Microwords -/

/-- R273: a withdrawn microword is reissued unchanged once its context holds a flue and the wait has ended. -/
def State.reissue (s : State) (stove : BitVec 6) (flue : BitVec 2) (env : Env) : Except Fault State :=
  match s.boundTo stove flue with
  | none => .ok s
  | some b =>
    if !s.stoveRuns stove || s.flueShut stove flue || b.wait.isSome then .ok s
    else match b.wdrawn with
      | none => .ok s
      | some x => s.issueBank b (bodyOf x.op x.word) x.word env

/-- R430: a withdrawn microword waits for a completion: reissued without one, it waits on. -/
def State.awaitsCompletion (s : State) (b : Bank) (x : Withdrawn) : Bool :=
  x.cause == .ext .device && match s.work b (bodyOf x.op x.word) x.word {} with
    | .ok t => ((t.bankOf b.ctx).bind (·.wdrawn)).any (·.cause == .ext .device)
    | .error _ => false

/-- R430: the load from device memory that a context waits in has had no completion within CTO. -/
def State.completionTimeout (s : State) (ctx : BitVec 20) (env : Env) : Except Fault State :=
  match s.bankOf ctx with
  | none => .ok s
  | some b => match b.wdrawn with
    | none => .ok s
    | some x =>
      if !s.stoveRuns b.stove || !s.awaitsCompletion b x then .ok s
      else s.issueBank b (bodyOf x.op x.word) x.word { env with wait := none, device := .timeout :: env.device }

/-! ## Leave, reservations, stores and lines -/

/-- R249: the fabric grants the next line of a reservation set, in ascending order, when no other set holds it. -/
def State.grantLine (s : State) (ctx : BitVec 20) : State :=
  match s.resv.find? (·.ctx == ctx) with
  | none => s
  | some r => match r.want with
    | [] => s
    | l :: rest =>
      if s.heldByOther ctx l then s
      else
        let s : State := { s with
          resv := s.resv.map (fun (x : Resv) => if x.ctx == ctx then { x with want := rest, held := x.held ++ [l] } else x) }
        match rest, s.bankOf ctx with
        | [], some b => if b.wait = some WaitCause.reserved then s.wakeBank b else s
        | _, _ => s

/-- R438: the store buffer of a context writes its oldest store into the hob, unless a reservation holds the line. -/
def State.drainOldest (s : State) (ctx : BitVec 20) : State :=
  match s.stores.find? (·.ctx == ctx) with
  | none => s
  | some b =>
    if (linesTouched b.addr b.bytes.length).any (s.heldByOther ctx) then s
    else ({ s with stores := s.stores.erase b } : State).drainOne b

/-- R440: a modified line is written back; one that is not modified, that a reservation holds, or that near memory does not take now
(R52), is not. -/
def State.writeBackLine (s : State) (line : Nat) (found : WriteBack) : State :=
  match s.dirty.find? (·.line == line) with
  | none => s
  | some m => if s.lineHeld (line * 64) 1 || s.nearStops (line * 64) 64 then s else s.writeBack m found

/-! ## Timers -/

/-- R326: the time of day reaches a context's ALARM; a router that does not operate learns of it later (R52). -/
def State.timerAlarm (s : State) (ctx : BitVec 20) : State :=
  let a := s.alarm ctx
  if a = 0 ∨ s.tod < a ∨ s.routerQuiet then s
  else ((s.devWriteN (s.dirAt ctx + 16) 8 0).queueAlarm ctx 0x22 0 0 0).1

/-- R316: the time of day reaches the deadline of a WAIT. -/
def State.waitDeadline (s : State) (ctx : BitVec 20) : State :=
  match s.bankOf ctx with
  | none => s
  | some b => match b.wait with
    | some (.event m deadline) => if bitAt m.toNat 4 && decide (deadline.toNat ≤ s.tod) then s.wakeBank b else s
    | some (.ext _) | some (.leave _) | some .reserved | some (.dura _) | none => s

/-! ## Flues -/

/-- R52, R54: the stove, or its hearth, is asked to become Quiesced: it accepts no work. -/
def State.stoveAsked (s : State) (stove : BitVec 6) : Bool := s.qreq (Slot.stv stove.toNat) || s.qreq (Slot.hrtA (hearthOf stove))

/-- R308, R289: an empty flue takes the ready resident context of highest priority; in open timing only flue 0 issues. -/
def State.bindFlue (s : State) (stove : BitVec 6) (flue : BitVec 2) : State :=
  if !s.stoveRuns stove || s.stoveAsked stove || (s.boundTo stove flue).isSome || s.flueShut stove flue then s
  else match s.toBind stove with
    | none => s
    | some b => (s.putBank { b with flue := some flue, slice := 0, due := false }).toBound b.ctx

/-- R309: a bound context has retired its time slice. -/
def State.sliceDue (s : State) (stove : BitVec 6) (flue : BitVec 2) : State :=
  match s.boundTo stove flue with
  | none => s
  | some b =>
    let t := s.fld (Slot.hrtB (hearthOf stove)) Off.HRTB.SCHEDCTL 0 16
    if t ≠ 0 ∧ bitAt (s.sched b.ctx) 3 ∧ t * 64 ≤ b.slice then s.putBank { b with due := true } else s

/-- R309 to R311: a bound context is preempted at a boundary point, once no alarm is due there (R325). -/
def State.preempt (s : State) (ctx : BitVec 20) : State :=
  match s.bankOf ctx with
  | none => s
  | some b =>
    if b.flue.isNone || !s.mayLeave b || !s.stoveRuns b.stove then s
    else
      let slice := b.due && s.rival b (fun p => decide (s.prio ctx ≤ p))
      let prio := s.flag (Slot.hrtB (hearthOf b.stove)) Off.HRTB.SCHEDCTL 16
        && (s.ppreVictim b.stove).map (·.ctx) == some ctx
      if slice || prio then s.unbind b else s

/-- R306: a resident context of a stove that runs is spilled at a boundary point. -/
def State.spillOne (s : State) (ctx : BitVec 20) : State :=
  match s.bankOf ctx with
  | none => s
  | some b => if s.st ctx = St.resident ∧ s.stoveRuns b.stove ∧ s.mayLeave b ∧ !s.routerQuiet then (s.spillOut b none).1 else s

/-! ## Alarms -/

/-- R83, R340: what an entry records of a delivered record. -/
def Record.exc (r : Record) : Exc :=
  if r.code = 0x20 then { code := 0x20, fav := true, w := true, phys := true, faddr := r.paddr } else { code := r.code }

/-- R340: the record's VALID clears as its alarm is delivered; a failed access locks the stove up (R339). -/
def State.takeRecord (s : State) (b : Bank) (r : Record) : State × Bool :=
  match fSt b.ctx (s.block b.ctx + 0x900 + 64 * r.slot) 8 (putBits r.hdr 8 1 0) s with
  | .ok _ s => (s, true)
  | .error e s => (s.lockup b e.kind 0xF e.addr r.code, false)

/-- How a context stands for an alarm at a boundary point (R327): none, or what its wait is charged (R285). -/
def Bank.boundaryCost (b : Bank) : Option Nat :=
  match b.wait, b.wdrawn with
  | some (.event _ _), _ => some (chargeOf b.psw.rf 3 0)
  | some (.dura _), _ => some (chargeOf b.psw.rf 2 0)
  | _, some x => if x.abandons b.psw.rf then some 0 else none
  | none, none => if b.flue.isSome && b.resume == 0 then some 0 else none
  | some _, none => none

/-- A context that has entered while off its flue becomes ready. -/
def State.readyUnlessBound (s : State) (ctx : BitVec 20) : State :=
  match s.bankOf ctx with
  | some b => if b.flue.isNone && s.st ctx == St.resident && !s.order.ready.contains ctx then s.toReady ctx else s
  | none => s

/-- R317, R268, R271, R325: an alarm is taken at a boundary point. An entry writes the context's buffered stores, so it waits while another
reservation set holds the line of one (R248). -/
def State.boundaryAlarm (s : State) (b : Bank) (r : Record) : State :=
  match (if (s.blockedStores b.ctx).isEmpty then b.boundaryCost else none) with
  | none => s
  | some cost => match s.takeRecord b r with
    | (s, false) => s
    | (s, true) =>
      let s := s.abandon b.ctx
      let s := match b.leave with
        | some c => s.returnLeave (hearthOf b.stove) c
        | none => s
      let b := { b with leave := none, wait := none, wdrawn := none }
      (s.enter b r.exc b.psw (b.imageAt b.psw.ia) b.lis none (cost + 8)).readyUnlessBound b.ctx

/-- Microwords that an instruction spends on writing memory operands, after its routine (R281). -/
def storeWords (op : BitVec 12) (w : Word112) : Nat :=
  ((trappedSpecs op w).filter (fun (sp, wr) => wr && decide (4 ≤ spMode sp))).length

/-- R171, R204: the trap-safe microwords of a routine of count `c`: the first and the last. -/
def trapRegion (op c : Nat) : Option (Nat × Nat) :=
  match op with
  | 0x014 | 0x015 | 0x016 => some (3, c - 3)
  | 0x504 | 0x505 => some (2, c - 1)
  | 0x204 => some (6, c - 1)
  | 0x205 => some (7, c - 6)
  | 0x508 => some (1, c - 1)
  | _ => none

/-- R166: a unit of DOT with the reads of its first `j` elements alone: the count of the unit. -/
def dotReads (j : Nat) (w : Word112) : M Nat := do
  checkShape shapeDot w
  let n := fmtBytes w.fmt
  let len := (← readG (BitVec.ofNat 4 w.len.toNat)).toNat
  let k := min 256 len
  let a ← readG (spBase w.opd2)
  let b ← readG (spBase w.opd3)
  if 256 < len ∧ !(← getB).cont then takeLeave 200
  let acc := ((← getB).getF (spBase w.opd1)).toNat % 2 ^ (8 * n)
  let _ ← dotUnit .straight (ffmt w.fmt.toNat) (← brm) n (min j k) a.toNat b.toNat acc 0
  pure (4 + ceilDiv k 4)

/-- A bank whose instruction has been trapped inside: the bank, the state, and the accesses that open timing has still to charge. -/
structure Trapped where
  b   : Bank
  s   : State
  acc : List Access

/-- What an instruction does up to the microword of a micro-trap in its routine: it forms and reads its operands, and writes nothing
(R171, R204). A unit of DOT reads four elements with each microword after its fourth. -/
def trapRun (t : MicroTrap) : Body :=
  if t.op = 0x508 then same t.op (dotReads (4 * (t.done.toNat - 3))) else bodyOf t.op t.word

/-- The start of an execution that a micro-trap interrupts: what it did before a wait stands. -/
def Cpu.trapStart (s : State) (b : Bank) (p : Pass) (env : Env) : Cpu :=
  { Cpu.start s b env.device with pass := p, replay := (b.wdrawn.map (·.trace)).getD [], latch := (b.wdrawn.bind (·.latch)).getD s.tod }

/-- The micro-trap inside a routine that commits as one sequence: what it has read stands in the micro-temporaries. -/
def State.trapRoutine (s : State) (b : Bank) (t : MicroTrap) (env : Env) : Option Trapped :=
  match fetchCheck (Cpu.trapStart s b .trap env) with
  | .error _ _ => none
  | .ok _ c0 =>
    let old := if b.resume = 0 then none else b.saved
    let run : M Nat := match old with
      | some x => onSaved x t.op t.word ((trapRun t).fetched t.word)
      | none => (trapRun t).fetched t.word
    match run c0 with
    | .error _ _ => none
    | .ok n c =>
      let reads := c.sur - storeWords t.op t.word
      let next := t.done.toNat - reads + 1
      match trapRegion t.op.toNat n with
      | none => none
      | some (lo, hi) =>
        if !(decide (reads ≤ t.done.toNat ∧ lo ≤ next ∧ next ≤ hi ∧ b.resume ≤ t.done.toNat)) then none
        else
          let regs := (old.map b.withSaved).getD b
          some { b := { b with saved := some (regs.saving (c.log.drop c0.log.length ++ c.replay)), image := some (b.psw.ia, insWord t.op t.word) }
                 s := c.s, acc := c0.acc }

/-- The micro-trap of SAVEH and RESTH: after a group commits (R92, R95). -/
def State.trapGroups (s : State) (b : Bank) (t : MicroTrap) (env : Env) : Option Trapped :=
  let total := (t.done.toNat - 3) / 2
  let j := total - (b.resume - 3) / 2
  let body (w : Word112) : M Nat := if t.op = 0x600 then savehUpTo j w else resthUpTo j w
  if t.done.toNat % 2 = 0 ∨ t.done.toNat < 5 ∨ j = 0 then none
  else match (fetchCheck >>= fun _ => Body.fetched (same t.op body) t.word) (Cpu.trapStart s b .plain env) with
    | .error _ _ => none
    | .ok n c => if c.next = .stay ∧ n = 4 + 2 * total then some { b := c.b, s := c.s, acc := c.acc } else none

/-- R329: the ember frame of a micro-trap, before it is sealed and numbered. -/
def State.emberFrame (s : State) (ctx : BitVec 20) (done : Nat) (leave : Bool) : List Byte :=
  frameHeader 0 0 (descWord 0 0 3 false) ctx 0 0
    ++ leBytes 8 (Config.microPc s.fresh).toNat ++ leBytes 8 s.imageGen ++ leBytes 8 (done + b2n leave * 2 ^ 16) ++ zeros 40
    ++ leBytes 256 (Config.microTemps s.fresh).toNat ++ zeros 640

/-- R328: a context can be trapped inside its instruction: the hearth samples at microwords, the context is not refired, its
ember frame is free, and it holds a flue with no wait. An entry writes its buffered stores, so it waits while another reservation set
holds the line of one (R248). -/
def State.canTrap (s : State) (b : Bank) (t : MicroTrap) : Bool :=
  s.flag (Slot.hrtA (hearthOf b.stove)) Off.HRTA.MODE 1 && !b.psw.rf && !s.embers.any (·.ctx == b.ctx) && b.flue.isSome
    && b.wait.isNone && (s.blockedStores b.ctx).isEmpty && b.wdrawn.all (fun x => x.op == t.op && x.word == t.word)

/-- R328, R330: an alarm is taken at a trap-safe microword. -/
def State.microAlarm (s : State) (b : Bank) (r : Record) (t : MicroTrap) (env : Env) : State :=
  if !s.canTrap b t then s
  else
    match (if t.op = 0x600 ∨ t.op = 0x601 then s.trapGroups b t env else s.trapRoutine b t env) with
    | none => s
    | some x =>
      let served := x.s.serve b.stove x.acc
      match served.1.takeRecord x.b r with
      | (s, false) => s
      | (s, true) =>
        let done := t.done.toNat
        let frame := s.emberFrame b.ctx done x.b.leave.isSome
        let use : EmberUse := { ctx := b.ctx, bucket := hearthOf b.stove, leave := x.b.leave, done := done, lis := x.b.lis, saved := x.b.saved }
        let s : State := { s with fresh := s.fresh + 1, embers := use :: s.embers }
        let bank := { x.b with leave := none, wdrawn := none }
        s.enter bank r.exc { bank.psw with ip := true } (insWord t.op t.word).toNat none (some frame)
          (done - b.resume + 10 + x.s.openCharge b.stove x.acc)

/-- R325, R340: a resident context of a stove that runs takes its first pending and enabled alarm. -/
def State.takeAlarm (s : State) (ctx : BitVec 20) (micro : Option MicroTrap) (env : Env) : State :=
  match s.bankOf ctx with
  | none => s
  | some b =>
    let s := s.before b env
    match s.bankOf ctx with
    | none => s
    | some b =>
      if s.st ctx ≠ St.resident ∨ !s.stoveRuns b.stove then s
      else match s.alarmOf b with
        | none => s
        | some r => match micro with
          | none => s.boundaryAlarm b r
          | some t => s.microAlarm b r t env

end Sys2Proof.Machine
end

