-- ==== Sys2Proof/Machine/GrateCmds.lean ====
section
/-!
DEFINITION. The commands of the stoves, the Grate and the register window, one meaning each.
-/

namespace Sys2Proof.Machine

/-- R45: a stove context's load of a register: its value, and its read-clear fields cleared. -/
def State.contextLoad (s : State) (addr : BitVec 20) : State :=
  let slot := addr.toNat / 4096
  let off := addr.toNat % 4096
  let v := s.regRead slot off
  let s := s.clearRc slot off
  { s with out := s.out ++ [.regRead addr (BitVec.ofNat 64 v)] }

/-- MICROWORD_REISSUE (R273). -/
def execMicrowordReissue (stove : BitVec 6) (flue : BitVec 2) (env : Env) (s : State) : Host.Outcome State Fault Refusal :=
  outcome s (s.reissue stove flue env)

/-- DAMPER_LEAVE_GRANT (R543). -/
def execDamperLeaveGrant (bucket : BitVec 4) (s : State) : Host.Outcome State Fault Refusal :=
  done s (s.damperGrant bucket.toNat)

/-- LINE_RESERVATION_GRANT (R249). -/
def execLineReservationGrant (ctx : BitVec 20) (s : State) : Host.Outcome State Fault Refusal :=
  done s (s.grantLine ctx)

/-- STORE_BUFFER_DRAIN (R438). -/
def execStoreBufferDrain (ctx : BitVec 20) (s : State) : Host.Outcome State Fault Refusal :=
  done s (s.drainOldest ctx)

/-- LINE_WRITE_BACK (R440). -/
def execLineWriteBack (line : BitVec 42) (found : WriteBack) (s : State) : Host.Outcome State Fault Refusal :=
  done s (s.writeBackLine line.toNat found)

/-- TIMER_ALARM (R326). -/
def execTimerAlarm (ctx : BitVec 20) (s : State) : Host.Outcome State Fault Refusal :=
  done s (s.timerAlarm ctx)

/-- WAIT_DEADLINE (R316). -/
def execWaitDeadline (ctx : BitVec 20) (s : State) : Host.Outcome State Fault Refusal :=
  done s (s.waitDeadline ctx)

/-- ALARM_TAKEN (R340). -/
def execAlarmTaken (ctx : BitVec 20) (micro : Option MicroTrap) (env : Env) (s : State) : Host.Outcome State Fault Refusal :=
  done s (s.takeAlarm ctx micro env)

/-- FLUE_BIND (R308). -/
def execFlueBind (stove : BitVec 6) (flue : BitVec 2) (s : State) : Host.Outcome State Fault Refusal :=
  done s (s.bindFlue stove flue)

/-- TIME_SLICE_DUE (R309). -/
def execTimeSliceDue (stove : BitVec 6) (flue : BitVec 2) (s : State) : Host.Outcome State Fault Refusal :=
  done s (s.sliceDue stove flue)

/-- PREEMPTION (R311). -/
def execPreemption (ctx : BitVec 20) (s : State) : Host.Outcome State Fault Refusal :=
  done s (s.preempt ctx)

/-- SPILL (R306). -/
def execSpill (ctx : BitVec 20) (s : State) : Host.Outcome State Fault Refusal :=
  done s (s.spillOne ctx)

/-- REFILL (R307). -/
def execRefill (ctx : BitVec 20) (s : State) : Host.Outcome State Fault Refusal :=
  done s (s.refill ctx)

/-- COMPLETION_TIMEOUT (R430). -/
def execCompletionTimeout (ctx : BitVec 20) (env : Env) (s : State) : Host.Outcome State Fault Refusal :=
  outcome s (s.completionTimeout ctx env)

/-- CTXCMD_START (R302). -/
def execCtxcmdStart (src : Src) (ctx : BitVec 20) (s : State) : Host.Outcome State Fault Refusal :=
  outcome s (s.regWrite src Slot.grt Off.GRT.CTXCMD (ctx.toNat + 1 * 2 ^ 24))

/-- CTXCMD_STOP (R302). -/
def execCtxcmdStop (src : Src) (ctx : BitVec 20) (s : State) : Host.Outcome State Fault Refusal :=
  outcome s (s.regWrite src Slot.grt Off.GRT.CTXCMD (ctx.toNat + 2 * 2 ^ 24))

/-- CTXCMD_EVICT (R302). -/
def execCtxcmdEvict (src : Src) (ctx : BitVec 20) (s : State) : Host.Outcome State Fault Refusal :=
  outcome s (s.regWrite src Slot.grt Off.GRT.CTXCMD (ctx.toNat + 3 * 2 ^ 24))

/-- CTXCMD_PREEMPT (R302). -/
def execCtxcmdPreempt (src : Src) (ctx : BitVec 20) (s : State) : Host.Outcome State Fault Refusal :=
  outcome s (s.regWrite src Slot.grt Off.GRT.CTXCMD (ctx.toNat + 4 * 2 ^ 24))

/-- CTXCMD_ALARM (R302). -/
def execCtxcmdAlarm (src : Src) (ctx : BitVec 20) (s : State) : Host.Outcome State Fault Refusal :=
  outcome s (s.regWrite src Slot.grt Off.GRT.CTXCMD (ctx.toNat + 5 * 2 ^ 24))

/-- CTXCMD_ATTN (R302). -/
def execCtxcmdAttn (src : Src) (ctx : BitVec 20) (s : State) : Host.Outcome State Fault Refusal :=
  outcome s (s.regWrite src Slot.grt Off.GRT.CTXCMD (ctx.toNat + 6 * 2 ^ 24))

/-- CTXCMD_RESET (R302). -/
def execCtxcmdReset (src : Src) (ctx : BitVec 20) (s : State) : Host.Outcome State Fault Refusal :=
  outcome s (s.regWrite src Slot.grt Off.GRT.CTXCMD (ctx.toNat + 7 * 2 ^ 24))

/-- WGCMD_ENABLE (R313). -/
def execWgcmdEnable (src : Src) (wg : BitVec 12) (s : State) : Host.Outcome State Fault Refusal :=
  outcome s (s.regWrite src Slot.grt Off.GRT.WGCMD (wg.toNat + 1 * 2 ^ 12))

/-- WGCMD_DISABLE (R313). -/
def execWgcmdDisable (src : Src) (wg : BitVec 12) (s : State) : Host.Outcome State Fault Refusal :=
  outcome s (s.regWrite src Slot.grt Off.GRT.WGCMD (wg.toNat + 2 * 2 ^ 12))

/-- WGCMD_CLEAR_COUNTS (R313). -/
def execWgcmdClearCounts (src : Src) (wg : BitVec 12) (s : State) : Host.Outcome State Fault Refusal :=
  outcome s (s.regWrite src Slot.grt Off.GRT.WGCMD (wg.toNat + 3 * 2 ^ 12))

/-- MAN_DUMPCMD (R565). -/
def execManDumpcmd (src : Src) (stove : BitVec 6) (s : State) : Host.Outcome State Fault Refusal :=
  outcome s (s.regWrite src Slot.man Off.MAN.DUMPCMD (stove.toNat + 2 ^ 8))

/-- RFCMD_QUAR (R372). -/
def execRfcmdQuar (src : Src) (stove : BitVec 6) (s : State) : Host.Outcome State Fault Refusal :=
  outcome s (s.regWrite src (Slot.stv stove.toNat) Off.STV.RFCMD (1))

/-- EMBER_PARITY_ERROR (R512). -/
def execEmberParityError (stove : BitVec 6) (upc : BitVec 14) (reload : Reload) (s : State) : Host.Outcome State Fault Refusal :=
  done s (if s.stoveRuns stove then s.parityError { stove := stove, upc := upc, reload := reload } else s)

/-- REKCMD (R512). -/
def execRekcmd (src : Src) (stove : BitVec 6) (reload : Reload) (s : State) : Host.Outcome State Fault Refusal :=
  outcome s (s.regWriteWith src Slot.emb Off.EMB.REKCMD (stove.toNat + 2 ^ 8) { reload := reload })

/-- QUIESCE_REQUEST (R52). -/
def execQuiesceRequest (src : Src) (slot : BitVec 8) (s : State) : Host.Outcome State Fault Refusal :=
  outcome s (s.regWrite src slot.toNat Off.PAGE.CTL (bitsOf (s.withQ slot.toNat Off.PAGE.CTL) 0 1 + 2))

/-- QUIESCE_RELEASE (R52). -/
def execQuiesceRelease (src : Src) (slot : BitVec 8) (s : State) : Host.Outcome State Fault Refusal :=
  outcome s (s.regWrite src slot.toNat Off.PAGE.CTL (bitsOf (s.withQ slot.toNat Off.PAGE.CTL) 0 1))

/-- QUIESCE_ACK (R52). -/
def execQuiesceAck (slot : BitVec 8) (s : State) : Host.Outcome State Fault Refusal :=
  done s (s.quiesceAck slot.toNat)

/-- QUIESCE_TIMEOUT (R55). -/
def execQuiesceTimeout (slot : BitVec 8) (s : State) : Host.Outcome State Fault Refusal :=
  done s (s.quiesceTimeout slot.toNat)

/-- REGISTER_WRITE (R50). -/
def execRegisterWrite (src : Src) (addr : BitVec 20) (value : Word) (s : State) : Host.Outcome State Fault Refusal :=
  if addr.toNat % 8 = 0 then outcome s (s.regWrite src (addr.toNat / 4096) (addr.toNat % 4096) value.toNat)
  else .fault .registerAccess

/-- RC_READ (R45). -/
def execRcRead (addr : BitVec 20) (s : State) : Host.Outcome State Fault Refusal :=
  if addr.toNat % 8 = 0 then done s (s.contextLoad addr) else .fault .registerAccess

/-- CACHECTL_WBINV (R440). -/
def execCachectlWbinv (src : Src) (w : Wbinv) (s : State) : Host.Outcome State Fault Refusal :=
  outcome s (s.regWriteWith src (Slot.hrtA w.hearth.toNat) Off.HRTA.CACHECTL 1 { found := w.found })

/-- FKTEN_CHANGE (R390). -/
def execFktenChange (src : Src) (on : Bool) (s : State) : Host.Outcome State Fault Refusal :=
  outcome s (s.regWrite src Slot.key Off.KEY.KEYCTL (putBits (s.withQ Slot.key Off.KEY.KEYCTL) 1 1 (b2n on)))

end Sys2Proof.Machine
end

