-- ==== Sys2Proof/Machine/MantelCmds.lean ====
section
/-!
DEFINITION. The commands of the Mantel: mastership, clocks, power, heat, resets, start-up and management requests, one meaning each.
-/

namespace Sys2Proof.Machine

/-- CLAIM_BEAT (R532). -/
def execClaimBeat (src : Src) (s : State) : Host.Outcome State Fault Refusal :=
  outcome s (s.regWrite src Slot.man Off.MAN.CLAIM (1))

/-- CLAIM_CLAIM (R532). -/
def execClaimClaim (src : Src) (s : State) : Host.Outcome State Fault Refusal :=
  outcome s (s.regWrite src Slot.man Off.MAN.CLAIM (2))

/-- CLAIM_RELEASE (R533). -/
def execClaimRelease (src : Src) (s : State) : Host.Outcome State Fault Refusal :=
  outcome s (s.regWrite src Slot.man Off.MAN.CLAIM (4))

/-- TODSET (R540). -/
def execTodset (src : Src) (value : Word) (s : State) : Host.Outcome State Fault Refusal :=
  outcome s (s.regWrite src Slot.clk Off.CLK.TODSET (value.toNat))

/-- TODSTEP (R539). -/
def execTodstep (src : Src) (value : Word) (s : State) : Host.Outcome State Fault Refusal :=
  outcome s (s.regWrite src Slot.clk Off.CLK.TODSTEP (value.toNat))

/-- DAMPER_REFILL (R542), and what else the end of a microsecond brings. -/
def execDamperRefill (s : State) : Host.Outcome State Fault Refusal :=
  done s s.microsecond

/-- OVERTEMP_TIMEOUT (R548). -/
def execOvertempTimeout (s : State) : Host.Outcome State Fault Refusal :=
  done s s.overtemp

/-- THERMAL_TRIP (R549). -/
def execThermalTrip (s : State) : Host.Outcome State Fault Refusal :=
  done s s.thermalTrip

/-- PLL_RELOCK (R537). -/
def execPllRelock (s : State) : Host.Outcome State Fault Refusal :=
  done s s.relock

/-- HOLDOVER_EXPIRY (R537). -/
def execHoldoverExpiry (s : State) : Host.Outcome State Fault Refusal :=
  done s s.holdoverExpiry

/-- VSB_RISE (R592). -/
def execVsbRise (s : State) : Host.Outcome State Fault Refusal :=
  done s s.vsbRise

/-- VSB_FALL (R594). -/
def execVsbFall (s : State) : Host.Outcome State Fault Refusal :=
  done s s.vsbFall

/-- PORST_N (R551). -/
def execPorstN (s : State) : Host.Outcome State Fault Refusal :=
  done s (s.coldReset .porst)

/-- WARM_N (R551). -/
def execWarmN (s : State) : Host.Outcome State Fault Refusal :=
  done s (s.requestReset 3 0 .warmN)

/-- THERMAL_SAMPLE (R547). -/
def execThermalSample (r : Readings) (s : State) : Host.Outcome State Fault Refusal :=
  done s (s.thermal r)

/-- BROWNOUT (R546). -/
def execBrownout (mv : BitVec 16) (s : State) : Host.Outcome State Fault Refusal :=
  done s (s.brownout mv.toNat)

/-- BROWNOUT_RECOVERY (R546). -/
def execBrownoutRecovery (mv : BitVec 16) (s : State) : Host.Outcome State Fault Refusal :=
  done s (s.brownRecovery mv.toNat)

/-- RAILFAIL (R546). -/
def execRailfail (vin : Option (BitVec 16)) (s : State) : Host.Outcome State Fault Refusal :=
  done s (s.railFail (vin.map (·.toNat)))

/-- REFLOSS (R537). -/
def execRefloss (unlock : Bool) (s : State) : Host.Outcome State Fault Refusal :=
  done s (s.refLoss unlock)

/-- PWRCMD_OFF (R550). -/
def execPwrcmdOff (src : Src) (key : BitVec 32) (s : State) : Host.Outcome State Fault Refusal :=
  outcome s (s.regWrite src Slot.pwr Off.PWR.PWRCMD (1 + key.toNat * 2 ^ 32))

/-- ASHCMD_CLEAR (R579). -/
def execAshcmdClear (src : Src) (key : BitVec 32) (s : State) : Host.Outcome State Fault Refusal :=
  outcome s (s.regWrite src Slot.ash Off.ASH.ASHCMD (1 + key.toNat * 2 ^ 32))

/-- RSTCMD_WARM (R551). -/
def execRstcmdWarm (src : Src) (key : BitVec 32) (s : State) : Host.Outcome State Fault Refusal :=
  outcome s (s.regWrite src Slot.rst Off.RST.RSTCMD (3 + key.toNat * 2 ^ 32))

/-- RSTCMD_COLD (R551). -/
def execRstcmdCold (src : Src) (key : BitVec 32) (s : State) : Host.Outcome State Fault Refusal :=
  outcome s (s.regWrite src Slot.rst Off.RST.RSTCMD (4 + key.toNat * 2 ^ 32))

/-- RSTCMD_STOVE (R553). -/
def execRstcmdStove (src : Src) (target : BitVec 6) (key : BitVec 32) (s : State) : Host.Outcome State Fault Refusal :=
  outcome s (s.regWrite src Slot.rst Off.RST.RSTCMD (1 + target.toNat * 2 ^ 8 + key.toNat * 2 ^ 32))

/-- RSTCMD_HEARTH (R553). -/
def execRstcmdHearth (src : Src) (target : BitVec 6) (key : BitVec 32) (s : State) : Host.Outcome State Fault Refusal :=
  outcome s (s.regWrite src Slot.rst Off.RST.RSTCMD (2 + target.toNat * 2 ^ 8 + key.toNat * 2 ^ 32))

/-- CORE_POWER_UP (R555). -/
def execCorePowerUp (env : BootEnv) (flash : Option (Flash × Flash)) (s : State) : Host.Outcome State Fault Refusal :=
  done s (s.powerUp env flash)

/-- BOOTCTL_RELEASE (R557). -/
def execBootctlRelease (src : Src) (hearths : BitVec 8) (s : State) : Host.Outcome State Fault Refusal :=
  outcome s (s.regWrite src Slot.rst Off.RST.BOOTCTL (1 + hearths.toNat * 2 ^ 8))

/-- IDENT (R562). -/
def execIdent (req : Mgmt) (s : State) : Host.Outcome State Fault Refusal :=
  done s (s.mgmtIdent req)

/-- ASHREAD (R562). -/
def execAshread (req : Mgmt) (s : State) : Host.Outcome State Fault Refusal :=
  done s (s.mgmtAshread req)

/-- LOCKREAD (R562). -/
def execLockread (req : Mgmt) (s : State) : Host.Outcome State Fault Refusal :=
  done s (s.mgmtLockread req)

/-- THERMREAD (R562). -/
def execThermread (req : Mgmt) (s : State) : Host.Outcome State Fault Refusal :=
  done s (s.mgmtThermread req)

/-- MASTERREAD (R562). -/
def execMasterread (req : Mgmt) (s : State) : Host.Outcome State Fault Refusal :=
  done s (s.mgmtMasterread req)

/-- MGMT_RESET (R563). -/
def execMgmtReset (req : Mgmt) (s : State) : Host.Outcome State Fault Refusal :=
  done s (s.mgmtReset req)

/-- POWERDOWN (R563). -/
def execPowerdown (req : Mgmt) (s : State) : Host.Outcome State Fault Refusal :=
  done s (s.mgmtPowerdown req)

/-- MGMT_QUOTE (R564). -/
def execMgmtQuote (req : Mgmt) (s : State) : Host.Outcome State Fault Refusal :=
  done s (s.mgmtQuote req)

/-- CFGRECORD (R517). -/
def execCfgrecord (req : Mgmt) (s : State) : Host.Outcome State Fault Refusal :=
  done s (s.mgmtCfgrecord req)

/-- RECOVERY (R510). -/
def execRecovery (req : Mgmt) (s : State) : Host.Outcome State Fault Refusal :=
  done s (s.mgmtRecovery req)

/-- MGMT_DUMP (R565). -/
def execMgmtDump (req : Mgmt) (s : State) : Host.Outcome State Fault Refusal :=
  done s (s.mgmtDump req)

/-- UNKNOWN_OP (R561). -/
def execUnknownOp (req : Mgmt) (s : State) : Host.Outcome State Fault Refusal :=
  done s (s.mgmtUnknown req)

/-- CRC_OR_FRAMING_ERROR (R561). -/
def execCrcOrFramingError (iface : Iface) (s : State) : Host.Outcome State Fault Refusal :=
  done s (s.mgmtBad iface)

/-- MANTEL_CORE_HALT (R532). -/
def execMantelCoreHalt (south : Bool) (s : State) : Host.Outcome State Fault Refusal :=
  done s (s.haltCore south)

end Sys2Proof.Machine
end

