-- ==== Sys2Proof/Machine/Dispatch.lean ====
section
/-!
DEFINITION. The meaning of every command, by its constructor.
-/

namespace Sys2Proof.Machine

/-- The effect of a command on everything but the queue. -/
def exec (i : Instr) (s : State) : Host.Outcome State Fault Refusal :=
  match i with
  | .mov x => Sys2Proof.Machine.execMov x s
  | .movPsw x => Sys2Proof.Machine.execMovPsw x s
  | .andPsw x => Sys2Proof.Machine.execAndPsw x s
  | .orPsw x => Sys2Proof.Machine.execOrPsw x s
  | .lea x => Sys2Proof.Machine.execLea x s
  | .add x => Sys2Proof.Machine.execAdd x s
  | .sub x => Sys2Proof.Machine.execSub x s
  | .mul x => Sys2Proof.Machine.execMul x s
  | .mulh x => Sys2Proof.Machine.execMulh x s
  | .div x => Sys2Proof.Machine.execDiv x s
  | .divu x => Sys2Proof.Machine.execDivu x s
  | .rem x => Sys2Proof.Machine.execRem x s
  | .neg x => Sys2Proof.Machine.execNeg x s
  | .abs x => Sys2Proof.Machine.execAbs x s
  | .and x => Sys2Proof.Machine.execAnd x s
  | .or x => Sys2Proof.Machine.execOr x s
  | .xor x => Sys2Proof.Machine.execXor x s
  | .not x => Sys2Proof.Machine.execNot x s
  | .shl x => Sys2Proof.Machine.execShl x s
  | .shr x => Sys2Proof.Machine.execShr x s
  | .sha x => Sys2Proof.Machine.execSha x s
  | .rot x => Sys2Proof.Machine.execRot x s
  | .cmp x => Sys2Proof.Machine.execCmp x s
  | .tst x => Sys2Proof.Machine.execTst x s
  | .br x => Sys2Proof.Machine.execBr x s
  | .brc x => Sys2Proof.Machine.execBrc x s
  | .call x => Sys2Proof.Machine.execCall x s
  | .ret x => Sys2Proof.Machine.execRet x s
  | .rep x => Sys2Proof.Machine.execRep x s
  | .addp x => Sys2Proof.Machine.execAddp x s
  | .subp x => Sys2Proof.Machine.execSubp x s
  | .zapp x => Sys2Proof.Machine.execZapp x s
  | .cmpp x => Sys2Proof.Machine.execCmpp x s
  | .mulp x => Sys2Proof.Machine.execMulp x s
  | .divp x => Sys2Proof.Machine.execDivp x s
  | .srpp x => Sys2Proof.Machine.execSrpp x s
  | .tstp x => Sys2Proof.Machine.execTstp x s
  | .cvbp x => Sys2Proof.Machine.execCvbp x s
  | .cvdp x => Sys2Proof.Machine.execCvdp x s
  | .pack x => Sys2Proof.Machine.execPack x s
  | .unpk x => Sys2Proof.Machine.execUnpk x s
  | .lda x => Sys2Proof.Machine.execLda x s
  | .sta x => Sys2Proof.Machine.execSta x s
  | .movl x => Sys2Proof.Machine.execMovl x s
  | .cmpl x => Sys2Proof.Machine.execCmpl x s
  | .trl x => Sys2Proof.Machine.execTrl x s
  | .trtl x => Sys2Proof.Machine.execTrtl x s
  | .srch x => Sys2Proof.Machine.execSrch x s
  | .edit x => Sys2Proof.Machine.execEdit x s
  | .edmk x => Sys2Proof.Machine.execEdmk x s
  | .post x => Sys2Proof.Machine.execPost x s
  | .japp x => Sys2Proof.Machine.execJapp x s
  | .durw x => Sys2Proof.Machine.execDurw x s
  | .fadd x => Sys2Proof.Machine.execFadd x s
  | .fsub x => Sys2Proof.Machine.execFsub x s
  | .fmul x => Sys2Proof.Machine.execFmul x s
  | .fma x => Sys2Proof.Machine.execFma x s
  | .fdiv x => Sys2Proof.Machine.execFdiv x s
  | .fsqrt x => Sys2Proof.Machine.execFsqrt x s
  | .fcmp x => Sys2Proof.Machine.execFcmp x s
  | .fcvt x => Sys2Proof.Machine.execFcvt x s
  | .dot x => Sys2Proof.Machine.execDot x s
  | .saveh x => Sys2Proof.Machine.execSaveh x s
  | .resth x => Sys2Proof.Machine.execResth x s
  | .sealf x => Sys2Proof.Machine.execSealf x s
  | .retx x => Sys2Proof.Machine.execRetx x s
  | .svc x => Sys2Proof.Machine.execSvc x s
  | .wait x => Sys2Proof.Machine.execWait x s
  | .signal x => Sys2Proof.Machine.execSignal x s
  | .send x => Sys2Proof.Machine.execSend x s
  | .recv x => Sys2Proof.Machine.execRecv x s
  | .pin x => Sys2Proof.Machine.execPin x s
  | .unpin x => Sys2Proof.Machine.execUnpin x s
  | .sample x => Sys2Proof.Machine.execSample x s
  | .fence x => Sys2Proof.Machine.execFence x s
  | .setkey x => Sys2Proof.Machine.execSetkey x s
  | .testkey x => Sys2Proof.Machine.execTestkey x s
  | .microwordReissue stove flue env => Sys2Proof.Machine.execMicrowordReissue stove flue env s
  | .damperLeaveGrant bucket => Sys2Proof.Machine.execDamperLeaveGrant bucket s
  | .lineReservationGrant ctx => Sys2Proof.Machine.execLineReservationGrant ctx s
  | .storeBufferDrain ctx => Sys2Proof.Machine.execStoreBufferDrain ctx s
  | .lineWriteBack line found => Sys2Proof.Machine.execLineWriteBack line found s
  | .timerAlarm ctx => Sys2Proof.Machine.execTimerAlarm ctx s
  | .waitDeadline ctx => Sys2Proof.Machine.execWaitDeadline ctx s
  | .alarmTaken ctx micro env => Sys2Proof.Machine.execAlarmTaken ctx micro env s
  | .flueBind stove flue => Sys2Proof.Machine.execFlueBind stove flue s
  | .timeSliceDue stove flue => Sys2Proof.Machine.execTimeSliceDue stove flue s
  | .preemption ctx => Sys2Proof.Machine.execPreemption ctx s
  | .spill ctx => Sys2Proof.Machine.execSpill ctx s
  | .refill ctx => Sys2Proof.Machine.execRefill ctx s
  | .ctxcmdStart src ctx => Sys2Proof.Machine.execCtxcmdStart src ctx s
  | .ctxcmdStop src ctx => Sys2Proof.Machine.execCtxcmdStop src ctx s
  | .ctxcmdEvict src ctx => Sys2Proof.Machine.execCtxcmdEvict src ctx s
  | .ctxcmdPreempt src ctx => Sys2Proof.Machine.execCtxcmdPreempt src ctx s
  | .ctxcmdAlarm src ctx => Sys2Proof.Machine.execCtxcmdAlarm src ctx s
  | .ctxcmdAttn src ctx => Sys2Proof.Machine.execCtxcmdAttn src ctx s
  | .ctxcmdReset src ctx => Sys2Proof.Machine.execCtxcmdReset src ctx s
  | .wgcmdEnable src wg => Sys2Proof.Machine.execWgcmdEnable src wg s
  | .wgcmdDisable src wg => Sys2Proof.Machine.execWgcmdDisable src wg s
  | .wgcmdClearCounts src wg => Sys2Proof.Machine.execWgcmdClearCounts src wg s
  | .manDumpcmd src stove => Sys2Proof.Machine.execManDumpcmd src stove s
  | .rfcmdQuar src stove => Sys2Proof.Machine.execRfcmdQuar src stove s
  | .emberParityError stove upc reload => Sys2Proof.Machine.execEmberParityError stove upc reload s
  | .rekcmd src stove reload => Sys2Proof.Machine.execRekcmd src stove reload s
  | .quiesceRequest src slot => Sys2Proof.Machine.execQuiesceRequest src slot s
  | .quiesceAck slot => Sys2Proof.Machine.execQuiesceAck slot s
  | .quiesceRelease src slot => Sys2Proof.Machine.execQuiesceRelease src slot s
  | .quiesceTimeout slot => Sys2Proof.Machine.execQuiesceTimeout slot s
  | .registerWrite src addr value => Sys2Proof.Machine.execRegisterWrite src addr value s
  | .rcRead addr => Sys2Proof.Machine.execRcRead addr s
  | .cachectlWbinv src hearth => Sys2Proof.Machine.execCachectlWbinv src hearth s
  | .fktenChange src on => Sys2Proof.Machine.execFktenChange src on s
  | .frameReceive port fcsOk bytes => Sys2Proof.Machine.execFrameReceive port fcsOk bytes s
  | .sendDescriptor queue => Sys2Proof.Machine.execSendDescriptor queue s
  | .doorbellSendProducer queue index => Sys2Proof.Machine.execDoorbellSendProducer queue index s
  | .doorbellReceiveTail queue index => Sys2Proof.Machine.execDoorbellReceiveTail queue index s
  | .qcmdEnable src queue => Sys2Proof.Machine.execQcmdEnable src queue s
  | .qcmdDisable src queue => Sys2Proof.Machine.execQcmdDisable src queue s
  | .qcmdFlush src queue => Sys2Proof.Machine.execQcmdFlush src queue s
  | .qcmdRelease src queue => Sys2Proof.Machine.execQcmdRelease src queue s
  | .qcmdRestart src queue => Sys2Proof.Machine.execQcmdRestart src queue s
  | .rulecmdLoad src first last => Sys2Proof.Machine.execRulecmdLoad src first last s
  | .rulecmdDump src first last => Sys2Proof.Machine.execRulecmdDump src first last s
  | .statselClr src port cnt => Sys2Proof.Machine.execStatselClr src port cnt s
  | .roceSendReceive head part => Sys2Proof.Machine.execRoceSendReceive head part s
  | .rdmaWriteReceive head part => Sys2Proof.Machine.execRdmaWriteReceive head part s
  | .rdmaReadReceive head va rkey len => Sys2Proof.Machine.execRdmaReadReceive head va rkey len s
  | .roceAckReceive head syndrome => Sys2Proof.Machine.execRoceAckReceive head syndrome s
  | .rcAckTimeout qp => Sys2Proof.Machine.execRcAckTimeout qp s
  | .mirrorSessionStart set peer => Sys2Proof.Machine.execMirrorSessionStart set peer s
  | .hello head na pub eph => Sys2Proof.Machine.execHello head na pub eph s
  | .helloReply head nb pub eph sig => Sys2Proof.Machine.execHelloReply head nb pub eph sig s
  | .confirm head sig => Sys2Proof.Machine.execConfirm head sig s
  | .resume head ring seq chain => Sys2Proof.Machine.execResume head ring seq chain s
  | .records head ring seq records => Sys2Proof.Machine.execRecords head ring seq records s
  | .ack head ring seq chain => Sys2Proof.Machine.execAck head ring seq chain s
  | .close head reason => Sys2Proof.Machine.execClose head reason s
  | .mirrorRecordsSend set peer ring => Sys2Proof.Machine.execMirrorRecordsSend set peer ring s
  | .mirrorLossTimeout set peer => Sys2Proof.Machine.execMirrorLossTimeout set peer s
  | .ptpPpsIn => Sys2Proof.Machine.execPtpPpsIn s
  | .ptpPpsOut => Sys2Proof.Machine.execPtpPpsOut s
  | .belDoorbell src chan index => Sys2Proof.Machine.execBelDoorbell src chan index s
  | .chcmdEnable src chan => Sys2Proof.Machine.execChcmdEnable src chan s
  | .chcmdDisable src chan => Sys2Proof.Machine.execChcmdDisable src chan s
  | .copy chan limit => Sys2Proof.Machine.execCopy chan limit s
  | .fill chan limit => Sys2Proof.Machine.execFill chan limit s
  | .gather chan limit => Sys2Proof.Machine.execGather chan limit s
  | .scatter chan limit => Sys2Proof.Machine.execScatter chan limit s
  | .compare chan limit => Sys2Proof.Machine.execCompare chan limit s
  | .digest chan limit => Sys2Proof.Machine.execDigest chan limit s
  | .crc32c chan limit => Sys2Proof.Machine.execCrc32c chan limit s
  | .belDescriptorComplete chan => Sys2Proof.Machine.execBelDescriptorComplete chan s
  | .secRandom => Sys2Proof.Machine.execSecRandom s
  | .secVerify => Sys2Proof.Machine.execSecVerify s
  | .secQuote => Sys2Proof.Machine.execSecQuote s
  | .secEncrypt => Sys2Proof.Machine.execSecEncrypt s
  | .secDecrypt => Sys2Proof.Machine.execSecDecrypt s
  | .secReadcfg => Sys2Proof.Machine.execSecReadcfg s
  | .secOpComplete => Sys2Proof.Machine.execSecOpComplete s
  | .stage src => Sys2Proof.Machine.execStage src s
  | .sign src => Sys2Proof.Machine.execSign src s
  | .commit src fault => Sys2Proof.Machine.execCommit src fault s
  | .clear src => Sys2Proof.Machine.execClear src s
  | .tpcExpiry => Sys2Proof.Machine.execTpcExpiry s
  | .rngHealthFail => Sys2Proof.Machine.execRngHealthFail s
  | .dbgcmdHalt src ctx => Sys2Proof.Machine.execDbgcmdHalt src ctx s
  | .dbgcmdResume src ctx => Sys2Proof.Machine.execDbgcmdResume src ctx s
  | .dbgcmdStep src ctx => Sys2Proof.Machine.execDbgcmdStep src ctx s
  | .debugSessionOpen => Sys2Proof.Machine.execDebugSessionOpen s
  | .debugAccess access => Sys2Proof.Machine.execDebugAccess access s
  | .scrubLine pair lo hi => Sys2Proof.Machine.execScrubLine pair lo hi s
  | .pinctlClr src => Sys2Proof.Machine.execPinctlClr src s
  | .pinctlErase src => Sys2Proof.Machine.execPinctlErase src s
  | .pinctlUnerase src => Sys2Proof.Machine.execPinctlUnerase src s
  | .failcmd src channel => Sys2Proof.Machine.execFailcmd src channel s
  | .memRetrain channel ok => Sys2Proof.Machine.execMemRetrain channel ok s
  | .fxpLinkUp port partner => Sys2Proof.Machine.execFxpLinkUp port partner s
  | .fxpLinkDown port => Sys2Proof.Machine.execFxpLinkDown port s
  | .cxlDeviceEvent port => Sys2Proof.Machine.execCxlDeviceEvent port s
  | .inboundRead port target len => Sys2Proof.Machine.execInboundRead port target len s
  | .inboundWrite port target bytes => Sys2Proof.Machine.execInboundWrite port target bytes s
  | .inboundConfigRequest reg value => Sys2Proof.Machine.execInboundConfigRequest reg value s
  | .completionTimeout ctx env => Sys2Proof.Machine.execCompletionTimeout ctx env s
  | .msixcmd src vec => Sys2Proof.Machine.execMsixcmd src vec s
  | .claimBeat src => Sys2Proof.Machine.execClaimBeat src s
  | .claimClaim src => Sys2Proof.Machine.execClaimClaim src s
  | .claimRelease src => Sys2Proof.Machine.execClaimRelease src s
  | .todset src value => Sys2Proof.Machine.execTodset src value s
  | .todstep src value => Sys2Proof.Machine.execTodstep src value s
  | .damperRefill => Sys2Proof.Machine.execDamperRefill s
  | .thermalSample r => Sys2Proof.Machine.execThermalSample r s
  | .overtempTimeout => Sys2Proof.Machine.execOvertempTimeout s
  | .thermalTrip => Sys2Proof.Machine.execThermalTrip s
  | .brownout mv => Sys2Proof.Machine.execBrownout mv s
  | .brownoutRecovery mv => Sys2Proof.Machine.execBrownoutRecovery mv s
  | .railfail vin => Sys2Proof.Machine.execRailfail vin s
  | .refloss unlock => Sys2Proof.Machine.execRefloss unlock s
  | .pllRelock => Sys2Proof.Machine.execPllRelock s
  | .holdoverExpiry => Sys2Proof.Machine.execHoldoverExpiry s
  | .pwrcmdOff src key => Sys2Proof.Machine.execPwrcmdOff src key s
  | .vsbRise => Sys2Proof.Machine.execVsbRise s
  | .vsbFall => Sys2Proof.Machine.execVsbFall s
  | .corePowerUp env flash => Sys2Proof.Machine.execCorePowerUp env flash s
  | .bootctlRelease src hearths => Sys2Proof.Machine.execBootctlRelease src hearths s
  | .porstN => Sys2Proof.Machine.execPorstN s
  | .warmN => Sys2Proof.Machine.execWarmN s
  | .rstcmdStove src target key => Sys2Proof.Machine.execRstcmdStove src target key s
  | .rstcmdHearth src target key => Sys2Proof.Machine.execRstcmdHearth src target key s
  | .rstcmdWarm src key => Sys2Proof.Machine.execRstcmdWarm src key s
  | .rstcmdCold src key => Sys2Proof.Machine.execRstcmdCold src key s
  | .ashcmdClear src key => Sys2Proof.Machine.execAshcmdClear src key s
  | .ident req => Sys2Proof.Machine.execIdent req s
  | .ashread req => Sys2Proof.Machine.execAshread req s
  | .lockread req => Sys2Proof.Machine.execLockread req s
  | .thermread req => Sys2Proof.Machine.execThermread req s
  | .masterread req => Sys2Proof.Machine.execMasterread req s
  | .mgmtReset req => Sys2Proof.Machine.execMgmtReset req s
  | .powerdown req => Sys2Proof.Machine.execPowerdown req s
  | .mgmtQuote req => Sys2Proof.Machine.execMgmtQuote req s
  | .cfgrecord req => Sys2Proof.Machine.execCfgrecord req s
  | .recovery req => Sys2Proof.Machine.execRecovery req s
  | .mgmtDump req => Sys2Proof.Machine.execMgmtDump req s
  | .portLinkUp port => Sys2Proof.Machine.execPortLinkUp port s
  | .portLinkDown port => Sys2Proof.Machine.execPortLinkDown port s
  | .rngHealthPass => Sys2Proof.Machine.execRngHealthPass s
  | .debugSessionClose => Sys2Proof.Machine.execDebugSessionClose s
  | .mantelCoreHalt south => Sys2Proof.Machine.execMantelCoreHalt south s
  | .perstNAssert => Sys2Proof.Machine.execPerstNAssert s
  | .aerError port corr => Sys2Proof.Machine.execAerError port corr s
  | .crcOrFramingError iface => Sys2Proof.Machine.execCrcOrFramingError iface s
  | .unknownOp req => Sys2Proof.Machine.execUnknownOp req s

end Sys2Proof.Machine
end

