-- ==== Sys2Proof/WellFormed.lean ====
section
/-!
DEFINITION. Well-formed commands: what the operands of a command must be beyond their types, so that the physical world could send
it. The machine gives every command a meaning, well-formed or not.
-/

namespace Sys2Proof

/-- R410: a reading names each pin of its group once, with the bits that are wrong there. -/
def Misread.wf (m : Misread) : Bool := m.flips.all (fun f => f.2 != 0) && decide (m.flips.map (·.1)).Nodup

/-- R424: a channel is 0 to 39, and a fill that was retried was retried at least once. -/
def MemFinding.wf : MemFinding → Bool
  | .filled _ m => m.wf
  | .retried count => decide (1 ≤ count.toNat)
  | .burst channel => decide (channel.toNat < 40)
  | .farPoison _ => true

/-- R361: an upset changes something, and a smoke shelf partition has 64 entries (R356). -/
def Upset.wf (u : Upset) : Bool :=
  let changes (f : Flip) : Bool := match f.kind with
    | .value m => m != 0
    | .dest m => m != 0
    | .lost => true
  u.a.all changes && u.b.all changes && u.shelf.all (fun e => decide (e.1 < 64) && e.2 != 0)

/-- R369: a pair is tried at most eight times, the first try and seven more. -/
def Env.wf (e : Env) : Bool := decide (e.upsets.length ≤ 8) && e.upsets.all Upset.wf && e.mem.all MemFinding.wf

/-- R441: a failed far write leaves a whole line. -/
def WriteBack.wf : WriteBack → Bool
  | .written => true
  | .merged m => m.wf
  | .farError held _ => decide (held.length = 64)

/-- R467: a packet carries at most 4,096 bytes; a UD part holds its whole frame. -/
def RoceSend.wf (x : RoceSend) : Bool :=
  decide (x.payload.length ≤ 4096) && (match x.ud with
    | some u => decide (u.frame.length ≤ 9212 ∧ u.doff.toNat ≤ u.frame.length)
    | none => true)

/-- R467: an RDMA WRITE packet carries at most 4,096 bytes. -/
def RoceWrite.wf (x : RoceWrite) : Bool := decide (x.payload.length ≤ 4096)

/-- R561: a management payload has at most 4,096 bytes. -/
def Mgmt.wf (r : Mgmt) : Bool := decide (r.payload.length ≤ 4096)

/-- R35, R528: an access of the debug path: a register is 8-byte aligned, and memory is moved 4,096 bytes at most. -/
def DebugAccess.wf : DebugAccess → Bool
  | .readReg addr => decide (addr.toNat % 8 = 0)
  | .writeReg addr _ => decide (addr.toNat % 8 = 0)
  | .readMem _ len => decide (len.toNat ≤ 4096)
  | .writeMem _ bytes => decide (bytes.length ≤ 4096)

/-- R428: the capacity of a CXL device is whole lines, and the memory it shows lies below it. -/
def LinkPartner.wf (k : LinkPartner) : Bool :=
  decide (k.capacity.toNat % 64 = 0) && (match k.memory with
    | some bs => bs.all (fun e => decide (e.1.toNat < k.capacity.toNat))
    | none => true)

/-- R506: an image slot is 32 MiB less the 64 KiB before it. -/
def Flash.wf (f : Flash) : Bool := decide (f.image.length ≤ 0x1FF0000)

/-- Both flash devices, when they are given. -/
def flashWf : Option (Flash × Flash) → Bool
  | some (a, b) => a.wf && b.wf
  | none => true

/-- R109: OP of a word that no row of the table names: one that the table does not assign. -/
def otherWf : Option (BitVec 12) → Bool
  | some op => !assignedOps.contains op.toNat
  | none => true

/-- Whether a command is well-formed. -/
def Instr.wf : Instr → Bool
  | .mov m => m.issue.env.wf && otherWf m.other
  | .movPsw i => i.env.wf
  | .andPsw i => i.env.wf
  | .orPsw i => i.env.wf
  | .lea i => i.env.wf
  | .add i => i.env.wf
  | .sub i => i.env.wf
  | .mul i => i.env.wf
  | .mulh i => i.env.wf
  | .div i => i.env.wf
  | .divu i => i.env.wf
  | .rem i => i.env.wf
  | .neg i => i.env.wf
  | .abs i => i.env.wf
  | .and i => i.env.wf
  | .or i => i.env.wf
  | .xor i => i.env.wf
  | .not i => i.env.wf
  | .shl i => i.env.wf
  | .shr i => i.env.wf
  | .sha i => i.env.wf
  | .rot i => i.env.wf
  | .cmp i => i.env.wf
  | .tst i => i.env.wf
  | .br i => i.env.wf
  | .brc i => i.env.wf
  | .call i => i.env.wf
  | .ret i => i.env.wf
  | .rep i => i.env.wf
  | .addp i => i.env.wf
  | .subp i => i.env.wf
  | .zapp i => i.env.wf
  | .cmpp i => i.env.wf
  | .mulp i => i.env.wf
  | .divp i => i.env.wf
  | .srpp i => i.env.wf
  | .tstp i => i.env.wf
  | .cvbp i => i.env.wf
  | .cvdp i => i.env.wf
  | .pack i => i.env.wf
  | .unpk i => i.env.wf
  | .lda i => i.env.wf
  | .sta i => i.env.wf
  | .movl i => i.env.wf
  | .cmpl i => i.env.wf
  | .trl i => i.env.wf
  | .trtl i => i.env.wf
  | .srch i => i.env.wf
  | .edit i => i.env.wf
  | .edmk i => i.env.wf
  | .post i => i.env.wf
  | .japp i => i.env.wf
  | .durw i => i.env.wf
  | .fadd i => i.env.wf
  | .fsub i => i.env.wf
  | .fmul i => i.env.wf
  | .fma i => i.env.wf
  | .fdiv i => i.env.wf
  | .fsqrt i => i.env.wf
  | .fcmp i => i.env.wf
  | .fcvt i => i.env.wf
  | .dot i => i.env.wf
  | .saveh i => i.env.wf
  | .resth i => i.env.wf
  | .sealf i => i.env.wf
  | .retx i => i.env.wf
  | .svc i => i.env.wf
  | .wait i => i.env.wf
  | .signal i => i.env.wf
  | .send i => i.env.wf
  | .recv i => i.env.wf
  | .pin i => i.env.wf
  | .unpin i => i.env.wf
  | .sample i => i.env.wf
  | .fence i => i.env.wf
  | .setkey i => i.env.wf
  | .testkey i => i.env.wf
  | .microwordReissue _ _ env => env.wf
  | .damperLeaveGrant _ => true
  | .lineReservationGrant _ => true
  | .storeBufferDrain _ => true
  | .lineWriteBack _ found => found.wf
  | .timerAlarm _ => true
  | .waitDeadline _ => true
  | .alarmTaken _ _ env => env.wf
  | .flueBind _ _ => true
  | .timeSliceDue _ _ => true
  | .preemption _ => true
  | .spill _ => true
  | .refill _ => true
  | .ctxcmdStart _ _ => true
  | .ctxcmdStop _ _ => true
  | .ctxcmdEvict _ _ => true
  | .ctxcmdPreempt _ _ => true
  | .ctxcmdAlarm _ _ => true
  | .ctxcmdAttn _ _ => true
  | .ctxcmdReset _ _ => true
  | .wgcmdEnable _ _ => true
  | .wgcmdDisable _ _ => true
  | .wgcmdClearCounts _ _ => true
  | .manDumpcmd _ _ => true
  | .rfcmdQuar _ _ => true
  | .emberParityError _ _ _ => true
  | .rekcmd _ _ _ => true
  | .quiesceRequest _ _ => true
  | .quiesceAck _ => true
  | .quiesceRelease _ _ => true
  | .quiesceTimeout _ => true
  | .registerWrite _ addr _ => decide (addr.toNat % 8 = 0)
  | .rcRead addr => decide (addr.toNat % 8 = 0)
  | .cachectlWbinv _ w => w.found.all (fun e => e.2.wf)
  | .fktenChange _ _ => true
  | .frameReceive _ _ bytes => decide (14 ≤ bytes.length)
  | .sendDescriptor _ => true
  | .doorbellSendProducer _ _ => true
  | .doorbellReceiveTail _ _ => true
  | .qcmdEnable _ _ => true
  | .qcmdDisable _ _ => true
  | .qcmdFlush _ _ => true
  | .qcmdRelease _ _ => true
  | .qcmdRestart _ _ => true
  | .rulecmdLoad _ _ _ => true
  | .rulecmdDump _ _ _ => true
  | .statselClr _ _ _ => true
  | .roceSendReceive _ part => part.wf
  | .rdmaWriteReceive _ part => part.wf
  | .rdmaReadReceive _ _ _ _ => true
  | .roceAckReceive _ _ => true
  | .rcAckTimeout _ => true
  | .mirrorSessionStart _ _ => true
  | .hello _ _ _ _ => true
  | .helloReply _ _ _ _ _ => true
  | .confirm _ _ => true
  | .resume _ _ _ _ => true
  | .records _ _ _ rs => decide (1 ≤ rs.length ∧ rs.length ≤ 32)
  | .ack _ _ _ _ => true
  | .close _ _ => true
  | .mirrorRecordsSend _ _ _ => true
  | .mirrorLossTimeout _ _ => true
  | .ptpPpsIn => true
  | .ptpPpsOut => true
  | .belDoorbell _ _ _ => true
  | .chcmdEnable _ _ => true
  | .chcmdDisable _ _ => true
  | .copy _ _ => true
  | .fill _ _ => true
  | .gather _ _ => true
  | .scatter _ _ => true
  | .compare _ _ => true
  | .digest _ _ => true
  | .crc32c _ _ => true
  | .belDescriptorComplete _ => true
  | .secRandom => true
  | .secVerify => true
  | .secQuote => true
  | .secEncrypt => true
  | .secDecrypt => true
  | .secReadcfg => true
  | .secOpComplete => true
  | .stage _ => true
  | .sign _ => true
  | .commit _ _ => true
  | .clear _ => true
  | .tpcExpiry => true
  | .rngHealthFail => true
  | .dbgcmdHalt _ _ => true
  | .dbgcmdResume _ _ => true
  | .dbgcmdStep _ _ => true
  | .debugSessionOpen => true
  | .debugAccess access => access.wf
  | .scrubLine _ lo hi => lo.wf && hi.wf
  | .pinctlClr _ => true
  | .pinctlErase _ => true
  | .pinctlUnerase _ => true
  | .failcmd _ channel => decide (channel.toNat < 40)
  | .memRetrain channel _ => decide (channel.toNat < 40)
  | .fxpLinkUp _ partner => partner.wf
  | .fxpLinkDown _ => true
  | .cxlDeviceEvent _ => true
  | .inboundRead _ _ len => decide (1 ≤ len.toNat ∧ len.toNat ≤ 4096)
  | .inboundWrite _ _ w => decide (1 ≤ w.bytes.length ∧ w.bytes.length ≤ 512)
  | .inboundConfigRequest _ _ => true
  | .completionTimeout _ env => env.wf
  | .msixcmd _ _ => true
  | .claimBeat _ => true
  | .claimClaim _ => true
  | .claimRelease _ => true
  | .todset _ _ => true
  | .todstep _ _ => true
  | .damperRefill => true
  | .thermalSample _ => true
  | .overtempTimeout => true
  | .thermalTrip => true
  | .brownout _ => true
  | .brownoutRecovery _ => true
  | .railfail _ => true
  | .refloss _ => true
  | .pllRelock => true
  | .holdoverExpiry => true
  | .pwrcmdOff _ _ => true
  | .vsbRise => true
  | .vsbFall => true
  | .corePowerUp _ flash => flashWf flash
  | .bootctlRelease _ _ => true
  | .porstN => true
  | .warmN => true
  | .rstcmdStove _ _ _ => true
  | .rstcmdHearth _ target _ => decide (target.toNat < 8)
  | .rstcmdWarm _ _ => true
  | .rstcmdCold _ _ => true
  | .ashcmdClear _ _ => true
  | .ident req => req.wf
  | .ashread req => req.wf
  | .lockread req => req.wf
  | .thermread req => req.wf
  | .masterread req => req.wf
  | .mgmtReset req => req.wf
  | .powerdown req => req.wf
  | .mgmtQuote req => req.wf
  | .cfgrecord req => req.wf
  | .recovery req => req.wf
  | .mgmtDump req => req.wf
  | .portLinkUp _ => true
  | .portLinkDown _ => true
  | .rngHealthPass => true
  | .debugSessionClose => true
  | .mantelCoreHalt _ => true
  | .perstNAssert => true
  | .aerError _ _ => true
  | .crcOrFramingError _ => true
  | .unknownOp req => req.wf

end Sys2Proof
end

