-- ==== Sys2Proof/Safety.lean ====
section
/-!
DEFINITION. What counts as a sound state and a safe run, in the terms that statements use: sparse maps in canonical form, a queue
of well-formed commands, steps that neither fault nor refuse; an instruction that is ready to issue, the encoding it is accepted
in, and the state its completion leaves; and a sender whose register write acts.
-/

namespace Sys2Proof.Machine

/-! ## Sound states -/

/-- Memory is in canonical form: addresses strictly rise, and no entry is what an unlisted address reads as. -/
def Memory.wf (m : List (Nat × Byte)) : Bool := SMap.wf memDefault m

/-- The register map is in canonical form. -/
def Registers.wf (m : List (Nat × Word)) : Bool := SMap.wf regReset m

/-- Every command that waits is well-formed. -/
def State.queueWf (s : State) : Bool := s.pending.all Instr.wf

/-- A step that goes on. -/
def State.safe (s : State) : Bool :=
  match step s with
  | .next _ => true
  | .fault _ => false
  | .refused _ => false

/-! ## Instructions -/

/-- The context of bank `b` is bound to the flue that issues `i`, which does not issue empty (R289), on a stove that runs; it neither
waits nor resumes, is not refired and not single-stepped; nothing of the physical world comes in between; and its fetch has passed,
leaving `c`, in which no other reservation set holds a line of its buffered stores (R248). -/
structure Ready (i : Issue) (s : State) (b : Bank) (c : Cpu) : Prop where
  bound   : s.boundTo i.stove i.flue = some b
  here    : s.bankOf b.ctx = some b
  runs    : s.stoveRuns i.stove = true
  issues  : s.flueShut i.stove i.flue = false
  awake   : b.wait = none ∧ b.wdrawn = none ∧ b.resume = 0
  plain   : b.psw.rf = false ∧ b.psw.dbg = false
  world   : i.env.wait = none ∧ i.env.mem = [] ∧ i.env.evicted = [] ∧ i.env.excess = [] ∧ i.env.bare = []
  fetched : fetchCheck (Cpu.start s b i.env.device) = .ok () c
  free    : c.s.blockedStores c.b.ctx = []

/-- R138 orders 2 to 5: a word that passes the encoding checks of a shape under a PSW. -/
structure Accepted (sh : Shape) (w : Word112) (p : Psw) : Prop where
  fmt   : sh.fmts.contains w.fmt.toNat = true
  mode  : sh.priv = true → p.sup = true
  opnds : (sh.opd1.accepts w.opd1 && sh.opd2.accepts w.opd2 && sh.opd3.accepts w.opd3 && sh.rule w) = true
  rep   : sh.repeats = true ∨ p.rcnt = 0

/-- An instruction of opcode `op` that is ready, accepted in its shape, and about to form its operands in `c`. -/
def Starts (op : BitVec 12) (sh : Shape) (i : Issue) (s : State) (c : Cpu) : Prop :=
  ∃ b c', Ready i s b c' ∧ Accepted sh i.word b.psw ∧ c = c'.withImage op i.word

/-- The bank of an instruction that completes at `n` charged cycles: IA moves on as the instruction says (R140, R156), the charge
is added with its surcharges (R276, R281), damper leave is used up, and nothing of the execution is left over. -/
def Cpu.retired (c : Cpu) (n : Nat) : Bank :=
  { c.b.setPsw (nextPsw c.b.psw false c.next) with
    charged := c.b.charged + (n + c.sur), slice := c.b.slice + (n + c.sur), leave := c.next.leaves c.b.leave,
    resume := c.next.resumes c.b.resume, wdrawn := none, wait := none, cont := c.next = .stay, spillBad := false }

/-- `t` is what is left when the instruction of `c` completes at `n` charged cycles: its accesses leave their lines in the caches and
are charged as open timing has it (R290), its bank goes back, and its stores to device ranges and its signals are performed. SVC is
not among these. -/
def Cpu.Retires (c : Cpu) (n : Nat) (t : State) : Prop :=
  (∀ k, c.next ≠ .svc k) ∧ (c.settle.s.putBank (c.settle.retired n)).performAll c.b.ctx c.after = .ok t

/-- The condition code of a Cpu set. -/
def Cpu.withCc (c : Cpu) (v : BitVec 2) : Cpu := { c with b := c.b.setPsw { c.b.psw with cc := v } }

/-- Where IA goes at completion. -/
def Cpu.goes (c : Cpu) (n : NextIa) : Cpu := { c with next := n }

/-- The state after the exception `e` of an instruction of opcode `op` in `c`, whose accesses have left their lines in the caches. -/
def Cpu.takes (c : Cpu) (op : BitVec 12) (w : Word112) (e : Exc) : State :=
  c.places.takeException c.ck e (insWord op w).toNat

/-! ## Register commands -/

/-- The sender reaches the register window, and is no Mantel core other than the holder (R531). -/
def State.admits (s : State) (src : Src) : Bool :=
  s.reachesRegs src && (coreOf src == 0 || s.holder == coreOf src)

end Sys2Proof.Machine
end

