-- ==== Sys2Proof/Certificates/Slice0/Obligations.lean ====
section
/-!
DEFINITION. The statements for the provers. An instruction statement says: an instruction that starts, whose operands form and read
as named, completes in the state the rules give. Operands are formed, read and written by the operations of Operands.lean, so a
statement holds in every mode and width the encoding admits.
-/

namespace Sys2Proof.Machine

/-- R147, R148: the instructions that deliver an exact signed result of two operands: meaning, opcode, result, count. -/
def signedOps : List ((Issue → Instr) × BitVec 12 × (Int → Int → Int) × Nat) :=
  [(.add, 0x010, fun x y => x + y, 1), (.sub, 0x011, fun x y => x - y, 1), (.mul, 0x012, fun x y => x * y, 3)]

/-- R147, R148: those that deliver an exact signed result of their source. -/
def signedUnaryOps : List ((Issue → Instr) × BitVec 12 × (Int → Int)) :=
  [(.neg, 0x017, fun y => -y), (.abs, 0x018, fun y => (y.natAbs : Int))]

/-- R153: the logical instructions of two operands. -/
def logicOps : List ((Issue → Instr) × BitVec 12 × (Nat → Nat → Nat)) :=
  [(.and, 0x020, fun x y => x &&& y), (.or, 0x021, fun x y => x ||| y), (.xor, 0x022, fun x y => x ^^^ y)]

/-- R147, R148: the condition code of an exact result of `k` bits. -/
def exactCc (k : Nat) (e : Int) : BitVec 2 := if overflows k e then 3 else signCc e

/-- R183, R184: the condition code of an exact packed result of `n` bytes. -/
def packedCc (n : Nat) (v : Int) : BitVec 2 := if capacity n ≤ v.natAbs then 3 else signCc v

/-- R149: what a division delivers: the truncated quotient or the remainder, of signed or unsigned operands, or, for the one signed
quotient that does not fit, that quotient wrapped or the remainder 0. -/
def divided (sgn rem : Bool) (k x y : Nat) : Nat :=
  if sgn then wrapInt k (if rem then (signed k x).tmod (signed k y) else (signed k x).tdiv (signed k y))
  else if rem then x % y else x / y

/-- R148, R149: the one signed quotient that does not fit. -/
def quotientOverflows (sgn : Bool) (k x y : Nat) : Bool :=
  sgn && decide (signed k x = -(2 ^ (k - 1) : Nat) ∧ signed k y = -1)

/-- R149: the condition code of a division. -/
def dividedCc (sgn rem : Bool) (k x y : Nat) : BitVec 2 :=
  if quotientOverflows sgn k x y then 3
  else if sgn then signCc (if rem then (signed k x).tmod (signed k y) else (signed k x).tdiv (signed k y))
  else if divided sgn rem k x y = 0 then 0 else 2

/-- R150: the charge of a division. -/
def divideCount (sgn : Bool) (k x y : Nat) : Nat :=
  if sgn then divCount (signed k x).natAbs (signed k y).natAbs else divCount x y

/-- The division instructions: meaning, opcode, shape, whether the operands are signed and whether the remainder is delivered. -/
def divideOps (w : Word112) : List ((Issue → Instr) × BitVec 12 × Shape × Bool × Bool) :=
  [(.div, 0x014, shapeBoth, true, false), (.divu, 0x015, shapeBoth, false, false), (.rem, 0x016, shapeBothU, !lenFlag w.len, true)]

/-- R186, R188, R189: the packed instructions of two operands: meaning, opcode, result, count. -/
def packedOps (w : Word112) : List ((Issue → Instr) × BitVec 12 × (Int → Int → Int) × Nat) :=
  [(.addp, 0x200, fun x y => x + y, addpCount w), (.subp, 0x201, fun x y => x - y, addpCount w),
   (.mulp, 0x204, fun x y => x * y, 6 + lenL2 w.len)]

/-- R163: the floating-point instructions of two operands: meaning, opcode, result and flags under a rounding mode. -/
def floatOps : List ((Issue → Instr) × BitVec 12 × (FFmt → Nat → FVal → FVal → Nat × FFlags)) :=
  [(.fadd, 0x500, fun f m x y => f.add m x y), (.fsub, 0x501, fun f m x y => f.add m x y.neg), (.fmul, 0x502, fun f m x y => f.mul m x y),
   (.fdiv, 0x504, fun f m x y => f.div m x y)]

/-- R162: flags met, ORed into FPF. -/
def Cpu.withFlags (c : Cpu) (fl : FFlags) : Cpu :=
  { c with b := c.b.setPsw { c.b.psw with fpf := c.b.psw.fpf ||| BitVec.ofNat 5 fl } }

/-- R163: the condition code of FCMP. -/
def fcompareCc : Option Int → BitVec 2
  | none => 3
  | some d => if d = 0 then 0 else if d < 0 then 1 else 2

/-- R164: what FCVT delivers from the source's bits, with its flags. -/
def convertTo (w : Word112) (rm y : Nat) : Nat × FFlags :=
  let src := bitsOf w.len.toNat 0 4
  let k := 8 * fmtBytes w.fmt
  if w.fmt.toNat < 6 then
    let r := toInteger k (if lenFlag w.len then 1 else rm) ((ffmt src).decode y)
    (wrapInt k r.1, r.2)
  else if src < 6 then (ffmt w.fmt.toNat).ofInt rm (signed (8 * fmtBytes (BitVec.ofNat 4 src)) y)
  else (ffmt w.fmt.toNat).convert rm ((ffmt src).decode y)

/-- A general register set. -/
def Cpu.withG (c : Cpu) (r : BitVec 4) (v : Word) : Cpu := { c with b := c.b.setG r v }

/-- R207: a pair moved on by `n` bytes: its address up, its length down. -/
def Cpu.moved (c : Cpu) (r : BitVec 4) (n : Nat) : Cpu :=
  (c.withG r (c.b.getG r + BitVec.ofNat 64 n)).withG (succReg r) (c.b.getG (succReg r) - BitVec.ofNat 64 n)

/-- A pair that a scan leaves `n` bytes further; one that stays where it is is not written. -/
def Cpu.scanned (c : Cpu) (r : BitVec 4) (n : Nat) : Cpu := if n = 0 then c else c.moved r n

/-- R207: the end of a unit: IP is cleared when the instruction is complete, and IA stays on it when it is not. -/
def Cpu.unitEnds (c : Cpu) (complete : Bool) : Cpu :=
  if complete then { c with b := c.b.setPsw { c.b.psw with ip := false } } else c.goes .stay

/-- R225: the condition code of a CMPL that stopped at two bytes. -/
def differCc : List (Byte × Byte) → BitVec 2
  | (a, b) :: _ => if a.toNat < b.toNat then 1 else 2
  | [] => 0

/-- R230 to R235: what a unit of EDIT or EDMK leaves in the pairs, the companion, the mark, ES and CC. -/
def EditOpnds.left (x : EditOpnds) (w : Word112) (e : EditState) (c : Cpu) : Cpu :=
  let last := e.gl == 0
  let c := if e.gl != x.start.gl then
      (((c.withG (spBase w.opd1) e.gd).withG (succReg (spBase w.opd1)) e.gs).withG (spBase w.opd2) e.gp).withG (succReg (spBase w.opd2)) e.gl
    else c
  let c := if e.own then c.withG x.rc (e.companion x.gc) else c
  let c := match x.f.mark, e.mark with
    | true, some m => c.withG x.rm m
    | _, _ => c
  let c := { c with b := c.b.setPsw { c.b.psw with esSig := e.sig && !last, esV := !last } }
  if last then c.withCc (if !e.nz then 0 else if e.neg then 1 else 2) else c

/-- R435: every buffered store of the context itself made visible. -/
def Cpu.drained (c : Cpu) : Cpu := { c with s := c.s.drain c.b.ctx }

/-- R244, R245: why a POST whose ring is as `e` says does not post, by its condition code; 0 when it posts. -/
def PostForm.outcome (f : PostForm) (e : Ring) (w : Word112) : BitVec 2 :=
  if capacity (lenL1 w.len) ≤ f.debit.natAbs ∨ capacity (lenL2 w.len) ≤ f.credit.natAbs then 2
  else if limitRefuses f.x.lmode f.debit f.credit f.limit then 1
  else if e.full then 3 else 0

/-- R244: what a POST that does not post leaves: its damper leave given back, and no leave held. -/
def Cpu.leaveBack (c : Cpu) : Cpu :=
  match c.b.leave with
  | some n => { c with s := c.s.returnLeave (hearthOf c.b.stove) n, b := { c.b with leave := none } }
  | none => c

/-- R244: the lines and the claim that the instruction holds released. -/
def Cpu.released (c : Cpu) : Cpu := { c with s := c.s.release c.b.ctx }

/-- R290: page crossings of a unit noted for open timing's charge. -/
def Cpu.crossed (c : Cpu) (n : Nat) : Cpu :=
  if n = 0 then c else { c with acc := c.acc ++ [{ kind := .load, pa := 0, len := 0, own := true, align := 4 * n }] }

/-- A register command of a page is obeyed at once: the sender may write, the page is not in reset, its block operates, and no
reservation set is held. -/
def State.obeys (s : State) (src : Src) (slot : Nat) : Prop :=
  s.admits src = true ∧ s.inRst slot = false ∧ s.blockOn slot = true ∧ s.resv = []

/-- A register command of a page that cannot be Quiesced is obeyed. -/
def State.takesWrite (s : State) (src : Src) (slot : Nat) : Prop := s.admits src = true ∧ s.inRst slot = false

/-- R302: the context commands with their codes. -/
def contextCommands : List ((Src → BitVec 20 → Instr) × Nat) :=
  [(.ctxcmdStart, 1), (.ctxcmdStop, 2), (.ctxcmdEvict, 3), (.ctxcmdPreempt, 4), (.ctxcmdAlarm, 5), (.ctxcmdAttn, 6), (.ctxcmdReset, 7)]

/-- R302: a context put into a state it does not hold a bank in, keeping EVPEND. -/
def State.standing (s : State) (ctx : BitVec 20) (st : Nat) : State :=
  s.setCtxState ctx (stateWord st (bitsOf (s.ctxState ctx) 15 4) 0)

/-- R484: the Bellows operations with their codes. -/
def bellowsOps : List ((BitVec 6 → Option Nat → Instr) × Nat) :=
  [(.copy, 1), (.fill, 2), (.gather, 3), (.scatter, 4), (.compare, 5), (.digest, 6), (.crc32c, 7)]

/-- R501: the operations of the security engine with their codes. -/
def engineOps : List (Instr × Nat) :=
  [(.secRandom, 1), (.secVerify, 2), (.secQuote, 3), (.secEncrypt, 4), (.secDecrypt, 5), (.secReadcfg, 6)]

/-- R543: the queues of the damper without a request. -/
def State.leaveDropped (s : State) (r : LeaveReq) : State :=
  { s with damper := s.damper.map (fun b => { b with queue := b.queue.filter (· != r) }) }

/-- R138: instructions of the supervisor: meaning, opcode and shape. -/
def privilegedOps : List ((Issue → Instr) × BitVec 12 × Shape) :=
  [(.sealf, 0x602, shapeFrame), (.retx, 0x603, shapeFrame), (.setkey, 0x800, shapeSetkey)]

/-- R52, R248: register commands of blocks that can be Quiesced, with the page, the register and the value that each writes. -/
def blockCommands (src : Src) (queue : BitVec 19) (first last : BitVec 10) (chan : BitVec 6) (wg : BitVec 12) (index : BitVec 32) :
    List (Instr × Nat × Nat × Nat) :=
  [(.qcmdEnable src queue, Slot.chm1, Off.CHM1.QCMD, queue.toNat + 1 * 2 ^ 24),
   (.qcmdDisable src queue, Slot.chm1, Off.CHM1.QCMD, queue.toNat + 2 * 2 ^ 24),
   (.qcmdFlush src queue, Slot.chm1, Off.CHM1.QCMD, queue.toNat + 3 * 2 ^ 24),
   (.qcmdRelease src queue, Slot.chm1, Off.CHM1.QCMD, queue.toNat + 4 * 2 ^ 24),
   (.qcmdRestart src queue, Slot.chm1, Off.CHM1.QCMD, queue.toNat + 5 * 2 ^ 24),
   (.rulecmdLoad src first last, Slot.chm1, Off.CHM1.RULECMD, first.toNat + last.toNat * 2 ^ 16 + 1 * 2 ^ 28),
   (.rulecmdDump src first last, Slot.chm1, Off.CHM1.RULECMD, first.toNat + last.toNat * 2 ^ 16 + 2 * 2 ^ 28),
   (.chcmdEnable src chan, Slot.bel, Off.BEL.CHCMD, chan.toNat + 1 * 2 ^ 8),
   (.chcmdDisable src chan, Slot.bel, Off.BEL.CHCMD, chan.toNat + 2 * 2 ^ 8),
   (.belDoorbell src chan index, Slot.bel, Off.BEL.DOORBELL, chan.toNat + index.toNat * 2 ^ 32),
   (.wgcmdEnable src wg, Slot.grt, Off.GRT.WGCMD, wg.toNat + 1 * 2 ^ 12),
   (.wgcmdDisable src wg, Slot.grt, Off.GRT.WGCMD, wg.toNat + 2 * 2 ^ 12),
   (.wgcmdClearCounts src wg, Slot.grt, Off.GRT.WGCMD, wg.toNat + 3 * 2 ^ 12),
   (.failcmd src chan, Slot.nmc, Off.NMC.FAILCMD, chan.toNat + 2 ^ 8),
   (.msixcmd src chan, Slot.fxp 0, Off.FXP.MSIXCMD, chan.toNat + 2 ^ 8)]

/-- R147, R153: binary instructions of two operands that raise nothing while FOM is 0: meaning and opcode. -/
def registerOps : List ((Issue → Instr) × BitVec 12) :=
  [(.add, 0x010), (.sub, 0x011), (.mul, 0x012), (.and, 0x020), (.or, 0x021), (.xor, 0x022)]

end Sys2Proof.Machine

open Sys2Proof Sys2Proof.Machine

/-! ## The binary family -/

/-- R119, R147: MOV copies the source to the destination and leaves CC; LEA writes the effective address and makes no access for it.
Each is charged 1 besides its operands. -/
def Obligations.MovesDeliver : Prop :=
(∀ (i : Issue) (s t : State) (c c1 c2 : Cpu) (o : Opnd) (y : Nat),
      i.word.fmt ≠ 0 → Starts 0x000 shapeMov i s c → formMove i.word c = .ok (o, y) c1 →
      writeVal o (fmtBytes i.word.fmt) y c1 = .ok () c2 → c2.Retires 1 t →
      exec (.mov ⟨i, none⟩) s = .next (s.after t))
  ∧ (∀ (i : Issue) (s t : State) (c c1 : Cpu) (p : Place),
      Starts 0x001 shapeLea i s c →
      formAddress i.word.opd2 1 c = .ok p c1 →
      Cpu.Retires { c1 with b := c1.b.setG (spBase i.word.opd1) (BitVec.ofNat 64 p.addr) } 1 t →
      exec (.lea i) s = .next (s.after t))

/-- R147, R148: ADD, SUB, MUL, NEG and ABS deliver the exact result wrapped, with CC from the exact result, unless it overflows while
FOM is 1. -/
def Obligations.SignedArithmetic : Prop :=
(∀ a ∈ signedOps, ∀ (i : Issue) (s t : State) (c c1 c2 : Cpu) (o : Opnd) (x y : Nat),
      let k := 8 * fmtBytes i.word.fmt
      let e := a.2.2.1 (signed k x) (signed k y)
      Starts a.2.1 shapeBoth i s c → formBoth i.word c = .ok (o, x, y) c1 →
      (overflows k e = true → c1.b.psw.fom = false) →
      writeVal o (fmtBytes i.word.fmt) (wrapInt k e) (c1.withCc (exactCc k e)) = .ok () c2 → c2.Retires a.2.2.2 t →
      exec (a.1 i) s = .next (s.after t))
  ∧ (∀ a ∈ signedUnaryOps, ∀ (i : Issue) (s t : State) (c c1 c2 : Cpu) (o : Opnd) (y : Nat),
      let k := 8 * fmtBytes i.word.fmt
      let e := a.2.2 (signed k y)
      Starts a.2.1 shapeNeg i s c → formMove i.word c = .ok (o, y) c1 →
      (overflows k e = true → c1.b.psw.fom = false) →
      writeVal o (fmtBytes i.word.fmt) (wrapInt k e) (c1.withCc (exactCc k e)) = .ok () c2 → c2.Retires 1 t →
      exec (a.1 i) s = .next (s.after t))

/-- R148, R149, R177: ADD, SUB and MUL whose result overflows while FOM is 1 raise 0x06; DIV, DIVU and REM by zero raise 0x07; a
packed source with a bad digit or sign raises 0x05. None writes an operand. -/
def Obligations.ArithmeticTraps : Prop :=
(∀ a ∈ signedOps, ∀ (i : Issue) (s : State) (c c1 : Cpu) (o : Opnd) (x y : Nat),
      let k := 8 * fmtBytes i.word.fmt
      Starts a.2.1 shapeBoth i s c → formBoth i.word c = .ok (o, x, y) c1 →
      overflows k (a.2.2.1 (signed k x) (signed k y)) = true → c1.b.psw.fom = true →
      exec (a.1 i) s = .next (s.after (c1.takes a.2.1 i.word { code := 0x06 })))
  ∧ (∀ (i : Issue), ∀ a ∈ divideOps i.word, ∀ (s : State) (c c1 : Cpu) (o : Opnd) (x : Nat),
      Starts a.2.1 a.2.2.1 i s c → formBoth i.word c = .ok (o, x, 0) c1 →
      exec (a.1 i) s = .next (s.after (c1.takes a.2.1 i.word { code := 0x07 })))
  ∧ (∀ (i : Issue) (s : State) (c c1 c2 c3 : Cpu) (o1 o2 : Opnd) (bs : List Byte),
      packedOk bs = false →
      (Starts 0x202 shapeTwoP i s c → formOpnd i.word.opd1 (lenL1 i.word.len) [.store] c = .ok o1 c1 →
        formOpnd i.word.opd2 (lenL2 i.word.len) [.load] c1 = .ok o2 c2 → readOpnd o2 (lenL2 i.word.len) c2 = .ok bs c3 →
        exec (.zapp i) s = .next (s.after (c3.takes 0x202 i.word { code := 0x05 })))
      ∧ (Starts 0x208 shapeCvbp i s c → formOpnd i.word.opd1 8 [.store] c = .ok o1 c1 →
        formOpnd i.word.opd2 (lenL2 i.word.len) [.load] c1 = .ok o2 c2 → readOpnd o2 (lenL2 i.word.len) c2 = .ok bs c3 →
        exec (.cvbp i) s = .next (s.after (c3.takes 0x208 i.word { code := 0x05 }))))

/-- R147: MULH delivers the high half of the exact product, of unsigned operands when FLAG is 1. -/
def Obligations.MulhHighHalf : Prop :=
∀ (i : Issue) (s t : State) (c c1 c2 : Cpu) (o : Opnd) (x y : Nat),
    let n := fmtBytes i.word.fmt
    let u := x * y / 2 ^ (8 * n)
    let r := signed (8 * n) x * signed (8 * n) y / (2 ^ (8 * n) : Nat)
    Starts 0x013 shapeBothU i s c → formBoth i.word c = .ok (o, x, y) c1 →
    writeVal o n (if lenFlag i.word.len then u else wrapInt (8 * n) r)
      (c1.withCc (if lenFlag i.word.len then (if u = 0 then 0 else 2) else signCc r)) = .ok () c2 → c2.Retires 4 t →
    exec (.mulh i) s = .next (s.after t)

/-- R149, R150: DIV, DIVU and REM by a divisor that is not zero deliver the truncated quotient or the remainder, with its sign in CC;
a signed quotient that does not fit sets CC 0b11 while FOM is 0. -/
def Obligations.DivisionDelivers : Prop :=
∀ (i : Issue), ∀ a ∈ divideOps i.word, ∀ (s t : State) (c c1 c2 : Cpu) (o : Opnd) (x y : Nat),
    let n := fmtBytes i.word.fmt
    let sgn := a.2.2.2.1
    let rem := a.2.2.2.2
    Starts a.2.1 a.2.2.1 i s c → formBoth i.word c = .ok (o, x, y) c1 → y ≠ 0 →
    (quotientOverflows sgn (8 * n) x y = true → c1.b.psw.fom = false) →
    writeVal o n (divided sgn rem (8 * n) x y) (c1.withCc (dividedCc sgn rem (8 * n) x y)) = .ok () c2 →
    c2.Retires (divideCount sgn (8 * n) x y) t →
    exec (a.1 i) s = .next (s.after t)

/-- R153: AND, OR and XOR deliver the bitwise result, NOT the complement; CC is 0b00 for zero and 0b01 otherwise. R153, R154: CMP and
TST write CC alone. -/
def Obligations.LogicAndCompares : Prop :=
  ((∀ a ∈ logicOps, ∀ (i : Issue) (s t : State) (c c1 c2 : Cpu) (o : Opnd) (x y : Nat),
      i.word.fmt ≠ 0 → Starts a.2.1 shapeBoth i s c → formBoth i.word c = .ok (o, x, y) c1 →
      writeVal o (fmtBytes i.word.fmt) (a.2.2 x y) (c1.withCc (zeroCc (a.2.2 x y))) = .ok () c2 → c2.Retires 1 t →
      exec (a.1 i) s = .next (s.after t))
    ∧ ∀ (i : Issue) (s t : State) (c c1 c2 : Cpu) (o : Opnd) (y : Nat),
      let r := 2 ^ (8 * fmtBytes i.word.fmt) - 1 - y
      Starts 0x023 shapeNot i s c → formMove i.word c = .ok (o, y) c1 →
      writeVal o (fmtBytes i.word.fmt) r (c1.withCc (zeroCc r)) = .ok () c2 → c2.Retires 1 t →
      exec (.not i) s = .next (s.after t))
  ∧ (∀ (i : Issue) (s t : State) (c c1 : Cpu) (x y : Nat),
      let k := 8 * fmtBytes i.word.fmt
      (Starts 0x040 (shapeCompare flagOnly) i s c → formSources i.word c = .ok (x, y) c1 →
        (c1.withCc (if lenFlag i.word.len then cmpCc x y else cmpCc (signed k x) (signed k y))).Retires 1 t →
        exec (.cmp i) s = .next (s.after t))
      ∧ (Starts 0x041 (shapeCompare (fun w => w.len == 0)) i s c → formSources i.word c = .ok (x, y) c1 →
        (c1.withCc (tstCc (x &&& y) y)).Retires 1 t →
        exec (.tst i) s = .next (s.after t)))

/-- R152: SHL and SHR give 0 at a count of the width or more; SHA shifts right by division towards minus infinity, and left under the
overflow rule; ROT rotates modulo the width. -/
def Obligations.ShiftsDeliver : Prop :=
∀ (i : Issue) (s t : State) (c c1 c2 : Cpu) (o : Opnd) (x m : Nat) (ctor : Issue → Instr) (op : BitVec 12) (left : Bool)
    (r : Nat) (cc : BitVec 2),
    let k := 8 * fmtBytes i.word.fmt
    let e := signed k x * (2 ^ m : Nat)
    let d := signed k x / (2 ^ m : Nat)
    let shl := if m < k then x * 2 ^ m % 2 ^ k else 0
    let shr := if m < k then x / 2 ^ m else 0
    let rot := if bitAt i.word.len.toNat 14 then m % k else k - m % k
    ((ctor, op, left, r, cc) = (Instr.shl, 0x030, false, shl, zeroCc shl)
      ∨ (ctor, op, left, r, cc) = (Instr.shr, 0x031, false, shr, zeroCc shr)
      ∨ (bitAt i.word.len.toNat 14 = true ∧ (overflows k e = true → c1.b.psw.fom = false)
          ∧ (ctor, op, left, r, cc) = (Instr.sha, 0x032, true, wrapInt k e, exactCc k e))
      ∨ (bitAt i.word.len.toNat 14 = false ∧ (ctor, op, left, r, cc) = (Instr.sha, 0x032, true, wrapInt k d, signCc d))
      ∨ (ctor, op, left, r, cc) = (Instr.rot, 0x033, true, rotl k x rot, zeroCc (rotl k x rot))) →
    Starts op (shapeShift left i.word) i s c → formShift i.word c = .ok (o, x, m) c1 →
    writeVal o (fmtBytes i.word.fmt) r (c1.withCc cc) = .ok () c2 → c2.Retires 1 t →
    exec (ctor i) s = .next (s.after t)

/-- R69: MOV from the PSW writes the control word to G; AND and OR into the PSW replace the control word when they change no fixed
bit, and in user state no bit of the supervisor. -/
def Obligations.PswForms : Prop :=
(∀ (i : Issue) (s t : State) (c : Cpu),
      i.word.fmt = 0 → Starts 0x000 shapeMovPsw i s c →
      Cpu.Retires { c with b := c.b.setG (spBase i.word.opd1) (BitVec.ofNat 64 c.b.psw.control) } 1 t →
      exec (.movPsw i) s = .next (s.after t) ∧ exec (.mov ⟨i, none⟩) s = .next (s.after t))
  ∧ (∀ (i : Issue) (s t : State) (c c1 c2 : Cpu) (o : Opnd) (v new : Nat) (ctor : Issue → Instr) (op : BitVec 12),
      ((ctor, op, new) = (Instr.andPsw, 0x020, c2.b.psw.control &&& v) ∨ (ctor, op, new) = (Instr.orPsw, 0x021, c2.b.psw.control ||| v)) →
      i.word.fmt = 0 → Starts op shapePswOp i s c → formOpnd i.word.opd2 8 [.load] c = .ok o c1 → readVal o 8 c1 = .ok v c2 →
      (new ^^^ c2.b.psw.control) &&& fixedControl = 0 →
      (c2.b.psw.sup = true ∨ (new ^^^ c2.b.psw.control) &&& supControl = 0) →
      Cpu.Retires { c2 with b := c2.b.setPsw (Psw.ofControl c2.b.psw.ia new) } 1 t →
      exec (ctor i) s = .next (s.after t))

/-! ## Control -/

/-- R139, R155 to R157: BR goes to its target, BRC when its mask names CC; CALL pushes the address after it at G15 - 8, moves G15
there and goes to its target; RET pops the address at G15; REP with a count of 1 to 65,535 sets RCNT to it, and with 0 skips the
next instruction. -/
def Obligations.ControlInstructions : Prop :=
(∀ (i : Issue) (s t : State) (c c1 : Cpu) (a : Word),
      formTarget i.word.opd1 c = .ok a c1 →
      (Starts 0x100 shapeBr i s c →
        (c1.goes (.jump a)).Retires 1 t → exec (.br i) s = .next (s.after t))
      ∧ (Starts 0x101 shapeBrc i s c →
        (if bitAt i.word.len.toNat c1.b.psw.cc.toNat then c1.goes (.jump a) else c1).Retires 1 t →
        exec (.brc i) s = .next (s.after t)))
  ∧ (∀ (i : Issue) (s t : State) (c c1 c2 c3 : Cpu) (a : Word) (ps : List Piece) (bs : List Byte),
      (Starts 0x102 shapeCall i s c → formTarget i.word.opd1 c = .ok a c1 →
        inSpace (addWrap (c1.b.getG 15).toNat (-8)) 8 = true →
        checkPieces [.store] .logical 8 none (pieces (addWrap (c1.b.getG 15).toNat (-8)) 8) c1 = .ok ps c2 →
        awaitLines ps c2 = .ok () c2 → writePieces ps (wordBytes (c1.b.psw.ia + 16)) c2 = .ok () c3 →
        Cpu.Retires ({ c3 with b := c3.b.setG 15 (BitVec.ofNat 64 (addWrap (c1.b.getG 15).toNat (-8))) }.goes (.jump a)) 2 t →
        exec (.call i) s = .next (s.after t))
      ∧ (Starts 0x103 shapeRet i s c → inSpace (c.b.getG 15).toNat 8 = true →
        checkPieces [.load] .logical 8 none (pieces (c.b.getG 15).toNat 8) c = .ok ps c1 →
        awaitNeeded ps c1 = .ok () c1 → readPieces ps false c1 = .ok bs c2 → leNat bs % 16 = 0 →
        Cpu.Retires ({ c2 with b := c2.b.setG 15 (BitVec.ofNat 64 (addWrap (c.b.getG 15).toNat 8)) }.goes
          (.jump (BitVec.ofNat 64 (leNat bs)))) 2 t →
        exec (.ret i) s = .next (s.after t)))
  ∧ (∀ (i : Issue) (s t : State) (c : Cpu),
      let n := (c.b.getG (spBase i.word.opd1)).toNat
      Starts 0x104 shapeRep i s c → n ≤ 65535 →
      (c.goes (.load (if n = 0 then { c.b.psw with ia := c.b.psw.ia + 32 }
        else { c.b.psw with ia := c.b.psw.ia + 16, rcnt := BitVec.ofNat 16 n }))).Retires 1 t →
      exec (.rep i) s = .next (s.after t))

/-! ## The packed decimal family -/

/-- R183, R184, R186: ADDP, SUBP and MULP deliver the exact sum, difference or product of two packed operands, its low digits when it
does not fit and DOM is 0; a long MULP has its damper leave. -/
def Obligations.PackedArithmetic : Prop :=
∀ (i : Issue), ∀ a ∈ packedOps i.word, ∀ (s t : State) (c c1 c2 : Cpu) (o : Opnd) (x y : Int),
    let n := lenL1 i.word.len
    let v := a.2.2.1 x y
    Starts a.2.1 shapeTwoP i s c → formTwoP i.word c = .ok (o, x, y) c1 →
    (capacity n ≤ v.natAbs → c1.b.psw.dom = false) →
    (a.2.1 = 0x204 → (16 < n ∨ 16 < lenL2 i.word.len) → c1.b.leave ≠ none) →
    c1.b.resume = 0 →
    writeOpnd o (packedBytes n v) (c1.withCc (packedCc n v)) = .ok () c2 → c2.Retires a.2.2.2 t →
    exec (a.1 i) s = .next (s.after t)

/-- R186, R201: ZAPP delivers its source; CMPP compares two packed operands and writes CC alone; LDA loads bytes into an accumulator
with zeros above them, and STA stores its low bytes, neither looking at their digits. -/
def Obligations.PackedMovesAndCompare : Prop :=
(∀ (i : Issue) (s t : State) (c c1 c2 c3 c4 c5 : Cpu) (o o2 : Opnd) (y : Int) (b1 b2 : List Byte),
      let n := lenL1 i.word.len
      (Starts 0x202 shapeTwoP i s c → formOpnd i.word.opd1 n [.store] c = .ok o c1 →
        formOpnd i.word.opd2 (lenL2 i.word.len) [.load] c1 = .ok o2 c2 → readPacked o2 (lenL2 i.word.len) c2 = .ok y c3 →
        (capacity n ≤ y.natAbs → c3.b.psw.dom = false) →
        writeOpnd o (packedBytes n y) (c3.withCc (packedCc n y)) = .ok () c4 → c4.Retires (addpCount i.word) t →
        exec (.zapp i) s = .next (s.after t))
      ∧ (Starts 0x203 shapeTwoP i s c → formOpnd i.word.opd1 n [.load] c = .ok o c1 →
        formOpnd i.word.opd2 (lenL2 i.word.len) [.load] c1 = .ok o2 c2 → readOpnd o n c2 = .ok b1 c4 →
        readOpnd o2 (lenL2 i.word.len) c4 = .ok b2 c5 → packedOk b1 = true → packedOk b2 = true →
        (c5.withCc (cmpCc (packedVal b1) (packedVal b2))).Retires (addpCount i.word) t →
        exec (.cmpp i) s = .next (s.after t)))
  ∧ (∀ (i : Issue) (s t : State) (c c1 c2 c3 c4 : Cpu) (o1 o2 : Opnd) (bs : List Byte),
      (Starts 0x20C shapeLda i s c → formOpnd i.word.opd1 32 [] c = .ok o1 c1 →
        formOpnd i.word.opd2 (lenL2 i.word.len) [.load] c1 = .ok o2 c2 → readOpnd o2 (lenL2 i.word.len) c2 = .ok bs c3 →
        writeOpnd o1 (zeros (32 - lenL2 i.word.len) ++ bs) c3 = .ok () c4 → c4.Retires 2 t →
        exec (.lda i) s = .next (s.after t))
      ∧ (Starts 0x20D shapeSta i s c → formOpnd i.word.opd1 (lenL1 i.word.len) [.store] c = .ok o1 c1 →
        formOpnd i.word.opd2 32 [] c1 = .ok o2 c2 → readOpnd o2 32 c2 = .ok bs c3 →
        writeOpnd o1 (bs.drop (32 - lenL1 i.word.len)) c3 = .ok () c4 → c4.Retires 2 t →
        exec (.sta i) s = .next (s.after t)))

/-- R190, R191: DIVP writes the remainder to OPD2 and the quotient to OPD1, when the divisor is not zero, the quotient fits, and the
damper leave is held. R193 to R195: SRPP delivers its operand scaled by a power of ten, rounded by the mode it names; TSTP says in
CC which check of a packed operand fails and raises nothing. -/
def Obligations.PackedDivideScaleTest : Prop :=
  (∀ (i : Issue) (s t : State) (c c1 c2 c3 c4 c5 c6 c7 : Cpu) (o1 o2 o3 : Opnd) (b2 b3 : List Byte),
      let n1 := lenL1 i.word.len
      let n2 := lenL2 i.word.len
      let n3 := lenL3 i.word.len
      let x := packedVal b2
      let y := packedVal b3
      Starts 0x205 shapeDivp i s c → formOpnd i.word.opd1 n1 [.store] c = .ok o1 c1 → formOpnd i.word.opd2 n2 [.load, .store] c1 = .ok o2 c2 →
      formOpnd i.word.opd3 n3 [.load] c2 = .ok o3 c3 → readOpnd o2 n2 c3 = .ok b2 c4 → readOpnd o3 n3 c4 = .ok b3 c5 →
      packedOk b2 = true → packedOk b3 = true → y ≠ 0 → (x.tdiv y).natAbs < capacity n1 → c5.b.leave ≠ none → c5.b.resume = 0 →
      writeOpnd o2 (packedBytes n2 (x.tmod y)) c5 = .ok () c6 → writeOpnd o1 (packedBytes n1 (x.tdiv y)) c6 = .ok () c7 →
      (c7.withCc (signCc (x.tdiv y))).Retires (12 + max 1 (sigDigits x.natAbs + 1 - sigDigits y.natAbs)) t →
      exec (.divp i) s = .next (s.after t))
  ∧ (∀ (i : Issue) (s t : State) (c c1 c2 c3 c4 c5 : Cpu) (o o2 : Opnd) (ctl : Nat) (x : Int) (bs : List Byte),
      let n := lenL1 i.word.len
      let v := srppValue x (sextInt 8 ctl) (bitsOf ctl 8 3)
      (Starts 0x206 shapeSrpp i s c → formOpnd i.word.opd1 n [.load, .store] c = .ok o c1 → formOpnd i.word.opd2 8 [.load] c1 = .ok o2 c2 →
        readVal o2 8 c2 = .ok ctl c3 → ctl / 2 ^ 11 = 0 → bitsOf ctl 8 3 ≤ 5 → (sextInt 8 ctl).natAbs ≤ 63 →
        readPacked o n c3 = .ok x c4 → (capacity n ≤ v.natAbs → c4.b.psw.dom = false) →
        writeOpnd o (packedBytes n v) (c4.withCc (packedCc n v)) = .ok () c5 → c5.Retires 4 t →
        exec (.srpp i) s = .next (s.after t))
      ∧ (Starts 0x207 shapeTstp i s c → formOpnd i.word.opd1 n [.load] c = .ok o c1 → readOpnd o n c1 = .ok bs c2 →
        (c2.withCc (BitVec.ofNat 2 (b2n ((splitPacked bs).1.any (fun d => decide (9 < d))) * 2 + b2n (!signOk (splitPacked bs).2)))).Retires
          2 t →
        exec (.tstp i) s = .next (s.after t)))

/-- R196 to R200: CVBP and CVDP convert between packed and 64-bit binary, PACK and UNPK between zoned and packed. -/
def Obligations.DecimalConversions : Prop :=
∀ (i : Issue) (s t : State) (c c1 c2 c3 c4 : Cpu) (o1 o2 : Opnd) (v : Int) (u : Nat) (bs : List Byte),
    let n1 := lenL1 i.word.len
    let n2 := lenL2 i.word.len
    let zoned := bs.map (fun b => b.toNat % 16)
    let sg := (bs.getLast?.map (fun b => b.toNat / 16)).getD 0
    let m : Int := if !lenFlag i.word.len && isMinus sg then -(digitsNat zoned : Int) else digitsNat zoned
    (Starts 0x208 shapeCvbp i s c → formOpnd i.word.opd1 8 [.store] c = .ok o1 c1 → formOpnd i.word.opd2 n2 [.load] c1 = .ok o2 c2 →
      readPacked o2 n2 c2 = .ok v c3 → (overflows 64 v = true → c3.b.psw.fom = false) →
      writeVal o1 8 (wrapInt 64 v) (c3.withCc (exactCc 64 v)) = .ok () c4 → c4.Retires 8 t →
      exec (.cvbp i) s = .next (s.after t))
    ∧ (Starts 0x209 shapeCvdp i s c → formOpnd i.word.opd1 n1 [.store] c = .ok o1 c1 → formOpnd i.word.opd2 8 [.load] c1 = .ok o2 c2 →
      readVal o2 8 c2 = .ok u c3 → (capacity n1 ≤ (signed 64 u).natAbs → c3.b.psw.dom = false) →
      writeOpnd o1 (packedBytes n1 (signed 64 u)) (c3.withCc (packedCc n1 (signed 64 u))) = .ok () c4 → c4.Retires 10 t →
      exec (.cvdp i) s = .next (s.after t))
    ∧ (Starts 0x20A shapePack i s c → formOpnd i.word.opd1 n1 [.store] c = .ok o1 c1 → formOpnd i.word.opd2 n2 [.load] c1 = .ok o2 c2 →
      readOpnd o2 n2 c2 = .ok bs c3 → zoned.all (fun d => decide (d ≤ 9)) = true → (lenFlag i.word.len = true ∨ signOk sg = true) →
      (capacity n1 ≤ m.natAbs → c3.b.psw.dom = false) →
      writeOpnd o1 (packedBytes n1 m) (c3.withCc (packedCc n1 m)) = .ok () c4 → c4.Retires (packCount i.word) t →
      exec (.pack i) s = .next (s.after t))
    ∧ (Starts 0x20B shapeUnpk i s c → formOpnd i.word.opd1 n1 [.store] c = .ok o1 c1 → formOpnd i.word.opd2 n2 [.load] c1 = .ok o2 c2 →
      readPacked o2 n2 c2 = .ok v c3 → (10 ^ n1 ≤ v.natAbs → c3.b.psw.dom = false) →
      writeOpnd o1 (zonedBytes n1 v (lenFlag i.word.len)) (c3.withCc (if 10 ^ n1 ≤ v.natAbs then 3 else signCc v)) = .ok () c4 →
      c4.Retires (packCount i.word) t →
      exec (.unpk i) s = .next (s.after t))

/-! ## Floating point -/

/-- R162, R163: FADD, FSUB, FMUL and FDIV deliver the rounded result and OR its flags into FPF, when FPE enables none of them; FDIV
has its damper leave. -/
def Obligations.FloatArithmetic : Prop :=
∀ a ∈ floatOps, ∀ (i : Issue) (s t : State) (c c1 c2 : Cpu) (o : Opnd) (x y : FVal),
    let f := ffmt i.word.fmt.toNat
    let r := a.2.2 f c1.b.psw.brm.toNat x y
    Starts a.2.1 shapeFp i s c → formFp i.word c = .ok (o, x, y) c1 → r.2 &&& c1.b.psw.fpe.toNat = 0 →
    (a.2.1 = 0x504 → c1.b.leave ≠ none) → c1.b.resume = 0 →
    writeVal o (fmtBytes i.word.fmt) r.1 (c1.withFlags r.2) = .ok () c2 →
    c2.Retires (if a.2.1 = 0x504 then (if i.word.fmt = 6 then 8 else 12) else 2) t →
    exec (a.1 i) s = .next (s.after t)

/-- R161 to R164: FMA rounds a + b × c once; FSQRT delivers the rounded root, with its damper leave; FCMP sets CC by the order of its
operands, 0b11 when unordered; FCVT delivers its source in the other format. R165 to R168: a unit of DOT accumulates at most 256
elements in order, advances its two addresses and its count, and stays while elements remain; a fresh DOT of more than 256 has its
damper leave, and a DOT of none only completes. -/
def Obligations.FloatOthers : Prop :=
  ((∀ (i : Issue) (s t : State) (c c1 c2 c3 c4 c5 c6 c7 : Cpu) (o1 o2 o3 : Opnd) (x y z : Nat),
        let n := fmtBytes i.word.fmt
        let f := ffmt i.word.fmt.toNat
        (let r := f.fma c6.b.psw.brm.toNat (f.decode x) (f.decode y) (f.decode z);
          Starts 0x503 shapeFma i s c →
          formOpnd i.word.opd1 n [.load, .store] c = .ok o1 c1 → formOpnd i.word.opd2 n [.load] c1 = .ok o2 c2 →
          formOpnd i.word.opd3 n [.load] c2 = .ok o3 c3 → readVal o1 n c3 = .ok x c4 → readVal o2 n c4 = .ok y c5 →
          readVal o3 n c5 = .ok z c6 → r.2 &&& c6.b.psw.fpe.toNat = 0 → writeVal o1 n r.1 (c6.withFlags r.2) = .ok () c7 → c7.Retires 3 t →
          exec (.fma i) s = .next (s.after t))
        ∧ (let r := (ffmt 7).sqrt c3.b.psw.brm.toNat ((ffmt 7).decode y);
          Starts 0x505 shapeFsqrt i s c → formOpnd i.word.opd1 8 [.store] c = .ok o1 c1 →
          formOpnd i.word.opd2 8 [.load] c1 = .ok o2 c2 → readVal o2 8 c2 = .ok y c3 → c3.b.leave ≠ none → c3.b.resume = 0 →
          r.2 &&& c3.b.psw.fpe.toNat = 0 → writeVal o1 8 r.1 (c3.withFlags r.2) = .ok () c4 → c4.Retires 14 t →
          exec (.fsqrt i) s = .next (s.after t)))
    ∧ (∀ (i : Issue) (s t : State) (c c1 c2 c3 c4 : Cpu) (o1 o2 : Opnd) (x y : Nat),
        let n := fmtBytes i.word.fmt
        let f := ffmt i.word.fmt.toNat
        let src := bitsOf i.word.len.toNat 0 4
        let k := fmtBytes (BitVec.ofNat 4 src)
        (let fl := if anySnan [f.decode x, f.decode y] || (lenFlag i.word.len && anyNan [f.decode x, f.decode y]) then 1 else 0;
          Starts 0x506 shapeFcmp i s c →
          formOpnd i.word.opd1 n [.load] c = .ok o1 c1 → formOpnd i.word.opd2 n [.load] c1 = .ok o2 c2 → readVal o1 n c2 = .ok x c3 →
          readVal o2 n c3 = .ok y c4 → fl &&& c4.b.psw.fpe.toNat = 0 →
          ((c4.withFlags fl).withCc (fcompareCc (fcompare (f.decode x) (f.decode y)))).Retires 1 t →
          exec (.fcmp i) s = .next (s.after t))
        ∧ (let r := convertTo i.word c3.b.psw.brm.toNat y;
          Starts 0x507 (shapeFcvt i.word) i s c → formOpnd i.word.opd1 n [.store] c = .ok o1 c1 →
          formOpnd i.word.opd2 k [.load] c1 = .ok o2 c2 → readVal o2 k c2 = .ok y c3 → r.2 &&& c3.b.psw.fpe.toNat = 0 →
          writeVal o1 n r.1 (c3.withFlags r.2) = .ok () c4 → c4.Retires 2 t →
          exec (.fcvt i) s = .next (s.after t))))
  ∧ (∀ (i : Issue) (s t : State) (c c1 c2 : Cpu) (v : Nat) (fl : FFlags),
      let w := i.word
      let n := fmtBytes w.fmt
      let len := (c.b.getG (BitVec.ofNat 4 w.len.toNat)).toNat
      let k := min 256 len
      let a := c.b.getG (spBase w.opd2)
      let b := c.b.getG (spBase w.opd3)
      Starts 0x508 shapeDot i s c → c.b.resume = 0 →
      (len = 0 → Cpu.Retires { c with b := c.b.setPsw { c.b.psw with ip := false } } 4 t → exec (.dot i) s = .next (s.after t))
      ∧ (0 < len → (256 < len → c.b.cont = false → c.b.leave ≠ none) →
        dotUnit .straight (ffmt w.fmt.toNat) c.b.psw.brm.toNat n k a.toNat b.toNat ((c.b.getF (spBase w.opd1)).toNat % 2 ^ (8 * n)) 0 c = .ok (v, fl) c1 →
        dotCommit w k len a b v fl c1 = .ok () c2 → c2.Retires (4 + ceilDiv k 4) t →
        exec (.dot i) s = .next (s.after t)))

/-! ## Long strings -/

/-- R219, R223, R224: a unit of MOVL moves its bytes, pads the rest, advances both pairs, and at the end sets CC by the lengths;
operands that overlap destructively set CC 0b11 and move nothing. R225 to R228: a unit of CMPL stops at the first two bytes that
differ, and of SRCH at the first byte looked for, with the pairs there and CC set; at the end of the operands CMPL sets CC 0b00
and SRCH 0b10. A unit of TRL replaces each byte by its table byte; a unit of TRTL stops at the first byte whose function byte is
not zero, with that function byte in the third register and CC 0b10 when it was the last byte, 0b01 otherwise. The model's
readings here: assumption log 15. -/
def Obligations.LongStrings : Prop :=
  (∀ (i : Issue) (s t : State) (c c1 c2 c3 c4 : Cpu) (x : PairForm) (j : Nat) (stop : Bool) (bs : List Byte),
      let k := min j (min x.moveLen x.ls)
      Starts 0x300 shapeMovl i s c → formPairs i.word c = .ok x c1 →
      (x.overlaps = false → x.moveReach c1 = .ok { bytes := j, stop := stop, exc := none } c2 → longRead x.ss x.gs k c2 = .ok bs c3 →
        longWrite x.sd x.gd (bs ++ List.replicate (j - k) x.pad) c3 = .ok () c4 →
        (let c5 := if 0 < x.moveLen then (c4.moved x.d j).moved x.r k else c4
         let c6 := if j = x.ld then c5.withCc (cmpCc x.ld x.ls) else c5
         ((c6.crossed (crossings x.moveOps j)).unitEnds (j == x.ld)).Retires (countMove j) t) →
        exec (.movl i) s = .next (s.after t))
      ∧ (x.overlaps = true → (c1.withCc 3).Retires 3 t → exec (.movl i) s = .next (s.after t)))
  ∧ ((∀ (i : Issue) (s t : State) (c c1 c2 c3 : Cpu) (x : PairForm) (y : ScanForm) (j : Nat) (p : List (Byte × Byte)),
        (Starts 0x301 shapeMovl i s c → formPairs i.word c = .ok x c1 →
          (x.compareReach c1 = .ok { bytes := j, stop := true, exc := none } c2 →
            x.bothAt (j - 1) 1 ((c2.scanned x.d (min (j - 1) x.ld)).scanned x.r (min (j - 1) x.ls)) = .ok p c3 →
            (((c3.withCc (differCc p)).crossed (crossings x.compareOps j)).unitEnds true).Retires (countMove j) t →
            exec (.cmpl i) s = .next (s.after t))
          ∧ (x.compareReach c1 = .ok { bytes := j, stop := false, exc := none } c2 →
            (let c3 := ((c2.scanned x.d (min j x.ld)).scanned x.r (min j x.ls)).crossed (crossings x.compareOps j)
             (if j = max x.ld x.ls then (c3.withCc 0).unitEnds true else c3.unitEnds false).Retires (countMove j) t) →
            exec (.cmpl i) s = .next (s.after t)))
        ∧ (Starts 0x304 shapeSrch i s c → formScan i.word c = .ok y c1 →
          (y.srchReach i.word c1 = .ok { bytes := j, stop := true, exc := none } c2 →
            ((((c2.scanned y.r (j - 1)).withCc 1).crossed (crossings [(y.g, y.len)] j)).unitEnds true).Retires (countMove j) t →
            exec (.srch i) s = .next (s.after t))
          ∧ (y.srchReach i.word c1 = .ok { bytes := j, stop := false, exc := none } c2 →
            (let c3 := (c2.scanned y.r j).crossed (crossings [(y.g, y.len)] j)
             (if j = y.l then (c3.withCc 2).unitEnds true else c3.unitEnds false).Retires (countMove j) t) →
            exec (.srch i) s = .next (s.after t))))
    ∧ (∀ (i : Issue) (s t : State) (c c1 c2 c3 c4 : Cpu) (f : TableForm) (j : Nat) (stop : Bool) (bs : List Byte),
        formTable i.word c = .ok f c1 →
        (Starts 0x302 shapeTrl i s c → f.trlReach c1 = .ok { bytes := j, stop := stop, exc := none } c2 →
          f.functions 0 j c2 = .ok bs c3 → longWrite f.x.sp f.x.g bs c3 = .ok () c4 →
          (((c4.scanned f.x.r j).crossed (crossings [(f.x.g, f.x.len)] j)).unitEnds (j == f.x.l)).Retires (countTable j) t → exec (.trl i) s = .next (s.after t))
        ∧ (Starts 0x303 shapeTrtl i s c →
          (f.trtlReach c1 = .ok { bytes := j, stop := true, exc := none } c2 → f.functions (j - 1) 1 c2 = .ok bs c3 →
            (((((c3.scanned f.x.r (j - 1)).withG (spBase i.word.opd3) (BitVec.ofNat 64 (leNat (bs.take 1)))).withCc
              (if j = f.x.l then 2 else 1)).crossed (crossings [(f.x.g, f.x.len)] j)).unitEnds true).Retires (countTable j) t →
            exec (.trtl i) s = .next (s.after t))
          ∧ (f.trtlReach c1 = .ok { bytes := j, stop := false, exc := none } c2 →
            (let c3 := (c2.scanned f.x.r j).crossed (crossings [(f.x.g, f.x.len)] j)
             (if j = f.x.l then (c3.withCc 0).unitEnds true else c3.unitEnds false).Retires (countTable j) t) →
            exec (.trtl i) s = .next (s.after t)))))

/-- R230 to R236: EDIT and EDMK with no pattern set CC 0b00; a unit of them stores what its pattern bytes give and leaves the
pairs, the companion, the mark, ES and CC as they stand then. The model's readings here: assumption log 15. -/
def Obligations.EditsUnit : Prop :=
∀ (i : Issue) (s t : State) (c c1 c2 c3 : Cpu) (x : EditOpnds) (at' : EditAt) (isMark : Bool) (ctor : Issue → Instr) (op : BitVec 12),
    ((isMark, ctor, op) = (false, Instr.edit, 0x305) ∨ (isMark, ctor, op) = (true, Instr.edmk, 0x306)) →
    Starts op (shapeEdit isMark) i s c →
    (formEdit isMark i.word c = .ok none c1 → (c1.withCc 0).Retires 4 t → exec (ctor i) s = .next (s.after t))
    ∧ (formEdit isMark i.word c = .ok (some x) c1 →
      editUnit x.f (!c1.b.psw.rf) (min 64 x.start.gl.toNat) { done := 0, st := x.start, out := [] } c1 = .ok (at', none) c2 →
      x.store at' (c2.crossed at'.cross) = .ok () c3 → ((x.left i.word at'.st c3).unitEnds (at'.st.gl == 0)).Retires (4 + at'.done) t →
      exec (ctor i) s = .next (s.after t))

/-! ## The ledger -/

/-- R243 to R246: a POST whose balances fit, whose limit holds and whose ring has room appends its record, writes both balances and
SEQ and sets CC 0b00; any other sets CC 0b10, 0b01 or 0b11, in that order, writes nothing and gives its leave back. R262, R267:
JAPP appends a record of its payload and delivers its sequence number, or sets CC 0b11 on a full ring; DURW sets CC 0b00 for a
durable record, 0b01 for one not appended, and 0b10 on a ring whose journal has failed. -/
def Obligations.LedgerInstructions : Prop :=
  (∀ (i : Issue) (s t : State) (c c1 c2 c3 c4 c5 c6 : Cpu) (f : PostForm) (e : Ring) (ps : List Piece),
      Starts 0x400 shapePost i s c → formPost i.word c = .ok f c1 →
      ((f.outcome e i.word = 1 ∨ f.outcome e i.word = 2) →
        (c1.leaveBack.released.withCc (f.outcome e i.word)).Retires 48 t → exec (.post i) s = .next (s.after t))
      ∧ (f.outcome e i.word = 3 → claimRing f.x.ring c1 = .ok e c2 → (c2.leaveBack.released.withCc 3).Retires 48 t →
        exec (.post i) s = .next (s.after t))
      ∧ (f.outcome e i.word = 0 → claimRing f.x.ring c1 = .ok e c2 → f.o3 = .mem ps →
        appendRecord f.x.ring (f.record e.head c2.b c2.latch) c2 = .ok () c3 →
        writePieces f.p1 (packedBytes (lenL1 i.word.len) f.debit) c3 = .ok () c4 →
        writePieces f.p2 (packedBytes (lenL2 i.word.len) f.credit) c4 = .ok () c5 →
        writePieces (subPieces ps 0x18 8) (leBytes 8 e.head) c5 = .ok () c6 →
        (Cpu.withCc (Cpu.released { c6 with s := c6.s.drainFree c2.b.ctx }) 0).Retires 48 t → exec (.post i) s = .next (s.after t)))
  ∧ (∀ (i : Issue) (s t : State) (c c1 c2 c3 c4 c5 c6 c7 c8 : Cpu) (o1 o3 : Opnd) (r n : Nat) (e : Ring) (bs : List Byte),
      let len := bitsOf i.word.len.toNat 0 7
      let p := bs ++ zeros (68 - len)
      (Starts 0x401 shapeJapp i s c → formOpnd i.word.opd1 8 [] c = .ok o1 c1 → ringOperand i.word.opd2 c1 = .ok r c2 →
        r < 4096 → formOpnd i.word.opd3 len [.load] c2 = .ok o3 c3 → checkRing false r c3.drained = .ok () c4 →
        readOpnd o3 len c4 = .ok bs c5 → claimRing r c5 = .ok e c6 →
        (e.full = false →
          appendRecord r (recordBody e.head c6.latch (p.take 64) (recordStatus (leNat (p.drop 64)) 2 c6.b.psw.key.toNat c6.b.ctx 0)) c6
            = .ok () c7 →
          writeVal o1 8 e.head c7 = .ok () c8 →
          (c8.released.withCc 0).Retires (24 + ceilDiv len 32) t → exec (.japp i) s = .next (s.after t))
        ∧ (e.full = true → (c6.released.withCc 3).Retires (24 + ceilDiv len 32) t → exec (.japp i) s = .next (s.after t)))
      ∧ (Starts 0x402 shapeDurw i s c → formOpnd i.word.opd1 8 [] c = .ok o1 c1 → readVal o1 8 c1 = .ok n c2 →
        ringOperand i.word.opd2 c2 = .ok r c3 → r < 4096 → checkRing true r c3 = .ok () c4 → ringNow true r c4 = .ok e c5 →
        (0 ≤ seqDiff e.durable n ∨ seqDiff e.head n ≤ 0 ∨ e.fault = true) →
        (c5.withCc (if 0 ≤ seqDiff e.durable n then 0 else if seqDiff e.head n ≤ 0 then 1 else 2)).Retires 2 t →
        exec (.durw i) s = .next (s.after t)))

/-! ## Frames and returns -/

/-- R90, R92, R95: SAVEH with no group to save sets CC 0b01 and does nothing else; with groups it moves them into a fresh frame,
seals it and puts it on the saved chain. RESTH with no frame saved sets CC 0b01; with a frame that verifies, of the half it names,
it loads the groups that are selected and not yet restored, and gives the frame back; one that does not verify raises 0x15. SEALF
computes the seal of a frame whose reserved fields and claims are right and stores its control, CHECK and RPROG. The model's
readings here: assumption log 42. -/
def Obligations.FrameInstructions : Prop :=
(∀ (i : Issue) (s t : State) (c c1 c2 c3 : Cpu) (x y : Saving) (g : Nat),
      Starts 0x600 shapeFrames i s c → c.b.psw.ip = false →
      ((if bitAt i.word.len.toNat 1 then selMask i.word.len else selMask i.word.len &&& c.b.dirty.toNat) = 0 →
        (c.withCc 1).Retires 4 t → exec (.saveh i) s = .next (s.after t))
      ∧ (saveStart i.word c = .ok (some x) c1 →
        saveGroups 7 ((maskGroups x.groups).filter (fun k => !bitAt x.done k)) 0 x c1 = .ok (g, y) c2 → g < 7 →
        saveFinish g y c2 = .ok () c3 → c3.Retires (framesCount c3.b g) t → exec (.saveh i) s = .next (s.after t)))
  ∧ (∀ (i : Issue) (s t : State) (c c1 c2 c3 c4 c5 : Cpu) (f g free : Nat) (bs : List Byte),
      let ctx := c.b.ctx
      let cb := c.s.block ctx
      let d := leNat (sliceBytes bs 0x10 8)
      let restored := leNat (sliceBytes bs 0x28 8) % 256
      Starts 0x601 shapeFrames i s c → frLd (cb + 0xB08) 8 c = .ok f c1 →
      (f = 0 → (c1.withCc 1).Retires 4 t → exec (.resth i) s = .next (s.after t))
      ∧ (f ≠ 0 → frLdBytes f 1024 c1 = .ok bs c2 →
        (c2.s.verifies ctx bs = true → bitsOf d 17 2 = 0 → bitAt d 19 = bitAt i.word.len.toNat 0 →
          (bitAt d 16 && bitAt d 6 && bitAt (leNat (sliceBytes bs 0x280 16)) 127) = false →
          restoreGroups 7 f bs ((maskGroups (selMask i.word.len &&& d)).filter (fun k => !bitAt restored k)) 0 restored c2 = .ok g c3 →
          g < 7 → restoreFree cb f c3 = .ok free c4 → restoreFinish cb f free bs c4 = .ok () c5 →
          c5.Retires (framesCount c5.b g) t → exec (.resth i) s = .next (s.after t))
        ∧ (c2.s.verifies ctx bs = false →
          exec (.resth i) s = .next (s.after (c2.takes 0x601 i.word
            { code := 0x15, fav := true, phys := !bitAt (c2.s.cxa c2.b.ctx) 0, faddr := f })))))
  ∧ (∀ (i : Issue) (s t : State) (c c1 c2 c3 c4 c5 : Cpu) (p : Place) (hd bs : List Byte) (ps : List Piece),
      let kind := bitsOf (leNat hd) 17 2
      let n := kindLen kind
      let d := leNat (sliceBytes bs 0x10 8)
      let fr := spliceBytes (spliceBytes bs 0x10 (leBytes 8 (putBits (putBits d 16 1 1) 8 8 d))) 0x28 (zeros 8)
      Starts 0x602 shapeFrame i s c → formAddress i.word.opd1 256 c = .ok p c1 → readFrame p.via (p.addr + 0x10) 8 c1 = .ok hd c2 →
      kind ≠ 3 → p.addr % n = 0 → inSpace p.addr n = true → (p.via = .scratch → p.addr + n ≤ c1.s.block c1.b.ctx + 0x2000) →
      readFrame p.via p.addr n c2 = .ok bs c3 → frameClean kind bs = true → frameClaims kind bs = true →
      checkPieces [.store] p.via 32 none (pieces (p.addr + 0x10) 32) c3 = .ok ps c4 → awaitLines ps c4 = .ok () c4 →
      writePieces ps (sliceBytes (c3.s.sealed (BitVec.ofNat 20 (leNat (sliceBytes bs 0x18 8))) fr) 0x10 32) c4 = .ok () c5 →
      c5.Retires 6 t → exec (.sealf i) s = .next (s.after t))

/-- R103, R336: RETX from an exception frame that verifies, holds a legal PSW and no ember state loads that PSW, drops an ember
frame in use and takes the long-instruction state the frame holds; one that does not verify raises 0x15 and returns nowhere. SVC
completes, with its code, and its context enters exception 0x19 with IA after it. The model's readings here: assumption log 42. -/
def Obligations.ReturnsAndCalls : Prop :=
(∀ (i : Issue) (s t : State) (c c1 c2 : Cpu) (p : Place) (bs : List Byte),
      let d := leNat (sliceBytes bs 0x10 8)
      let old := leNat (sliceBytes bs 0x40 16)
      let code := leNat (sliceBytes bs 0x50 8)
      let s2 := c2.s.dropEmber c2.b.ctx
      let b2 := { c2.b with lis := if bitAt code 13 then some (lisOf bs) else none, resume := 0, saved := none }
      let broken : List Effect := if s2.wantsRf c2.b.ctx (Psw.ofNat old) && (Psw.ofNat old).dbg then [.refireBroken] else []
      Starts 0x603 shapeFrame i s c → formAddress i.word.opd1 256 c = .ok p c1 → p.addr % 256 = 0 →
      readFrame p.via p.addr 256 c1 = .ok bs c2 → bitsOf d 17 2 = 2 →
      (c2.s.verifies c2.b.ctx bs = true → (bitAt d 16 = true → bitAt old 68 = false ∧ bitAt old 78 = false ∧ bitsOf code 12 2 = 0) →
        pswLegal old = true → bitAt code 12 = false →
        (Cpu.goes { c2 with s := s2, b := b2, after := c2.after ++ broken } (.load (s2.loadRf b2.ctx (Psw.ofNat old)))).Retires 6 t →
        exec (.retx i) s = .next (s.after t))
      ∧ (c2.s.verifies c2.b.ctx bs = false →
        exec (.retx i) s = .next (s.after (c2.takes 0x603 i.word
          { code := 0x15, fav := true, phys := p.via == .scratch && !bitAt (c2.s.cxa c2.b.ctx) 0, faddr := p.addr }))))
  ∧ (∀ (i : Issue) (s t : State) (c : Cpu) (b : Bank),
      let n := c.goes (.svc i.word.len)
      Starts 0x604 shapeSvc i s c → (n.settle.s.putBank (n.settle.retired 6)).performAll n.b.ctx n.after = .ok t →
      t.bankOf n.b.ctx = some b →
      exec (.svc i) s = .next (s.after (t.enter b { code := 0x19, faddr := i.word.len.toNat } b.psw 0 none none 8)))

/-! ## Events and queues -/

/-- R316, R318, R436: WAIT with a pending event of its mask, or its deadline passed, delivers the events taken, and otherwise its
context waits; SIGNAL names its target's event, or sets CC 0b01 for a target that does not exist; FENCE makes the stores of its
context visible. The model's readings here: assumption log 9 and 16. -/
def Obligations.EventInstructions : Prop :=
∀ (i : Issue) (s t : State) (c c1 c2 : Cpu) (o : Opnd) (r v : Nat),
    let m := (c.b.getG (spBase i.word.opd1)).toNat
    let dl := c1.b.getG (spBase i.word.opd2)
    let r' := if bitAt m 4 && decide (dl.toNat ≤ c1.latch) then r + 16 else r
    (Starts 0x700 shapeWait i s c → m ≠ 0 → m < 32 → takeEvents m [0, 1, 3, 2] 0 c = .ok r c1 →
      (r' ≠ 0 → ((c1.withG (spBase i.word.opd1) (BitVec.ofNat 64 r')).withCc 0).Retires 3 t → exec (.wait i) s = .next (s.after t))
      ∧ (r' = 0 → exec (.wait i) s = .next (s.after (c1.s.withdraw c1.ck 0x700 i.word (.event (BitVec.ofNat 5 m) dl)))))
    ∧ (Starts 0x701 shapeSignal i s c → formOpnd i.word.opd1 8 [] c.drained = .ok o c1 → readVal o 8 c1 = .ok v c2 →
      (lenFlag i.word.len = true → v < 4096 → bitAt (c2.s.ld (c2.s.wgAt v) 8) 0 = true →
        (Cpu.withCc { c2 with after := c2.after ++ [.signalGroup v] } 0).Retires 2 t → exec (.signal i) s = .next (s.after t))
      ∧ (lenFlag i.word.len = false → v < 2 ^ 20 → c2.s.st (BitVec.ofNat 20 v) ≠ St.unused →
        (Cpu.withCc { c2 with after := c2.after ++ [.signalCtx (BitVec.ofNat 20 v)] } 0).Retires 2 t →
        exec (.signal i) s = .next (s.after t))
      ∧ ((if lenFlag i.word.len then v < 4096 ∧ bitAt (c2.s.ld (c2.s.wgAt v) 8) 0 = false
          else v < 2 ^ 20 ∧ c2.s.st (BitVec.ofNat 20 v) = St.unused) →
        (c2.withCc 1).Retires 2 t → exec (.signal i) s = .next (s.after t)))
    ∧ (Starts 0x706 shapeFence i s c → c.drained.Retires 1 t → exec (.fence i) s = .next (s.after t))

/-- R460 to R462: RECV on an active queue that software does not own and no mirror uses takes the message at RXNEXT, marked delivered
to the context, which is then the current message; with no message CC is 0b01, and on another queue 0b10. SEND of bytes that lie
together in ordinary memory, on an active transmit queue with a free descriptor, writes the descriptor, moves the producer on and
ends the current message; a full queue sets CC 0b01, a queue it may not use 0b10. -/
def Obligations.QueueInstructions : Prop :=
(∀ (i : Issue) (s t : State) (c c1 c2 c2' c3 c4 c5 : Cpu) (o : Opnd) (q v0 v : Nat),
      Starts 0x703 shapeRecv i s c → formOpnd i.word.opd1 8 [] c = .ok o c1 → readVal o 8 c1 = .ok q c2 → q < 524288 →
      claimQueue q c2 = .ok () c2' → readQueue q c2' = .ok v0 c3 → checkQueueKey q v0 c3 = .ok () c4 →
      readQueue q { c4 with s := if c4.b.msg.v then c4.s.releaseMsg c4.b.ctx c4.b.msg else c4.s } = .ok v c5 →
      let n := c5.s.passSkips v (qSlots v) (qRxNext v)
      let w := qPut v 0x18 8 n
      let h := qSlotAt w n
      let s6 := ((c5.s.devWrite (h + 0x0C) (leBytes 2 (c5.s.hdrFlags h ||| 2))).devWrite (h + 0x20) (leBytes 4 c5.b.ctx.toNat)).setQueue q
        (qPut w 0x18 8 ((n + c5.s.hdrSlots h) % 2 ^ 64))
      let none' : Msg := { c4.b.msg with v := false }
      let got : Msg :=
        { buf := BitVec.ofNat 64 (h + 64 + c5.s.ld (h + 0x0A) 2), len := BitVec.ofNat 16 (c5.s.ld (h + 0x08) 2 - c5.s.ld (h + 0x0A) 2),
          queue := BitVec.ofNat 19 q, v := true }
      let shut := !qActive v || qSizeExp v == 0 || qOwner v || c5.s.mirrorNames q
      (shut = true → (Cpu.withCc { c5 with b := c5.b.setMsg none' } 2).released.Retires 4 t → exec (.recv i) s = .next (s.after t))
      ∧ (shut = false → n = qRxProd w → (Cpu.withCc { c5 with s := c5.s.setQueue q w, b := c5.b.setMsg none' } 1).released.Retires 4 t →
        exec (.recv i) s = .next (s.after t))
      ∧ (shut = false → n ≠ qRxProd w → (Cpu.withCc { c5 with s := s6, b := c5.b.setMsg got } 0).released.Retires 4 t →
        exec (.recv i) s = .next (s.after t)))
  ∧ (∀ (i : Issue) (s t : State) (c c1 c2 c3 c4 c5 c6 c6' c7 c8 c9 : Cpu) (o1 o3 : Opnd) (p : Place) (n q pa v mv v' : Nat),
      let w := i.word
      Starts 0x702 shapeSend i s c → formOpnd w.opd3 8 [] c = .ok o3 c1 → readVal o3 8 c1 = .ok n c2 → formOpnd w.opd1 8 [] c2 = .ok o1 c3 →
      readVal o1 8 c3 = .ok q c4 → q < 524288 → n ≠ 0 → n ≤ 65535 → formAddress w.opd2 n c4 = .ok p c5 →
      sendPieces p.via n none 0 true (p.parts.flatMap (fun (a, k) => pieces a k)) c5 = .ok (some pa) c6 →
      claimQueue q c6 = .ok () c6' → readQueue q c6' = .ok v c7 → checkQueueKey q v c7 = .ok () c7 →
      let shut := !qActive v || qDexp v == 0 || qTxOwn v || c7.s.mirrorNames q || (qTxMode v == 1 && !c7.b.msg.v)
      (shut = true → (c7.withCc 2).released.Retires 6 t → exec (.send i) s = .next (s.after t))
      ∧ (shut = false → seqSub (qTxProd v) (qTxCons v) = 2 ^ qDexp v → (c7.withCc 1).released.Retires 6 t → exec (.send i) s = .next (s.after t))
      ∧ (shut = false → seqSub (qTxProd v) (qTxCons v) ≠ 2 ^ qDexp v →
        (c7.b.msg.v = true → readQueue c7.b.msg.queue.toNat c7 = .ok mv c8) → (c7.b.msg.v = false → c8 = c7 ∧ mv = 0) →
        (let h := msgHeader mv c7.b.msg.buf.toNat
         let r := if c7.b.msg.v && c8.s.releasable h c7.b.ctx then h else 0
         readQueue q { c8 with s := c8.drained.s.devWrite (qDescAt v (qTxProd v)) (sendDesc pa n (bitAt w.len.toNat 0) (qTxMode v == 1) r) }
           = .ok v' c9) →
        (Cpu.withCc { c9 with s := c9.s.setQueue q (qPut v' 0x30 8 (qTxProd v' + 1)), b := c9.b.setMsg { c7.b.msg with v := false } }
          0).released.Retires 6 t →
        exec (.send i) s = .next (s.after t)))

/-- R320, R322, R323, R398 to R402: PIN adds its lines to those its context pins, unless a limit of the context or the stove would be
passed, and UNPIN takes them away; SAMPLE delivers the value of its source with CC 0b00, or 0 with CC 0b10 for a queue without
one. SETKEY of a frame of ordinary memory outside the vault sets its key and fetch protection, and the bits it names, and delivers
the former reference and change bits in CC; TESTKEY delivers the key byte to the supervisor and says in CC what the key of the
context allows. -/
def Obligations.PinsSamplesKeys : Prop :=
(∀ (i : Issue) (s t : State) (c c1 c2 c3 c4 : Cpu) (p : Place) (ls : List Nat) (o : Opnd) (q : Nat) (x : Option Nat) (e : Ring),
      let n := bitsOf i.word.len.toNat 0 5 + 1
      let src := bitsOf i.word.len.toNat 0 4
      let full := decide (64 < c2.b.pins.length + n ∨ 512 < c2.s.pinsOf c2.b.stove.toNat + n)
      let dest := spBase i.word.opd1
      (Starts 0x704 shapePin i s c → formAddress i.word.opd1 1 c = .ok p c1 → pinLines (p.addr / 64 * 64) n c1 = .ok ls c2 →
        (lenFlag i.word.len = true →
          (Cpu.withCc { c2 with b := { c2.b with pins := c2.b.pins.filter (fun l => !ls.contains l) } } 0).Retires 3 t →
          exec (.unpin i) s = .next (s.after t))
        ∧ (lenFlag i.word.len = false → full = false →
          (Cpu.withCc { c2 with b := { c2.b with pins := ls.foldl (fun ps l => if ps.contains l then ps else ps ++ [l]) c2.b.pins } } 0).Retires
            3 t →
          exec (.pin i) s = .next (s.after t))
        ∧ (lenFlag i.word.len = false → full = true → (c2.withCc 1).Retires 3 t → exec (.pin i) s = .next (s.after t)))
      ∧ (Starts 0x705 (shapeSample true) i s c →
        (let v := if src = 0 then c.s.tod else c.b.evpend.toNat
         (src = 0 ∨ src = 5) → (Cpu.withCc (Cpu.withG { c with vol := c.vol ++ [(none, v)] } dest (BitVec.ofNat 64 v)) 0).Retires 2 t →
         exec (.sample i) s = .next (s.after t)))
      ∧ (Starts 0x705 (shapeSample false) i s c → formOpnd i.word.opd2 8 [] c = .ok o c1 → readVal o 8 c1 = .ok q c2 →
        ((src = 1 ∨ src = 2) → sampleQueue src q c2 = .ok x c3 →
          (Cpu.withCc (Cpu.withG { c3 with vol := c3.vol ++ [(none, x.getD 0)] } dest (BitVec.ofNat 64 (x.getD 0)))
            (if x.isSome then 0 else 2)).Retires 2 t →
          exec (.sample i) s = .next (s.after t))
        ∧ ((src = 3 ∨ src = 4) → q < 4096 → checkRingBy (ringRead q) q c2 = .ok () c3 → ringRead q c3 = .ok e c4 →
          (let v := if src = 3 then e.durable else e.head
           (Cpu.withCc (Cpu.withG { c4 with vol := c4.vol ++ [(none, v)] } dest (BitVec.ofNat 64 v)) 0).Retires 2 t) →
          exec (.sample i) s = .next (s.after t))))
  ∧ (∀ (i : Issue) (s t : State) (c c1 c2 c3 : Cpu) (o : Opnd) (v pa : Nat) (p : Place) (st : Option Nat),
      let f := (c.b.getG (spBase i.word.opd1)).toNat / 4096 * 4096
      let rc := spBase i.word.opd1
      (Starts 0x800 shapeSetkey i s c → f / 2 ^ 48 = 0 → c.drained.s.ordinary f = true → c.drained.s.populated .load f = true →
        formOpnd i.word.opd2 1 [] c.drained = .ok o c1 → readVal o 8 c1 = .ok v c2 → v % 256 / 32 = 0 → c.drained.s.inVault f = false →
        c2.b.leave ≠ none → reserve ((List.range 64).map (lineOf f + ·)) c2 = .ok () c3 →
        (Cpu.released (Cpu.withCc { c3 with s := c3.s.setKey f (v % 256) (bitAt i.word.len.toNat 0) (bitAt i.word.len.toNat 1) }
          (BitVec.ofNat 2 (c3.s.refChg f)))).Retires 16 t →
        exec (.setkey i) s = .next (s.after t))
      ∧ (Starts 0x801 shapeTestkey i s c → formAddress i.word.opd2 1 c = .ok p c1 →
        (testReach .load p.addr c1 = .ok none c2 → ((c2.withG rc 0).withCc 3).Retires 3 t → exec (.testkey i) s = .next (s.after t))
        ∧ (testReach .load p.addr c1 = .ok (some pa) c2 → testReach .store p.addr c2 = .ok st c3 →
          (let key := c3.b.psw.key.toNat
           let outside := !c3.s.ordinary pa
           let full := (if outside then 0 else c3.s.keyByte pa + c3.s.refChg pa * 2 ^ 8) + b2n outside * 2 ^ 10
           ((c3.withG rc (BitVec.ofNat 64 (if c3.b.psw.sup then full else b2n outside * 2 ^ 10))).withCc
             (if !c3.s.keyPasses pa key false then 2 else if st.isSome && c3.s.keyPasses pa key true then 0 else 1)).Retires 3 t) →
          exec (.testkey i) s = .next (s.after t))))

/-! ## The Grate -/

/-- R302, R313, R52: CTXCMD, while the Grate operates: START makes a stopped or held context ready; STOP stops one that is ready or
waiting and spills a resident one as stopped; EVICT spills; PREEMPT takes a bound context from its flue; CTXSTS.REFUSED says
whether the state allowed it. A resident context that may not leave its bank yet leaves the command BUSY, and a command that comes
while one is BUSY is ignored. While the Grate is Quiesced the command is held. WGCMD sets EN of a wake group's entry, clears it,
or clears its three counts. -/
def Obligations.ContextCommands : Prop :=
(∀ (src : Src) (ctx : BitVec 20) (s : State), s.admits src = true → s.inRst Slot.grt = false →
      s.flag Slot.grt Off.GRT.CTXSTS 0 = true → ∀ a ∈ contextCommands,
      exec (a.1 src ctx) s = .next (s.after (s.setFlag Slot.grt Off.GRT.CTXSTS 2 true)))
  ∧ (∀ (src : Src) (ctx : BitVec 20) (s : State) (b : Bank), s.admits src = true → s.inRst Slot.grt = false →
      s.flag Slot.grt Off.GRT.CTXSTS 0 = false →
      (s.blockOn Slot.grt = false → ∀ a ∈ contextCommands,
        exec (a.1 src ctx) s = .next (s.after (s.parkWrite Slot.grt Off.GRT.CTXCMD (ctx.toNat + a.2 * 2 ^ 24))))
      ∧ (s.blockOn Slot.grt = true → s.resv = [] →
        ((s.st ctx = St.stopped ∨ s.st ctx = St.held) →
          exec (.ctxcmdStart src ctx) s = .next (s.after
            (((({ s with stepping := s.stepping.filter (· != ctx) } : State).standing ctx St.ready).toReady ctx).ctxSts false)))
        ∧ (s.st ctx ≠ St.stopped → s.st ctx ≠ St.held → exec (.ctxcmdStart src ctx) s = .next (s.after (s.ctxSts true)))
        ∧ ((s.st ctx = St.ready ∨ s.st ctx = St.waiting) →
          exec (.ctxcmdStop src ctx) s = .next (s.after (((s.standing ctx St.stopped).toNone ctx).ctxSts false)))
        ∧ (s.st ctx = St.resident → s.bankOf ctx = some b → s.mayLeave b = true →
          (let stop := s.spillQuar b (some (St.stopped, 0))
           let out := s.spillQuar b none
           let off := s.putBank { b with flue := none, due := false }
           (s.halting.contains ctx = false → exec (.ctxcmdStop src ctx) s = .next (s.after (stop.1.ctxSts (!stop.2))))
            ∧ exec (.ctxcmdEvict src ctx) s = .next (s.after (out.1.ctxSts (!out.2)))
            ∧ exec (.ctxcmdPreempt src ctx) s
              = .next (s.after ((if b.flue.isSome then (if b.wait.isSome then off else off.toReady b.ctx) else s).ctxSts false))))
        ∧ (s.st ctx = St.resident → s.bankOf ctx = some b → s.mayLeave b = false →
          (let busy (op : Nat) : State := (({ s with ctxBusy := some (op, b.ctx) } : State).setFlag Slot.grt Off.GRT.CTXSTS 0 true).ctxSts false
           exec (.ctxcmdStop src ctx) s = .next (s.after (busy 2)) ∧ exec (.ctxcmdEvict src ctx) s = .next (s.after (busy 3))
            ∧ exec (.ctxcmdPreempt src ctx) s = .next (s.after (busy 4))))
        ∧ ((s.bankOf ctx = none ∨ s.st ctx ≠ St.resident) → exec (.ctxcmdEvict src ctx) s = .next (s.after (s.ctxSts true))
            ∧ exec (.ctxcmdPreempt src ctx) s = .next (s.after (s.ctxSts true)))
        ∧ (s.st ctx ≠ St.unused →
          exec (.ctxcmdAlarm src ctx) s
            = .next (s.after ((s.devWriteN (s.dirAt ctx + 16) 8 (s.reg Slot.grt Off.GRT.CTXARG)).ctxSts false)))
        ∧ (s.st ctx ≠ St.unused → s.st ctx ≠ St.locked →
          exec (.ctxcmdAttn src ctx) s = .next (s.after ((s.queueAlarm ctx 0x23 0 0 0).1.ctxSts false))
            ∧ exec (.ctxcmdReset src ctx) s = .next (s.after ((s.resetContext ctx).ctxSts false)))
        ∧ (s.st ctx = St.unused → ∀ f ∈ [Instr.ctxcmdStart, Instr.ctxcmdStop, Instr.ctxcmdAlarm, Instr.ctxcmdAttn, Instr.ctxcmdReset],
          exec (f src ctx) s = .next (s.after (s.ctxSts true)))))
  ∧ (∀ (src : Src) (wg : BitVec 12) (s : State), s.obeys src Slot.grt →
      let a := s.wgAt wg.toNat
      let cleared := s.devWrite (a + 8) (zeros 24)
      exec (.wgcmdEnable src wg) s = .next (s.after (s.devWriteN a 8 (putBits (s.ld a 8) 0 1 1)))
      ∧ exec (.wgcmdDisable src wg) s = .next (s.after (s.devWriteN a 8 (putBits (s.ld a 8) 0 1 0)))
      ∧ exec (.wgcmdClearCounts src wg) s = .next (s.after cleared)
      ∧ (s.flag Slot.key Off.KEY.KEYCTL 0 = false → s.flag Slot.key Off.KEY.KEYCTL 1 = false →
        cleared.bytes (a + 8) 24 = zeros 24 ∧ ∀ x, (x < a + 8 ∨ a + 32 ≤ x) → cleared.byte x = s.byte x))

/-- R308 to R311, R316, R325, R326, R340: FLUE_BIND gives an empty flue the context R308 chooses; TIME_SLICE_DUE marks a bound
context whose slice has retired; PREEMPTION takes one that is due, or outranked, off its flue. The time of day at ALARM clears it
and queues alarm 0x22; at the deadline of a WAIT it makes the context ready; an alarm taken at a boundary point clears its record,
ends the wait and enters its handler. The model's readings here: assumption log 7, 8 and 17. -/
def Obligations.SchedulerEvents : Prop :=
(∀ (stove : BitVec 6) (flue : BitVec 2) (ctx : BitVec 20) (s : State) (b : Bank),
      (s.stoveRuns stove = true → s.stoveAsked stove = false → s.boundTo stove flue = none → (s.openTiming stove = true → flue = 0) →
        s.toBind stove = some b →
        exec (.flueBind stove flue) s = .next (s.after ((s.putBank { b with flue := some flue, slice := 0, due := false }).toBound b.ctx)))
      ∧ (let t := s.fld (Slot.hrtB (hearthOf stove)) Off.HRTB.SCHEDCTL 0 16
         s.boundTo stove flue = some b → t ≠ 0 → bitAt (s.sched b.ctx) 3 = true → t * 64 ≤ b.slice →
         exec (.timeSliceDue stove flue) s = .next (s.after (s.putBank { b with due := true })))
      ∧ (s.bankOf ctx = some b → b.flue.isSome = true → s.mayLeave b = true → s.stoveRuns b.stove = true →
        ((b.due = true ∧ s.rival b (fun p => decide (s.prio ctx ≤ p)) = true)
          ∨ (s.flag (Slot.hrtB (hearthOf b.stove)) Off.HRTB.SCHEDCTL 16 = true ∧ (s.ppreVictim b.stove).map (·.ctx) = some ctx)) →
        (let off := s.putBank { b with flue := none, due := false }
         exec (.preemption ctx) s = .next (s.after (if b.wait.isSome then off else off.toReady b.ctx)))))
  ∧ (∀ (ctx : BitVec 20) (s s1 : State) (b : Bank) (r : Record) (cost : Nat) (m : BitVec 5) (d : Word) (env : Env),
      (s.alarm ctx ≠ 0 → s.alarm ctx ≤ s.tod → s.routerQuiet = false →
        exec (.timerAlarm ctx) s = .next (s.after ((s.devWriteN (s.dirAt ctx + 16) 8 0).queueAlarm ctx 0x22 0 0 0).1))
      ∧ (s.bankOf ctx = some b → b.wait = some (.event m d) → bitAt m.toNat 4 = true → d.toNat ≤ s.tod →
        exec (.waitDeadline ctx) s = .next (s.after (s.wakeBank b)))
      ∧ (s.bankOf ctx = some b → s.st ctx = St.resident → s.stoveRuns b.stove = true → s.alarmOf b = some r →
        env.mem = [] → env.evicted = [] → env.excess = [] → s.blockedStores b.ctx = [] → b.boundaryCost = some cost →
        fSt b.ctx (s.block b.ctx + 0x900 + 64 * r.slot) 8 (putBits r.hdr 8 1 0) s = .ok () s1 →
        (let b1 := { b with leave := none, wait := none, wdrawn := none }
         let s2 := match b.leave with
           | some n => (s1.abandon b.ctx).returnLeave (hearthOf b.stove) n
           | none => s1.abandon b.ctx
         exec (.alarmTaken ctx none env) s = .next (s.after
           ((s2.enter b1 r.exc b1.psw (b1.imageAt b1.psw.ia) b1.lis none (cost + 8)).readyUnlessBound b.ctx)))))

/-- R306, R307, R605: SPILL of a context whose groups can be stored drains its stores, writes the spill frame, gives it the state
R605 names, puts its translation root into its directory entry, frees its bank and counts; REFILL loads a ready context into the
bank chosen and counts. The model's readings here: assumption log 12. -/
def Obligations.SpillsAndRefills : Prop :=
∀ (ctx : BitVec 20) (s s1 : State) (b : Bank),
    (s.bankOf ctx = some b → s.st ctx = St.resident → s.stoveRuns b.stove = true → s.mayLeave b = true → s.routerQuiet = false →
      spillFrames b ((s.putBank b).drain b.ctx) = .ok true s1 →
      (let x := (s1.bankOf b.ctx).getD b
       let s2 := s1.setCtxState x.ctx (stateWord x.spillSt.1 x.evpend.toNat 0 + x.spillSt.2)
       let s3 := s2.devWriteN (s2.dirAt x.ctx + 8) 8 (putBits (s2.sched x.ctx) 28 36 (x.ttr.toNat / 4096))
       let s4 := (s3.releaseBank x).orderFor x.spillSt.1 x.ctx
       exec (.spill ctx) s
         = .next (s.after ((s4.incSat (Slot.hrtB (hearthOf x.stove)) Off.HRTB.SPILLS 0 32 1).chargeAway b.ctx b.waitCost))))
    ∧ ∀ (h n : Nat) (stove : BitVec 6) (slot : BitVec 5) (q : Psw),
      s.st ctx = St.ready → s.bankOf ctx = none → s.routerQuiet = false → s.chooseHearth ctx = some h → s.chooseStove h = some n →
      stove = BitVec.ofNat 6 n → slot = BitVec.ofNat 5 (s.freeSlot n) →
      refillFrames ctx stove slot (bitsOf (s.ctxState ctx) 15 4) s = .ok (.ok (b, false, q)) s1 →
      (let s2 := s1.setCtxState ctx (St.resident + stove.toNat * 2 ^ 4 + slot.toNat * 2 ^ 10)
       let s3 : State := { s2 with banks := s2.banks ++ [b], stepping := s2.stepping.filter (· != ctx), fresh := s2.fresh + 1,
                                   charges := SMap.set (fun _ => 0) s2.charges ctx.toNat 0 }
       exec (.refill ctx) s = .next (s.after
         (((s3.incSat (Slot.hrtB (hearthOf stove)) Off.HRTB.REFILLS 0 32 1).breakLoaded ctx q).haltBreak ctx)))

/-! ## Microwords, leave, stores and lines -/

/-- R273, R430: a withdrawn microword is reissued unchanged when its context holds a flue and the wait has ended; the load that
has no completion within CTO completes as timed out. The model's readings here: assumption log 8, 9 and 28. -/
def Obligations.MicrowordsReissue : Prop :=
∀ (stove : BitVec 6) (flue : BitVec 2) (env : Env) (ctx : BitVec 20) (s t : State) (b : Bank) (x : Withdrawn) (c c1 : Cpu) (n : Nat) (e : Exc),
    let body := bodyOf x.op x.word
    let start (dev : List Completion) : Cpu := { Cpu.start s b dev with replay := x.trace, latch := x.latch.getD s.tod }
    b.wdrawn = some x → s.bankOf b.ctx = some b →
    (s.boundTo stove flue = some b → s.stoveRuns stove = true → s.flueShut stove flue = false → b.wait = none →
      (s.issueBank b body x.word env = .ok t → exec (.microwordReissue stove flue env) s = .next (s.after t))
      ∧ (b.psw.rf = false → b.psw.dbg = false → b.resume = 0 → b.saved = none →
        env.wait = none → env.mem = [] → env.evicted = [] → env.excess = [] → env.bare = [] →
        fetchCheck (start env.device) = .ok () c → c.s.blockedStores c.b.ctx = [] → body.fetched x.word c = .ok n c1 → c1.Retires n t →
        exec (.microwordReissue stove flue env) s = .next (s.after t)))
    ∧ (s.bankOf ctx = some b → s.stoveRuns b.stove = true → s.awaitsCompletion b x = true →
      (s.issueBank b body x.word { env with wait := none, device := .timeout :: env.device } = .ok t →
        exec (.completionTimeout ctx env) s = .next (s.after t))
      ∧ (b.psw.rf = false → b.psw.dbg = false → b.resume = 0 → b.saved = none →
        env.mem = [] → env.evicted = [] → env.excess = [] → env.bare = [] →
        fetchCheck (start (.timeout :: env.device)) = .ok () c → c.s.blockedStores c.b.ctx = [] →
        body.fetched x.word c = .error (.exc e) c1 →
        exec (.completionTimeout ctx env) s = .next (s.after (c1.places.takeException c1.ck e (insWord x.op x.word).toNat))))

/-- R249, R438, R440, R441, R543: the oldest buffered store of a context is written into its line, which is then modified; every
byte outside the store reads as before; a modified line that no reservation holds is written back. The next line of a reservation
set is granted when no other set holds it, and the last one wakes its context; the head of a damper queue gets its leave when the
bucket allows, at its cost. The model's readings here: assumption log 22 and 30. -/
def Obligations.StoresAndGrants : Prop :=
(∀ (ctx : BitVec 20) (line : BitVec 42) (found : WriteBack) (s : State) (x : BufStore) (m : ModLine),
      (s.stores.find? (·.ctx == ctx) = some x → (linesTouched x.addr x.bytes.length).any (s.heldByOther ctx) = false →
        (let t := ({ s with stores := s.stores.erase x } : State).drainOne x
         exec (.storeBufferDrain ctx) s = .next (s.after t) ∧ t.stores = s.stores.erase x ∧ t.bytes x.addr x.bytes.length = x.bytes
          ∧ (∀ a, (a < x.addr ∨ x.addr + x.bytes.length ≤ a) → t.byte a = s.byte a)
          ∧ t.dirty.head?.map (fun d => (d.line, d.stove, d.ctx, d.addr)) = some (lineOf x.addr, x.stove, x.ctx, x.addr)))
      ∧ (s.dirty.find? (·.line == line.toNat) = some m → s.lineHeld (line.toNat * 64) 1 = false →
        s.nearStops (line.toNat * 64) 64 = false →
        exec (.lineWriteBack line found) s = .next (s.after (s.writeBack m found))))
  ∧ (∀ (ctx : BitVec 20) (s : State) (r : Resv) (l : Nat) (rest : List Nat) (b : Bank) (i : BitVec 4) (k : Bucket) (q : LeaveReq)
      (qs : List LeaveReq),
      let given : State := { s with
        resv := s.resv.map (fun (x : Resv) => if x.ctx == ctx then { x with want := rest, held := x.held ++ [l] } else x) }
      (s.resv.find? (·.ctx == ctx) = some r → r.want = l :: rest → s.heldByOther ctx l = false →
        (rest ≠ [] → exec (.lineReservationGrant ctx) s = .next (s.after given))
        ∧ (rest = [] → s.bankOf ctx = some b → b.wait = some .reserved →
          exec (.lineReservationGrant ctx) s = .next (s.after (given.wakeBank b))))
      ∧ (s.damper[i.toNat]? = some k → k.queue = q :: qs → s.mantel.granting = true →
        ((q.cost : Int) ≤ k.level ∨ (k.cap < q.cost ∧ (k.cap : Int) ≤ k.level)) →
        exec (.damperLeaveGrant i) s = .next (s.after
          (({ s with damper := s.damper.setIfInBounds i.toNat { k with level := k.level - q.cost, queue := qs } } : State).leaveGranted q))))

/-! ## The care of stoves -/

/-- R345, R370, R372, R512, R513, R565: a dump is made of a locked stove alone; QUAR quarantines a healthy stove and records cause
0xF; an Ember parity error counts its address and stops the stove until its re-kindle, which runs at once when EMB operates and no
other waits. The model's readings here: assumption log 24. -/
def Obligations.StoveCare : Prop :=
∀ (src : Src) (stove : BitVec 6) (upc : BitVec 14) (reload : Reload) (s : State),
    let page := Slot.stv stove.toNat
    let counted (u : Nat) : State := (s.incSat page Off.STV.EMBPAR 0 16 1).setFld page Off.STV.EMBPAR 16 14 u
    let stopped (u : Nat) : State := (((counted u).banks.filter (·.stove == stove)).foldl State.discardWork (counted u))
    (s.takesWrite src Slot.man →
      (s.flag page Off.STV.STATUS 0 = true →
        exec (.manDumpcmd src stove) s = .next (s.after ((s.dump stove).setFlag Slot.man Off.MAN.DUMPCMD 33 false)))
      ∧ (s.flag page Off.STV.STATUS 0 = false →
        exec (.manDumpcmd src stove) s = .next (s.after (s.setFlag Slot.man Off.MAN.DUMPCMD 33 true))))
    ∧ (s.takesWrite src page → s.fld page Off.STV.STATUS 0 2 = 0 →
      exec (.rfcmdQuar src stove) s
        = .next (s.after ((((s.setFld page Off.STV.RFCMD 0 1 1).setFld page Off.STV.RFLAST 0 4 0xF).setReg page Off.STV.RFLADDR 0).quarantine
          stove)))
    ∧ (s.stoveRuns stove = true → (stopped upc.toNat).blockOn Slot.emb = true → (stopped upc.toNat).rekindles = [] →
      exec (.emberParityError stove upc reload) s
        = .next (s.after ((stopped upc.toNat).rekindle { stove := stove, upc := upc, reload := reload })))
    ∧ (s.takesWrite src Slot.emb → (stopped 0).blockOn Slot.emb = true → (stopped 0).rekindles = [] →
      exec (.rekcmd src stove reload) s = .next (s.after ((stopped 0).rekindle { stove := stove, upc := 0, reload := reload })))

/-! ## Register pages -/

/-- R52 to R55: a quiesce request sets QREQ; the acknowledgement sets QACK of a requested block; a release before it withdraws the
request; a release after it clears both, brings the Q fields into force and lets the block go on: its held work is served as the
command ends, and mirroring goes on when CHM1 operates again; a request not acknowledged within its bound is logged. A page that is
held in reset stays Quiesced. The model's readings here: assumption log 24 and 28. -/
def Obligations.QuiesceHandshake : Prop :=
∀ (src : Src) (slot : BitVec 8) (s : State),
    let n := slot.toNat
    let s0 := (s.setFlag n Off.PAGE.CTL 1 false).setFlag n Off.PAGE.STS 0 false
    let s1 := s0.mergeQ (s0.releases n)
    let goesOn (t : State) : State := if s.blockOn Slot.chm1 = false ∧ t.blockOn Slot.chm1 = true then t.mirrorResume else t
    quiescesSlot n = true →
    (s.admits src = true →
      exec (.quiesceRequest src slot) s = .next (s.after (s.setFlag n Off.PAGE.CTL 1 true)))
    ∧ (s.qreq n = true →
      exec (.quiesceAck slot) s = .next (s.after (s.setFlag n Off.PAGE.STS 0 true))
      ∧ (s.flag n Off.PAGE.STS 0 = false →
        exec (.quiesceTimeout slot) s = .next (s.after (s.ashLog 0x01 n none none (regAddr n 0) (s.quiesceBound n)))
        ∧ (s.admits src = true →
          exec (.quiesceRelease src slot) s = .next (s.after (s.setFlag n Off.PAGE.CTL 1 false))))
      ∧ (s.admits src = true → s.flag n Off.PAGE.STS 0 = true → s.flag n Off.PAGE.STS 4 = false →
        (pageKind n = some .fxp →
          exec (.quiesceRelease src slot) s = .next (s.after (goesOn (State.modeChanged s0 s1 n))))
        ∧ (pageKind n = some .emb → exec (.quiesceRelease src slot) s = .next (s.after (goesOn s1.runRekindles)))
        ∧ (pageKind n = some .hrtA → exec (.quiesceRelease src slot) s = .next (s.after (goesOn (State.hearthGoesOn s0 s1 n))))
        ∧ (pageKind n ∈ [some .sec, some .nmc, some .chm0, some .chm1, some .bel, some .grt, some .stv] →
          exec (.quiesceRelease src slot) s = .next (s.after (goesOn s1)))))

/-- R34, R39, R45, R50, R531: an aligned register read returns the value the register shows and clears its read-clear fields; a
write to a slot without a page has no effect; a write by the Mantel core that does not hold mastership is refused, counted and
logged; SCRATCH takes what is written. An access that is not aligned faults by name. R440, R390, R48: WBINV of a Quiesced hearth
writes back its modified lines and empties its cache, and faults by name on one that is not; FKTEN changes in the boot window,
after every cached far line is written back and dropped, and later the write is refused as LATE. R52, R248: a command to a block that is
Quiesced, or that would write a line that a reservation holds, is held, and its register is BUSY; one to a register that is BUSY is
ignored. The faults are the model's choice: assumption log 44; log 31 for WBINV. -/
def Obligations.RegisterAccesses : Prop :=
  (∀ (src : Src) (addr : BitVec 20) (v : Word) (s : State),
      let n := addr.toNat / 4096
      let o := addr.toNat % 4096
      (addr.toNat % 8 ≠ 0 → exec (.registerWrite src addr v) s = .fault .registerAccess ∧ exec (.rcRead addr) s = .fault .registerAccess)
      ∧ (addr.toNat % 8 = 0 →
        exec (.rcRead addr) s = .next (s.after
            { s.clearRc n o with out := (s.clearRc n o).out ++ [.regRead addr (BitVec.ofNat 64 (s.regRead n o))] })
        ∧ (pageKind n = none → exec (.registerWrite src addr v) s = .next (s.after s))
        ∧ (pageKind n ≠ none → s.reachesRegs src = true → coreOf src ≠ 0 → s.holder ≠ coreOf src → ¬(n = Slot.man ∧ o = Off.MAN.CLAIM) →
          exec (.registerWrite src addr v) s = .next (s.after (s.refuseWrite (coreOf src) n o)))
        ∧ (pageKind n ≠ none → s.admits src = true → o = Off.PAGE.SCRATCH →
          exec (.registerWrite src addr v) s = .next (s.after (s.setFld n Off.PAGE.SCRATCH 0 64 v.toNat)))))
  ∧ (∀ (src : Src) (hearth : BitVec 3) (on : Bool) (s : State),
      (s.takesWrite src (Slot.hrtA hearth.toNat) → ∀ found,
        (s.quiesced (Slot.hrtA hearth.toNat) = true →
          exec (.cachectlWbinv src ⟨hearth, found⟩) s = .next (s.after (s.wbinv hearth.toNat found)))
        ∧ (s.quiesced (Slot.hrtA hearth.toNat) = false → exec (.cachectlWbinv src ⟨hearth, found⟩) s = .fault .quiesceField))
      ∧ (s.takesWrite src Slot.key → s.flag Slot.key Off.KEY.KEYCTL 1 ≠ on →
        (s.boot = true → exec (.fktenChange src on) s = .next (s.after
          (((s.dropCopies (fun l => isFar (l * 64))).setFlag Slot.key Off.KEY.KEYCTL 1 on).farKeysLost)))
        ∧ (s.boot = false → exec (.fktenChange src on) s = .next (s.after
          (s.badWrite Slot.key Off.KEY.KEYCTL (putBits (s.reg Slot.key Off.KEY.KEYCTL) 1 1 (b2n on)) 0 0x02)))))
  ∧ (∀ (src : Src) (queue : BitVec 19) (first last : BitVec 10) (chan : BitVec 6) (wg : BitVec 12) (index : BitVec 32) (s : State),
      ∀ a ∈ blockCommands src queue first last chan wg index, let slot := a.2.1; let off := a.2.2.1; let v := a.2.2.2
      s.takesWrite src slot →
      (s.cmdBusy slot off = true → exec a.1 s = .next (s.after (s.ignoreWrite slot off)))
      ∧ (s.cmdBusy slot off = false → (s.blockOn slot = false ∨ s.writesHeld (s.act slot off v {}) = true) →
        exec a.1 s = .next (s.after (s.parkWrite slot off v))))

/-! ## Chimney -/

/-- R442 to R446: a frame that is intact, of a legal length and for the port is counted and steered; one whose FCS is bad, too
short or long, or for another address is counted and dropped; a PAUSE or PFC frame that PFCCTL heeds is counted and holds
transmission; while CHM0 is Quiesced a frame is counted and dropped, and while CHM1 is, an accepted frame is held. R448, R442:
RULECMD copies the rules of a range, or writes their hit counts, until one fails; STATSEL.CLR clears the counter it selects; a
port's link that comes up or goes down shows in PORTSTS, and going down sets LINKDN and drops what waited to leave; PPS_IN latches
the time of day. A transfer that would write a line that a reservation holds waits (R248). The model's readings here: assumption
log 34, 48 and 64. -/
def Obligations.FramesRulesAndPorts : Prop :=
  (∀ (port : BitVec 3) (fcsOk : Bool) (bytes : List Byte) (s : State),
      let p := port.toNat
      let n := bytes.length + 4
      let s1 := (s.countPort p 0 1).countPort p 1 n
      let f : HeldFrame := { port := port, tod := BitVec.ofNat 64 s1.rxStamp, bytes := bytes }
      (s.portMade p = false → exec (.frameReceive port fcsOk bytes) s = .next (s.after s))
      ∧ (s.portMade p = true → s.blockOn Slot.chm0 = false →
        exec (.frameReceive port fcsOk bytes) s = .next (s.after (s.countPort p 4 1)))
      ∧ (s.portMade p = true → s.blockOn Slot.chm0 = true →
        ((n < 64 ∨ 9216 < n) → exec (.frameReceive port fcsOk bytes) s = .next (s.after (s.countPort p 0xD 1)))
        ∧ (64 ≤ n → n ≤ 9216 →
          exec (.frameReceive port false bytes) s = .next (s.after (s.countPort p 2 1))
          ∧ (∀ t, s1.pauseFrame p bytes = some t →
            exec (.frameReceive port true bytes) s = .next (s.after (s.unlessHeld (t.countPort p 5 1))))
          ∧ (s1.pauseFrame p bytes = none →
            (s1.macAccepts p bytes = false → exec (.frameReceive port true bytes) s = .next (s.after (s1.countPort p 3 1)))
            ∧ (s1.macAccepts p bytes = true → exec (.frameReceive port true bytes) s
                = .next (s.after (s.unlessHeld (if s1.blockOn Slot.chm1 then s1.steer f else s1.holdFrame f))))))))
  ∧ (∀ (src : Src) (first last : BitVec 10) (port : BitVec 3) (cnt : BitVec 4) (s : State),
      let is := (List.range (last.toNat + 1 - first.toNat)).map (first.toNat + ·)
      let s1 := s.setFlag Slot.chm1 Off.CHM1.RULECMD 33 false
      (s.obeys src Slot.chm1 → s.flag Slot.chm1 Off.CHM1.RULECMD 32 = false → first.toNat ≤ last.toNat →
        exec (.rulecmdLoad src first last) s = .next (s.after (s1.ruleLoop State.loadRule is))
          ∧ exec (.rulecmdDump src first last) s = .next (s.after (s1.ruleLoop State.dumpRule is)))
      ∧ (s.takesWrite src Slot.chm0 →
        let sel := (s.setFld Slot.chm0 Off.CHM0.STATSEL 0 3 port.toNat).setFld Slot.chm0 Off.CHM0.STATSEL 8 4 cnt.toNat
        exec (.statselClr src port cnt) s = .next (s.after (sel.clearStat port.toNat cnt.toNat))
          ∧ (sel.clearStat port.toNat cnt.toNat).statVal = 0)
      ∧ (s.portMade port.toNat = true → exec (.portLinkUp port) s
          = .next (s.after ((s.setFlag Slot.chm0 Off.CHM0.PORTSTS port.toNat true).mirrorStarts (· == port.toNat))))
      ∧ (let down := (s.setFlag Slot.chm0 Off.CHM0.PORTSTS port.toNat false).setErr Slot.chm0 Off.CHM0.CHM0ERR port.toNat
         s.portMade port.toNat = true → (∀ i < 8, down.msetOn i = false) →
         exec (.portLinkDown port) s = .next (s.after { down with
           outbuf := down.outbuf.filter (·.port.toNat != port.toNat), pauses := down.pauses.filter (·.port.toNat != port.toNat) }))
      ∧ exec .ptpPpsIn s = .next (s.after (if s.flag Slot.chm0 Off.CHM0.PTPCTL 1 then s.setReg Slot.chm0 Off.CHM0.PPSIN s.tod else s))
      ∧ exec .ptpPpsOut s
        = .next (s.after { s with mantel := { s.mantel with ppsOut := s.flag Slot.chm0 Off.CHM0.PTPCTL 0 } }))

/-- R453, R462 to R464: QCMD enables, disables, flushes, releases and restarts a queue; a doorbell moves the producer or the tail
of a queue that software owns, and is held while CHM1 is Quiesced or while it would write a line that a reservation holds (R248); the
next send descriptor is read and what it asks for is sent: a frame or a UD message is transmitted and the descriptor completed, an RC
message goes to the transport, and one that is refused completes with its STATUS. A transfer that would write a line that a
reservation holds waits (R248). The model's readings here: assumption log 34, 48 and 69. -/
def Obligations.QueueCommands : Prop :=
∀ (src : Src) (queue : BitVec 19) (index : BitVec 32) (s : State),
    let q := queue.toNat
    let at' := s.queueAt q
    let m := leNat (s.bytes at' 128)
    let s1 := (s.useQueue q).1
    let v := (s.useQueue q).2
    let a := s.reg Slot.chm1 Off.CHM1.QARG
    (s.obeys src Slot.chm1 → s.flag Slot.chm1 Off.CHM1.QCMD 32 = false →
      (s.queues.any (·.1 == q) = false → s.nearPop at' = true → s.anyPoison at' 128 = false → s.keyLost at' = false →
        qActive m = false → (s.devRead at' 128).queueOk q m = true →
        exec (.qcmdEnable src queue) s = .next (s.after (((s.devRead at' 128).cacheQueue q (putBits m 127 1 1)).qcmdSts false)))
      ∧ (qActive v = true →
        exec (.qcmdFlush src queue) s = .next (s.after ((s1.storeQueue q v).qcmdSts false))
        ∧ exec (.qcmdDisable src queue) s = .next (s.after
          ((((((({ s1 with closing := some q } : State).setQueue q (putBits v 127 1 0)).setFlag Slot.chm1 Off.CHM1.QCMD 32 true).qcmdSts
            false).sendMany q (if qDexp v = 0 then 0 else seqSub (qTxProd v) (qTxCons v)))).finishClose q)))
      ∧ (qSizeExp v ≠ 0 → s1.isHeader v a (qSlots v) (qRxTail v) = true → s1.hdrFlags a &&& 6 = 2 →
        exec (.qcmdRelease src queue) s = .next (s.after ((s1.freeMessage q a).qcmdSts false)))
      ∧ (qActive v = true → qRMode v = 1 →
        let s2 := (s1.setQueue q (putBits v 580 1 0)).qcmdSts false
        s2.sideOf q = none → exec (.qcmdRestart src queue) s = .next (s.after s2)))
    ∧ (let send := BitVec.ofNat 64 index.toNat
       let tail := BitVec.ofNat 64 (index.toNat + 2 ^ 32)
       let door := 0xF30000000000 + 8 * q
       (s.blockOn Slot.chm1 = false →
        exec (.doorbellSendProducer queue index) s = .next (s.after (s.park (.door door send)))
          ∧ exec (.doorbellReceiveTail queue index) s = .next (s.after (s.park (.door door tail))))
       ∧ (s.blockOn Slot.chm1 = true → qActive v = true → ∀ x,
        (qDexp v ≠ 0 → qTxOwn v = true → extendIndex (qTxProd v) index.toNat = some x → seqSub x (qTxCons v) ≤ 2 ^ qDexp v →
          let t := s1.setQueue q (qPut v 0x30 8 x)
          exec (.doorbellSendProducer queue index) s = .next (s.after (if s.writesHeld t then s.park (.door door send) else t)))
        ∧ (qSizeExp v ≠ 0 → qOwner v = true → extendIndex (qRxTail v) index.toNat = some x →
          seqSub x (qRxTail v) ≤ seqSub (qRxProd v) (qRxTail v) →
          let t := s1.setQueue q (qPut v 0x20 8 x)
          exec (.doorbellReceiveTail queue index) s = .next (s.after (if s.writesHeld t then s.park (.door door tail) else t)))))
    ∧ (let n := (s1.rcOf q).waiting
       let i := (qTxCons v + n) % 2 ^ 64
       let d := s1.descFound v (qDescAt v i)
       let read := s1.sourceRead (txKey v) (qDescAt v i) 32
       let s2 := read.readParts (read.descParts v d)
       s.chimneyOn = true → qActive v = true → qDexp v ≠ 0 → i ≠ qTxProd v → s1.lineStatus (txKey v) (lineOf (qDescAt v i)) = 0 →
       s1.mayGo v (s1.formSending q v d) = true →
        (∀ port f, s1.formSending q v d = .frame port f → exec (.sendDescriptor queue) s
          = .next (s.after (s.unlessHeld (((s2.transmit port f).completeDesc q i 0 s2.txStamp).finishClose q))))
        ∧ (∀ port f, s1.formSending q v d = .ud port f → exec (.sendDescriptor queue) s
          = .next (s.after (s.unlessHeld
              ((((s2.transmit port f).setQueue q (putBits v 640 24 (qPsnSend v + 1))).completeDesc q i 0 s2.txStamp).finishClose q))))
        ∧ (∀ bs, s1.formSending q v d = .rc bs → exec (.sendDescriptor queue) s
          = .next (s.after (s.unlessHeld (s2.rcSend q (.desc (BitVec.ofNat 64 i)) bs))))
        ∧ (∀ st, s1.formSending q v d = .refused st → n = 0 → exec (.sendDescriptor queue) s
          = .next (s.after (s.unlessHeld ((s2.completeDesc q i st 0).finishClose q)))))

/-- R466, R467: a RoCE packet of no queue pair is counted and dropped; a whole RC SEND of the expected PSN is placed and
acknowledged; a UD SEND with its Q_Key is placed; an RDMA WRITE of one packet to an allowed region is written and acknowledged; an
RDMA READ of an allowed region is answered in packets; an acknowledgement completes what it covers; a timeout sends everything
again until RETRY is reached. While CHM0 is Quiesced a packet is counted and dropped; while CHM1 is, it waits in the input buffer of
its port (R445). A transfer that would write a line that a reservation holds
waits (R248). The model's readings here: assumption log 35, 36, 48 and 62. -/
def Obligations.RocePackets : Prop :=
∀ (h : RoceHead) (x : RoceSend) (w : RoceWrite) (va : Word) (rkey len : BitVec 32) (y : BitVec 8) (p : BitVec 16) (s : State),
    let qp := h.qp.toNat
    let psn := h.psn.toNat
    let s1 := (s.roceQp h).1
    let kinds : List (Instr × RoceKind) := [(.roceSendReceive h x, .send x), (.rdmaWriteReceive h w, .write w),
      (.rdmaReadReceive h va rkey len, .read va rkey len), (.roceAckReceive h y, .ack y)]
    (s.blockOn Slot.chm0 = false → ∀ k ∈ kinds, exec k.1 s = .next (s.after (s.countPort h.port.toNat 4 1)))
    ∧ (s.blockOn Slot.chm0 = true → s.blockOn Slot.chm1 = false → ∀ k ∈ kinds,
      exec k.1 s = .next (s.after (s.holdWork h.port.toNat (.packet ⟨h, k.2⟩))))
    ∧ (s.chimneyOn = true → (s.roceQp h).2 = none → ∀ k ∈ kinds, exec k.1 s = .next (s.after (s.unlessHeld s1)))
    ∧ (s.chimneyOn = true → ∀ v, (s.roceQp h).2 = some v → qErr v = false →
      (qRMode v = 1 → psnOrder v psn = .expected → x.first = true → x.last = true → x.payload.length ≤ 65535 →
        (qSizeExp v ≠ 0 → s1.mirrorNames qp = false → 64 + x.payload.length ≤ 2 ^ qSizeExp v) → ∀ s2,
        s1.placeSend h x x.payload = (s2, .placed) →
        exec (.roceSendReceive h x) s
          = .next (s.after (s.unlessHeld (((s2.putRc { s2.rcOf qp with part := none }).psnAdvance qp 1).respond v psn 0))))
      ∧ (∀ u, qRMode v ≠ 1 → x.ud = some u → u.qkey.toNat = qQKey v →
        exec (.roceSendReceive h x) s = .next (s.after (s.unlessHeld (s1.place qp
          { stored := u.frame, doff := u.doff.toNat, flags := 16 + b2n x.imm.isSome * 32, port := h.port.toNat, tod := s1.rxStamp,
            imm := (x.imm.map (·.toNat)).getD 0, srcQp := u.srcQp.toNat }).1)))
      ∧ (qRMode v = 1 → psnOrder v psn = .expected → w.first = true → w.last = true → w.payload.length ≤ w.len.toNat →
        s1.regionOk v w.va.toNat w.len.toNat w.rkey.toNat true = true →
        exec (.rdmaWriteReceive h w) s = .next (s.after (s.unlessHeld ((((s1.devWrite w.va.toNat w.payload).putRc
          { s1.rcOf qp with write := none }).psnAdvance qp 1).respond v psn 0))))
      ∧ (qRMode v = 1 → psnOrder v psn = .expected → s1.regionOk v va.toNat len.toNat rkey.toNat false = true →
        (len ≠ 0 → s1.anyPoison va.toNat len.toNat = false) →
        let ps := mtuPieces len.toNat (qPmtu v) (s1.bytes va.toNat len.toNat)
        exec (.rdmaReadReceive h va rkey len) s = .next (s.after
          (s.unlessHeld (((s1.devRead va.toNat len.toNat).emitAll v 0x0D 0x10 psn true ps 0).psnAdvance qp ps.length))))
      ∧ (qRMode v = 1 →
        (y.toNat < 32 → exec (.roceAckReceive h y) s = .next (s.after (s.unlessHeld (s1.rcAcked qp psn))))
        ∧ (y = 0x60 →
          exec (.roceAckReceive h y) s = .next (s.after (s.unlessHeld ((s1.rcAcked qp ((psn + 2 ^ 24 - 1) % 2 ^ 24)).rcResend qp))))))
    ∧ (let r := s.rcOf p.toNat
       r.sent ≠ [] → s.blockOn Slot.chm1 = true → exec (.rcAckTimeout p) s = .next (s.after
         (s.unlessHeld (if s.fld Slot.chm1 Off.CHM1.RCCTL 16 3 ≤ r.tries + 1 then s.rcFail p.toNat
          else (s.putRc { r with tries := r.tries + 1 }).rcResend p.toNat))))

/-! ## Mirroring -/

/-- R472: a session starts when its queue pair is ready, and asks for leave; HELLO whose key is the enrolled one makes the shadow
ask for leave; HELLO-REPLY and CONFIRM whose key and signature hold establish the session, the primary sending CONFIRM and the
shadow RESUME; a signature that fails closes it. CLOSE and a time without progress lose the peer (R474). R264, R473, R474, R476:
RESUME that names a place the primary's chain confirms marks the ring and its acknowledgement, and any other breaks the chain; the
shadow verifies and appends RECORDS in order and acknowledges them; ACK of a sent record whose chain agrees moves the peer's
acknowledgement on; the primary sends up to 32 committed records of a ring when none waits. While CHM0 is Quiesced a message is
counted and dropped, and while CHM1 is, it waits in the input buffer of its port (R445). A transfer that would write a line that a
reservation holds waits (R248). The model's readings here: assumption log 37, 48 and 68. -/
def Obligations.MirrorMessages : Prop :=
  (∀ (set : BitVec 3) (peer : Bool) (m : MirrorHead) (na nb : BitVec 256) (pub eph sig : BitVec 512) (reason : BitVec 32) (s : State),
      let i := set.toNat
      let q := m.qp.toNat
      let k := m.ctr.toNat
      let kinds : List (Instr × MirrorMsg) := [(.hello m na pub eph, .hello na pub eph), (.helloReply m nb pub eph sig, .helloReply nb pub eph sig),
        (.confirm m sig, .confirm sig), (.close m reason, .close reason)]
      (s.blockOn Slot.chm0 = false → ∀ a ∈ kinds, exec a.1 s = .next (s.after (s.countPort (qPort (s.queue q)) 4 1)))
      ∧ (s.blockOn Slot.chm0 = true → s.blockOn Slot.chm1 = false → ∀ a ∈ kinds,
        exec a.1 s = .next (s.after (s.holdWork (qPort (s.queue q)) (.mirror m a.2))))
      ∧ (s.blockOn Slot.chm1 = true → s.setNames i peer = true → s.setShadow i = false → s.qpReady (s.setQp i peer) = true →
        s.session? i peer = none → s.lost.contains (2 * i + b2n peer) = false →
        exec (.mirrorSessionStart set peer) s
          = .next (s.after ((s.putSession (Session.new i peer .wantHello)).askLeave (.handshake (BitVec.ofNat 3 i) peer))))
      ∧ (s.chimneyOn = true → ∀ j side, s.sideOf q = some (j, side) → s.setShadow j = true → s.peerLive j side = false → bitAt k 63 = false →
        let x : Session := { Session.new j side .wantReply with na := na, ea := eph, pub := pub, rx := k % 2 ^ 63 + 1 }
        let s1 : State := { s.putSession x with lost := s.lost.filter (· != 2 * j + b2n side) }
        s1.peerKeyOk j side pub = true →
        exec (.hello m na pub eph) s = .next (s.after (s1.askLeave (.handshake (BitVec.ofNat 3 j) side))))
      ∧ (s.chimneyOn = true → ∀ s1 x, s.receiveMsg q k true = (s1, some x) →
        (x.phase = .helloSent →
          let x' : Session := { x with nb := nb, eb := eph, pub := pub }
          let s2 := (s1.sign x'.confirmDigest).1.mirrorSend x' 3 0 0 0 (s1.sign x'.confirmDigest).2 false
          s1.peerKeyOk x.set.toNat x.peer pub = true → sm2Verify (vecBytes 64 pub) x'.replyDigest (vecBytes 64 sig) = true →
          ∀ z, s2.session? x.set.toNat x.peer = some z →
          exec (.helloReply m nb pub eph sig) s = .next (s.after (s.unlessHeld (s2.establish { z with phase := .confirmed } eph))))
        ∧ (x.phase = .replySent →
          let ok := sm2Verify (vecBytes 64 x.pub) x.confirmDigest (vecBytes 64 sig)
          exec (.confirm m sig) s
            = .next (s.after (s.unlessHeld (if ok then (s1.establish x x.ea).sendResumes x.set.toNat else s1.failSession x)))))
      ∧ (s.chimneyOn = true → ∀ s1 x, s.receiveMsg q k m.tagOk = (s1, some x) →
        exec (.close m reason) s = .next (s.after (s.unlessHeld (s1.peerLost x.set.toNat x.peer 5))))
      ∧ (∀ x, s.session? i peer = some x → x.phase = .live → s.blockOn Slot.chm1 = true →
        x.marks.any (fun n => decide (0 < seqDiff n.sent.toNat (s.ackOf n.ring.toNat peer))) = true →
        exec (.mirrorLossTimeout set peer) s = .next (s.after (s.unlessHeld (s.peerLost i peer 3)))))
  ∧ (∀ (set : BitVec 3) (peer : Bool) (m : MirrorHead) (ring : BitVec 12) (seq : Word) (chain : BitVec 256) (recs : List (BitVec 1024))
      (s s1 : State) (x : Session) (n : RingMark), s.chimneyOn = true →
      let i := x.set.toNat
      let r := ring.toNat
      let c := vecBytes 32 chain
      let e := s1.ring r
      let s2 := s1.devRead (s1.ringAt r) 128
      (s.receiveMsg m.qp.toNat m.ctr.toNat m.tagOk = (s1, some x) → x.phase = .live →
        (s2.setShadow i = false → s1.setShadow i = false →
          (let prev := seqSub seq.toNat 1
           let ok := e.mirrors i x.peer && ((seq.toNat == e.head && c == e.chain)
            || (decide (seqSub prev e.tail < seqSub e.head e.tail) && c == s2.chainAt e prev))
           exec (.resume m ring seq chain) s = .next (s.after
            (s.unlessHeld (if ok then (s2.putSession (x.setMark ring seq.toNat)).noteAck r x.peer seq.toNat else s2.chainBreak x r (e.slot prev)))))
          ∧ (e.mirrors i x.peer = true → x.mark ring = some n → seqDiff seq.toNat n.sent.toNat < 0 →
            0 ≤ seqDiff seq.toNat e.tail → s2.chainAt e seq.toNat = c →
            let s3 := s2.devRead (e.slot seq.toNat + 96) 32
            0 < seqDiff (seq.toNat + 1) (s3.ackOf r x.peer) →
            exec (.ack m ring seq chain) s = .next (s.after (s.unlessHeld (s3.noteAck r x.peer (seq.toNat + 1)))))))
      ∧ (∀ j side, s.sideOf m.qp.toNat = some (j, side) → s.setShadow j = true →
        let b := s.ring r
        let rs := (recs.take 32).map (vecBytes 128)
        b.en = true → b.npeer = 0 → b.mset = j → seqDiff seq.toNat b.head ≤ 0 →
        s.shadowFull r seq.toNat rs.length = false → s.receiveMsg m.qp.toNat m.ctr.toNat m.tagOk = (s1, some x) → x.phase = .live →
        (let s2 := (s1.shadowRecords r seq.toNat rs).1
         (s1.shadowRecords r seq.toNat rs).2 = none →
         exec (.records m ring seq recs) s = .next (s.after
           (s.unlessHeld (s2.mirrorSend x 0x11 r 0 (seqSub (s2.ring r).head 1) (s2.ring r).chain false))))
        ∧ (∀ a, (s1.shadowRecords r seq.toNat rs).2 = some a →
          exec (.records m ring seq recs) s = .next (s.after (s.unlessHeld ((s1.shadowRecords r seq.toNat rs).1.chainBreak x r a)))))
      ∧ (let b := s.ring r
         let g := min 32 (seqSub b.head n.sent.toNat)
         let slots := (List.range g).map (fun j => b.slot (n.sent.toNat + j))
         let looked := s.devRead (s.ringAt r) 128
         s.session? set.toNat peer = some x → x.mark ring = some n → x.phase = .live → s.setShadow set.toNat = false →
         b.mirrors set.toNat peer = true → s.halted.contains ring = false → g ≠ 0 →
         s.recordsWaiting (s.setQp set.toNat peer) ring = false → slots.any (fun a => looked.anyPoison a 128 || looked.keyLost a) = false →
         exec (.mirrorRecordsSend set peer ring) s = .next (s.after (s.unlessHeld
           ((slots.foldl (fun s a => s.devRead a 128) looked).mirrorSend (x.setMark ring (n.sent.toNat + g)) 0x10 r g n.sent.toNat
             (slots.flatMap (fun a => looked.bytes a 128)) true)))))

/-! ## Bellows -/

/-- R480 to R482: CHCMD ENABLE makes a channel active whose table entry passes its checks, and DISABLE an active one inactive; a
doorbell that keeps within the ring moves PROD on. R484, R489, R491, R492: a Bellows command works on the descriptor of its
channel when it is of that operation: a long one asks for leave first, and otherwise up to the given lines are done; a descriptor
that has ended well is completed: ARG, then CTL with DONE, CONS moved on and the event sent. The model's readings here: assumption
log 22 and 38. -/
def Obligations.BellowsCommands : Prop :=
  (∀ (src : Src) (chan : BitVec 6) (index : BitVec 32) (s : State) (k : Chan), s.obeys src Slot.bel →
      let a := s.chanAt chan.toNat
      let ctl := s.ld (a + 8) 8
      let rbase := s.ld a 8
      let prod := s.ld (a + 0x10) 8
      let cons := s.ld (a + 0x18) 8
      let dexp := bitsOf ctl 0 5
      let new : Chan := { chan := chan, rbase := BitVec.ofNat 64 rbase, dexp := dexp, key := BitVec.ofNat 4 (bitsOf ctl 5 4),
                          prod := BitVec.ofNat 64 prod, cons := BitVec.ofNat 64 cons, work := none }
      let idle := s.flag Slot.bel Off.BEL.CHCMD 32 = false
      (idle → s.nearPop a = true → s.poisoned a = false → bitsOf ctl 9 54 = 0 → s.ld (a + 0x20) 32 = 0 → 4 ≤ dexp → dexp ≤ 16 →
        rbase % (2 ^ dexp * 64) = 0 → s.nearRange rbase (2 ^ dexp * 64) = true → cons ≤ prod → prod ≤ cons + 2 ^ dexp →
        exec (.chcmdEnable src chan) s = .next (s.after
          (((({ s with chans := s.chans.filter (·.chan != chan) ++ [new] } : State).devRead a 64).devWrite (a + 8)
            (leBytes 8 (putBits ctl 63 1 1))).chcmdSts false)))
      ∧ (idle → s.chan chan = some k → k.work = none →
        exec (.chcmdDisable src chan) s = .next (s.after (((s.leaveDropped (.bellows chan)).chanOff k).chcmdSts false)))
      ∧ (s.chan chan = none → (idle → exec (.chcmdDisable src chan) s = .next (s.after (s.chcmdSts true)))
          ∧ exec (.belDoorbell src chan index) s = .next (s.after s.belDbErr))
      ∧ (∀ v, s.chan chan = some k → extendIndex k.prod.toNat index.toNat = some v → seqSub v k.cons.toNat ≤ 2 ^ k.dexp →
        exec (.belDoorbell src chan index) s = .next (s.after (s.putChan { k with prod := BitVec.ofNat 64 v }))))
  ∧ (∀ (chan : BitVec 6) (limit : Option Nat) (s s1 : State) (k : Chan) (w : BelWork), s.belStart chan = (s1, some (k, w)) →
      (∀ a ∈ bellowsOps, w.op = a.2 →
        (w.needsLeave = true →
          exec (a.1 chan limit) s = .next (s.after (s.unlessHeld ((s1.putChan { k with work := some w }).askLeave (.bellows chan)))))
        ∧ (w.needsLeave = false →
          let r := s1.belRun k.key w (limit.getD (w.total + 1))
          exec (a.1 chan limit) s = .next (s.after (s.unlessHeld (r.1.putChan { k with work := some r.2 })))))
      ∧ (let a := k.descAt k.cons.toNat
         w.stop = some 0 → s1.nearPop a = true → s1.keyLost a = false → keyAllows (s1.keyByte a) k.key.toNat true = true →
         let s2 := ((s1.devWrite (a + 0x20) w.result).devWrite a (leBytes 8 (putBits (putBits (s1.ld a 8) 5 1 1) 16 8 0))).putChan
           { k with cons := k.cons + 1, work := none }
         exec (.belDescriptorComplete chan) s = .next (s.after (s.unlessHeld (match w.event with
           | some ctx => s2.deliverCtx 2 ctx
           | none => s2)))))

/-! ## The security engine -/

/-- R498, R500 to R502: an operation whose block is refused ends with the STATUS that refuses it; VERIFY and QUOTE ask for leave;
another is performed; completion writes STATUS and DONE and clears BUSY, with SECERR.OPERR for an error. A health test that fails
clears HEALTHY, counts and logs, and one that passes sets HEALTHY. What would write a line that a reservation holds waits (R248). The model's readings here: assumption log 22 and 39. -/
def Obligations.EngineOperations : Prop :=
∀ (s : State) (x : SecOp),
    let blk := x.block.toNat
    (s.secOp = some x → s.blockOn Slot.sec = true →
      (x.done = none → ∀ a ∈ engineOps, s.secOpcode blk = a.2 →
        (s.secRefusal blk ≠ 0 →
          let s' := if s.secRefusal blk = 3 then s.secLost blk else s
          exec a.1 s = .next (s.after { s' with secOp := some { x with done := some (BitVec.ofNat 8 (s.secRefusal blk)) } }))
        ∧ (s.secRefusal blk = 0 → (a.2 = 2 ∨ a.2 = 3) → x.leave = false → exec a.1 s = .next (s.after (s.askLeave .engine)))
        ∧ (s.secRefusal blk = 0 → (a.2 = 2 ∨ a.2 = 3 → x.leave = true) →
          exec a.1 s = .next (s.after (s.unlessHeld { (s.secPerform blk).1 with
            secOp := some { x with done := some (BitVec.ofNat 8 (s.secPerform blk).2) } }))))
      ∧ (∀ st, x.done = some st → blk % 64 = 0 → s.nearBuf blk 64 = true →
        let s1 := s.devWrite blk (leBytes 8 (putBits (putBits (s.ld blk 8) 8 8 st.toNat) 16 1 1))
        let s2 := ({ s1 with secOp := none } : State).setFlag Slot.sec Off.SEC.OPSTS 0 false
        exec .secOpComplete s
          = .next (s.after (s.unlessHeld (if st = 0 ∨ st = 0x10 then s2 else s2.setErr Slot.sec Off.SEC.SECERR 1)))))
    ∧ (let s1 := (s.setFlag Slot.sec Off.SEC.RNGSTS 0 false).incSat Slot.sec Off.SEC.RNGSTS 16 32 1
       exec .rngHealthFail s = .next (s.after
         ((s1.setErr Slot.sec Off.SEC.SECERR 0).ashLog 0x70 Slot.sec none none 0 (s1.fld Slot.sec Off.SEC.RNGSTS 16 32))))
    ∧ exec .rngHealthPass s = .next (s.after (s.setFlag Slot.sec Off.SEC.RNGSTS 0 true))

/-- R521 to R525: STAGE of a well-formed block whose result is allowed draws a nonce, keeps the block and its digest, sets EXPIRY
and enters STAGED; SIGN with leave verifies an officer's signature and moves on to ONE or TWO; COMMIT in TWO puts the stored
change in force; CLEAR and the expiry discard it. The model's readings here: assumption log 22 and 39. -/
def Obligations.TwoPartyCommit : Prop :=
∀ (src : Src) (fault : StoreFault) (s : State) (x : Staged) (items : List Item),
    let s0 := s.tpcErr 0
    let a := s0.reg Slot.tpc Off.TPC.ARG
    let h1 := s0.devRead a 64
    let n := h1.ld a 8
    let h := h1.devRead a (64 + 64 * n)
    let bs := h.bytes a (64 + 64 * n)
    (s.takesWrite src Slot.tpc →
      (s0.tpcBusy = false → s0.tpcState = 0 → a % 64 = 0 → s0.readable a 64 = true → 1 ≤ n → n ≤ 255 →
        h1.readable a (64 + 64 * n) = true → blockItems bs = some items → leNat (sliceBytes bs 8 8) = h.cseq →
        (h.changed items).resultOk items = true → h.rngOk = true →
        let s1 := ((h.randomBytes 32).1.setDigestRegs Slot.tpc Off.TPC.NONCE0 (h.randomBytes 32).2).setDigestRegs Slot.tpc
          Off.TPC.DIGEST0 (sm3 bs)
        let s2 := s1.setReg Slot.tpc Off.TPC.EXPIRY (s1.tod + windowSecs (s1.fld Slot.tpc Off.TPC.WINDOW 0 10) * 10 ^ 10)
        exec (.stage src) s = .next (s.after
          ((({ s2 with staged := some { block := bs, addr := BitVec.ofNat 64 a, sign := none, leave := false } } : State).markStaged
            (itemPages items) true).setFld Slot.tpc Off.TPC.STS 0 3 1)))
      ∧ (s.staged = some x → ∀ g, x.sign = some g → x.leave = true →
        let s' := ({ s with staged := some { x with sign := none, leave := false } } : State).setFlag Slot.tpc Off.TPC.STS 3 false
        let s1 := s'.signRead g.toNat
        let slot := s1.ld g.toNat 1
        s'.signRefusal ((blockItems x.block).getD []) g.toNat = 0 →
        sm2Verify (s1.bytes (g.toNat + 0x10) 64) s1.signMessage (s1.bytes (g.toNat + 0x50) 64) = true →
        exec (.sign src) s = .next (s.after (if s1.tpcState = 1 then
          (s1.setFld Slot.tpc Off.TPC.STS 16 4 slot).setFld Slot.tpc Off.TPC.STS 0 3 2
          else (s1.setFld Slot.tpc Off.TPC.STS 20 4 slot).setFld Slot.tpc Off.TPC.STS 0 3 3)))
      ∧ (s.staged = some x → x.sign = none → s0.tpcState ≠ 3 → s0.signRefusal ((blockItems x.block).getD []) a = 0 →
        exec (.sign src) s = .next (s.after
          ((({ s0.signRead a with staged := some { x with sign := some (BitVec.ofNat 64 a) } } : State).setFlag Slot.tpc Off.TPC.STS 3
            true).askLeave .sign)))
      ∧ (s.staged = some x → s0.tpcBusy = false → s0.tpcState = 3 →
        let fs := vkeyFrames ((blockItems x.block).getD [])
        fs.any (fun f => s0.lineHeld f.1 4096) = false → s0.tod < s0.reg Slot.tpc Off.TPC.EXPIRY →
        (s0.changed ((blockItems x.block).getD [])).vkeysOk fs = true → s0.rngOk = true → ∀ s1,
        s0.storeRecord ((s0.changed ((blockItems x.block).getD [])).cfgRecord (s0.cseq + 1)) fault = (s1, true) →
        exec (.commit src fault) s = .next (s.after (s1.tpcApply x ((blockItems x.block).getD []))))
      ∧ (s0.tpcBusy = false → s0.tpcState ≠ 0 → exec (.clear src) s = .next (s.after s0.tpcDiscard)))
    ∧ (s.tpcState ≠ 0 → s.reg Slot.tpc Off.TPC.EXPIRY ≤ s.tod →
      exec .tpcExpiry s = .next (s.after (s.tpcDiscard.setErr Slot.tpc Off.TPC.TPCERR 1)))

/-! ## The debug path -/

/-- R528, R529: DBGCMD at a level that accepts the context halts it as STOP does, at its next boundary point, resumes it, or steps it;
else it is refused. A session that opens sets ATTACHED and EVER and is logged, and one that closes clears ATTACHED. A debug access
is refused at level 0, and otherwise reads and writes registers and memory; one that names a line that a reservation holds waits, and
so does one to near memory that does not serve accesses. The model's readings here: assumption log 29 and 70. -/
def Obligations.DebugPath : Prop :=
∀ (src : Src) (ctx : BitVec 20) (a : BitVec 20) (v m : Word) (n : BitVec 13) (bs : List Byte) (s : State),
    (s.takesWrite src Slot.dbg → s.flag Slot.dbg Off.DBG.DBGCMD 32 = false →
      (s.dbgAccepts ctx = true →
        (s.haltWaits ctx = false → exec (.dbgcmdHalt src ctx) s = .next (s.after (s.haltNow ctx)))
        ∧ (s.haltWaits ctx = true → exec (.dbgcmdHalt src ctx) s = .next (s.after
          ((({ s with haltBusy := some ctx } : State).setFlag Slot.dbg Off.DBG.DBGCMD 32 true).setFlag Slot.dbg Off.DBG.DBGCMD 33 false)))
        ∧ exec (.dbgcmdResume src ctx) s = .next (s.after (s.dbgOutcome (s.ctxStart ctx)))
        ∧ ((s.ctxStart ctx).flag Slot.grt Off.GRT.CTXSTS 1 = false →
          exec (.dbgcmdStep src ctx) s
            = .next (s.after (s.dbgOutcome { s.ctxStart ctx with stepping := ctx :: (s.ctxStart ctx).stepping }))))
      ∧ (s.dbgAccepts ctx = false → ∀ f ∈ [Instr.dbgcmdHalt, Instr.dbgcmdResume, Instr.dbgcmdStep],
        exec (f src ctx) s = .next (s.after (s.setFlag Slot.dbg Off.DBG.DBGCMD 33 true))))
    ∧ (let s1 := (s.setFlag Slot.dbg Off.DBG.DBGSTS 0 true).setFlag Slot.dbg Off.DBG.DBGSTS 1 true
       exec .debugSessionOpen s = .next (s.after (s1.ashLog 0x72 Slot.dbg none none 0 (s1.fld Slot.dbg Off.DBG.DBGEN 0 2))))
    ∧ exec .debugSessionClose s = .next (s.after (s.setFlag Slot.dbg Off.DBG.DBGSTS 0 false))
    ∧ (s.dbgLevel = 0 → ∀ x, exec (.debugAccess x) s = .next (s.after (s.debugAnswer none)))
    ∧ (s.mantel.vsb = true → s.dbgLevel ≠ 0 →
      (a.toNat % 8 = 0 →
        exec (.debugAccess (.readReg a)) s
            = .next (s.after (s.debugAnswer (some (leBytes 8 (s.regRead (a.toNat / 4096) (a.toNat % 4096))))))
        ∧ ∀ t, s.regWrite .debug (a.toNat / 4096) (a.toNat % 4096) v.toNat = .ok t →
          exec (.debugAccess (.writeReg a v)) s = .next (s.after (t.debugAnswer (some []))))
      ∧ (s.mantel.core = true → s.ordinary m.toNat = true →
        (n.toNat ≠ 0 → (linesTouched m.toNat n.toNat).all (fun l => s.populated .load (max m.toNat (l * 64))) = true →
          s.oneRow m.toNat n.toNat = true →
          (s.debugWaits (.readMem m n) = true → exec (.debugAccess (.readMem m n)) s = .next (s.after (s.park (.debug (.readMem m n)))))
          ∧ (s.debugWaits (.readMem m n) = false →
            ((s.anyPoison m.toNat n.toNat || s.anyKeyLost m.toNat n.toNat) = false → exec (.debugAccess (.readMem m n)) s
              = .next (s.after ((s.devRead m.toNat n.toNat).debugAnswer (some (s.bytes m.toNat n.toNat)))))
            ∧ ((s.anyPoison m.toNat n.toNat || s.anyKeyLost m.toNat n.toNat) = true →
              exec (.debugAccess (.readMem m n)) s = .next (s.after ((s.countLost m.toNat n.toNat).debugAnswer none)))))
        ∧ (bs ≠ [] → (linesTouched m.toNat bs.length).all (fun l => s.populated .store (max m.toNat (l * 64))) = true →
          s.oneRow m.toNat bs.length = true →
          (s.debugWaits (.writeMem m bs) = true →
            exec (.debugAccess (.writeMem m bs)) s = .next (s.after (s.park (.debug (.writeMem m bs)))))
          ∧ (s.debugWaits (.writeMem m bs) = false →
            let refused := s.anyKeyLost m.toNat bs.length || (linesTouched m.toNat bs.length).any (fun l => s.fktLine (l * 64))
            (refused = false →
              exec (.debugAccess (.writeMem m bs)) s = .next (s.after ((s.devWrite m.toNat bs).debugAnswer (some []))))
            ∧ (refused = true →
              exec (.debugAccess (.writeMem m bs)) s = .next (s.after ((s.countLost m.toNat bs.length).debugAnswer none)))))))

/-! ## Near memory and the flexible ports -/

/-- R416, R417, R419, R424: the scrubber visits the pairs of the groups that have not failed in order: it looks at both lines of one
and moves on, and after the last the pass ends; a pair that is not next is not visited. PINCTL clears, erases or unerases the selected
pin, keeping THRESH; FAILCMD and a failed retraining declare a channel failed. The model's readings here: assumption log 40. -/
def Obligations.NearMemoryCare : Prop :=
∀ (src : Src) (pair : BitVec 29) (lo hi : Misread) (channel : BitVec 6) (s : State),
    (s.blockOn Slot.nmc = true → s.flag Slot.nmc Off.NMC.SCRUBCTL 0 = true →
      (s.nextPair 8 s.scrubAt ≠ pair.toNat → exec (.scrubLine pair lo hi) s = .next (s.after s))
      ∧ (s.nextPair 8 s.scrubAt = pair.toNat → s.nearPop (pair.toNat * 128) = true →
        let s1 := (s.scrubOne (2 * pair.toNat) lo).scrubOne (2 * pair.toNat + 1) hi
        let next := s1.nextPair 8 (pair.toNat + 1)
        (next < s1.pairCount → exec (.scrubLine pair lo hi) s = .next (s.after
          (({ s1 with scrubAt := next } : State).setFld Slot.nmc Off.NMC.SCRUBSTS 32 10 (next * 1000 / s1.pairCount))))
        ∧ (s1.pairCount ≤ next → exec (.scrubLine pair lo hi) s = .next (s.after
          ((({ s1 with scrubAt := 0 } : State).incWrap Slot.nmc Off.NMC.SCRUBSTS 0 32 1).setFld Slot.nmc Off.NMC.SCRUBSTS 32 10 0)))))
    ∧ (s.obeys src Slot.nmc →
      (let s1 := s.setFld Slot.nmc Off.NMC.PINCTL 0 16 (s.fld Slot.nmc Off.NMC.PINCTL 0 16)
       let p := s1.fld Slot.nmc Off.NMC.PINSEL 0 10
       p < 640 →
       exec (.pinctlClr src) s = .next (s.after (s1.setPinCount p 0))
         ∧ exec (.pinctlErase src) s = .next (s.after (s1.erasePin p))
         ∧ exec (.pinctlUnerase src) s = .next (s.after (s1.unerasePin p)))
      ∧ exec (.failcmd src channel) s = .next (s.after (s.failChannel channel.toNat)))
    ∧ exec (.memRetrain channel false) s = .next (s.after (s.failChannel channel.toNat))
    ∧ exec (.memRetrain channel true) s = .next (s.after s)

/-- R426 to R428, R433: a link that comes up shows its width and generation, and a CXL device of Type 3 its capacity; a CXL link
narrower than x4 or slower than 32 GT/s does not come up, and a CXL device of another type sets FXPERR; a link that goes down clears
LINK and CAP, sets FXPERR and is logged, and a CXL port's lines are invalidated; device events and errors are logged or counted;
PERST_N in endpoint mode takes the link down. The model's readings here: assumption log 41. -/
def Obligations.PortLinks : Prop :=
∀ (port : BitVec 2) (k : LinkPartner) (corr : Bool) (s : State),
    let p := port.toNat
    let page := Slot.fxp p
    let w := min (widthOf (s.fld page Off.FXP.MODE 2 3)) (widthOf k.width.toNat)
    let g := min (genOf (s.fld page Off.FXP.MODE 5 3)) (genOf k.gen.toNat)
    let woken : State := if p = 0 then { s with mantel := { s.mantel with perst := false } } else s
    let down (x : State) (q : Nat) : State :=
      (((x.setReg (Slot.fxp q) Off.FXP.LINK 0).setReg (Slot.fxp q) Off.FXP.CAP 0).setErr (Slot.fxp q) Off.FXP.FXPERR 0).ashLog 0x40
        (Slot.fxp q) none none 0 (q + 2 ^ 8)
    (s.blockOn page = true → s.portUp p = false →
      ((s.portMode p = 2 ∨ s.portMode p = 3) →
        exec (.fxpLinkUp port k) s = .next (s.after (woken.setReg page Off.FXP.LINK (1 + w * 4 + g * 32))))
      ∧ (s.portMode p = 1 →
        ((w < 2 ∨ g ≠ 5) → exec (.fxpLinkUp port k) s = .next (s.after s))
        ∧ (2 ≤ w → g = 5 →
          (k.type3 = false → exec (.fxpLinkUp port k) s
              = .next (s.after ((woken.setReg page Off.FXP.LINK (1 + w * 4 + g * 32)).setErr page Off.FXP.FXPERR 5)))
          ∧ (k.type3 = true → exec (.fxpLinkUp port k) s = .next (s.after (((woken.setReg page Off.FXP.LINK (1 + 2 + w * 4 + g * 32)).setReg
              page Off.FXP.CAP (cxlCapacity k.capacity.toNat)).farContents p k))))))
    ∧ (s.portUp p = true →
      exec (.fxpLinkDown port) s
          = .next (s.after (if s.portMode p = 1 then (down s p).invalidate (inWindow p) else down s p))
        ∧ (s.portMode p = 1 → exec (.cxlDeviceEvent port) s = .next (s.after (s.ashLog 0x40 page none none 0 (p + 4 * 2 ^ 8)))))
    ∧ (let s1 := s.incSat page Off.FXP.AERCNT (if corr then 0 else 32) 32 1
       s.portMode p ≠ 0 → exec (.aerError port corr) s = .next (s.after
         (if s.portMode p = 3 then { s1 with out := s1.out ++ [.aer port] }
          else if corr then s1 else s1.ashLog 0x40 page none none 0 (p + 2 * 2 ^ 8))))
    ∧ (let s1 : State := { s with mantel := { s.mantel with perst := true } }
       s.portMode 0 = 3 → exec .perstNAssert s = .next (s.after (if s1.portUp 0 then down s1 0 else s1)))

/-- R27, R431, R432: an inbound read of memory the port may reach is answered with its bytes and their poison, one of the doorbells with
zeros, and one of BAR4 with the bytes of the MSI-X table; a read that reaches nothing, or is not allowed, is answered as unsupported
and logged. R427: an inbound write of memory the port may reach stores its bytes, and leaves the lines that it names poisoned
when it is poisoned itself; one that touches MSIADDR sets FXPERR; one of 8 aligned bytes rings a doorbell; one of BAR4 writes the MSI-X
table, and a poisoned one of either sets FXPERR alone (assumption log 67); one that reaches nothing, or is not allowed, is dropped and
logged. While the port is Quiesced (R52), or a reservation holds a
line that it names (R248), a request is held, in order. The model's readings here: assumption log 41 and 67. -/
def Obligations.InboundRequests : Prop :=
  (∀ (port : BitVec 2) (t : Target) (n : BitVec 13) (s : State),
      let p := port.toNat
      s.portUp p = true → s.parked = [] →
      ((s.blockOn (Slot.fxp p) = false ∨ s.inboundHeld p (.read t n) = true) →
        exec (.inboundRead port t n) s = .next (s.after (s.park (.inbound port (.read t n)))))
      ∧ (s.blockOn (Slot.fxp p) = true → s.inboundHeld p (.read t n) = false →
        (∀ a, s.reaches p n.toNat t = .window a →
          (s.inboundOk p a n.toNat false = true → exec (.inboundRead port t n) s
            = .next (s.after ((s.devRead a n.toNat).reply p (some (s.bytes a n.toNat)) (s.anyPoison a n.toNat))))
          ∧ (s.inboundOk p a n.toNat false = false → exec (.inboundRead port t n) s
            = .next (s.after (((s.inboundLost p a n.toNat false).inboundRefused p t).reply p none false))))
        ∧ (∀ a, s.reaches p n.toNat t = .door a → exec (.inboundRead port t n) s
            = .next (s.after (s.reply p (some (zeros n.toNat)) false)))
        ∧ (∀ o, s.reaches p n.toNat t = .bar4 o → exec (.inboundRead port t n) s
            = .next (s.after (s.reply p (some ((List.range n.toNat).map (fun i => s.msixByte (o + i)))) false)))
        ∧ (s.reaches p n.toNat t = .none → exec (.inboundRead port t n) s
            = .next (s.after ((s.inboundRefused p t).reply p none false)))))
  ∧ (∀ (port : BitVec 2) (t : Target) (bs : List Byte) (poisoned : Bool) (s : State),
      let p := port.toNat
      let s1 := if poisoned then s.setErr (Slot.fxp p) Off.FXP.FXPERR 3 else s
      s.portUp p = true → s.parked = [] →
      ((s.blockOn (Slot.fxp p) = false ∨ s.inboundHeld p (.write t bs poisoned) = true) →
        exec (.inboundWrite port t ⟨bs, poisoned⟩) s = .next (s.after (s.park (.inbound port (.write t bs poisoned)))))
      ∧ (s.blockOn (Slot.fxp p) = true → s.inboundHeld p (.write t bs poisoned) = false →
        (∀ a, s1.reaches p bs.length t = .window a →
          (s1.inboundOk p a bs.length true = true →
            let s2 := s1.devWrite a bs
            let s3 := if poisoned then (linesTouched a bs.length).foldl State.poisonLine s2 else s2
            let m := s3.fld (Slot.fxp p) Off.FXP.MSIADDR 3 61 * 8
            exec (.inboundWrite port t ⟨bs, poisoned⟩) s = .next (s.after
              (if m ≠ 0 ∧ a < m + 8 ∧ m < a + bs.length then s3.setErr (Slot.fxp p) Off.FXP.FXPERR 4 else s3)))
          ∧ (s1.inboundOk p a bs.length true = false → exec (.inboundWrite port t ⟨bs, poisoned⟩) s
            = .next (s.after ((s1.inboundLost p a bs.length true).inboundRefused p t))))
        ∧ (∀ a, s1.reaches p bs.length t = .door a → poisoned = false →
          (a % 8 = 0 → bs.length = 8 → exec (.inboundWrite port t ⟨bs, poisoned⟩) s = .next (s.after (s.ringDoorbell a (leNat bs))))
          ∧ ((a % 8 ≠ 0 ∨ bs.length ≠ 8) → exec (.inboundWrite port t ⟨bs, poisoned⟩) s = .next (s.after (s.inboundRefused p t))))
        ∧ (∀ o, s1.reaches p bs.length t = .bar4 o → poisoned = false →
          exec (.inboundWrite port t ⟨bs, poisoned⟩) s = .next (s.after (s.msixWrite o bs)))
        ∧ (∀ a, (s1.reaches p bs.length t = .door a ∨ s1.reaches p bs.length t = .bar4 a) → poisoned = true →
          exec (.inboundWrite port t ⟨bs, poisoned⟩) s = .next (s.after s1))
        ∧ (s1.reaches p bs.length t = .none → exec (.inboundWrite port t ⟨bs, poisoned⟩) s = .next (s.after (s1.inboundRefused p t)))))

/-- R431, R52: a configuration request is retried until port 0 is an enabled endpoint; then a read is answered with the register that
the endpoint presents and a write sets it, and while the port is Quiesced both are held. MSIXCMD sends a vector to the host, or sets its
pending bit while it is masked. The model's readings here: assumption log 41 and 63. -/
def Obligations.EndpointConfiguration : Prop :=
∀ (src : Src) (reg : BitVec 12) (v : BitVec 32) (value : Option (BitVec 32)) (vec : BitVec 6) (s : State),
    let on := s.flag (Slot.fxp 0) Off.PAGE.CTL 0 = true ∧ s.portMode 0 = 3
    (¬on → exec (.inboundConfigRequest reg value) s = .next (s.after { s with out := s.out ++ [.pcieRetry] }))
    ∧ (on → s.parked = [] →
      (s.blockOn (Slot.fxp 0) = true →
        exec (.inboundConfigRequest reg (some v)) s = .next (s.after ((s.configSet reg.toNat v.toNat).reply 0 (some []) false))
        ∧ (let w := (Config.pcieConfig s.fresh reg).toNat
           exec (.inboundConfigRequest reg none) s = .next (s.after
            (({ s with fresh := s.fresh + 1 } : State).reply 0 (some (leBytes 4 (s.configWord reg.toNat w))) false))))
      ∧ (s.blockOn (Slot.fxp 0) = false →
        exec (.inboundConfigRequest reg value) s = .next (s.after (s.park (.inbound 0 (.config reg value))))))
    ∧ (s.obeys src (Slot.fxp 0) →
      (s.portMode 0 = 3 → s.portUp 0 = true → exec (.msixcmd src vec) s = .next (s.after
        (if s.msixMasked vec.toNat then { s with msixPba := s.msixPba ||| BitVec.ofNat 64 (2 ^ vec.toNat) }
         else { s with msixPba := s.msixPba &&& ~~~(BitVec.ofNat 64 (2 ^ vec.toNat)), out := s.out ++ [.msix vec] })))
      ∧ ((s.portMode 0 ≠ 3 ∨ s.portUp 0 = false) → exec (.msixcmd src vec) s = .next (s.after s)))

/-! ## The Mantel -/

/-- R532, R533, R528: a core's beat sets its age to 0; a claim succeeds when nobody holds mastership or the holder's beat has
expired, and is otherwise refused, counted and logged; the holder's release leaves no holder; the debug path at level 0b10 halts a
core. R537 to R540: TODSET in the boot window sets the time of day forward at once and slews it backward, and is LATE after it;
TODSTEP adds to STEPREM; a lost reference or lock enters holdover with its error and log entry, and lock that returns leaves it.
The model's readings here: assumption log 23. -/
def Obligations.MastershipAndClocks : Prop :=
  (∀ (src : Src) (south : Bool) (s : State),
      let c := coreOf src
      let h := s.holder
      let held := (s.setFld Slot.man Off.MAN.TOKEN 0 2 c).incWrap Slot.man Off.MAN.TOKEN 16 16 1
      (c ≠ 0 → s.reachesRegs src = true →
        exec (.claimBeat src) s = .next (s.after (s.setFld Slot.man Off.MAN.HBAGE (ageAt c) 32 0))
        ∧ (h ≠ c → (h = 0 ∨ s.beatLimit < s.fld Slot.man Off.MAN.HBAGE (ageAt h) 32) →
          exec (.claimClaim src) s = .next (s.after
            ((held.setErr Slot.man Off.MAN.MANERR 0).ashLog 0x80 Slot.man none none 0 (c + held.fld Slot.man Off.MAN.TOKEN 16 16 * 2 ^ 16))))
        ∧ ((h = c ∨ (h ≠ 0 ∧ s.fld Slot.man Off.MAN.HBAGE (ageAt h) 32 ≤ s.beatLimit)) →
          exec (.claimClaim src) s = .next (s.after (s.refuseWrite c Slot.man Off.MAN.CLAIM)))
        ∧ (h = c → exec (.claimRelease src) s = .next (s.after (s.setFld Slot.man Off.MAN.TOKEN 0 2 0))))
      ∧ (s.dbgLevel = 2 → exec (.mantelCoreHalt south) s = .next (s.after
        ((s.setFlag Slot.man Off.MAN.CORESTS (if south then 3 else 2) true).setFlag Slot.man Off.MAN.CORESTS (if south then 1 else 0)
          false))))
  ∧ (∀ (src : Src) (v : Word) (unlock : Bool) (s : State),
      (s.takesWrite src Slot.clk →
        (s.boot = true →
          (s.tod ≤ v.toNat → exec (.todset src v) s = .next (s.after (s.setReg Slot.clk Off.CLK.TOD v.toNat)))
          ∧ (v.toNat < s.tod → exec (.todset src v) s = .next (s.after (s.setStepRem (s.stepRem - ((s.tod : Int) - (v.toNat : Int)))))))
        ∧ (s.boot = false → exec (.todset src v) s = .next (s.after (s.badWrite Slot.clk Off.CLK.TODSET v.toNat 0 0x02)))
        ∧ exec (.todstep src v) s = .next (s.after (s.setStepRem (s.stepRem + v.toInt))))
      ∧ (s.flag Slot.clk Off.CLK.CLKSTS 1 = true →
        let s0 := if unlock then s else s.setFlag Slot.clk Off.CLK.CLKSTS 0 false
        let s1 := (s0.setFlag Slot.clk Off.CLK.CLKSTS 1 false).setFlag Slot.clk Off.CLK.CLKSTS 2 true
        exec (.refloss unlock) s = .next (s.after
          ((s1.setErr Slot.clk Off.CLK.CLKERR (if unlock then 1 else 0)).ashLog 0x82 Slot.clk none none 0 (if unlock then 2 else 1))))
      ∧ (s.flag Slot.clk Off.CLK.CLKSTS 2 = true → exec .pllRelock s = .next (s.after (s.setFld Slot.clk Off.CLK.CLKSTS 0 3 3))
        ∧ exec .holdoverExpiry s = .next (s.after
          ((s.ashLog 0x82 Slot.clk none none 0 ((if s.flag Slot.clk Off.CLK.CLKSTS 0 then 2 else 1) + 4)).forceDown 3))))

/-- R541, R542, R546 to R550: at the end of a microsecond the damper refills every bucket up to four refills, and a page held in
reset has one microsecond less to go (R553); a sample shows its readings and sets the duties; a brown-out stops granting, and a context
that waits for leave leaves its flue in steady timing; recovery resumes granting; a failed rail, an overtemperature, and PWRCMD.OFF with
its key force a power-down; a thermal trip powers the core off. The model's readings here: assumption log 46. -/
def Obligations.PowerAndHeat : Prop :=
∀ (src : Src) (key : BitVec 32) (mv : BitVec 16) (r : Readings) (s : State),
    (exec .damperRefill s = .next (s.after s.microsecond)
      ∧ (∀ i : Fin 9, s.microsecond.damper[i].queue = s.damper[i].queue ∧ s.microsecond.damper[i].cap = 4 * s.refillOf i
        ∧ s.microsecond.damper[i].level = min (s.damper[i].level + s.refillOf i) (4 * s.refillOf i))
      ∧ (∀ x ∈ s.resets, 1 < x.2 → (x.1, x.2 - 1) ∈ s.microsecond.resets)
      ∧ s.microsecond.mem = s.mem ∧ s.microsecond.banks = s.banks)
    ∧ (let s1 := s.showReadings r
       let cool := s1.setReg Slot.pwr Off.PWR.THROTTLE 0x88888888
       s.mantel.vsb = true → (∀ t ∈ sensorTemps r, t < (s1.tset : Int) - 2) →
       (∀ h < 8, 7 ≤ s1.fld Slot.pwr Off.PWR.THROTTLE (4 * h) 4) →
       exec (.thermalSample r) s = .next (s.after { cool with mantel := { cool.mantel with hot := false } }))
    ∧ (s.mantel.vsb = true → exec .thermalTrip s
        = .next (s.after { s.corelose with mantel := { s.corelose.mantel with tripped := true } }))
    ∧ (s.mantel.hot = true → exec .overtempTimeout s = .next (s.after (s.forceDown 5)))
    ∧ (let off := (s.banks.filter (fun b => b.flue.isSome && (s.leavesFlue b).flue.isNone)).map (·.ctx)
       let s1 : State := { s with
         mantel := { s.mantel with granting := false }, banks := s.banks.map s.leavesFlue
         order := { s.order with bound := s.order.bound.filter (fun c => !off.contains c) } }
       mv.toNat < s.brownMv → s.mantel.granting = true →
       exec (.brownout mv) s
         = .next (s.after ((s1.setErr Slot.pwr Off.PWR.PWRERR 0).ashLog 0x83 Slot.pwr none none 0 mv.toNat)))
    ∧ (s.brownMv + 100 < mv.toNat →
      exec (.brownoutRecovery mv) s = .next (s.after { s with mantel := { s.mantel with granting := true } }))
    ∧ (s.mantel.core = true →
      exec (.railfail none) s = .next (s.after ((s.setErr Slot.pwr Off.PWR.PWRERR 3).forceDown 4))
      ∧ (mv.toNat < 2450 → exec (.railfail (some mv)) s = .next (s.after ((s.setErr Slot.pwr Off.PWR.PWRERR 3).forceDown 4))))
    ∧ (s.takesWrite src Slot.pwr → key.toNat = s.serialKey → exec (.pwrcmdOff src key) s = .next (s.after (s.forceDown 2)))
    ∧ (s.takesWrite src Slot.ash → key.toNat = s.serialKey →
      exec (.ashcmdClear src key) s = .next (s.after { s with ash := { entries := [], next := 0, frozen := false, dropped := 0 } }))

/-! ## Resets and start-up -/

/-- R551 to R553: PORST_N and RSTCMD COLD make a cold reset unless one is refused after a thermal trip; WARM_N and RSTCMD WARM a
warm reset once start-up has reached step 3; RSTCMD STOVE and HEARTH, with the key, reset their target once start-up is over, and a
page goes through its reset for 10 µs, in which RSTSTS shows BUSY; a request before that, or for a stove whose hearth is in reset, is
dropped and logged, and RSTCMD with a wrong key is refused. R48, R551: a cold reset opens the boot window,
leaves no context and no buffered store, keeps the fuses, and leaves start-up in step 2 with its cause. The model's readings here:
assumption log 24 and 26. -/
def Obligations.ResetCommands : Prop :=
  (∀ (src : Src) (target : BitVec 6) (key : BitVec 32) (s : State),
      let ok := s.rstSts false
      (s.coldRefused = false → s.mantel.vsb = true → exec .porstN s = .next (s.after (s.coldReset .porst)))
      ∧ (s.coldRefused = true → exec .porstN s = .next (s.after s))
      ∧ (s.mantel.vsb = true → exec .warmN s = .next (s.after (if s.bootReached < 3 then s.dropReset 3 else s.warmReset .warmN)))
      ∧ (s.takesWrite src Slot.rst →
        (key.toNat = s.serialKey → s.mantel.vsb = true →
          exec (.rstcmdStove src target key) s = .next (s.after (State.resetBusy
            (if ok.bootReached < 7 ∨ ok.flag (Slot.hrtA (target.toNat / 8)) Off.PAGE.STS 4 = true then ok.dropReset 1 else ok.resetStove target)))
          ∧ (target.toNat < 8 → exec (.rstcmdHearth src target key) s = .next (s.after (State.resetBusy
            (if ok.bootReached < 7 then ok.dropReset 2 else ok.resetHearth (BitVec.ofNat 3 target.toNat)))))
          ∧ exec (.rstcmdWarm src key) s
              = .next (s.after (State.resetBusy (if ok.bootReached < 3 then ok.dropReset 3 else ok.warmReset .rstcmd)))
          ∧ (s.coldRefused = false → exec (.rstcmdCold src key) s = .next (s.after (ok.coldReset .rstcmd).resetBusy)))
        ∧ (key.toNat ≠ s.serialKey → ∀ f ∈ [Instr.rstcmdStove src target, .rstcmdHearth src target, .rstcmdWarm src, .rstcmdCold src],
          exec (f key) s = .next (s.after (s.rstSts true)))))
  ∧ (∀ (s : State) (stove : BitVec 6),
      (Slot.stv stove.toNat, 10) ∈ (s.resetStove stove).resets
      ∧ (s.resetStove stove).flag (Slot.stv stove.toNat) Off.PAGE.STS 4 = true
      ∧ (s.coldRefused = false → s.mantel.vsb = true → ∃ t, exec .porstN s = .next t ∧ t.boot = true ∧ t.banks = [] ∧ t.stores = []
        ∧ t.mantel.vsb = true ∧ t.mantel.core = false ∧ t.fuses = s.fuses ∧ t.reg Slot.rst Off.RST.BOOTSTEP = 2
        ∧ t.reg Slot.rst Off.RST.RSTCAUSE = 4 + 1 * 2 ^ 8))

/-- R555 to R558, R592, R594: VSB that rises powers the Mantel; VSB that falls loses the always-on domain; with VIN and PORST_N
good start-up runs from step 2, stopping where the rails or the PLL fail; BOOTCTL.RELEASE closes the boot window and releases the
hearths it names, and is refused once the window is closed. The model's readings here: assumption log 25 and 26. -/
def Obligations.StartUp : Prop :=
∀ (src : Src) (hearths : BitVec 8) (env : BootEnv) (f : Flash × Flash) (s : State),
    (exec .vsbRise s = .next (s.after (if s.mantel.vsb then s else { s with mantel := { s.mantel with vsb := true } })))
    ∧ (∃ t, exec .vsbFall s = .next t ∧ t.mantel.vsb = false ∧ t.mantel.core = false ∧ t.boot = true ∧ t.ash = State.reset.ash
      ∧ t.mantel.flash = s.mantel.flash ∧ t.mantel.nvDigest = s.mantel.nvDigest ∧ t.fuses = s.fuses)
    ∧ (s.mantel.vsb = true → s.mantel.core = false → s.mantel.down = false → s.mantel.tripped = false →
      s.flag Slot.rst Off.RST.BOOTSTEP 12 = false →
      let s1 := ({ s with mantel := { s.mantel with env := env, granting := true, flash := #v[f.1, f.2] } } : State).bootStep 2
      let s2 := s1.setErr Slot.pwr Off.PWR.PWRERR 3
      (env.rails = false → exec (.corePowerUp env (some f)) s = .next (s.after (s2.bootHalt 2 1)))
      ∧ (env.rails = true → env.lock = false → exec (.corePowerUp env (some f)) s = .next (s.after (s2.bootHalt 2 2)))
      ∧ (env.rails = true → env.lock = true → exec (.corePowerUp env (some f)) s = .next (s.after
        ((({ s1 with mantel := { s1.mantel with core := true } } : State).setReg Slot.clk Off.CLK.CLKSTS 0xB).boot3))))
    ∧ (s.takesWrite src Slot.rst →
      (s.boot = false → exec (.bootctlRelease src hearths) s = .next (s.after (s.rstSts true)))
      ∧ (s.boot = true → exec (.bootctlRelease src hearths) s = .next (s.after
        ((((List.range 8).filter (bitAt hearths.toNat)).foldl State.releaseHearth
          (({ s with boot := false } : State).rstSts false)).bootStep 9))))

/-! ## Management -/

/-- R561, R562: an answered read of the always-finish requests gives its bytes with STATUS 0x00 for a payload of its length, and
0x03 otherwise; a frame whose CRC or framing is bad is answered with STATUS 0x01 and TAG 0, an unassigned OP with 0x02; nothing is
answered while VSB is off. R510, R517, R563 to R565: RESET and POWERDOWN act when SERIAL matches, after their answer; QUOTE,
CFGRECORD, RECOVERY and DUMP are busy without firmware, and with it are answered by what they ask for. The model's readings here:
assumption log 27. -/
def Obligations.ManagementRequests : Prop :=
  (∀ (r : Mgmt) (i : Iface) (s : State), s.mantel.vsb = true →
      let say (t : State) (st : BitVec 8) (bs : List Byte) : State := { t with out := t.out ++ [.mgmt r.iface st r.tag bs] }
      let reads : List ((Mgmt → Instr) × Nat × List Byte) :=
        [(.ident, 0, s.identBlock ++ vecBytes 64 s.fuses.idPub ++ vecBytes 64 s.fuses.attPub),
         (.lockread, 0, (List.range 64).flatMap (fun n => s.regBytes (Slot.stv n) [Off.STV.STATUS, Off.STV.LOCKCAUSE, Off.STV.LOCKADDR])
            ++ (List.range 8).flatMap (fun h => s.regBytes (Slot.hrtA h) [Off.HRTA.HSTS])),
         (.thermread, 0, s.regBytes Slot.pwr [Off.PWR.THERM, Off.PWR.HTEMP0, Off.PWR.HTEMP1, Off.PWR.THROTTLE, Off.PWR.VINMON, Off.PWR.PWRERR]),
         (.masterread, 0, s.regBytes Slot.man [Off.MAN.TOKEN, Off.MAN.HBAGE, Off.MAN.CORESTS])]
      (∀ a ∈ reads, (r.payload.length = a.2.1 → exec (a.1 r) s = .next (s.after (say s 0 a.2.2)))
          ∧ (r.payload.length ≠ a.2.1 → exec (a.1 r) s = .next (s.after (say s 3 []))))
      ∧ (r.payload.length = 2 → leNat r.payload < 1024 → exec (.ashread r) s = .next (s.after (say s 0
          (s.ashBytes (leNat r.payload) ++ leBytes 2 s.ash.next ++ leBytes 4 s.ash.dropped))))
      ∧ (r.payload.length = 2 → 1024 ≤ leNat r.payload → exec (.ashread r) s = .next (s.after (say s 3 [])))
      ∧ exec (.unknownOp r) s = .next (s.after (say s 2 []))
      ∧ exec (.crcOrFramingError i) s = .next (s.after { s with out := s.out ++ [.mgmt i 1 0 []] }))
  ∧ (∀ (r : Mgmt) (s : State), s.mantel.vsb = true →
      let say (t : State) (st : BitVec 8) (bs : List Byte) : State := { t with out := t.out ++ [.mgmt r.iface st r.tag bs] }
      let level := leNat (r.payload.take 1)
      let target := leNat (sliceBytes r.payload 1 1)
      let n := leNat r.payload
      (r.payload.length = 10 → 1 ≤ level → level ≤ 4 → (level = 1 → target < 64) → (level = 2 → target < 8) →
        (s.serialIs (r.payload.drop 2) = false → exec (.mgmtReset r) s = .next (s.after (say s 4 [])))
        ∧ (s.serialIs (r.payload.drop 2) = true → s.resetDropped level target = false → (level = 4 → s.coldRefused = false) →
          exec (.mgmtReset r) s = .next (s.after ((say s 0 []).requestReset level target (.mgmt r.iface)))))
      ∧ (r.payload.length = 8 →
        (s.serialIs r.payload = false → exec (.powerdown r) s = .next (s.after (say s 4 [])))
        ∧ (s.serialIs r.payload = true → exec (.powerdown r) s = .next (s.after ((say s 0 []).forceDown 1))))
      ∧ (s.firmware = false → ∀ f ∈ [Instr.mgmtQuote, Instr.cfgrecord, Instr.recovery, Instr.mgmtDump],
        exec (f r) s = .next (s.after (say s 6 [])))
      ∧ (s.firmware = true →
        (r.payload.length = 32 → 4 < s.bootReached → s.rngOk = true →
          exec (.mgmtQuote r) s = .next (s.after (say (s.quote r.payload).1 0 (s.quote r.payload).2)))
        ∧ (r.payload.length = 1 → n < 64 →
          (s.flag (Slot.stv n) Off.STV.STATUS 0 = true →
            ∀ t, s.dump (BitVec.ofNat 6 n) = t → t.mantel.vsb = true → exec (.mgmtDump r) s = .next (s.after (say t 0 [])))
          ∧ (s.flag (Slot.stv n) Off.STV.STATUS 0 = false → exec (.mgmtDump r) s = .next (s.after (say s 5 []))))
        ∧ (r.payload.length = 1536 → s.reg Slot.rst Off.RST.BOOTSTEP = 4 + 5 * 2 ^ 4 + 2 ^ 12 → ∀ t ok, s.acceptRecord r.payload = (t, ok) →
          t.mantel.vsb = true → exec (.cfgrecord r) s = .next (s.after (say t (if ok then 0 else 3) [])))
        ∧ (8 ≤ r.payload.length → s.mantel.env.bootsel = 3 → s.reg Slot.rst Off.RST.BOOTSTEP = 3 → r.iface ≠ .jtag → ∀ t ok,
          s.recoveryChunk (leNat (r.payload.take 4)) (bitAt (leNat (sliceBytes r.payload 4 4)) 0) (r.payload.drop 8) = (t, ok) →
          t.mantel.vsb = true → exec (.recovery r) s = .next (s.after (say t (if ok then 0 else 3) [])))))

/-! ## Privilege, frames and the whole machine -/

/-- R69, R138: SEALF, RETX and SETKEY in user state raise 0x02, whatever their operands; an AND or OR into the PSW that would change a
bit of the supervisor in user state raises 0x02. R109: an OP that the table does not assign raises 0x01. Nothing is written. -/
def Obligations.PrivilegeTraps : Prop :=
(∀ a ∈ privilegedOps, ∀ (i : Issue) (s : State) (b : Bank) (c : Cpu), Ready i s b c → a.2.2.fmts.contains i.word.fmt.toNat = true →
      b.psw.sup = false →
      exec (a.1 i) s = .next (s.after ((c.withImage a.2.1 i.word).takes a.2.1 i.word { code := 0x02 })))
  ∧ (∀ (i : Issue) (s : State) (c c1 c2 : Cpu) (o : Opnd) (v new : Nat) (ctor : Issue → Instr) (op : BitVec 12),
      ((ctor, op, new) = (Instr.andPsw, 0x020, c2.b.psw.control &&& v) ∨ (ctor, op, new) = (Instr.orPsw, 0x021, c2.b.psw.control ||| v)) →
      i.word.fmt = 0 → Starts op shapePswOp i s c → formOpnd i.word.opd2 8 [.load] c = .ok o c1 → readVal o 8 c1 = .ok v c2 →
      (new ^^^ c2.b.psw.control) &&& fixedControl = 0 → c2.b.psw.sup = false → (new ^^^ c2.b.psw.control) &&& supControl ≠ 0 →
      exec (ctor i) s = .next (s.after (c2.takes op i.word { code := 0x02 })))
  ∧ (∀ (i : Issue) (s : State) (b : Bank) (c : Cpu) (op : BitVec 12), Ready i s b c → assignedOps.contains op.toNat = false →
      exec (.mov ⟨i, some op⟩) s = .next (s.after ((c.withImage op i.word).takes op i.word { code := 0x01 })))

/-- R107, R396: the fetch of an instruction over which its context has no store buffered changes no state but the reference bits of the
frame it reads, and none at all while FSTEN is 0. R147, R153, R118: ADD, SUB, MUL, AND, OR and XOR between registers complete, and
change nothing but their destination register, CC, IA and RCNT of their context, with its charge: no other register, no other bit of the
PSW, no register of a page, no other context, and no byte of memory as the context sees it; memory itself and the buffered stores do not
change but in open timing, where the stores of the instruction before it are written at its end (R295). -/
def Obligations.RegisterFormFrame : Prop :=
  (∀ (c c' : Cpu), c.pass ≠ .form → c.s.ownStores c.b.ctx = [] → fetchCheck c = .ok () c' →
      c' = { c with s := { c.s with mem := c'.s.mem }, replay := c'.replay, log := c'.log, acc := c'.acc }
        ∧ (c.s.flag Slot.key Off.KEY.KEYCTL 0 = false → c'.s.mem = c.s.mem))
  ∧ (∀ a ∈ registerOps, ∀ (i : Issue) (s : State) (c : Cpu), Starts a.2 shapeBoth i s c → spMode i.word.opd1 = 0 → spMode i.word.opd2 = 0 →
      c.b.psw.fom = false →
      ∃ (u : State) (b : Bank), exec (a.1 i) s = .next (s.after u) ∧ u.bankOf c.b.ctx = some b
        ∧ (∀ r, r ≠ spBase i.word.opd1 → b.getG r = c.b.getG r) ∧ b.f = c.b.f ∧ b.d = c.b.d ∧ b.m = c.b.m ∧ b.msg = c.b.msg ∧ b.ttr = c.b.ttr
        ∧ { b.psw with ia := c.b.psw.ia, rcnt := c.b.psw.rcnt, cc := c.b.psw.cc } = c.b.psw
        ∧ (∀ ctx, ctx ≠ c.b.ctx → u.bankOf ctx = c.s.bankOf ctx)
        ∧ u.regs = c.s.regs ∧ u.queues = c.s.queues ∧ u.damper = c.s.damper ∧ u.lines.keys = c.s.lines.keys
        ∧ (∀ n, u.viewByte (u.ownStores c.b.ctx) n = c.s.viewByte (c.s.ownStores c.b.ctx) n)
        ∧ (c.s.openTiming c.b.stove = false ∨ c.s.ownStores c.b.ctx = [] → u.mem = c.s.mem ∧ u.stores = c.s.stores))

/-- R117, R134, R435: MOV to a memory operand in ordinary memory completes and puts its bytes into the store buffer, at the addresses its
operand forms: the context sees every byte outside its pieces as before. Memory itself does not change, and every other context sees every
byte as before, but in open timing, where the stores of the instruction before it are written at its end (R295). -/
def Obligations.StoreFormFrame : Prop :=
∀ (i : Issue) (s : State) (c c1 : Cpu) (ps : List Piece) (y : Nat),
    i.word.fmt ≠ 0 → Starts 0x000 shapeMov i s c → formMove i.word c = .ok (.mem ps, y) c1 →
    (∀ p ∈ ps, p.own = false ∧ c1.s.ordinary p.pa = true) →
    ∃ u, exec (.mov ⟨i, none⟩) s = .next (s.after u)
      ∧ (∀ a, (∀ p ∈ ps, a < p.pa ∨ p.pa + p.len ≤ a) →
        u.viewByte (u.ownStores c1.b.ctx) a = c1.s.viewByte (c1.s.ownStores c1.b.ctx) a)
      ∧ (c1.s.openTiming c1.b.stove = false ∨ c1.s.ownStores c1.b.ctx = [] →
        u.mem = c1.s.mem ∧ ∀ ctx, ctx ≠ c1.b.ctx → ∀ a, u.viewByte (u.ownStores ctx) a = c1.s.viewByte (c1.s.ownStores ctx) a)

/-- R295, R436: when the stores of a context are drained, every byte of memory is what the context itself saw before, and none of its
stores is buffered any more. -/
def Obligations.DrainShowsOwnView : Prop :=
∀ (s : State) (ctx : BitVec 20), (s.drain ctx).ownStores ctx = [] ∧ ∀ a, (s.drain ctx).byte a = s.viewByte (s.ownStores ctx) a

/-- R66: a PSW is what its 128 bits spell, whatever its fields. R175, R183: the packed bytes of a value that fits hold that value in
digits and a sign that every packed instruction accepts. -/
def Obligations.EncodingsRoundTrip : Prop :=
  (∀ (p : Psw), Psw.ofNat p.toNat = p ∧ p.toNat < 2 ^ 128 ∧ pswLegal p.toNat = (p.ia.toNat % 16 == 0))
  ∧ (∀ (n : Nat) (v : Int), 0 < n → v.natAbs < capacity n →
      (packedBytes n v).length = n ∧ packedOk (packedBytes n v) = true ∧ packedVal (packedBytes n v) = v)

/-- R33, R39, R48, R555: right after reset nothing is in memory, no context is resident, the boot window is open, VSB is up and
the core rails are down, every page that R33 holds is Quiesced and disabled, and the others are enabled. The model's readings
here: assumption log 4 and 5. -/
def Obligations.ResetLeaves : Prop :=
State.reset.mem = [] ∧ State.reset.banks = [] ∧ State.reset.stores = [] ∧ State.reset.boot = true ∧ State.reset.pending = []
    ∧ State.reset.mantel.vsb = true ∧ State.reset.mantel.core = false ∧ State.reset.ash.next = 0
    ∧ ∀ slot < 256, ∀ k, pageKind slot = some k → k.quiesces = true →
      State.reset.reg slot Off.PAGE.CTL = (if k.held then 2 else 1) ∧ State.reset.reg slot Off.PAGE.STS = (if k.held then 1 else 0)

/-- A step runs the command at the front of the queue with the queue's rest. -/
def Obligations.StepRunsFrontCommand : Prop :=
∀ (i : Instr) (s : State), step { s with pending := i :: s.pending } = exec i s

/-- Assumption log 6 (the model's choice): on an empty queue a step is one Mantel clock. R538: the clock advances the time of day by
its nominal 32 units while the root PLL has locked, no rate is set and no step remains. -/
def Obligations.EmptyQueueIsOneClock : Prop :=
∀ (s : State), s.pending = [] →
    step s = .next s.tick
    ∧ (s.mantel.vsb = true → s.flag Slot.clk Off.CLK.CLKSTS 3 = true → s.todRate = 0 → s.stepRem = 0 → s.tod + 32 < 2 ^ 64 →
      s.todClock.tod = s.tod + 32)

/-- No command is refused: every row of the table has its meaning, in every state. -/
def Obligations.NoCommandIsRefused : Prop :=
∀ (i : Instr) (s : State) (r : Refusal), exec i s ≠ .refused r

/-- R503: every step takes the front command off the queue, leaves the commands that wait well-formed and in their order, and changes
no fuse. -/
def Obligations.StepsKeepQueueAndFuses : Prop :=
∀ (s t : State), s.queueWf = true → step s = .next t →
    t.queueWf = true ∧ t.pending = s.pending.tail ∧ t.fuses = s.fuses

/-- The canonical form of memory and of the register pages is kept by every step, whatever command it runs: a byte or a register that
stands at its reset value is never listed, and none is listed twice. -/
def Obligations.StepsKeepCanonicalForms : Prop :=
∀ (s t : State), Memory.wf s.mem = true → Registers.wf s.regs = true → step s = .next t →
    Memory.wf t.mem = true ∧ Registers.wf t.regs = true

/-- The invariants of the queue, of memory and of the register pages hold right after reset. -/
def Obligations.ResetIsWellFormed : Prop :=
State.reset.queueWf = true ∧ Memory.wf State.reset.mem = true ∧ Registers.wf State.reset.regs = true
end

