-- ==== Sys2Proof/Laws/Map.lean ====
section
/-!
SUPPORT. The laws of sparse maps: what a key reads as after a write, and that every operation keeps the canonical form.
-/

namespace Sys2Proof.Machine

variable {α : Type}

theorem SMap.find?_erase (m : List (Nat × α)) (k j : Nat) :
    SMap.find? (SMap.erase m k) j = if j = k then none else SMap.find? m j := by
  induction m with
  | nil => simp [SMap.erase, SMap.find?]
  | cons e t ih =>
    obtain ⟨a, v⟩ := e
    simp only [SMap.erase] at ih
    by_cases h : a = k
    · subst h; simp only [SMap.erase, List.filter, bne_self_eq_false, SMap.find?, ih]
      split
      · rfl
      · simp [Ne.symm ‹¬j = a›]
    · have hb : (a != k) = true := by simpa using h
      simp only [SMap.erase, List.filter, hb, SMap.find?, ih]
      by_cases hj : j = k
      · subst hj; simp [h]
      · simp [hj]

theorem SMap.find?_insert (m : List (Nat × α)) (k : Nat) (v : α) (j : Nat) :
    SMap.find? (SMap.insert m k v) j = if j = k then some v else SMap.find? m j := by
  induction m with
  | nil => by_cases h : k = j <;> simp [SMap.insert, SMap.find?, h, Ne.symm]
  | cons e t ih =>
    obtain ⟨a, b⟩ := e
    simp only [SMap.insert]
    split
    · by_cases h : k = j
      · simp [SMap.find?, h]
      · simp [SMap.find?, h, Ne.symm h]
    · split
      · rename_i h; subst h
        by_cases h : k = j
        · simp [SMap.find?, h]
        · simp [SMap.find?, h, Ne.symm h]
      · rename_i _ h
        simp only [SMap.find?, ih]
        by_cases hj : j = k
        · subst hj; simp [Ne.symm h]
        · simp [hj]

/-- Reading a key after a write. -/
theorem SMap.get_set [DecidableEq α] (d : Nat → α) (m : List (Nat × α)) (k : Nat) (v : α) (j : Nat) :
    SMap.get d (SMap.set d m k v) j = if j = k then v else SMap.get d m j := by
  unfold SMap.get SMap.set
  split
  · rename_i h; rw [SMap.find?_erase]
    by_cases hj : j = k
    · subst hj; simp [h]
    · simp [hj]
  · rw [SMap.find?_insert]
    by_cases hj : j = k <;> simp [hj]

theorem SMap.get_set_self [DecidableEq α] (d : Nat → α) (m : List (Nat × α)) (k : Nat) (v : α) :
    SMap.get d (SMap.set d m k v) k = v := by simp [SMap.get_set]

theorem SMap.get_set_ne [DecidableEq α] (d : Nat → α) (m : List (Nat × α)) (k : Nat) (v : α) {j : Nat} (h : j ≠ k) :
    SMap.get d (SMap.set d m k v) j = SMap.get d m j := by simp [SMap.get_set, h]

/-- Reading a key after consecutive writes. -/
theorem SMap.get_setN [DecidableEq α] (d : Nat → α) (m : List (Nat × α)) (a : Nat) (vs : List α) (j : Nat) :
    SMap.get d (SMap.setN d m a vs) j = if a ≤ j then (vs[j - a]?).getD (SMap.get d m j) else SMap.get d m j := by
  induction vs generalizing m a with
  | nil => simp [SMap.setN]
  | cons v t ih =>
    rw [SMap.setN, ih, SMap.get_set]
    by_cases h : j = a
    · subst h; simp <;> omega
    · by_cases h' : a ≤ j
      · have : a + 1 ≤ j := by omega
        have e : j - a = (j - (a + 1)) + 1 := by omega
        simp [h, h', this, e]
      · have : ¬ a + 1 ≤ j := by omega
        simp [h, h', this]

/-! ## The canonical form -/

/-- The canonical form as a proposition. -/
theorem SMap.wf_iff [DecidableEq α] (d : Nat → α) (m : List (Nat × α)) :
    SMap.wf d m = true ↔ (m.map (·.1)).Pairwise (· < ·) ∧ ∀ e ∈ m, e.2 ≠ d e.1 := by
  simp [SMap.wf]

theorem SMap.wf_nil [DecidableEq α] (d : Nat → α) : SMap.wf d [] = true := by simp [SMap.wf]

/-- Whatever is left of a canonical map is canonical. -/
theorem SMap.wf_sublist [DecidableEq α] {d : Nat → α} {m m' : List (Nat × α)} (h : m'.Sublist m) (hm : SMap.wf d m = true) :
    SMap.wf d m' = true := by
  rw [SMap.wf_iff] at *
  exact ⟨hm.1.sublist (h.map _), fun e he => hm.2 e (h.mem he)⟩

theorem SMap.wf_filter [DecidableEq α] {d : Nat → α} {m : List (Nat × α)} (p : Nat × α → Bool) (hm : SMap.wf d m = true) :
    SMap.wf d (m.filter p) = true := SMap.wf_sublist List.filter_sublist hm

theorem SMap.mem_insert {m : List (Nat × α)} {k : Nat} {v : α} {e : Nat × α} (h : e ∈ SMap.insert m k v) : e = (k, v) ∨ e ∈ m := by
  induction m with
  | nil => simpa [SMap.insert] using h
  | cons x t ih =>
    obtain ⟨a, b⟩ := x
    simp only [SMap.insert] at h
    split at h
    · simpa using h
    · split at h
      · rcases List.mem_cons.1 h with h | h
        · exact .inl h
        · exact .inr (List.mem_cons_of_mem _ h)
      · rcases List.mem_cons.1 h with h | h
        · exact .inr (by simp [h])
        · rcases ih h with h | h
          · exact .inl h
          · exact .inr (List.mem_cons_of_mem _ h)

theorem SMap.wf_insert [DecidableEq α] {d : Nat → α} {m : List (Nat × α)} {k : Nat} {v : α} (hv : v ≠ d k)
    (hm : SMap.wf d m = true) : SMap.wf d (SMap.insert m k v) = true := by
  rw [SMap.wf_iff] at *
  refine ⟨?_, fun e he => ?_⟩
  · obtain ⟨hp, -⟩ := hm
    induction m with
    | nil => simp [SMap.insert]
    | cons x t ih =>
      obtain ⟨a, b⟩ := x
      simp only [List.map_cons, List.pairwise_cons] at hp
      simp only [SMap.insert]
      split
      · rename_i h
        simp only [List.map_cons, List.pairwise_cons]
        exact ⟨fun y hy => by
          rcases List.mem_cons.1 hy with hy | hy
          · simpa [hy] using h
          · exact Nat.lt_trans h (hp.1 y hy), hp⟩
      · split
        · rename_i h; subst h; simpa using hp
        · simp only [List.map_cons, List.pairwise_cons]
          refine ⟨fun y hy => ?_, ih hp.2⟩
          obtain ⟨e, he, rfl⟩ := List.mem_map.1 hy
          rcases SMap.mem_insert he with rfl | he
          · show a < k; omega
          · exact hp.1 _ (List.mem_map_of_mem he)
  · rcases SMap.mem_insert he with rfl | he
    · exact hv
    · exact hm.2 e he

/-- A write keeps the canonical form. -/
theorem SMap.wf_set [DecidableEq α] {d : Nat → α} {m : List (Nat × α)} (k : Nat) (v : α) (hm : SMap.wf d m = true) :
    SMap.wf d (SMap.set d m k v) = true := by
  unfold SMap.set
  split
  · exact SMap.wf_filter _ hm
  · exact SMap.wf_insert ‹_› hm

/-- Consecutive writes keep the canonical form. -/
theorem SMap.wf_setN [DecidableEq α] {d : Nat → α} {m : List (Nat × α)} (a : Nat) (vs : List α) (hm : SMap.wf d m = true) :
    SMap.wf d (SMap.setN d m a vs) = true := by
  induction vs generalizing m a with
  | nil => exact hm
  | cons v t ih => exact ih _ (SMap.wf_set _ _ hm)

/-- Two canonical maps that read the same at every key are the same list. -/
theorem SMap.ext [DecidableEq α] {d : Nat → α} {m m' : List (Nat × α)} (hm : SMap.wf d m = true) (hm' : SMap.wf d m' = true)
    (h : ∀ k, SMap.get d m k = SMap.get d m' k) : m = m' := by
  rw [SMap.wf_iff] at hm hm'
  have key : ∀ {x : List (Nat × α)}, ((x.map (·.1)).Pairwise (· < ·)) → ∀ k, (∀ e ∈ x, k < e.1) → SMap.find? x k = none := by
    intro x _ k hk
    induction x with
    | nil => rfl
    | cons e t ih =>
      obtain ⟨a, v⟩ := e
      have := hk (a, v) (by simp)
      simp only [SMap.find?]
      rw [if_neg (by simp at this; omega)]
      exact ih (by rename_i hp; exact (List.pairwise_cons.1 hp).2) (fun e he => hk e (by simp [he]))
  induction m generalizing m' with
  | nil =>
    cases m' with
    | nil => rfl
    | cons e t =>
      have := h e.1
      simp [SMap.get, SMap.find?] at this
      exact absurd this.symm (hm'.2 e (by simp))
  | cons e t ih =>
    cases m' with
    | nil =>
      have := h e.1
      simp [SMap.get, SMap.find?] at this
      exact absurd this (hm.2 e (by simp))
    | cons e' t' =>
      obtain ⟨a, v⟩ := e
      obtain ⟨a', v'⟩ := e'
      have p := List.pairwise_cons.1 hm.1
      have p' := List.pairwise_cons.1 hm'.1
      have lt : ∀ x ∈ t, a < x.1 := fun x hx => p.1 _ (List.mem_map_of_mem hx)
      have lt' : ∀ x ∈ t', a' < x.1 := fun x hx => p'.1 _ (List.mem_map_of_mem hx)
      have ea : a = a' := by
        rcases Nat.lt_trichotomy a a' with hlt | heq | hgt
        · have := h a
          rw [SMap.get, SMap.get, key hm'.1 a (by
            intro x hx; rcases List.mem_cons.1 hx with rfl | hx
            · exact hlt
            · exact Nat.lt_trans hlt (lt' x hx))] at this
          simp [SMap.find?] at this
          exact absurd this (hm.2 (a, v) (by simp))
        · exact heq
        · have := h a'
          rw [SMap.get, SMap.get, key hm.1 a' (by
            intro x hx; rcases List.mem_cons.1 hx with rfl | hx
            · exact hgt
            · exact Nat.lt_trans hgt (lt x hx))] at this
          simp [SMap.find?] at this
          exact absurd this.symm (hm'.2 (a', v') (by simp))
      subst ea
      have ev : v = v' := by have := h a; simpa [SMap.get, SMap.find?] using this
      subst ev
      congr 1
      refine ih ⟨p.2, fun e he => hm.2 e (by simp [he])⟩ ⟨p'.2, fun e he => hm'.2 e (by simp [he])⟩ (fun k => ?_)
      by_cases hk : k = a
      · subst hk
        rw [SMap.get, SMap.get, key p.2 k lt, key p'.2 k lt']
      · have := h k
        simpa [SMap.get, SMap.find?, Ne.symm hk] using this

end Sys2Proof.Machine
end

