-- ==== Sys2Proof/Laws/Bits.lean ====
section
/-!
SUPPORT. The laws of bit fields: a field that was put reads back, a field that shares no bit with it reads as before; and the same of
the fields of registers.
-/

namespace Sys2Proof.Machine

theorem bitsOf_lt (v lo w : Nat) : bitsOf v lo w < 2 ^ w := Nat.mod_lt _ (Nat.two_pow_pos w)

/-- A field by its bits. -/
theorem testBit_bitsOf (v lo w i : Nat) : (bitsOf v lo w).testBit i = (decide (i < w) && v.testBit (lo + i)) := by
  rw [bitsOf, Nat.testBit_mod_two_pow, Nat.testBit_div_two_pow, Nat.add_comm]

/-- A number with a field put: the bits below, the field, the bits above. -/
theorem putBits_eq (v lo w x : Nat) : putBits v lo w x = 2 ^ lo * (2 ^ w * (v / 2 ^ lo / 2 ^ w) + x % 2 ^ w) + v % 2 ^ lo := by
  have h1 := Nat.div_add_mod v (2 ^ lo)
  have h2 := Nat.div_add_mod (v / 2 ^ lo) (2 ^ w)
  unfold putBits bitsOf
  generalize v / 2 ^ lo % 2 ^ w = b at *
  generalize v % 2 ^ lo = c at *
  generalize v / 2 ^ lo / 2 ^ w = d at *
  generalize v / 2 ^ lo = q at *
  subst h1 h2
  rw [Nat.mul_add, Nat.mul_add, Nat.mul_comm b, Nat.mul_comm (x % 2 ^ w)]
  omega

/-- A number with a field put, by its bits. -/
theorem testBit_putBits (v lo w x i : Nat) :
    (putBits v lo w x).testBit i = if lo ≤ i ∧ i < lo + w then x.testBit (i - lo) else v.testBit i := by
  rw [putBits_eq, Nat.testBit_two_pow_mul_add _ (Nat.mod_lt _ (Nat.two_pow_pos lo))]
  by_cases h : i < lo
  · have : ¬(lo ≤ i ∧ i < lo + w) := by omega
    simp only [h, this, if_true, if_false, Nat.testBit_mod_two_pow, decide_true, Bool.true_and]
  · simp only [h, if_false]
    rw [Nat.testBit_two_pow_mul_add _ (Nat.mod_lt _ (Nat.two_pow_pos w))]
    by_cases h' : i - lo < w
    · have : lo ≤ i ∧ i < lo + w := by omega
      simp only [h', this, and_self, if_true, Nat.testBit_mod_two_pow, decide_true, Bool.true_and]
    · have : ¬(lo ≤ i ∧ i < lo + w) := by omega
      simp only [h', this, if_false, Nat.testBit_div_two_pow]
      congr 1; omega

/-- A field that was put reads back. -/
theorem bitsOf_putBits_self (v lo w x : Nat) : bitsOf (putBits v lo w x) lo w = x % 2 ^ w := by
  apply Nat.eq_of_testBit_eq
  intro i
  rw [testBit_bitsOf, testBit_putBits, Nat.testBit_mod_two_pow]
  by_cases h : i < w
  · have : lo ≤ lo + i ∧ lo + i < lo + w := by omega
    simp only [h, this, and_self, if_true, decide_true, Bool.true_and, Nat.add_sub_cancel_left]
  · simp [h]

/-- A field that shares no bit with the one that was put reads as before. -/
theorem bitsOf_putBits_ne (v lo w x lo' w' : Nat) (h : lo' + w' ≤ lo ∨ lo + w ≤ lo') :
    bitsOf (putBits v lo w x) lo' w' = bitsOf v lo' w' := by
  apply Nat.eq_of_testBit_eq
  intro i
  rw [testBit_bitsOf, testBit_bitsOf, testBit_putBits]
  by_cases hi : i < w'
  · have : ¬(lo ≤ lo' + i ∧ lo' + i < lo + w) := by omega
    simp only [this, if_false]
  · simp [hi]

/-- A bit is a field of width 1. -/
theorem bitAt_eq (v i : Nat) : bitAt v i = (bitsOf v i 1 == 1) := rfl

theorem putBits_lt {v lo w x n : Nat} (hv : v < 2 ^ n) (h : lo + w ≤ n) : putBits v lo w x < 2 ^ n := by
  apply Nat.lt_pow_two_of_testBit
  intro i hi
  rw [testBit_putBits]
  have : ¬(lo ≤ i ∧ i < lo + w) := by omega
  simp only [this, if_false]
  exact Nat.testBit_lt_two_pow (Nat.lt_of_lt_of_le hv (Nat.pow_le_pow_right (by decide) hi))

/-! ## Registers -/

theorem regKey_ne {s o s' o' : Nat} (ho : o < 4096) (ho' : o' < 4096) (h : s ≠ s' ∨ o ≠ o') : regKey s o ≠ regKey s' o' := by
  unfold regKey; omega

/-- A register that was set reads back, at 64 bits. -/
theorem State.reg_setReg (s : State) (slot off v : Nat) : (s.setReg slot off v).reg slot off = v % 2 ^ 64 := by
  unfold State.reg State.setReg
  rw [SMap.get_set_self, BitVec.toNat_ofNat]

/-- Another register reads as before. -/
theorem State.reg_setReg_ne (s : State) (slot off v slot' off' : Nat) (h : regKey slot' off' ≠ regKey slot off) :
    (s.setReg slot off v).reg slot' off' = s.reg slot' off' := by
  unfold State.reg State.setReg
  rw [SMap.get_set_ne _ _ _ _ h]

theorem State.reg_lt (s : State) (slot off : Nat) : s.reg slot off < 2 ^ 64 := BitVec.isLt _

/-- A register with a field set. -/
theorem State.reg_setFld (s : State) (slot off lo w x : Nat) (h : lo + w ≤ 64) :
    (s.setFld slot off lo w x).reg slot off = putBits (s.reg slot off) lo w x := by
  rw [State.setFld, State.reg_setReg, Nat.mod_eq_of_lt (putBits_lt (s.reg_lt slot off) h)]

theorem State.reg_setFld_ne (s : State) (slot off lo w x slot' off' : Nat) (h : regKey slot' off' ≠ regKey slot off) :
    (s.setFld slot off lo w x).reg slot' off' = s.reg slot' off' := State.reg_setReg_ne _ _ _ _ _ _ h

/-- A field that was set reads back. -/
theorem State.fld_setFld (s : State) (slot off lo w x : Nat) (h : lo + w ≤ 64) :
    (s.setFld slot off lo w x).fld slot off lo w = x % 2 ^ w := by
  rw [State.fld, State.reg_setFld _ _ _ _ _ _ h, bitsOf_putBits_self]

/-- Another field of the register reads as before. -/
theorem State.fld_setFld_ne (s : State) (slot off lo w x lo' w' : Nat) (h : lo + w ≤ 64) (hd : lo' + w' ≤ lo ∨ lo + w ≤ lo') :
    (s.setFld slot off lo w x).fld slot off lo' w' = s.fld slot off lo' w' := by
  rw [State.fld, State.reg_setFld _ _ _ _ _ _ h, bitsOf_putBits_ne _ _ _ _ _ _ hd, State.fld]

/-- A bit that was set reads back. -/
theorem State.flag_setFlag (s : State) (slot off i : Nat) (v : Bool) (h : i < 64) : (s.setFlag slot off i v).flag slot off i = v := by
  have := State.fld_setFld s slot off i 1 (b2n v) (by omega)
  rw [State.flag, bitAt_eq]
  rw [State.fld] at this
  rw [State.setFlag, this]
  cases v <;> rfl

/-- Another bit of the register reads as before. -/
theorem State.flag_setFlag_ne (s : State) (slot off i j : Nat) (v : Bool) (h : i < 64) (hd : i ≠ j) :
    (s.setFlag slot off i v).flag slot off j = s.flag slot off j := by
  have := State.fld_setFld_ne s slot off i 1 (b2n v) j 1 (by omega) (by omega)
  rw [State.fld, State.fld] at this
  rw [State.flag, State.flag, bitAt_eq, bitAt_eq, State.setFlag, this]

/-- The canonical form of the register map is kept. -/
theorem regsWf_setReg {s : State} (slot off v : Nat) (h : SMap.wf regReset s.regs = true) :
    SMap.wf regReset (s.setReg slot off v).regs = true := SMap.wf_set _ _ h

end Sys2Proof.Machine
end

