-- ==== Sys2Proof/Laws/Issue.lean ====
section
/-!
SUPPORT. The laws of one issue of an instruction: what it answers when its body completes, when it raises an exception, when it
waits and when it meets what the spec leaves Unpredictable.
-/

namespace Sys2Proof.Machine

/-- A bound bank belongs to the stove of its flue. -/
theorem boundTo_stove {s : State} {st : BitVec 6} {fl : BitVec 2} {b : Bank} (h : s.boundTo st fl = some b) : b.stove = st := by
  have := List.find?_some h; simp at this; exact this.1

/-- Nothing that the physical world does leaves the state as it is. -/
theorem before_nothing {s : State} {b : Bank} {env : Env} (h : env.mem = [] ∧ env.evicted = [] ∧ env.excess = []) : s.before b env = s := by
  unfold State.before State.overrun
  rw [h.1, h.2.1, h.2.2]
  simp only [List.foldl]
  exact ite_self _

/-- No line granted without data, no change. -/
theorem grantBare_nothing (s t : State) (stove : BitVec 6) : State.grantBare s t stove [] = t := by
  simp [State.grantBare]

/-- Work that no held line blocks is the work. -/
theorem unlessBlocked_free {entry : Bool} {m : M Nat} {c : Cpu} (h : c.s.blockedStores c.b.ctx = []) : unlessBlocked entry m c = m c := by
  simp only [unlessBlocked, h, List.isEmpty_nil, if_true]

/-- What an issue of a ready instruction does with its body's work. -/
theorem issue_ready {i : Issue} {s : State} {b : Bank} {c : Cpu} (h : Ready i s b c) (body : Body) :
    issue body i s = outcome s (match body.run i.word (c.withImage body.op i.word) with
      | .error (.wait x) c' => .ok (c'.withdraws body.op i.word x)
      | .error (.fault f) _ => .error f
      | .error (.exc e) c' => .ok (c'.places.takeException c'.ck e (insWord body.op i.word).toNat)
      | .ok n c' => c'.settle.s.complete b c'.settle n) := by
  have hst := boundTo_stove h.bound
  have hw : (!s.stoveRuns i.stove || s.flueShut i.stove i.flue || b.wait.isSome || b.wdrawn.isSome) = false := by
    simp [h.runs, h.issues, h.awake.1, h.awake.2.1]
  have hb : s.boundary b = s := by simp [State.boundary, h.plain.1]
  have hres := h.awake.2.2
  have hf : body.fetched i.word c = body.run i.word (c.withImage body.op i.word) := rfl
  have hm : ∀ x : Except Fault State, x.map (fun t => t) = x := fun x => by cases x <;> rfl
  have he : { Cpu.start s b i.env.device with replay := [], latch := s.tod, block := none } = Cpu.start s b i.env.device := rfl
  unfold issue
  simp only [h.bound, hw, Bool.false_eq_true, if_false, hb, h.here]
  unfold State.issueBank
  simp only [before_nothing ⟨h.world.2.1, h.world.2.2.1, h.world.2.2.2.1⟩, h.here, hst, h.runs, if_true, h.world.2.2.2.2, grantBare_nothing]
  unfold State.work
  simp only [h.world.1, h.awake.2.1, Option.map_none, Option.getD_none, Option.bind_none, Option.filter_none, he, h.fetched, h.plain.1,
    Bool.false_eq_true, if_false]
  unfold State.runPlain
  cases b.saved with
  | none =>
    simp only [unlessBlocked_free h.free, hf]
    rw [hm] <;> (rcases body.run i.word (c.withImage body.op i.word) with _ | ⟨_ | _ | _, _⟩ <;> rfl)
  | some x =>
    simp only [unlessBlocked_free h.free, hres, if_true, hf]
    rw [hm] <;> (rcases body.run i.word (c.withImage body.op i.word) with _ | ⟨_ | _ | _, _⟩ <;> rfl)

/-- Completion of an instruction that neither resumes, nor refires, nor is single-stepped. -/
theorem complete_retires {b : Bank} {c : Cpu} {n : Nat} {t : State} (hb : b.psw.rf = false ∧ b.psw.dbg = false) (hr : b.resume = 0)
    (h : c.Retires n t) : c.settle.s.complete b c.settle n = .ok t := by
  have e := h.2
  have hn := h.1
  have e' : (c.settle.s.putBank ({ c.settle.b.setPsw (nextPsw c.settle.b.psw false c.next) with
    charged := c.settle.b.charged + (n + c.sur), slice := c.settle.b.slice + (n + c.sur), leave := c.next.leaves c.settle.b.leave,
    resume := c.next.resumes c.settle.b.resume, wdrawn := none, wait := none, cont := decide (c.next = .stay), spillBad := false })).performAll c.b.ctx c.after = .ok t := e
  have hs : c.settle.sur = c.sur := rfl
  have ha : c.settle.after = c.after := rfl
  have hx : c.settle.next = c.next := rfl
  unfold State.complete
  simp only [chargeOf, hb.1, hb.2, hr, Bool.false_eq_true, if_false, bne_self_eq_false, Bool.false_and, Nat.sub_zero, Nat.add_zero, hs, ha, hx]
  erw [e']
  dsimp only
  split
  · rfl
  · split
    · exact absurd ‹_› (hn _)
    all_goals rfl

/-- A ready instruction whose body completes leaves what its completion leaves. -/
theorem issue_completes {i : Issue} {s t : State} {b : Bank} {c c' : Cpu} {body : Body} {n : Nat} (h : Ready i s b c)
    (hr : body.run i.word (c.withImage body.op i.word) = .ok n c') (ht : c'.Retires n t) : issue body i s = .next (s.after t) := by
  rw [issue_ready h, hr]
  dsimp only
  rw [complete_retires h.plain h.awake.2.2 ht]
  rfl

/-- A ready instruction whose body raises an exception takes it. -/
theorem issue_traps {i : Issue} {s : State} {b : Bank} {c c' : Cpu} {body : Body} {e : Exc} (h : Ready i s b c)
    (hr : body.run i.word (c.withImage body.op i.word) = .error (.exc e) c') :
    issue body i s = .next (s.after (c'.takes body.op i.word e)) := by
  rw [issue_ready h, hr]; rfl

/-- A ready instruction whose body meets a wait has its microword withdrawn. -/
theorem issue_waits {i : Issue} {s : State} {b : Bank} {c c' : Cpu} {body : Body} {x : WaitCause} (h : Ready i s b c)
    (hr : body.run i.word (c.withImage body.op i.word) = .error (.wait x) c') :
    issue body i s = .next (s.after (c'.withdraws body.op i.word x)) := by
  rw [issue_ready h, hr]; rfl

/-- A word that is accepted in a shape passes its checks, whatever else holds. -/
theorem checkShape_ok {sh : Shape} {w : Word112} {c : Cpu} (h : Accepted sh w c.b.psw) : checkShape sh w c = .ok () c := by
  have h1 : (sh.priv && !c.b.psw.sup) = false := by
    cases hp : sh.priv
    · rfl
    · simp [h.mode hp]
  have h2 : (!sh.repeats && c.b.psw.rcnt != 0) = false := by
    rcases h.rep with h | h <;> simp [h]
  have h3 := h.fmt
  have h4 := h.opnds
  simp only [checkShape, getPsw, raiseIf, raiseCode, raise, bind, EStateM.bind, get, getThe, MonadStateOf.get, EStateM.get, pure,
    EStateM.pure, h1, h2, h3, h4, Bool.not_true, Bool.false_eq_true, if_false]

end Sys2Proof.Machine
end

