-- ==== Sys2Proof/Laws/Ops.lean ====
section
/-!
SUPPORT. What the shared operations of an executing context leave: a relation that every completed piece of work keeps, the frame
of an access check, and the frame of the fetch.
-/

namespace Sys2Proof.Machine

/-- Work that, when it completes, leaves its Cpu in the relation `R` to where it began. -/
def Sure {α : Type} (R : Cpu → Cpu → Prop) (m : M α) : Prop := ∀ c a c', m c = .ok a c' → R c c'

namespace Sure

variable {α β : Type} {R : Cpu → Cpu → Prop}

theorem pure (hR : ∀ c, R c c) (a : α) : Sure R (Pure.pure a : M α) := by
  intro c x c' h; cases h; exact hR c

theorem get (hR : ∀ c, R c c) : Sure R (MonadState.get : M Cpu) := by
  intro c x c' h; cases h; exact hR c

theorem throw (e : Stop) : Sure R (MonadExcept.throw e : M α) := by
  intro c x c' h; cases h

theorem raise (e : Exc) : Sure R (Machine.raise e : M α) := throw _

theorem modify {f : Cpu → Cpu} (h : ∀ c, R c (f c)) : Sure R (modify f : M PUnit) := by
  intro c x c' hc; cases hc; exact h c

theorem bind {m : M α} {f : α → M β} (hT : ∀ {x y z}, R x y → R y z → R x z) (hm : Sure R m) (hf : ∀ a, Sure R (f a)) :
    Sure R (m >>= f) := by
  intro c b c' h
  simp only [Bind.bind, EStateM.bind] at h
  split at h
  · exact hT (hm _ _ _ ‹_›) (hf _ _ _ _ h)
  · cases h

/-- Work that raises completes nowhere, whatever came before. -/
theorem raised {m : M α} {e : Exc} {f : α → β → M β} : Sure R (m >>= fun a => (Machine.raise e : M β) >>= f a) := by
  intro c b c' h
  simp only [Bind.bind, EStateM.bind] at h
  split at h <;> cases h

/-- A loop of pieces of work, each of which keeps the relation. -/
theorem forIn (hR : ∀ c, R c c) (hT : ∀ {x y z}, R x y → R y z → R x z)
    {f : α → β → M (ForInStep β)} (l : List α) (b : β) (h : ∀ a b, Sure R (f a b)) : Sure R (forIn l b f) := by
  induction l generalizing b with
  | nil => exact Sure.pure hR _
  | cons a t ih =>
    rw [List.forIn_cons]
    refine Sure.bind hT (h a b) fun r => ?_
    cases r with
    | done b => exact Sure.pure hR _
    | yield b => exact ih b

end Sure

/-- R396: a Cpu whose record of what it has done may differ, and its memory, and that only while FSTEN is 1. -/
def OnlyMarks (c c' : Cpu) : Prop :=
  c' = { c with s := { c.s with mem := c'.s.mem }, replay := c'.replay, log := c'.log, acc := c'.acc }
    ∧ (c.s.flag Slot.key Off.KEY.KEYCTL 0 = false → c'.s.mem = c.s.mem)

theorem OnlyMarks.refl (c : Cpu) : OnlyMarks c c := ⟨rfl, fun _ => rfl⟩

theorem OnlyMarks.trans {x y z : Cpu} (h : OnlyMarks x y) (k : OnlyMarks y z) : OnlyMarks x z := by
  obtain ⟨h1, h2⟩ := h
  obtain ⟨k1, k2⟩ := k
  have hf : y.s.flag Slot.key Off.KEY.KEYCTL 0 = x.s.flag Slot.key Off.KEY.KEYCTL 0 := by rw [h1]; rfl
  refine ⟨?_, fun h => (k2 (hf ▸ h)).trans (h2 h)⟩
  rw [k1, h1]

/-- Marking a frame changes memory alone, and nothing while FSTEN is 0. -/
theorem markFrame_frame (s : State) (a : Nat) (st : Bool) :
    s.markFrame a st = { s with mem := (s.markFrame a st).mem } ∧
    (s.flag Slot.key Off.KEY.KEYCTL 0 = false → (s.markFrame a st).mem = s.mem) := by
  unfold State.markFrame State.setRefChg
  by_cases hf : s.flag Slot.key Off.KEY.KEYCTL 0 = true
  · simp only [hf, if_true]
    exact ⟨by (repeat' split) <;> rfl, fun h => by simp at h⟩
  · simp only [hf, Bool.false_eq_true, if_false, ite_self]
    exact ⟨trivial, fun _ => trivial⟩

theorem OnlyMarks.pure {α : Type} (a : α) : Sure OnlyMarks (Pure.pure a : M α) := Sure.pure OnlyMarks.refl a
theorem OnlyMarks.bind {α β : Type} {m : M α} {f : α → M β} (hm : Sure OnlyMarks m) (hf : ∀ a, Sure OnlyMarks (f a)) :
    Sure OnlyMarks (m >>= f) := Sure.bind OnlyMarks.trans hm hf
theorem OnlyMarks.get : Sure OnlyMarks (MonadState.get : M Cpu) := Sure.get OnlyMarks.refl

/-- A completed translation changes nothing. -/
theorem translateAccess_frame (k : Acc) (te : Bool) (la : Nat) (e : Exc) : Sure OnlyMarks (translateAccess k te la e) := by
  unfold translateAccess
  refine OnlyMarks.bind OnlyMarks.get (fun c => ?_)
  repeat' first
    | exact OnlyMarks.pure _
    | exact Sure.raise _
    | split
  all_goals
    intro c' a c'' h
    cases h

theorem OnlyMarks.when {p : Prop} [Decidable p] {e : Exc} : Sure OnlyMarks (raiseWhen p e) := by
  unfold raiseWhen
  split
  · exact Sure.raise _
  · exact OnlyMarks.pure _

theorem sizeRule_frame (s : State) (k : Acc) (pa len total : Nat) (e : Exc) : Sure OnlyMarks (sizeRule s k pa len total e) := by
  unfold sizeRule
  repeat' first
    | exact OnlyMarks.pure _
    | exact OnlyMarks.when
    | exact Sure.throw _
    | split

theorem ordinaryRule_frame (s : State) (k : Acc) (via : Via) (key : BitVec 4) (pa : Nat) (e : Exc) :
    Sure OnlyMarks (ordinaryRule s k via key pa e) := by
  unfold ordinaryRule
  split
  · refine OnlyMarks.bind ?_ (fun _ => OnlyMarks.bind OnlyMarks.when (fun _ => OnlyMarks.bind OnlyMarks.when (fun _ => ?_)))
    · unfold keyLostRule
      split
      · intro c a c' h; cases h
      · exact OnlyMarks.pure _
    · exact Sure.modify (fun c => ⟨congrArg (fun s => { c with s := s }) (markFrame_frame _ _ _).1, (markFrame_frame _ _ _).2⟩)
  · exact OnlyMarks.pure _

/-- A completed access check up to its data changes nothing but the marks of the frame. -/
theorem reachAccess_frame (k : Acc) (via : Via) (la len total : Nat) (second : Bool) :
    Sure OnlyMarks (reachAccess k via la len total second) := by
  unfold reachAccess scratchCt getPsw
  repeat' first
    | exact OnlyMarks.pure _
    | exact OnlyMarks.get
    | exact OnlyMarks.when
    | exact translateAccess_frame _ _ _ _
    | exact sizeRule_frame _ _ _ _ _ _
    | exact ordinaryRule_frame _ _ _ _ _ _
    | refine OnlyMarks.bind ?_ (fun _ => ?_)

/-- A completed access check changes nothing but the marks of the frame. -/
theorem checkAccess_frame (k : Acc) (via : Via) (la len total : Nat) (second : Bool) :
    Sure OnlyMarks (checkAccess k via la len total second) := by
  unfold checkAccess scratchCt
  repeat' first
    | exact OnlyMarks.pure _
    | exact OnlyMarks.get
    | exact OnlyMarks.when
    | exact reachAccess_frame _ _ _ _ _ _
    | refine OnlyMarks.bind ?_ (fun _ => ?_)

/-- A check that is kept changes what the check changes, and the record. -/
theorem keptReach_frame {m : M Nat} (h : Sure OnlyMarks m) : Sure OnlyMarks (keptReach m) := by
  refine OnlyMarks.bind OnlyMarks.get fun c => ?_
  split
  · exact OnlyMarks.bind (Sure.modify fun _ => ⟨rfl, fun _ => rfl⟩) fun _ => OnlyMarks.pure _
  all_goals
    intro c a c' hc
    unfold keepingReach at hc
    split at hc
    · rename_i pa c1 hm
      cases hc
      exact OnlyMarks.trans (h _ _ _ hm) ⟨rfl, fun _ => rfl⟩
    · cases hc

/-- A completed check of pieces by `check` changes nothing but the marks of their frames, and the record, where `check` does. -/
theorem checkPiecesBy_frame {check : Acc → Nat → Nat → Bool → M Nat} (hc : ∀ k la len second, Sure OnlyMarks (check k la len second))
    (ks : List Acc) (via : Via) (first : Option Range) (ps : List (Nat × Nat)) : Sure OnlyMarks (checkPiecesBy check ks via first ps) := by
  induction ps generalizing first with
  | nil => exact OnlyMarks.pure _
  | cons p t ih =>
    obtain ⟨la, len⟩ := p
    unfold checkPiecesBy
    refine OnlyMarks.bind (Sure.forIn OnlyMarks.refl OnlyMarks.trans _ _ fun k b =>
      OnlyMarks.bind (keptReach_frame (hc _ _ _ _)) fun _ => OnlyMarks.pure _) fun pa =>
      OnlyMarks.bind OnlyMarks.get fun c => ?_
    have rest := OnlyMarks.bind (ih (some (first.getD (c.s.rowOf pa)))) fun r => OnlyMarks.pure
      (Piece.mk (la % 2 ^ 64) pa len false ((if first.isNone && t.isEmpty then blockCharge pa len else 0)
        + ((t.head?.map (fun n => pageCharge (la % 2 ^ 64) len n.1)).getD 0)) :: r)
    cases first with
    | none => exact rest
    | some f =>
      dsimp only
      split
      · intro x a y h; cases h
      · exact rest

/-- A completed check of the pieces of an operand changes nothing but the marks of their frames, and the record. -/
theorem checkPieces_frame (ks : List Acc) (via : Via) (total : Nat) (first : Option Range) (ps : List (Nat × Nat)) :
    Sure OnlyMarks (checkPieces ks via total first ps) :=
  checkPiecesBy_frame (fun _ _ _ _ => checkAccess_frame _ _ _ _ _ _) ks via first ps

/-- A Cpu whose machine and record of what it has done alone may differ. -/
def OnlyFetched (c c' : Cpu) : Prop := c' = { c with s := c'.s, replay := c'.replay, log := c'.log, acc := c'.acc }

theorem OnlyFetched.refl (c : Cpu) : OnlyFetched c c := rfl
theorem OnlyFetched.trans {x y z : Cpu} (h : OnlyFetched x y) (k : OnlyFetched y z) : OnlyFetched x z := by
  unfold OnlyFetched at *; rw [k, h]
theorem OnlyMarks.fetched {c c' : Cpu} (h : OnlyMarks c c') : OnlyFetched c c' := by
  unfold OnlyFetched; rw [h.1]

/-- What waiting for lines outside a forming changes: nothing. -/
theorem awaitLines_frame {ps : List Piece} {c c' : Cpu} (hp : c.pass ≠ .form) (h : awaitLines ps c = .ok () c') : c' = c := by
  unfold awaitLines at h
  simp only [Bind.bind, EStateM.bind, MonadState.get, MonadStateOf.get, getThe, EStateM.get, hp, if_false] at h
  split at h
  · cases h
  · split at h
    · cases h
    · cases h; rfl

/-- A drain of no store changes nothing. -/
theorem drainFetch_none {s : State} {ctx : BitVec 20} {a n : Nat} (h : s.ownStores ctx = []) : s.drainFetch ctx a n = s := by
  simp only [State.drainFetch, h, List.any_nil, Bool.false_eq_true, if_false]

/-- What a completed fetch has done: its checks, the drain of the stores it overlaps, and its record. -/
theorem fetchAt_steps {a pa : Nat} {c c' : Cpu} (hp : c.pass ≠ .form) (h : fetchAt a c = .ok pa c') :
    ∃ c1, OnlyMarks c c1
      ∧ c' = { c1 with s := c1.s.drainFetch c1.b.ctx pa 16, acc := c1.acc ++ [c1.s.fetchNote c1.b.ctx pa] } := by
  unfold fetchAt at h
  simp only [Bind.bind, EStateM.bind] at h
  split at h
  · rename_i pa1 c1 h1
    have hm := checkAccess_frame _ _ _ _ _ _ _ _ _ h1
    have hp1 : c1.pass ≠ .form := by rw [hm.1]; exact hp
    split at h
    · rename_i u c2 h2
      obtain rfl := awaitLines_frame hp1 h2
      cases h
      exact ⟨_, hm, rfl⟩
    · cases h
  · cases h

/-- R107, R296, R396: the fetch of an instruction changes the machine and the record alone; without a buffered store of its own it
changes nothing but the marks of the frame it reads. -/
theorem fetchCheck_frame {c c' : Cpu} (hp : c.pass ≠ .form) (h : fetchCheck c = .ok () c') :
    OnlyFetched c c' ∧ (c.s.ownStores c.b.ctx = [] → OnlyMarks c c') := by
  unfold fetchCheck keptReach keepingReach replayed at h
  simp only [Bind.bind, EStateM.bind, getPsw, MonadState.get, MonadStateOf.get, getThe, EStateM.get, pure, EStateM.pure] at h
  cases hr : c.replay with
  | nil =>
    simp only [hr] at h
    split at h
    · rename_i x c1 h1
      cases h
      split at h1
      · rename_i pa c2 h2
        cases h1
        obtain ⟨c3, hm, rfl⟩ := fetchAt_steps hp h2
        refine ⟨OnlyFetched.trans hm.fetched rfl, fun hs => OnlyMarks.trans hm ?_⟩
        have ho : c3.s.ownStores c3.b.ctx = [] := by rw [hm.1]; exact hs
        exact ⟨by simp only [drainFetch_none ho], fun _ => by simp only [drainFetch_none ho]⟩
      · cases h1
    · cases h
  | cons k t =>
    cases k with
    | reach pa acc =>
      simp only [hr] at h
      cases h
      exact ⟨rfl, fun _ => ⟨rfl, fun _ => rfl⟩⟩
    | _ =>
      simp only [hr] at h
      split at h
      · rename_i x c1 h1
        cases h
        split at h1
        · rename_i pa c2 h2
          cases h1
          obtain ⟨c3, hm, rfl⟩ := fetchAt_steps hp h2
          refine ⟨OnlyFetched.trans hm.fetched rfl, fun hs => OnlyMarks.trans hm ?_⟩
          have ho : c3.s.ownStores c3.b.ctx = [] := by rw [hm.1]; exact hs
          exact ⟨by simp only [drainFetch_none ho], fun _ => by simp only [drainFetch_none ho]⟩
        · cases h1
      · cases h

/-- The fetch keeps the bank. -/
theorem fetchCheck_bank {c c' : Cpu} (hp : c.pass ≠ .form) (h : fetchCheck c = .ok () c') : c'.b = c.b := by
  rw [(fetchCheck_frame hp h).1]

/-- An instruction that starts passes the encoding checks of its shape. -/
theorem starts_checkShape {op : BitVec 12} {sh : Shape} {i : Issue} {s : State} {c : Cpu} (h : Starts op sh i s c) :
    checkShape sh i.word c = .ok () c := by
  obtain ⟨b, c', hr, ha, rfl⟩ := h
  have : (c'.withImage op i.word).b.psw = b.psw := by
    show c'.b.psw = _
    rw [fetchCheck_bank (by simp [Cpu.start]) hr.fetched]; rfl
  exact checkShape_ok (this ▸ ha)

/-- An instruction starts from the Cpu of its bank as it stands, but for the machine that its fetch leaves and its record. -/
theorem starts_cpu {op : BitVec 12} {sh : Shape} {i : Issue} {s : State} {c : Cpu} {b : Bank} (h : Starts op sh i s c)
    (hb : s.boundTo i.stove i.flue = some b) :
    c = { (Cpu.start s b i.env.device).withImage op i.word with s := c.s, replay := c.replay, log := c.log, acc := c.acc } := by
  obtain ⟨b', c', hr, -, rfl⟩ := h
  obtain rfl : b' = b := Option.some.inj (hr.bound.symm.trans hb)
  have h1 := (fetchCheck_frame (by simp [Cpu.start]) hr.fetched).1
  unfold OnlyFetched at h1
  rw [h1]; rfl

/-- An instruction that starts runs plainly. -/
theorem starts_pass {op : BitVec 12} {sh : Shape} {i : Issue} {s : State} {c : Cpu} (h : Starts op sh i s c) : c.pass = .plain := by
  obtain ⟨b, c', hr, ha, hc⟩ := h
  rw [starts_cpu ⟨b, c', hr, ha, hc⟩ hr.bound]; rfl

/-- An instruction that starts completes when its body does. -/
theorem starts_completes {body : Body} {sh : Shape} {i : Issue} {s t : State} {c c' : Cpu} {n : Nat} (h : Starts body.op sh i s c)
    (hr : body.run i.word c = .ok n c') (ht : c'.Retires n t) : issue body i s = .next (s.after t) := by
  obtain ⟨b, c', hr', ha, rfl⟩ := h
  exact issue_completes hr' hr ht

/-- An instruction that starts takes the exception its body raises. -/
theorem starts_traps {body : Body} {sh : Shape} {i : Issue} {s : State} {c c' : Cpu} {e : Exc} (h : Starts body.op sh i s c)
    (hr : body.run i.word c = .error (.exc e) c') : issue body i s = .next (s.after (c'.takes body.op i.word e)) := by
  obtain ⟨b, c', hr', ha, rfl⟩ := h
  exact issue_traps hr' hr

end Sys2Proof.Machine
end

