-- ==== Sys2Proof/Laws/Passes.lean ====
section
/-!
SUPPORT. Forming and reading operands keeps how a Cpu works: what an instruction raises after them, it raises outside a micro-trap as
the rules say.
-/

namespace Sys2Proof.Machine

/-- A Cpu that works in the same way. -/
def SamePass (c c' : Cpu) : Prop := c'.pass = c.pass

namespace SamePass

theorem refl (c : Cpu) : SamePass c c := rfl
theorem trans {x y z : Cpu} (h : SamePass x y) (k : SamePass y z) : SamePass x z := Eq.trans k h
theorem plain {x y : Cpu} (h : SamePass x y) (k : x.pass = .plain) : y.pass = .plain := Eq.trans h k
theorem pure {α : Type} (a : α) : Sure SamePass (Pure.pure a : M α) := Sure.pure refl a
theorem bind {α β : Type} {m : M α} {f : α → M β} (hm : Sure SamePass m) (hf : ∀ a, Sure SamePass (f a)) : Sure SamePass (m >>= f) :=
  Sure.bind trans hm hf
theorem get : Sure SamePass (MonadState.get : M Cpu) := Sure.get refl
theorem modify {f : Cpu → Cpu} (h : ∀ c, (f c).pass = c.pass) : Sure SamePass (modify f) := Sure.modify h
theorem of_marks {α : Type} {m : M α} (h : Sure OnlyMarks m) : Sure SamePass m := fun c a c' hc => by
  unfold SamePass; rw [(h c a c' hc).1]
theorem raiseIf (b : Bool) (code : Nat) : Sure SamePass (Machine.raiseIf b code) := by
  unfold Machine.raiseIf raiseCode
  split
  · exact Sure.raise _
  · exact pure _
theorem raiseWhen (p : Prop) [Decidable p] (e : Exc) : Sure SamePass (Machine.raiseWhen p e) := by
  unfold Machine.raiseWhen
  split
  · exact Sure.raise _
  · exact pure _

theorem throw {α : Type} (e : Stop) : Sure SamePass (MonadExcept.throw e : M α) := Sure.throw e
theorem raise {α : Type} (e : Exc) : Sure SamePass (Machine.raise e : M α) := Sure.raise e
theorem modB (f : Bank → Bank) : Sure SamePass (Machine.modB f) := modify fun _ => rfl
theorem modS (f : State → State) : Sure SamePass (Machine.modS f) := modify fun _ => rfl
/-- Work that looks at its Cpu first. -/
theorem of_get {α : Type} {f : Cpu → M α} (h : ∀ c a c', f c c = .ok a c' → SamePass c c') : Sure SamePass (MonadState.get >>= f) :=
  fun c a c' hc => h c a c' hc

/-- A read that is kept works as the read does. -/
theorem keptRead {m : M (List Byte)} (h : Sure SamePass m) : Sure SamePass (Machine.keptRead m) := by
  refine bind get fun c => ?_
  have hk : Sure SamePass (keepingRead m) := by
    intro c a c' hc
    unfold keepingRead at hc
    split at hc
    · rename_i bs c1 hm
      cases hc
      exact (h _ _ _ hm : c1.pass = c.pass)
    all_goals cases hc
  split
  · exact bind (modify fun _ => rfl) fun _ => pure _
  · exact bind (modify fun _ => rfl) fun _ => raise _
  all_goals exact hk

theorem getB : Sure SamePass Machine.getB := bind get fun _ => pure _
theorem drainOwn : Sure SamePass Machine.drainOwn := bind getB fun _ => modS _

theorem takeCompletion (pa len : Nat) (e : Exc) : Sure SamePass (Machine.takeCompletion pa len e) := by
  refine of_get fun c a c' h => ?_
  cases hd : c.dev with
  | nil => simp only [hd] at h; cases h
  | cons x t =>
    simp only [hd] at h
    split at h
    · cases h
    · cases x <;> cases h
      rfl

theorem loadDevice (p : Piece) (second : Bool) : Sure SamePass (Machine.loadDevice p second) := by
  unfold Machine.loadDevice
  repeat' first
    | exact pure _
    | exact get
    | exact drainOwn
    | exact modS _
    | exact takeCompletion _ _ _
    | refine bind ?_ (fun _ => ?_)
    | split

theorem loadPiece (p : Piece) (second : Bool) : Sure SamePass (Machine.loadPiece p second) := by
  unfold Machine.loadPiece loadOrdinary noteAccess
  repeat' first
    | exact pure _
    | exact get
    | exact modS _
    | exact modify (fun _ => rfl)
    | exact loadDevice _ _
    | refine bind ?_ (fun _ => ?_)
    | split

theorem readPieces (ps : List Piece) (second : Bool) : Sure SamePass (Machine.readPieces ps second) := by
  induction ps generalizing second with
  | nil => exact pure _
  | cons p t ih =>
    unfold Machine.readPieces noteVolatile
    repeat' first
      | exact pure _
      | exact get
      | exact modify (fun _ => rfl)
      | exact keptRead (loadPiece _ _)
      | exact ih _
      | refine bind ?_ (fun _ => ?_)
      | split

theorem readOpnd (o : Opnd) (n : Nat) : Sure SamePass (Machine.readOpnd o n) := by
  unfold Machine.readOpnd
  split
  · exact pure _
  · exact pure _
  · exact bind getB fun _ => pure _
  · exact bind getB fun _ => pure _
  · exact readPieces _ _

theorem readVal (o : Opnd) (n : Nat) : Sure SamePass (Machine.readVal o n) := bind (readOpnd o n) fun _ => pure _

theorem awaitLines (ps : List Piece) : Sure SamePass (Machine.awaitLines ps) := by
  unfold Machine.awaitLines
  refine bind get fun c => ?_
  repeat' first
    | exact pure _
    | exact throw _
    | exact modify (fun _ => rfl)
    | split

theorem awaitNeeded (ps : List Piece) : Sure SamePass (Machine.awaitNeeded ps) := by
  refine of_get fun c a c' h => ?_
  split at h
  · rcases ht : c.s.takeUnits c.b.ctx (setUnits c.s ps) with ⟨s, _ | _⟩ <;> simp only [ht] at h <;> cases h
    rfl
  · exact awaitLines ps _ _ _ h

theorem checkPieces (ks : List Acc) (via : Via) (total : Nat) (first : Option Range) (ps : List (Nat × Nat)) :
    Sure SamePass (Machine.checkPieces ks via total first ps) := of_marks (checkPieces_frame ks via total first ps)

theorem checkOwn (ks : List Acc) (second : Bool) (ps : List (Nat × Nat)) : Sure SamePass (Machine.checkOwn ks second ps) := by
  induction ps generalizing second with
  | nil => exact pure _
  | cons p t ih => exact bind get fun _ => bind (raiseWhen _ _) fun _ => bind (ih _) fun _ => pure _

theorem checkPlace (p : Place) (ks : List Acc) (n : Nat) : Sure SamePass (Machine.checkPlace p ks n) := by
  unfold Machine.checkPlace
  dsimp only
  split
  · exact bind (checkOwn _ _ _) fun _ => bind (awaitLines _) fun _ => pure _
  · exact bind (checkPieces _ _ _ _ _) fun _ => bind (awaitLines _) fun _ => pure _

theorem loadPointer (a : Nat) : Sure SamePass (Machine.loadPointer a) := by
  unfold Machine.loadPointer
  have rest : Sure SamePass (do
      let ps ← Machine.checkPieces [.load] .logical 8 none (pieces a 8)
      Machine.awaitNeeded ps
      return leNat (← Machine.readPieces ps false) : M Nat) :=
    bind (checkPieces _ _ _ _ _) fun _ => bind (awaitNeeded _) fun _ => bind (readPieces _ _) fun _ => pure _
  dsimp only
  split
  · exact Sure.bind trans (raise _) fun _ => rest
  · exact rest

theorem moduloParts (mk o n : Nat) : Sure SamePass (Machine.moduloParts mk o n) := by
  unfold Machine.moduloParts
  dsimp only
  split
  · exact Sure.bind trans (raise _) fun _ => pure _
  · exact pure _

theorem areaOffset (sp : BitVec 32) : Sure SamePass (Machine.areaOffset sp) := by
  unfold Machine.areaOffset
  refine bind getB fun _ => ?_
  split <;> exact pure _

theorem writeG (r : BitVec 4) (v : Word) : Sure SamePass (Machine.writeG r v) := modB _

theorem formPlace (sp : BitVec 32) (n : Nat) : Sure SamePass (Machine.formPlace sp n) := by
  unfold Machine.formPlace
  repeat' first
    | exact pure _
    | exact get
    | exact getB
    | exact writeG _ _
    | exact raiseIf _ _
    | exact loadPointer _
    | exact moduloParts _ _ _
    | exact areaOffset _
    | refine bind ?_ (fun _ => ?_)
    | split

theorem formOpnd (sp : BitVec 32) (n : Nat) (ks : List Acc) : Sure SamePass (Machine.formOpnd sp n ks) := by
  unfold Machine.formOpnd readG surcharge
  repeat' first
    | exact pure _
    | exact get
    | exact modify (fun _ => rfl)
    | exact formPlace _ _
    | exact checkPlace _ _ _
    | refine bind ?_ (fun _ => ?_)
    | split

theorem formBoth (w : Word112) : Sure SamePass (Machine.formBoth w) :=
  bind (formOpnd _ _ _) fun _ => bind (formOpnd _ _ _) fun _ => bind (readVal _ _) fun _ => bind (readVal _ _) fun _ => pure _

theorem formMove (w : Word112) : Sure SamePass (Machine.formMove w) :=
  bind (formOpnd _ _ _) fun _ => bind (formOpnd _ _ _) fun _ => bind (readVal _ _) fun _ => pure _

end SamePass

end Sys2Proof.Machine
end

