-- ==== Sys2Proof/Laws/Claims.lean ====
section
/-!
SUPPORT. Reservation sets, claims and ledger operands keep how a Cpu works: what POST, JAPP, SEND, RECV and SETKEY hold, they release
at their end.
-/

namespace Sys2Proof.Machine

namespace SamePass

theorem setCc (v : BitVec 2) : Sure SamePass (Machine.setCc v) := modify fun _ => rfl
theorem raiseLate (b : Bool) (code : Nat) : Sure SamePass (Machine.raiseLate b code) := bind get fun _ => raiseIf _ _
theorem noteAccess (a : Access) : Sure SamePass (Machine.noteAccess a) := modify fun _ => rfl

theorem claimUnits (units : List Nat) : Sure SamePass (Machine.claimUnits units) := by
  unfold Machine.claimUnits
  refine bind get fun c => ?_
  repeat' first
    | exact pure _
    | exact throw _
    | exact modS _
    | exact modify (fun _ => rfl)
    | split

theorem reserve (units : List Nat) : Sure SamePass (Machine.reserve units) := by
  refine of_get fun c a c' h => ?_
  cases hp : c.pass
  all_goals simp only [hp] at h
  case plain =>
    rcases ht : c.s.takeUnits c.b.ctx units with ⟨s, _ | _⟩ <;> simp only [ht] at h <;> cases h
    exact hp.symm
  all_goals
    cases h
    first | rfl | exact hp

theorem takeLeave (cost : Nat) : Sure SamePass (Machine.takeLeave cost) := by
  unfold Machine.takeLeave
  refine bind get fun c => ?_
  split
  · exact pure _
  · split
    · exact pure _
    · exact bind (modS _) fun _ => throw _

theorem awaitSm3 : Sure SamePass Machine.awaitSm3 := by
  unfold Machine.awaitSm3
  refine bind get fun c => ?_
  split
  · exact throw _
  · exact pure _

theorem ringRead (r : Nat) : Sure SamePass (Machine.ringRead r) :=
  bind get fun _ => bind (noteAccess _) fun _ => bind (noteAccess _) fun _ => pure _

theorem ringNow (inSet : Bool) (r : Nat) : Sure SamePass (Machine.ringNow inSet r) := by
  unfold Machine.ringNow
  refine bind get fun c => ?_
  repeat' first
    | exact awaitLines _
    | exact ringRead _
    | exact pure _
    | refine bind ?_ (fun _ => ?_)
    | split

theorem checkRingBy {read : M Ring} (h : Sure SamePass read) (r : Nat) : Sure SamePass (Machine.checkRingBy read r) := by
  unfold Machine.checkRingBy
  refine bind (keptRead ?_) fun _ => pure _
  repeat' first
    | exact h
    | exact get
    | exact modS _
    | exact raise _
    | exact pure _
    | refine bind ?_ (fun _ => ?_)
    | split

theorem checkRing (inSet : Bool) (r : Nat) : Sure SamePass (Machine.checkRing inSet r) := checkRingBy (ringNow inSet r) r

theorem ringOperand (sp : BitVec 32) : Sure SamePass (Machine.ringOperand sp) := bind (formOpnd _ _ _) fun _ => readVal _ _

theorem claimRing (r : Nat) : Sure SamePass (Machine.claimRing r) := bind get fun _ => bind (claimUnits _) fun _ => ringNow _ _

theorem appendRecord (r : Nat) (body : List Byte) : Sure SamePass (Machine.appendRecord r body) :=
  bind awaitSm3 fun _ => of_get fun c a c' h => by cases h; rfl

theorem addEffect (e : Effect) : Sure SamePass (Machine.addEffect e) := modify fun _ => rfl

theorem writePiece (p : Piece) (bs : List Byte) : Sure SamePass (Machine.writePiece p bs) := by
  unfold Machine.writePiece
  repeat' first
    | exact get
    | exact pure _
    | exact noteAccess _
    | exact modify (fun _ => rfl)
    | exact modS _
    | exact drainOwn
    | exact addEffect _
    | refine bind ?_ (fun _ => ?_)
    | split

theorem writePieces (ps : List Piece) (bs : List Byte) : Sure SamePass (Machine.writePieces ps bs) := by
  unfold Machine.writePieces
  generalize (dealBytes ps bs).foldr insertPiece [] = l
  induction l with
  | nil => exact pure _
  | cons p t ih => exact bind (writePiece _ _) fun _ => ih

theorem writeOpnd (o : Opnd) (bs : List Byte) : Sure SamePass (Machine.writeOpnd o bs) := by
  unfold Machine.writeOpnd
  repeat' first
    | exact writePieces _ _
    | exact modB _
    | exact writeG _ _
    | exact pure _
    | exact get
    | exact getB
    | refine bind ?_ (fun _ => ?_)
    | split

theorem writeVal (o : Opnd) (n v : Nat) : Sure SamePass (Machine.writeVal o n v) := writeOpnd _ _

theorem needOpnd (o : Opnd) : Sure SamePass (Machine.needOpnd o) := by
  unfold Machine.needOpnd
  split
  · exact awaitNeeded _
  all_goals exact pure _

theorem keptReach {m : M Nat} (h : Sure OnlyMarks m) : Sure SamePass (Machine.keptReach m) := of_marks (keptReach_frame h)

theorem ledgerPieces (ks : List Acc) (total : Nat) (ps : List (Nat × Nat)) : Sure SamePass (Machine.ledgerPieces ks total ps) :=
  of_marks (checkPiecesBy_frame (fun k la len second => by
    unfold ledgerAccess getPsw
    repeat' first
      | exact OnlyMarks.pure _
      | exact OnlyMarks.get
      | exact translateAccess_frame _ _ _ _
      | exact checkAccess_frame _ _ _ _ _ _
      | exact Sure.raise _
      | refine OnlyMarks.bind ?_ (fun _ => ?_)
      | split) ks .logical none ps)

theorem formBalance (sp : BitVec 32) (n : Nat) : Sure SamePass (Machine.formBalance sp n) :=
  bind (formPlace _ _) fun _ => bind (ledgerPieces _ _ _) fun _ => bind (modify fun _ => rfl) fun _ => pure _

theorem limitPieces (x : Posting) (base : Nat) : Sure SamePass (Machine.limitPieces x base) := by
  unfold Machine.limitPieces
  split
  · exact pure _
  · exact bind (raiseIf _ _) fun _ => ledgerPieces _ _ _

/-- Forming a POST keeps how its Cpu works. -/
theorem formPost (w : Word112) : Sure SamePass (Machine.formPost w) := by
  unfold Machine.formPost
  repeat' first
    | exact pure _
    | exact formBalance _ _
    | exact formOpnd _ _ _
    | exact drainOwn
    | exact needOpnd _
    | exact readOpnd _ _
    | exact raiseIf _ _
    | exact checkRing _ _
    | exact limitPieces _ _
    | exact takeLeave _
    | exact reserve _
    | exact readPieces _ _
    | refine bind ?_ (fun _ => ?_)
    | split

theorem claimQueue (q : Nat) : Sure SamePass (Machine.claimQueue q) := by
  unfold Machine.claimQueue
  refine bind get fun c => ?_
  split
  · exact throw _
  · exact claimUnits _

theorem readQueue (q : Nat) : Sure SamePass (Machine.readQueue q) := of_get fun c a c' h => by cases h; rfl

theorem checkQueueKey (q v : Nat) : Sure SamePass (Machine.checkQueueKey q v) := by
  unfold Machine.checkQueueKey getPsw
  repeat' first
    | exact get
    | exact raise _
    | exact pure _
    | refine bind ?_ (fun _ => ?_)
    | split

theorem formAddress (sp : BitVec 32) (n : Nat) : Sure SamePass (Machine.formAddress sp n) := by
  unfold Machine.formAddress
  repeat' first
    | exact formPlace _ _
    | exact get
    | exact pure _
    | exact raiseIf _ _
    | exact modify (fun _ => rfl)
    | refine bind ?_ (fun _ => ?_)
    | split

end SamePass

end Sys2Proof.Machine
end

