-- ==== Sys2Proof/Laws/Memory.lean ====
section
/-!
SUPPORT. The laws of memory: what a byte reads as after a write, and that every operation that writes memory keeps its canonical
form: bare writes, marks of frames, storage keys, writes by devices, and the store buffer.
-/

namespace Sys2Proof.Machine

/-! ## Reading after writing -/

/-- A byte after a write. -/
theorem State.byte_poke (s : State) (a : Nat) (bs : List Byte) (x : Nat) :
    (s.poke a bs).byte x = if a ≤ x then (bs[x - a]?).getD (s.byte x) else s.byte x := SMap.get_setN _ _ _ _ _

/-- A byte outside what is written reads as before. -/
theorem State.byte_poke_ne (s : State) (a : Nat) (bs : List Byte) {x : Nat} (h : x < a ∨ a + bs.length ≤ x) :
    (s.poke a bs).byte x = s.byte x := by
  rw [State.byte_poke]
  split
  · rw [List.getElem?_eq_none (by omega)]; rfl
  · rfl

theorem getN_length {α : Type} (d : Nat → α) (m : List (Nat × α)) (a n : Nat) : (SMap.getN d m a n).length = n := by
  induction n generalizing a with
  | zero => rfl
  | succ n ih => simp [SMap.getN, ih]

theorem getN_getElem? {α : Type} (d : Nat → α) (m : List (Nat × α)) (a n i : Nat) (h : i < n) :
    (SMap.getN d m a n)[i]? = some (SMap.get d m (a + i)) := by
  induction n generalizing a i with
  | zero => omega
  | succ n ih =>
    cases i with
    | zero => rfl
    | succ i =>
      simp only [SMap.getN, List.getElem?_cons_succ]
      rw [ih (a + 1) i (by omega)]
      congr 2; omega

/-- What was written reads back. -/
theorem State.bytes_poke (s : State) (a : Nat) (bs : List Byte) : (s.poke a bs).bytes a bs.length = bs := by
  apply List.ext_getElem?
  intro i
  by_cases h : i < bs.length
  · rw [State.bytes, getN_getElem? _ _ _ _ _ h]
    have := State.byte_poke s a bs (a + i)
    rw [State.byte] at this
    rw [this]
    simp [List.getElem?_eq_getElem h]
  · rw [List.getElem?_eq_none (by rw [State.bytes, getN_length]; omega), List.getElem?_eq_none (by omega)]

/-! ## The canonical form -/

/-- The canonical form of the memory of a state. -/
def State.memWf (s : State) : Prop := Memory.wf s.mem = true

theorem memWf_poke {s : State} (a : Nat) (bs : List Byte) (h : s.memWf) : (s.poke a bs).memWf := SMap.wf_setN _ _ h

theorem memWf_pokeN {s : State} (a n v : Nat) (h : s.memWf) : (s.pokeN a n v).memWf := memWf_poke _ _ h

theorem memWf_of_eq {s t : State} (e : t.mem = s.mem) (h : s.memWf) : t.memWf := by unfold State.memWf; rw [e]; exact h

/-- Work that is repeated keeps the canonical form when each piece of it does. -/
theorem memWf_foldl {α : Type} {f : State → α → State} (hf : ∀ s x, s.memWf → (f s x).memWf) (l : List α) {s : State} (h : s.memWf) :
    (l.foldl f s).memWf := by
  induction l generalizing s with
  | nil => exact h
  | cons x t ih => exact ih (hf s x h)

theorem memWf_ite {p : Prop} [Decidable p] {a b : State} (ha : a.memWf) (hb : b.memWf) : (if p then a else b).memWf := by
  split
  · exact ha
  · exact hb

theorem memWf_setRefChg {s : State} (a v : Nat) (h : s.memWf) : (s.setRefChg a v).memWf := by
  unfold State.setRefChg; split
  · exact memWf_ite h (memWf_poke _ _ h)
  · exact h

theorem memWf_markFrame {s : State} (a : Nat) (st : Bool) (h : s.memWf) : (s.markFrame a st).memWf := by
  unfold State.markFrame
  exact memWf_ite (memWf_setRefChg _ _ h) h

theorem memWf_markRange {s : State} (a n : Nat) (st : Bool) (h : s.memWf) : (s.markRange a n st).memWf := by
  unfold State.markRange; split
  · exact h
  · exact memWf_foldl (fun _ _ h => memWf_markFrame _ _ h) _ h

/-- Noting epochs changes the lines alone. -/
theorem setEpochs_frame (s : State) (ls : List Nat) : s.setEpochs ls = { s with lines := (s.setEpochs ls).lines } := by
  unfold State.setEpochs
  induction ls generalizing s with
  | nil => rfl
  | cons l t ih =>
    simp only [List.foldl_cons]
    split
    · rw [ih]; rfl
    · exact ih s

theorem memWf_setEpochs {s : State} (ls : List Nat) (h : s.memWf) : (s.setEpochs ls).memWf :=
  memWf_of_eq (by rw [setEpochs_frame]) h

/-- Noting a ring changes neither memory nor the register pages nor the lines. -/
theorem noteRings_frame (s : State) (a n : Nat) :
    (s.noteRings a n).mem = s.mem ∧ (s.noteRings a n).regs = s.regs ∧ (s.noteRings a n).lines = s.lines
      ∧ (s.noteRings a n).stores = s.stores ∧ (s.noteRings a n).dirty = s.dirty := by
  unfold State.noteRings
  generalize s.ringsTouched a n = l
  induction l generalizing s with
  | nil => exact ⟨rfl, rfl, rfl, rfl, rfl⟩
  | cons r t ih =>
    simp only [List.foldl_cons]
    refine ⟨(ih _).1.trans ?_, (ih _).2.1.trans ?_, (ih _).2.2.1.trans ?_, (ih _).2.2.2.1.trans ?_, (ih _).2.2.2.2.trans ?_⟩ <;> split <;> rfl

theorem memWf_noteRings {s : State} (a n : Nat) (h : s.memWf) : (s.noteRings a n).memWf := memWf_of_eq (noteRings_frame s a n).1 h

theorem memWf_setKeyByte {s : State} (a kb : Nat) (h : s.memWf) : (s.setKeyByte a kb).memWf := by
  unfold State.setKeyByte
  dsimp only
  split
  · exact memWf_setEpochs _ (memWf_of_eq rfl h)
  · split
    · exact memWf_poke _ _ h
    · exact h

theorem memWf_unpoison {s : State} (l : Nat) (h : s.memWf) : (s.unpoison l).memWf := h

theorem memWf_devWrite {s : State} (a : Nat) (bs : List Byte) (h : s.memWf) : (s.devWrite a bs).memWf := by
  unfold State.devWrite
  split
  · exact h
  · exact memWf_noteRings _ _ (memWf_setEpochs _ (memWf_foldl (fun _ l h => memWf_unpoison l h) _
      (memWf_of_eq rfl (memWf_poke a bs (memWf_markRange a bs.length true h)))))

theorem memWf_coverStore {s : State} (st : BitVec 6) (a n : Nat) (h : s.memWf) : (s.coverStore st a n).memWf := by
  unfold State.coverStore
  dsimp only
  split
  · exact h
  · exact memWf_ite (memWf_unpoison _ h) (memWf_of_eq rfl h)

theorem memWf_drainOne {s : State} (b : BufStore) (h : s.memWf) : (s.drainOne b).memWf :=
  memWf_noteRings _ _ (memWf_of_eq rfl (memWf_coverStore _ _ _ (memWf_poke b.addr b.bytes h)))

theorem memWf_drain {s : State} (ctx : BitVec 20) (h : s.memWf) : (s.drain ctx).memWf :=
  memWf_foldl (fun _ _ h => memWf_drainOne _ h) _ (memWf_of_eq rfl h)

theorem memWf_drainFrame {s : State} (f : Nat) (h : s.memWf) : (s.drainFrame f).memWf :=
  memWf_foldl (fun _ _ h => memWf_drain _ h) _ h

theorem memWf_setKey {s : State} (f kb : Nat) (cref cchg : Bool) (h : s.memWf) : (s.setKey f kb cref cchg).memWf := by
  unfold State.setKey
  have := memWf_setKeyByte f kb (memWf_drainFrame f h)
  exact memWf_ite (memWf_setRefChg _ _ this) this

/-- The memory of the machine right after reset is in canonical form. -/
theorem memWf_reset : State.reset.memWf := SMap.wf_nil _

end Sys2Proof.Machine
end

