-- ==== Sys2Proof/Laws/Monad.lean ====
section
/-!
SUPPORT. The laws of the instruction monad: what each of its operations answers on a given Cpu, so that a meaning is followed step by step
with `simp only` and without unfolding.
-/

namespace Sys2Proof.Machine

variable {α β : Type}

/-! ## Sequencing -/

theorem bind_run (m : M α) (f : α → M β) (c : Cpu) :
    (m >>= f) c = match m c with
      | .ok a c' => f a c'
      | .error e c' => .error e c' := by
  simp only [Bind.bind, EStateM.bind]
  cases m c <;> rfl

theorem bind_ok {m : M α} {f : α → M β} {c c' : Cpu} {a : α} (h : m c = .ok a c') : (m >>= f) c = f a c' := by
  rw [bind_run, h]

theorem bind_error {m : M α} {f : α → M β} {c c' : Cpu} {e : Stop} (h : m c = .error e c') : (m >>= f) c = .error e c' := by
  rw [bind_run, h]

theorem pure_run (a : α) (c : Cpu) : (pure a : M α) c = .ok a c := rfl
theorem get_run (c : Cpu) : (get : M Cpu) c = .ok c c := rfl
theorem modify_run (f : Cpu → Cpu) (c : Cpu) : (modify f : M PUnit) c = .ok ⟨⟩ (f c) := rfl
theorem throw_run (e : Stop) (c : Cpu) : (throw e : M α) c = .error e c := rfl

theorem ite_run {p : Prop} [Decidable p] (a b : M α) (c : Cpu) : (if p then a else b) c = if p then a c else b c := by
  split <;> rfl

/-! ## The named operations -/

theorem getB_run (c : Cpu) : getB c = .ok c.b c := rfl
theorem getPsw_run (c : Cpu) : getPsw c = .ok c.b.psw c := rfl
theorem modB_run (f : Bank → Bank) (c : Cpu) : modB f c = .ok () { c with b := f c.b } := rfl
theorem modS_run (f : State → State) (c : Cpu) : modS f c = .ok () { c with s := f c.s } := rfl
theorem modPsw_run (f : Psw → Psw) (c : Cpu) : modPsw f c = .ok () { c with b := c.b.setPsw (f c.b.psw) } := rfl
theorem clearIp_run (c : Cpu) : clearIp c = .ok () { c with b := c.b.setPsw { c.b.psw with ip := false } } := rfl
theorem setCc_run (v : BitVec 2) (c : Cpu) : setCc v c = .ok () (c.withCc v) := rfl
theorem readG_run (r : BitVec 4) (c : Cpu) : readG r c = .ok (c.b.getG r) c := rfl
theorem writeG_run (r : BitVec 4) (v : Word) (c : Cpu) : writeG r v c = .ok () { c with b := c.b.setG r v } := rfl
theorem setNext_run (n : NextIa) (c : Cpu) : setNext n c = .ok () (c.goes n) := rfl
theorem surcharge_run (n : Nat) (c : Cpu) : surcharge n c = .ok () { c with sur := c.sur + n } := rfl
theorem addEffect_run (e : Effect) (c : Cpu) : addEffect e c = .ok () { c with after := c.after ++ [e] } := rfl
theorem drainOwn_run (c : Cpu) : drainOwn c = .ok () { c with s := c.s.drain c.b.ctx } := rfl

/-! ## Raising -/

theorem raise_run (e : Exc) (c : Cpu) : (raise e : M α) c = .error (.exc e) c := rfl
theorem raiseCode_run (code : Nat) (c : Cpu) : (raiseCode code : M α) c = .error (.exc { code := code }) c := rfl

theorem raiseIf_false {b : Bool} {code : Nat} {c : Cpu} (h : b = false) : raiseIf b code c = .ok () c := by
  subst h; rfl

theorem raiseIf_true {b : Bool} {code : Nat} {c : Cpu} (h : b = true) : raiseIf b code c = .error (.exc { code := code }) c := by
  subst h; rfl

theorem raiseLate_false {b : Bool} {code : Nat} {c : Cpu} (h : b = false) : raiseLate b code c = .ok () c := by
  subst h; rfl

theorem raiseLate_true {b : Bool} {code : Nat} {c : Cpu} (h : b = true) (hp : c.pass ≠ .trap) :
    raiseLate b code c = .error (.exc { code := code }) c := by
  subst h
  simp only [raiseLate, bind_run, get_run, Bool.true_and, bne_iff_ne, ne_eq, hp, not_false_eq_true, if_true]; rfl

theorem raiseWhen_false {p : Prop} [Decidable p] {e : Exc} {c : Cpu} (h : ¬p) : raiseWhen p e c = .ok () c := by
  simp only [raiseWhen, h, if_false]; rfl

theorem raiseWhen_true {p : Prop} [Decidable p] {e : Exc} {c : Cpu} (h : p) : raiseWhen p e c = .error (.exc e) c := by
  simp only [raiseWhen, h, if_true]; rfl

/-! ## Flags, leave and results -/

/-- R148: the code of an exact result that fits, or that overflows while FOM is 0. -/
theorem setArith_run {w : Nat} {e : Int} {c : Cpu} (h : overflows w e = true → c.b.psw.fom = false) :
    setArith w e c = .ok () (c.withCc (if overflows w e then 3 else signCc e)) := by
  unfold setArith
  rw [bind_ok (getPsw_run c)]
  by_cases ho : overflows w e = true
  · simp only [ho, if_true, h ho]; rfl
  · simp only [ho]; rfl

/-- R148: an overflow while FOM is 1 raises 0x06. -/
theorem setArith_traps {w : Nat} {e : Int} {c : Cpu} (ho : overflows w e = true) (h : c.b.psw.fom = true) (hp : c.pass ≠ .trap) :
    setArith w e c = .error (.exc { code := 6 }) c := by
  unfold setArith
  rw [bind_ok (getPsw_run c)]
  simp only [ho, if_true]
  exact bind_error (raiseLate_true h hp)

/-- R543: leave that the context holds is used. -/
theorem takeLeave_run {n : Nat} {c : Cpu} (h : c.b.leave ≠ none) : takeLeave n c = .ok () c := by
  unfold takeLeave
  rw [bind_ok (get_run c), ite_run]
  split
  · rfl
  · cases hl : c.b.leave
    · exact absurd hl h
    · rfl

/-- R183, R184: a packed result that fits, or that does not while DOM is 0, is delivered. -/
theorem deliverPacked_run {o : Opnd} {n : Nat} {v : Int} {c c' : Cpu} (h : capacity n ≤ v.natAbs → c.b.psw.dom = false)
    (hw : writeOpnd o (packedBytes n v) (c.withCc (if capacity n ≤ v.natAbs then 3 else signCc v)) = .ok () c') :
    deliverPacked o n v c = .ok () c' := by
  unfold deliverPacked
  by_cases hc : capacity n ≤ v.natAbs
  · simp only [hc, if_true] at hw
    simp only [ge_iff_le, hc, if_true, bind_run, getPsw_run, raiseLate_false (h hc), setCc_run, hw]
  · simp only [hc, if_false] at hw
    simp only [ge_iff_le, hc, if_false, bind_run, setCc_run, hw]

/-- R162: a floating-point result that raises nothing enabled is delivered, its flags sticking. -/
theorem deliverFp_run {o : Opnd} {n : Nat} {r : Nat × FFlags} {c c' : Cpu} (h : r.2 &&& c.b.psw.fpe.toNat = 0)
    (hw : writeVal o n r.1 { c with b := c.b.setPsw { c.b.psw with fpf := c.b.psw.fpf ||| BitVec.ofNat 5 r.2 } } = .ok () c') :
    deliverFp o n r c = .ok () c' := by
  unfold deliverFp raiseFp
  simp only [bind_run, getPsw_run, h, raiseLate_false (show bitAt 0 0 = false by decide), raiseLate_false (show bitAt 0 1 = false by decide),
    raiseLate_false (show ((0 : Nat) != 0) = false by decide)]
  exact hw

end Sys2Proof.Machine
end

