-- ==== Sys2Proof/Laws/Frames.lean ====
section
/-!
SUPPORT. The laws of frame accesses (R65): what a write by a party other than a stove leaves, when a frame store completes, and that it
keeps every frame reachable that it does not lie on; and the seal of a frame, which verifies once it is filled in.
-/

namespace Sys2Proof.Machine

/-! ## Writes by devices -/

/-- Marks change memory alone. -/
theorem markRange_frame (s : State) (a n : Nat) (st : Bool) :
    s.markRange a n st = { s with mem := (s.markRange a n st).mem } ∧
    (s.flag Slot.key Off.KEY.KEYCTL 0 = false → s.markRange a n st = s) := by
  unfold State.markRange
  split
  · exact ⟨rfl, fun _ => rfl⟩
  · generalize List.range _ = l
    induction l generalizing s with
    | nil => exact ⟨rfl, fun _ => rfl⟩
    | cons i t ih =>
      obtain ⟨h1, h2⟩ := markFrame_frame s ((frameOf a + i) * 4096) st
      generalize hs' : s.markFrame ((frameOf a + i) * 4096) st = s' at h1 h2
      obtain ⟨k1, k2⟩ := ih s'
      simp only [List.foldl_cons, hs']
      have hf : s'.flag Slot.key Off.KEY.KEYCTL 0 = s.flag Slot.key Off.KEY.KEYCTL 0 := by rw [h1]; rfl
      refine ⟨?_, fun h => ?_⟩
      · rw [k1, h1]
      · rw [k2 (hf ▸ h), h1, h2 h]

/-- Clearing poison changes the lines alone, and no key. -/
theorem unpoison_foldl (ls : List Nat) (s : State) :
    ls.foldl State.unpoison s = { s with lines := (ls.foldl State.unpoison s).lines } ∧ (ls.foldl State.unpoison s).lines.keyLost = s.lines.keyLost := by
  induction ls generalizing s with
  | nil => exact ⟨rfl, rfl⟩
  | cons l t ih =>
    obtain ⟨h1, h2⟩ := ih (s.unpoison l)
    simp only [List.foldl_cons]
    exact ⟨by rw [h1]; rfl, h2⟩

/-- Noting epochs leaves the keys. -/
theorem setEpochs_keyLost (s : State) (ls : List Nat) : (s.setEpochs ls).lines.keyLost = s.lines.keyLost := by
  unfold State.setEpochs
  induction ls generalizing s with
  | nil => rfl
  | cons l t ih =>
    simp only [List.foldl_cons]
    split
    · exact (ih _).trans rfl
    · exact ih s

/-- R437: a write by a party other than a stove leaves every register and every key as they were. -/
theorem devWrite_frame (s : State) (a : Nat) (bs : List Byte) :
    (s.devWrite a bs).regs = s.regs ∧ (s.devWrite a bs).lines.keyLost = s.lines.keyLost := by
  unfold State.devWrite
  split
  · exact ⟨rfl, rfl⟩
  · dsimp only
    obtain ⟨hm, -⟩ := markRange_frame s a bs.length true
    generalize s.markRange a bs.length true = m at hm ⊢
    generalize hx : ({ (m.poke a bs).uncache (linesTouched a bs.length) with dirty := _, lines := _ } : State) = x
    obtain ⟨h1, h2⟩ := unpoison_foldl (fullLines a bs.length) x
    rw [(noteRings_frame _ _ _).2.1, (noteRings_frame _ _ _).2.2.1]
    have e := setEpochs_frame ((fullLines a bs.length).foldl State.unpoison x) (linesTouched a bs.length)
    refine ⟨?_, ?_⟩
    · rw [e, h1, ← hx, hm]; rfl
    · rw [setEpochs_keyLost, h2, ← hx, hm]; rfl

/-- R437: while FSTEN is 0 a write by a party other than a stove writes its bytes and no others, or, in the far key table, none. -/
theorem devWrite_mem (s : State) (a : Nat) (bs : List Byte) (h : s.flag Slot.key Off.KEY.KEYCTL 0 = false) :
    (s.devWrite a bs).mem = (s.poke a bs).mem ∨ (s.devWrite a bs).mem = s.mem := by
  unfold State.devWrite
  split
  · exact .inr rfl
  · left
    dsimp only
    have hm := (markRange_frame s a bs.length true).2 h
    rw [hm]
    generalize hx : ({ (s.poke a bs).uncache (linesTouched a bs.length) with dirty := _, lines := _ } : State) = x
    obtain ⟨h1, -⟩ := unpoison_foldl (fullLines a bs.length) x
    rw [(noteRings_frame _ _ _).1, setEpochs_frame, h1, ← hx]; rfl

/-! ## Writes into a hob -/

/-- R438: a store that drains leaves every register and every key, and writes its bytes and no others. -/
theorem drainOne_frame (s : State) (b : BufStore) :
    (s.drainOne b).regs = s.regs ∧ (s.drainOne b).lines.keyLost = s.lines.keyLost ∧ (s.drainOne b).mem = (s.poke b.addr b.bytes).mem := by
  unfold State.drainOne
  rw [(noteRings_frame _ _ _).2.1, (noteRings_frame _ _ _).2.2.1, (noteRings_frame _ _ _).1]
  unfold State.noteModified State.coverStore
  dsimp only
  (repeat' split) <;> exact ⟨rfl, rfl, rfl⟩

/-- R65, R98: a store to a frame leaves every register and every key, and every byte outside it. -/
theorem hobWrite_frame (s : State) (ctx : BitVec 20) (stove : BitVec 6) (a : Nat) (bs : List Byte) :
    (s.hobWrite ctx stove a bs).regs = s.regs ∧ (s.hobWrite ctx stove a bs).lines.keyLost = s.lines.keyLost
      ∧ ∀ x, (x < a ∨ a + bs.length ≤ x) → (s.hobWrite ctx stove a bs).byte x = s.byte x := by
  unfold State.hobWrite
  generalize bs.length / 64 + 2 = fuel
  induction fuel generalizing s a bs with
  | zero => exact ⟨rfl, rfl, fun _ _ => rfl⟩
  | succ n ih =>
    unfold lineParts
    split
    · exact ⟨rfl, rfl, fun _ _ => rfl⟩
    · simp only [List.foldl_cons]
      obtain ⟨h1, h2, h3⟩ := drainOne_frame s { ctx := ctx, stove := stove, addr := a, bytes := bs.take (64 - a % 64), old := true }
      obtain ⟨i1, i2, i3⟩ := ih (s.drainOne { ctx := ctx, stove := stove, addr := a, bytes := bs.take (64 - a % 64), old := true })
        (a + (64 - a % 64)) (bs.drop (64 - a % 64))
      refine ⟨i1.trans h1, i2.trans h2, fun x hx => (i3 x ?_).trans ?_⟩
      · simp only [List.length_drop]; omega
      · unfold State.byte
        rw [h3]
        exact State.byte_poke_ne s a (bs.take (64 - a % 64)) (by simp only [List.length_take]; omega)

/-! ## Frame stores -/

/-- A frame address of a context whose frames are physical that a store reaches: near or CXL memory, no part of the far key table in
use, no lost key, and frames not marked. -/
structure FrameClear (s : State) (ctx : BitVec 20) (a : Nat) : Prop where
  physical : bitAt (s.cxa ctx) 0 = false
  reached  : s.ordinary a = true ∧ s.populated .store a = true
  unkeyed  : s.flag Slot.key Off.KEY.KEYCTL 1 = false ∧ s.keyLost a = false
  unmarked : s.flag Slot.key Off.KEY.KEYCTL 0 = false

/-- R65: a store to such an address completes. -/
theorem FrameClear.frameAddr_run {s : State} {ctx : BitVec 20} {a : Nat} (h : FrameClear s ctx a) (n : Nat) :
    frameAddr ctx a n true s = .ok a s := by
  have hf : s.fktLine a = false := by simp [State.fktLine, h.unkeyed.1]
  have hm : s.markFrame a true = s := by
    have := markFrame_frame s a true
    rw [this.1, this.2 h.unmarked]
  unfold frameAddr
  simp only [bind, EStateM.bind, get, getThe, MonadStateOf.get, EStateM.get, h.physical, Bool.false_eq_true, if_false, pure, EStateM.pure,
    h.reached.1, h.reached.2, Bool.and_self, Bool.not_true, if_true, hf, Bool.and_false, h.unkeyed.2, Bool.false_and,
    Bool.or_self, modify, modifyGet, MonadStateOf.modifyGet, EStateM.modifyGet, hm]

/-- A frame address of a context whose frames are physical that a load of `n` bytes reaches. -/
structure FrameReads (s : State) (ctx : BitVec 20) (a n : Nat) : Prop where
  physical : bitAt (s.cxa ctx) 0 = false
  reached  : s.ordinary a = true ∧ s.populated .load a = true
  intact   : s.keyLost a = false ∧ s.anyPoison a n = false
  unmarked : s.flag Slot.key Off.KEY.KEYCTL 0 = false

/-- R65: such an address is reached. -/
theorem FrameReads.frameAddr_run {s : State} {ctx : BitVec 20} {a n : Nat} (h : FrameReads s ctx a n) :
    frameAddr ctx a n false s = .ok a s := by
  have hm : s.markFrame a false = s := by
    have := markFrame_frame s a false
    rw [this.1, this.2 h.unmarked]
  unfold frameAddr
  simp only [bind, EStateM.bind, get, getThe, MonadStateOf.get, EStateM.get, h.physical, Bool.false_eq_true, if_false, pure, EStateM.pure,
    h.reached.1, h.reached.2, Bool.and_self, Bool.not_true, Bool.false_and, Bool.not_false, Bool.true_and, h.intact.1, h.intact.2,
    Bool.or_self, modify, modifyGet, MonadStateOf.modifyGet, EStateM.modifyGet, hm]

/-- R65: a load from such an address answers what lies there. -/
theorem FrameReads.fLdBytes_here {s : State} {ctx : BitVec 20} {a n : Nat} (h : FrameReads s ctx a n) :
    fLdBytes ctx a n s = .ok (s.bytes a n) s := by
  simp only [fLdBytes, bind, EStateM.bind, h.frameAddr_run]
  rfl


theorem FrameReads.fLd_here {s : State} {ctx : BitVec 20} {a n : Nat} (h : FrameReads s ctx a n) : fLd ctx a n s = .ok (s.ld a n) s := by
  simp only [fLd, bind, EStateM.bind, h.fLdBytes_here]
  rfl
/-- What a frame address needs is kept by whatever leaves the registers, the keys and the directory entry. -/
theorem FrameClear.kept {s t : State} {ctx : BitVec 20} {a : Nat} (h : FrameClear s ctx a) (hr : t.regs = s.regs)
    (hk : t.lines.keyLost = s.lines.keyLost) (hd : ∀ x, s.dirAt ctx ≤ x → x < s.dirAt ctx + 8 → t.byte x = s.byte x) :
    FrameClear t ctx a := by
  have hreg : ∀ slot off, t.reg slot off = s.reg slot off := by intro slot off; simp only [State.reg, hr]
  have hfld : ∀ slot off lo w, t.fld slot off lo w = s.fld slot off lo w := by intros; simp only [State.fld, hreg]
  have hflag : ∀ slot off i, t.flag slot off i = s.flag slot off i := by intros; simp only [State.flag, hreg]
  have hdir : t.dirAt ctx = s.dirAt ctx := by simp only [State.dirAt, hreg]
  have hcxa : t.cxa ctx = s.cxa ctx := by
    simp only [State.cxa, State.ld, hdir]
    congr 1
    apply List.ext_getElem?
    intro i
    by_cases hi : i < 8
    · simp only [State.bytes]
      rw [getN_getElem? _ _ _ _ _ hi, getN_getElem? _ _ _ _ _ hi]
      exact congrArg some (hd (s.dirAt ctx + i) (by omega) (by omega))
    · rw [List.getElem?_eq_none, List.getElem?_eq_none] <;> simp only [State.bytes, getN_length] <;> omega
  have hmode : ∀ p, t.portMode p = s.portMode p := by intro p; simp only [State.portMode, hfld]
  have hup : ∀ p, t.portUp p = s.portUp p := by intro p; simp only [State.portUp, hflag]
  have hord : t.ordinary a = s.ordinary a := by simp only [State.ordinary, State.isCxl, hmode]
  have hpop : t.populated .store a = s.populated .store a := by
    unfold State.populated State.nearPop State.opSize
    simp only [hmode, hup, hreg, hfld, hflag]
  have hlost : t.keyLost a = s.keyLost a := by simp only [State.keyLost, hk, hflag]
  exact ⟨by rw [hcxa]; exact h.physical, ⟨hord.trans h.reached.1, hpop.trans h.reached.2⟩, ⟨(hflag _ _ _).trans h.unkeyed.1, hlost.trans h.unkeyed.2⟩,
    (hflag _ _ _).trans h.unmarked⟩

/-! ## Frame stores of an instruction -/

/-- Buffered stores and the record of what has been done may differ. -/
def OnlyStores (c c' : Cpu) : Prop :=
  c' = { c with s := { c.s with stores := c'.s.stores }, log := c'.log, acc := c'.acc, wrote := c'.wrote }

/-- R435: pieces of ordinary memory are written into the store buffer. -/
theorem writeDealt_run (xs : List (Piece × List Byte)) (c : Cpu) (hp : c.pass = .plain)
    (h : ∀ x ∈ xs, x.1.own = false ∧ c.s.ordinary x.1.pa = true) : ∃ c', writeDealt xs c = .ok () c' ∧ OnlyStores c c' := by
  induction xs generalizing c with
  | nil => exact ⟨c, rfl, rfl⟩
  | cons x t ih =>
    obtain ⟨p, bs⟩ := x
    obtain ⟨ho, ha⟩ := h _ (List.mem_cons_self ..)
    have e : ∃ c', writePiece p bs c = .ok () c' ∧ OnlyStores c c' := by
      have hc : (!p.own && c.s.ordinary p.pa) = true := by rw [ho, ha]; rfl
      unfold writePiece noteAccess
      simp only [bind_run, get_run, hp, reduceCtorEq, if_false, modify_run, if_pos hc, modS_run]
      exact ⟨_, rfl, by unfold OnlyStores; simp only [hp]⟩
    obtain ⟨c1, e1, h1⟩ := e
    have hs : c1.s = { c.s with stores := c1.s.stores } := by rw [h1]
    have hp1 : c1.pass = .plain := by rw [h1]; exact hp
    obtain ⟨c2, e2, h2⟩ := ih c1 hp1 fun y m => by
      have := h y (List.mem_cons_of_mem _ m)
      refine ⟨this.1, ?_⟩
      rw [hs]; exact this.2
    refine ⟨c2, ?_, ?_⟩
    · unfold writeDealt
      rw [bind_ok e1, e2]
    · unfold OnlyStores at *
      rw [h2, h1]

/-! ## Spills and refills -/

theorem FrameClear.fStBytes_run {s : State} {ctx : BitVec 20} {a : Nat} (h : FrameClear s ctx a) (bs : List Byte) :
    fStBytes ctx a bs s = .ok () (s.frameWrite ctx a bs) := by
  simp only [fStBytes, bind, EStateM.bind, h.frameAddr_run]
  rfl

/-- R98, R341: a frame store leaves every register and every key. -/
theorem frameWrite_frame (s : State) (ctx : BitVec 20) (a : Nat) (bs : List Byte) :
    (s.frameWrite ctx a bs).regs = s.regs ∧ (s.frameWrite ctx a bs).lines.keyLost = s.lines.keyLost := by
  unfold State.frameWrite
  split
  · exact ⟨(hobWrite_frame ..).1, (hobWrite_frame ..).2.1⟩
  · exact devWrite_frame ..

/-- R98, R341: a frame store leaves every byte outside it, while FSTEN is 0. -/
theorem frameWrite_byte (s : State) (ctx : BitVec 20) (a : Nat) (bs : List Byte) (h : s.flag Slot.key Off.KEY.KEYCTL 0 = false) {x : Nat}
    (hx : x < a ∨ a + bs.length ≤ x) : (s.frameWrite ctx a bs).byte x = s.byte x := by
  unfold State.frameWrite
  split
  · exact (hobWrite_frame ..).2.2 x hx
  · unfold State.byte
    obtain e | e := devWrite_mem s a bs h
    · rw [e]; exact State.byte_poke_ne s a bs hx
    · rw [e]

theorem frameWrite_dirAt (s : State) (c : BitVec 20) (a : Nat) (bs : List Byte) (ctx : BitVec 20) :
    (s.frameWrite c a bs).dirAt ctx = s.dirAt ctx := by
  simp only [State.dirAt, State.reg, (frameWrite_frame s c a bs).1]

/-- R65: a frame address is reached after a frame store that lies clear of the directory entry. -/
theorem FrameClear.frameWrite {s : State} {ctx c : BitVec 20} {a b : Nat} {bs : List Byte} (h : FrameClear s ctx a)
    (hd : s.dirAt ctx + 8 ≤ b ∨ b + bs.length ≤ s.dirAt ctx) : FrameClear (s.frameWrite c b bs) ctx a :=
  h.kept (frameWrite_frame ..).1 (frameWrite_frame ..).2 fun x _ _ => frameWrite_byte _ _ _ _ h.unmarked (by omega)

/-- R306: a spill that takes a frame of the free chain is made when its frame addresses are reached and lie clear of the directory
entry. -/
theorem spillFrames_run {b : Bank} {s s1 s2 s3 : State} {t : SpillTo} {seq a v w : Nat} (e1 : spillTarget b.ctx s = .ok (some t) s1)
    (hf : t.free = some v) (hs : t.spill = some w) (hb : t.busy = false) (e2 : fLd b.ctx (s1.block b.ctx + 0xB18) 8 s1 = .ok seq s2)
    (e3 : frameAddr b.ctx (s1.block b.ctx + 0xB00) 0x28 true s2 = .ok a s3) (h1 : FrameClear s3 b.ctx t.addr)
    (h2 : FrameClear s3 b.ctx (s1.block b.ctx + 0xB18)) (h3 : FrameClear s3 b.ctx (s1.block b.ctx + 0xB00))
    (h4 : FrameClear s3 b.ctx (s1.block b.ctx + 0xB10))
    (d1 : s3.dirAt b.ctx + 8 ≤ t.addr ∨ t.addr + (spillBytes s3 b t seq).length ≤ s3.dirAt b.ctx)
    (d2 : s3.dirAt b.ctx + 8 ≤ s1.block b.ctx ∨ s1.block b.ctx + 4096 ≤ s3.dirAt b.ctx) : ∃ s', spillFrames b s = .ok true s' := by
  have l8 : ∀ n, (leBytes 8 n).length = 8 := fun _ => rfl
  have g1 := h2.frameWrite (c := b.ctx) (b := t.addr) (bs := spillBytes s3 b t seq) d1
  have g2 := h3.frameWrite (c := b.ctx) (b := t.addr) (bs := spillBytes s3 b t seq) d1
  have g3 := h4.frameWrite (c := b.ctx) (b := t.addr) (bs := spillBytes s3 b t seq) d1
  have k2 := g2.frameWrite (c := b.ctx) (b := s1.block b.ctx + 0xB18) (bs := leBytes 8 (seq + 1)) (by rw [frameWrite_dirAt, l8]; omega)
  have k3 := g3.frameWrite (c := b.ctx) (b := s1.block b.ctx + 0xB18) (bs := leBytes 8 (seq + 1)) (by rw [frameWrite_dirAt, l8]; omega)
  have m3 := k3.frameWrite (c := b.ctx) (b := s1.block b.ctx + 0xB00) (bs := leBytes 8 v) (by rw [frameWrite_dirAt, frameWrite_dirAt, l8]; omega)
  unfold spillFrames
  simp only [bind, EStateM.bind, e1, get, getThe, MonadStateOf.get, EStateM.get, e2, e3, fSt, h1.fStBytes_run, g1.fStBytes_run, k2.fStBytes_run,
    m3.fStBytes_run, hf, hs, hb, Bool.false_eq_true, if_false, pure, EStateM.pure]
  exact ⟨_, rfl⟩

/-- R307: a context is refilled from its spill frame when that verifies and is one of a legal software frame. -/
theorem refillFrames_run {ctx : BitVec 20} {stove : BitVec 6} {slot : BitVec 5} {ev spill stat : Nat} {s s1 s2 s3 : State} {bs : List Byte}
    (e1 : fLd ctx (s.block ctx + 0xB10) 8 s = .ok spill s1) (e2 : fLd ctx (s.block ctx + 0xB20) 8 s1 = .ok stat s2)
    (hr : (spill == 0 && bitAt stat 0) = false) (e3 : fLdBytes ctx spill 1024 s2 = .ok bs s3) (hv : s3.verifies ctx bs = true)
    (hk : bitsOf (leNat (sliceBytes bs 0x10 8)) 17 2 = 1 ∧ bitAt (leNat (sliceBytes bs 0x10 8)) 7 = true)
    (ho : bitAt (leNat (sliceBytes bs 0x10 8)) 16 = false) : ∃ b p, refillFrames ctx stove slot ev s = .ok (.ok (b, false, p)) s3 := by
  unfold refillFrames
  simp only [bind, EStateM.bind, get, getThe, MonadStateOf.get, EStateM.get, e1, e2, hr, Bool.false_eq_true, if_false, e3, hv, Bool.not_true, hk.1,
    hk.2, ne_eq, not_true, or_self, ho, false_and, pure, EStateM.pure]
  exact ⟨_, _, rfl⟩

/-! ## Frame operands -/

/-- What a refire log and the charges of accesses may add. -/
def OnlyNoted (c c' : Cpu) : Prop := c' = { c with log := c'.log, acc := c'.acc }

theorem OnlyNoted.same {c c' : Cpu} (h : OnlyNoted c c') : c'.s = c.s := by rw [h]

/-- R295: a piece of ordinary memory reads as memory gives it, while its context has no store in the buffer. -/
theorem loadPiece_run (p : Piece) (second : Bool) (c : Cpu) (ho : p.own = false) (ha : c.s.ordinary p.pa = true)
    (hs : c.s.ownStores c.b.ctx = []) : ∃ c', loadPiece p second c = .ok (c.s.viewBytes [] p.pa p.len) c' ∧ OnlyNoted c c' := by
  have hf : ∀ a n, c.s.forwarded c.b.ctx a n = false := fun a n => by unfold State.forwarded; rw [hs]; rfl
  have hp : ∀ a n, c.s.partial' c.b.ctx a n = false := fun a n => by unfold State.partial'; rw [hf, hs]; rfl
  unfold loadPiece loadOrdinary noteAccess
  simp only [bind_run, get_run, ho, ha, hf, hp, hs, State.drainOver, Bool.false_eq_true, if_false, if_true, Bool.not_false, modify_run, modS_run,
    pure_run]
  exact ⟨_, rfl, rfl⟩

/-- R22, R295: pieces of ordinary memory read as memory gives them, while their context has no store in the buffer. -/
theorem readPieces_run (ps : List Piece) (second : Bool) (c : Cpu) (hr : c.replay = []) (hs : c.s.ownStores c.b.ctx = [])
    (h : ∀ p ∈ ps, p.own = false ∧ c.s.ordinary p.pa = true) :
    ∃ c', readPieces ps second c = .ok (ps.flatMap fun p => c.s.viewBytes [] p.pa p.len) c' ∧ OnlyNoted c c' := by
  induction ps generalizing c second with
  | nil => exact ⟨c, rfl, rfl⟩
  | cons p t ih =>
    obtain ⟨ho, ha⟩ := h p (List.mem_cons_self ..)
    obtain ⟨c1, e1, h1⟩ := loadPiece_run p second c ho ha hs
    generalize hd : ({ c1 with log := c1.log ++ [Kept.read (c.s.viewBytes [] p.pa p.len) (c1.since c.acc.length)] } : Cpu) = d
    have ek : keptRead (loadPiece p second) c = .ok (c.s.viewBytes [] p.pa p.len) d := by
      unfold keptRead keepingRead
      simp only [bind_run, get_run, hr, e1, ← hd]
    have hdn : OnlyNoted c d := by rw [← hd]; unfold OnlyNoted at *; rw [h1]
    have hds : d.s = c.s := by rw [hdn]
    have hdb : d.b = c.b := by rw [hdn]
    have hv : p.volatile c.s = false := by rw [Piece.volatile, ha]; simp
    obtain ⟨c2, e2, h2⟩ := ih true d (by rw [hdn]; exact hr) (by rw [hds, hdb]; exact hs) fun q m => by
      rw [hds]; exact h q (List.mem_cons_of_mem _ m)
    refine ⟨c2, ?_, ?_⟩
    · unfold readPieces
      simp only [bind_run, ek, get_run, hv, Bool.false_eq_true, if_false, pure_run, e2, hds, List.flatMap_cons]
    · unfold OnlyNoted at *
      rw [h2, hdn]

/-- R65: a frame load answers what lies there, while its context has no store in the buffer. -/
theorem frLdBytes_eq {a n : Nat} {c c' : Cpu} {bs : List Byte} (h : FrameReads c.s c.b.ctx a n) (hr : c.replay = []) (hp : c.pass = .plain)
    (hs : c.s.ownStores c.b.ctx = []) (ha : ∀ x ∈ pieces a n, c.s.ordinary x.1 = true) (e : frLdBytes a n c = .ok bs c') :
    bs = (pieces a n).flatMap (fun x => c.s.viewBytes [] x.1 x.2) ∧ OnlyNoted c c' := by
  obtain ⟨d, hd, hcd⟩ : ∃ d, (keptReach (frameOp (frameAddr c.b.ctx a n false)) c = .ok a d) ∧ OnlyNoted c d := by
    unfold keptReach keepingReach frameOp
    simp only [bind_run, get_run, hr, h.frameAddr_run]
    exact ⟨_, rfl, by simp [OnlyNoted, hr]⟩
  have hds : d.s = c.s := by rw [hcd]
  have hdb : d.b = c.b := by rw [hcd]
  have hdp : d.pass = .plain := by rw [hcd]; exact hp
  generalize hps : (pieces a n).map (fun x => ({ la := a + (x.1 - a), pa := x.1, len := x.2, own := false } : Piece)) = ps
  have er : frReach .load a n c = .ok ps d := by
    unfold frReach
    simp only [bind_run, getB_run, hd, pure_run, ← hps, reduceCtorEq, decide_false]
  have hps' : ∀ p ∈ ps, p.own = false ∧ d.s.ordinary p.pa = true := by
    rw [← hps, hds]
    intro p hp
    obtain ⟨x, hx, rfl⟩ := List.mem_map.mp hp
    exact ⟨rfl, ha x hx⟩
  unfold frLdBytes at e
  rw [bind_ok er] at e
  simp only [bind_run] at e
  split at e
  · rename_i u d' h1
    have : d' = d := by
      unfold awaitNeeded at h1
      simp only [bind_run, get_run, hdp, reduceCtorEq, if_false] at h1
      exact awaitLines_frame (by simp [hdp]) h1
    subst this
    obtain ⟨c2, e2, h2⟩ := readPieces_run ps false d' (by rw [hcd]; exact hr) (by rw [hds, hdb]; exact hs) hps'
    rw [e2] at e
    cases e
    refine ⟨?_, ?_⟩
    · rw [← hps, hds, List.flatMap_map]
    · unfold OnlyNoted at *
      rw [h2, hcd]
  · cases e

/-- What a context without buffered stores sees is what memory holds. -/
theorem viewBytes_of_mem {s t : State} (h : s.mem = t.mem) (a n : Nat) : s.viewBytes [] a n = t.viewBytes [] a n := by
  induction n generalizing a with
  | zero => rfl
  | succ n ih =>
    unfold State.viewBytes
    rw [ih]
    congr 1
    show s.byte a = t.byte a
    unfold State.byte
    rw [h]

/-! ## Seals -/

/-- R88: a frame whose CHECK is filled in with its seal verifies. -/
theorem verifies_of_check {s : State} {ctx : BitVec 20} {bs : List Byte} (h : wordAt bs 0x20 = s.sealOf ctx bs) : s.verifies ctx bs = true := by
  simp [State.verifies, h]

theorem leNat_leBytes (n v : Nat) : leNat (leBytes n v) = v % 256 ^ n := by
  induction n generalizing v with
  | zero => simp [leNat, leBytes, Nat.mod_one]
  | succ n ih =>
    have h : 256 ^ (n + 1) = 256 * 256 ^ n := Nat.pow_succ'
    rw [leBytes, leNat, ih, BitVec.toNat_ofNat, h, Nat.mod_mul]

theorem leNat_wordBytes (w : Word) : BitVec.ofNat 64 (leNat (wordBytes w)) = w := by
  apply BitVec.eq_of_toNat_eq
  have := w.isLt
  have h : (256 : Nat) ^ 8 = 2 ^ 64 := by decide
  rw [wordBytes, leNat_leBytes, BitVec.toNat_ofNat, h]
  omega

end Sys2Proof.Machine
end

