-- ==== Sys2Proof/Laws/Held.lean ====
section
/-!
SUPPORT. The laws of work that a reservation may hold up (R248): what leaves memory as it is, such as holding work in the buffer of a
port, is never held.
-/

namespace Sys2Proof.Machine

/-- Memory that is unchanged differs in no held line. -/
theorem writesHeld_mem {s t : State} (h : t.mem = s.mem) : s.writesHeld t = false := by
  have hb : ∀ a n, t.bytes a n = s.bytes a n := fun a n => by unfold State.bytes; rw [h]
  simp [State.writesHeld, hb]

/-- A command that leaves memory as it is takes effect. -/
theorem unlessHeld_mem {s t : State} (h : t.mem = s.mem) : s.unlessHeld t = t := by
  unfold State.unlessHeld; rw [writesHeld_mem h]; rfl

theorem State.countPort_mem (s : State) (port cnt n : Nat) : (s.countPort port cnt n).mem = s.mem := rfl

theorem State.frameOut_mem (s : State) (port : Nat) (f : List Byte) : (s.frameOut port f).mem = s.mem := by
  unfold State.frameOut
  repeat' (first | rfl | split)

theorem State.sendPause_mem (s : State) (port : Nat) : (s.sendPause port).mem = s.mem := by
  have hs : ∀ b, ((({ s with fresh := s.fresh + 1 } : State).frameOut port b).countPort port 8 1).mem = s.mem := fun b => by
    rw [State.countPort_mem, State.frameOut_mem]
  unfold State.sendPause
  dsimp only
  split
  · rfl
  · split
    · exact hs _
    · split
      · exact hs _
      · rfl

theorem State.overflow_mem (s : State) (port : Nat) : (s.overflow port).mem = s.mem := State.sendPause_mem _ _

/-- Work that waits in the input buffer of its port, or finds no room there, leaves memory as it is. -/
theorem State.holdWork_mem (s : State) (port : Nat) (w : Work) : (s.holdWork port w).mem = s.mem := by
  unfold State.holdWork
  split
  · rfl
  · exact s.overflow_mem port

theorem State.holdFrame_mem (s : State) (f : HeldFrame) : (s.holdFrame f).mem = s.mem := by
  unfold State.holdFrame
  split
  · rfl
  · exact s.overflow_mem _

end Sys2Proof.Machine
end

