-- ==== Sys2Proof/Laws/PerInstr.lean ====
section
/-!
SUPPORT. What every command of the table keeps as syntax: the physical world's answers that a well-formed command carries stay within
R369's tries of a pair and R424's findings, one lemma for each command.
-/

namespace Sys2Proof.Laws.Wf

/-- The physical world's answers to the instruction that a command issues, when it issues one. -/
def answers : Instr → Option Env
  | .mov m => some m.issue.env
  | .movPsw i => some i.env
  | .andPsw i => some i.env
  | .orPsw i => some i.env
  | .lea i => some i.env
  | .add i => some i.env
  | .sub i => some i.env
  | .mul i => some i.env
  | .mulh i => some i.env
  | .div i => some i.env
  | .divu i => some i.env
  | .rem i => some i.env
  | .neg i => some i.env
  | .abs i => some i.env
  | .and i => some i.env
  | .or i => some i.env
  | .xor i => some i.env
  | .not i => some i.env
  | .shl i => some i.env
  | .shr i => some i.env
  | .sha i => some i.env
  | .rot i => some i.env
  | .cmp i => some i.env
  | .tst i => some i.env
  | .br i => some i.env
  | .brc i => some i.env
  | .call i => some i.env
  | .ret i => some i.env
  | .rep i => some i.env
  | .addp i => some i.env
  | .subp i => some i.env
  | .zapp i => some i.env
  | .cmpp i => some i.env
  | .mulp i => some i.env
  | .divp i => some i.env
  | .srpp i => some i.env
  | .tstp i => some i.env
  | .cvbp i => some i.env
  | .cvdp i => some i.env
  | .pack i => some i.env
  | .unpk i => some i.env
  | .lda i => some i.env
  | .sta i => some i.env
  | .movl i => some i.env
  | .cmpl i => some i.env
  | .trl i => some i.env
  | .trtl i => some i.env
  | .srch i => some i.env
  | .edit i => some i.env
  | .edmk i => some i.env
  | .post i => some i.env
  | .japp i => some i.env
  | .durw i => some i.env
  | .fadd i => some i.env
  | .fsub i => some i.env
  | .fmul i => some i.env
  | .fma i => some i.env
  | .fdiv i => some i.env
  | .fsqrt i => some i.env
  | .fcmp i => some i.env
  | .fcvt i => some i.env
  | .dot i => some i.env
  | .saveh i => some i.env
  | .resth i => some i.env
  | .sealf i => some i.env
  | .retx i => some i.env
  | .svc i => some i.env
  | .wait i => some i.env
  | .signal i => some i.env
  | .send i => some i.env
  | .recv i => some i.env
  | .pin i => some i.env
  | .unpin i => some i.env
  | .sample i => some i.env
  | .fence i => some i.env
  | .setkey i => some i.env
  | .testkey i => some i.env
  | .microwordReissue _ _ env => some env
  | .alarmTaken _ _ env => some env
  | .completionTimeout _ env => some env
  | _ => none

/-- R369, R424: a well-formed command tries a pair at most eight times, and finds in memory what a channel can find. -/
def Statement (i : Instr) : Prop :=
  i.wf = true → ∀ e, answers i = some e → e.upsets.length ≤ 8 ∧ ∀ f ∈ e.mem, f.wf = true

/-- A well-formed answer of the world. -/
theorem of_env {e : Env} (h : e.wf = true) : e.upsets.length ≤ 8 ∧ ∀ f ∈ e.mem, f.wf = true := by
  simp only [Env.wf, Bool.and_eq_true, decide_eq_true_eq, List.all_eq_true] at h
  exact ⟨h.1.1, h.2⟩

theorem mov (m : MovIssue) : Statement (.mov m) := fun h _ e => Option.some.inj e ▸ of_env (Bool.and_eq_true _ _ ▸ h).1
theorem movPsw (i : Issue) : Statement (.movPsw i) := fun h _ e => Option.some.inj e ▸ of_env h
theorem andPsw (i : Issue) : Statement (.andPsw i) := fun h _ e => Option.some.inj e ▸ of_env h
theorem orPsw (i : Issue) : Statement (.orPsw i) := fun h _ e => Option.some.inj e ▸ of_env h
theorem lea (i : Issue) : Statement (.lea i) := fun h _ e => Option.some.inj e ▸ of_env h
theorem add (i : Issue) : Statement (.add i) := fun h _ e => Option.some.inj e ▸ of_env h
theorem sub (i : Issue) : Statement (.sub i) := fun h _ e => Option.some.inj e ▸ of_env h
theorem mul (i : Issue) : Statement (.mul i) := fun h _ e => Option.some.inj e ▸ of_env h
theorem mulh (i : Issue) : Statement (.mulh i) := fun h _ e => Option.some.inj e ▸ of_env h
theorem div (i : Issue) : Statement (.div i) := fun h _ e => Option.some.inj e ▸ of_env h
theorem divu (i : Issue) : Statement (.divu i) := fun h _ e => Option.some.inj e ▸ of_env h
theorem rem (i : Issue) : Statement (.rem i) := fun h _ e => Option.some.inj e ▸ of_env h
theorem neg (i : Issue) : Statement (.neg i) := fun h _ e => Option.some.inj e ▸ of_env h
theorem abs (i : Issue) : Statement (.abs i) := fun h _ e => Option.some.inj e ▸ of_env h
theorem and (i : Issue) : Statement (.and i) := fun h _ e => Option.some.inj e ▸ of_env h
theorem or (i : Issue) : Statement (.or i) := fun h _ e => Option.some.inj e ▸ of_env h
theorem xor (i : Issue) : Statement (.xor i) := fun h _ e => Option.some.inj e ▸ of_env h
theorem not (i : Issue) : Statement (.not i) := fun h _ e => Option.some.inj e ▸ of_env h
theorem shl (i : Issue) : Statement (.shl i) := fun h _ e => Option.some.inj e ▸ of_env h
theorem shr (i : Issue) : Statement (.shr i) := fun h _ e => Option.some.inj e ▸ of_env h
theorem sha (i : Issue) : Statement (.sha i) := fun h _ e => Option.some.inj e ▸ of_env h
theorem rot (i : Issue) : Statement (.rot i) := fun h _ e => Option.some.inj e ▸ of_env h
theorem cmp (i : Issue) : Statement (.cmp i) := fun h _ e => Option.some.inj e ▸ of_env h
theorem tst (i : Issue) : Statement (.tst i) := fun h _ e => Option.some.inj e ▸ of_env h
theorem br (i : Issue) : Statement (.br i) := fun h _ e => Option.some.inj e ▸ of_env h
theorem brc (i : Issue) : Statement (.brc i) := fun h _ e => Option.some.inj e ▸ of_env h
theorem call (i : Issue) : Statement (.call i) := fun h _ e => Option.some.inj e ▸ of_env h
theorem ret (i : Issue) : Statement (.ret i) := fun h _ e => Option.some.inj e ▸ of_env h
theorem rep (i : Issue) : Statement (.rep i) := fun h _ e => Option.some.inj e ▸ of_env h
theorem addp (i : Issue) : Statement (.addp i) := fun h _ e => Option.some.inj e ▸ of_env h
theorem subp (i : Issue) : Statement (.subp i) := fun h _ e => Option.some.inj e ▸ of_env h
theorem zapp (i : Issue) : Statement (.zapp i) := fun h _ e => Option.some.inj e ▸ of_env h
theorem cmpp (i : Issue) : Statement (.cmpp i) := fun h _ e => Option.some.inj e ▸ of_env h
theorem mulp (i : Issue) : Statement (.mulp i) := fun h _ e => Option.some.inj e ▸ of_env h
theorem divp (i : Issue) : Statement (.divp i) := fun h _ e => Option.some.inj e ▸ of_env h
theorem srpp (i : Issue) : Statement (.srpp i) := fun h _ e => Option.some.inj e ▸ of_env h
theorem tstp (i : Issue) : Statement (.tstp i) := fun h _ e => Option.some.inj e ▸ of_env h
theorem cvbp (i : Issue) : Statement (.cvbp i) := fun h _ e => Option.some.inj e ▸ of_env h
theorem cvdp (i : Issue) : Statement (.cvdp i) := fun h _ e => Option.some.inj e ▸ of_env h
theorem pack (i : Issue) : Statement (.pack i) := fun h _ e => Option.some.inj e ▸ of_env h
theorem unpk (i : Issue) : Statement (.unpk i) := fun h _ e => Option.some.inj e ▸ of_env h
theorem lda (i : Issue) : Statement (.lda i) := fun h _ e => Option.some.inj e ▸ of_env h
theorem sta (i : Issue) : Statement (.sta i) := fun h _ e => Option.some.inj e ▸ of_env h
theorem movl (i : Issue) : Statement (.movl i) := fun h _ e => Option.some.inj e ▸ of_env h
theorem cmpl (i : Issue) : Statement (.cmpl i) := fun h _ e => Option.some.inj e ▸ of_env h
theorem trl (i : Issue) : Statement (.trl i) := fun h _ e => Option.some.inj e ▸ of_env h
theorem trtl (i : Issue) : Statement (.trtl i) := fun h _ e => Option.some.inj e ▸ of_env h
theorem srch (i : Issue) : Statement (.srch i) := fun h _ e => Option.some.inj e ▸ of_env h
theorem edit (i : Issue) : Statement (.edit i) := fun h _ e => Option.some.inj e ▸ of_env h
theorem edmk (i : Issue) : Statement (.edmk i) := fun h _ e => Option.some.inj e ▸ of_env h
theorem post (i : Issue) : Statement (.post i) := fun h _ e => Option.some.inj e ▸ of_env h
theorem japp (i : Issue) : Statement (.japp i) := fun h _ e => Option.some.inj e ▸ of_env h
theorem durw (i : Issue) : Statement (.durw i) := fun h _ e => Option.some.inj e ▸ of_env h
theorem fadd (i : Issue) : Statement (.fadd i) := fun h _ e => Option.some.inj e ▸ of_env h
theorem fsub (i : Issue) : Statement (.fsub i) := fun h _ e => Option.some.inj e ▸ of_env h
theorem fmul (i : Issue) : Statement (.fmul i) := fun h _ e => Option.some.inj e ▸ of_env h
theorem fma (i : Issue) : Statement (.fma i) := fun h _ e => Option.some.inj e ▸ of_env h
theorem fdiv (i : Issue) : Statement (.fdiv i) := fun h _ e => Option.some.inj e ▸ of_env h
theorem fsqrt (i : Issue) : Statement (.fsqrt i) := fun h _ e => Option.some.inj e ▸ of_env h
theorem fcmp (i : Issue) : Statement (.fcmp i) := fun h _ e => Option.some.inj e ▸ of_env h
theorem fcvt (i : Issue) : Statement (.fcvt i) := fun h _ e => Option.some.inj e ▸ of_env h
theorem dot (i : Issue) : Statement (.dot i) := fun h _ e => Option.some.inj e ▸ of_env h
theorem saveh (i : Issue) : Statement (.saveh i) := fun h _ e => Option.some.inj e ▸ of_env h
theorem resth (i : Issue) : Statement (.resth i) := fun h _ e => Option.some.inj e ▸ of_env h
theorem sealf (i : Issue) : Statement (.sealf i) := fun h _ e => Option.some.inj e ▸ of_env h
theorem retx (i : Issue) : Statement (.retx i) := fun h _ e => Option.some.inj e ▸ of_env h
theorem svc (i : Issue) : Statement (.svc i) := fun h _ e => Option.some.inj e ▸ of_env h
theorem wait (i : Issue) : Statement (.wait i) := fun h _ e => Option.some.inj e ▸ of_env h
theorem signal (i : Issue) : Statement (.signal i) := fun h _ e => Option.some.inj e ▸ of_env h
theorem send (i : Issue) : Statement (.send i) := fun h _ e => Option.some.inj e ▸ of_env h
theorem recv (i : Issue) : Statement (.recv i) := fun h _ e => Option.some.inj e ▸ of_env h
theorem pin (i : Issue) : Statement (.pin i) := fun h _ e => Option.some.inj e ▸ of_env h
theorem unpin (i : Issue) : Statement (.unpin i) := fun h _ e => Option.some.inj e ▸ of_env h
theorem sample (i : Issue) : Statement (.sample i) := fun h _ e => Option.some.inj e ▸ of_env h
theorem fence (i : Issue) : Statement (.fence i) := fun h _ e => Option.some.inj e ▸ of_env h
theorem setkey (i : Issue) : Statement (.setkey i) := fun h _ e => Option.some.inj e ▸ of_env h
theorem testkey (i : Issue) : Statement (.testkey i) := fun h _ e => Option.some.inj e ▸ of_env h
theorem microwordReissue (stove : BitVec 6) (flue : BitVec 2) (env : Env) : Statement (.microwordReissue stove flue env) := fun h _ e => Option.some.inj e ▸ of_env h
theorem damperLeaveGrant (bucket : BitVec 4) : Statement (.damperLeaveGrant bucket) := fun _ _ e => nomatch e
theorem lineReservationGrant (ctx : BitVec 20) : Statement (.lineReservationGrant ctx) := fun _ _ e => nomatch e
theorem storeBufferDrain (ctx : BitVec 20) : Statement (.storeBufferDrain ctx) := fun _ _ e => nomatch e
theorem lineWriteBack (line : BitVec 42) (found : WriteBack) : Statement (.lineWriteBack line found) := fun _ _ e => nomatch e
theorem timerAlarm (ctx : BitVec 20) : Statement (.timerAlarm ctx) := fun _ _ e => nomatch e
theorem waitDeadline (ctx : BitVec 20) : Statement (.waitDeadline ctx) := fun _ _ e => nomatch e
theorem alarmTaken (ctx : BitVec 20) (micro : Option MicroTrap) (env : Env) : Statement (.alarmTaken ctx micro env) := fun h _ e => Option.some.inj e ▸ of_env h
theorem flueBind (stove : BitVec 6) (flue : BitVec 2) : Statement (.flueBind stove flue) := fun _ _ e => nomatch e
theorem timeSliceDue (stove : BitVec 6) (flue : BitVec 2) : Statement (.timeSliceDue stove flue) := fun _ _ e => nomatch e
theorem preemption (ctx : BitVec 20) : Statement (.preemption ctx) := fun _ _ e => nomatch e
theorem spill (ctx : BitVec 20) : Statement (.spill ctx) := fun _ _ e => nomatch e
theorem refill (ctx : BitVec 20) : Statement (.refill ctx) := fun _ _ e => nomatch e
theorem ctxcmdStart (src : Src) (ctx : BitVec 20) : Statement (.ctxcmdStart src ctx) := fun _ _ e => nomatch e
theorem ctxcmdStop (src : Src) (ctx : BitVec 20) : Statement (.ctxcmdStop src ctx) := fun _ _ e => nomatch e
theorem ctxcmdEvict (src : Src) (ctx : BitVec 20) : Statement (.ctxcmdEvict src ctx) := fun _ _ e => nomatch e
theorem ctxcmdPreempt (src : Src) (ctx : BitVec 20) : Statement (.ctxcmdPreempt src ctx) := fun _ _ e => nomatch e
theorem ctxcmdAlarm (src : Src) (ctx : BitVec 20) : Statement (.ctxcmdAlarm src ctx) := fun _ _ e => nomatch e
theorem ctxcmdAttn (src : Src) (ctx : BitVec 20) : Statement (.ctxcmdAttn src ctx) := fun _ _ e => nomatch e
theorem ctxcmdReset (src : Src) (ctx : BitVec 20) : Statement (.ctxcmdReset src ctx) := fun _ _ e => nomatch e
theorem wgcmdEnable (src : Src) (wg : BitVec 12) : Statement (.wgcmdEnable src wg) := fun _ _ e => nomatch e
theorem wgcmdDisable (src : Src) (wg : BitVec 12) : Statement (.wgcmdDisable src wg) := fun _ _ e => nomatch e
theorem wgcmdClearCounts (src : Src) (wg : BitVec 12) : Statement (.wgcmdClearCounts src wg) := fun _ _ e => nomatch e
theorem manDumpcmd (src : Src) (stove : BitVec 6) : Statement (.manDumpcmd src stove) := fun _ _ e => nomatch e
theorem rfcmdQuar (src : Src) (stove : BitVec 6) : Statement (.rfcmdQuar src stove) := fun _ _ e => nomatch e
theorem emberParityError (stove : BitVec 6) (upc : BitVec 14) (reload : Reload) : Statement (.emberParityError stove upc reload) := fun _ _ e => nomatch e
theorem rekcmd (src : Src) (stove : BitVec 6) (reload : Reload) : Statement (.rekcmd src stove reload) := fun _ _ e => nomatch e
theorem quiesceRequest (src : Src) (slot : BitVec 8) : Statement (.quiesceRequest src slot) := fun _ _ e => nomatch e
theorem quiesceAck (slot : BitVec 8) : Statement (.quiesceAck slot) := fun _ _ e => nomatch e
theorem quiesceRelease (src : Src) (slot : BitVec 8) : Statement (.quiesceRelease src slot) := fun _ _ e => nomatch e
theorem quiesceTimeout (slot : BitVec 8) : Statement (.quiesceTimeout slot) := fun _ _ e => nomatch e
theorem registerWrite (src : Src) (addr : BitVec 20) (value : Word) : Statement (.registerWrite src addr value) := fun _ _ e => nomatch e
theorem rcRead (addr : BitVec 20) : Statement (.rcRead addr) := fun _ _ e => nomatch e
theorem cachectlWbinv (src : Src) (w : Wbinv) : Statement (.cachectlWbinv src w) := fun _ _ e => nomatch e
theorem fktenChange (src : Src) (on : Bool) : Statement (.fktenChange src on) := fun _ _ e => nomatch e
theorem frameReceive (port : BitVec 3) (fcsOk : Bool) (bytes : List Byte) : Statement (.frameReceive port fcsOk bytes) := fun _ _ e => nomatch e
theorem sendDescriptor (queue : BitVec 19) : Statement (.sendDescriptor queue) := fun _ _ e => nomatch e
theorem doorbellSendProducer (queue : BitVec 19) (index : BitVec 32) : Statement (.doorbellSendProducer queue index) := fun _ _ e => nomatch e
theorem doorbellReceiveTail (queue : BitVec 19) (index : BitVec 32) : Statement (.doorbellReceiveTail queue index) := fun _ _ e => nomatch e
theorem qcmdEnable (src : Src) (queue : BitVec 19) : Statement (.qcmdEnable src queue) := fun _ _ e => nomatch e
theorem qcmdDisable (src : Src) (queue : BitVec 19) : Statement (.qcmdDisable src queue) := fun _ _ e => nomatch e
theorem qcmdFlush (src : Src) (queue : BitVec 19) : Statement (.qcmdFlush src queue) := fun _ _ e => nomatch e
theorem qcmdRelease (src : Src) (queue : BitVec 19) : Statement (.qcmdRelease src queue) := fun _ _ e => nomatch e
theorem qcmdRestart (src : Src) (queue : BitVec 19) : Statement (.qcmdRestart src queue) := fun _ _ e => nomatch e
theorem rulecmdLoad (src : Src) (first : BitVec 10) (last : BitVec 10) : Statement (.rulecmdLoad src first last) := fun _ _ e => nomatch e
theorem rulecmdDump (src : Src) (first : BitVec 10) (last : BitVec 10) : Statement (.rulecmdDump src first last) := fun _ _ e => nomatch e
theorem statselClr (src : Src) (port : BitVec 3) (cnt : BitVec 4) : Statement (.statselClr src port cnt) := fun _ _ e => nomatch e
theorem roceSendReceive (head : RoceHead) (part : RoceSend) : Statement (.roceSendReceive head part) := fun _ _ e => nomatch e
theorem rdmaWriteReceive (head : RoceHead) (part : RoceWrite) : Statement (.rdmaWriteReceive head part) := fun _ _ e => nomatch e
theorem rdmaReadReceive (head : RoceHead) (va : Word) (rkey : BitVec 32) (len : BitVec 32) : Statement (.rdmaReadReceive head va rkey len) := fun _ _ e => nomatch e
theorem roceAckReceive (head : RoceHead) (syndrome : BitVec 8) : Statement (.roceAckReceive head syndrome) := fun _ _ e => nomatch e
theorem rcAckTimeout (qp : BitVec 16) : Statement (.rcAckTimeout qp) := fun _ _ e => nomatch e
theorem mirrorSessionStart (set : BitVec 3) (peer : Bool) : Statement (.mirrorSessionStart set peer) := fun _ _ e => nomatch e
theorem hello (head : MirrorHead) (na : BitVec 256) (pub : BitVec 512) (eph : BitVec 512) : Statement (.hello head na pub eph) := fun _ _ e => nomatch e
theorem helloReply (head : MirrorHead) (nb : BitVec 256) (pub : BitVec 512) (eph : BitVec 512) (sig : BitVec 512) : Statement (.helloReply head nb pub eph sig) := fun _ _ e => nomatch e
theorem confirm (head : MirrorHead) (sig : BitVec 512) : Statement (.confirm head sig) := fun _ _ e => nomatch e
theorem resume (head : MirrorHead) (ring : BitVec 12) (seq : Word) (chain : BitVec 256) : Statement (.resume head ring seq chain) := fun _ _ e => nomatch e
theorem records (head : MirrorHead) (ring : BitVec 12) (seq : Word) (records : List (BitVec 1024)) : Statement (.records head ring seq records) := fun _ _ e => nomatch e
theorem ack (head : MirrorHead) (ring : BitVec 12) (seq : Word) (chain : BitVec 256) : Statement (.ack head ring seq chain) := fun _ _ e => nomatch e
theorem close (head : MirrorHead) (reason : BitVec 32) : Statement (.close head reason) := fun _ _ e => nomatch e
theorem mirrorRecordsSend (set : BitVec 3) (peer : Bool) (ring : BitVec 12) : Statement (.mirrorRecordsSend set peer ring) := fun _ _ e => nomatch e
theorem mirrorLossTimeout (set : BitVec 3) (peer : Bool) : Statement (.mirrorLossTimeout set peer) := fun _ _ e => nomatch e
theorem ptpPpsIn : Statement (.ptpPpsIn) := fun _ _ e => nomatch e
theorem ptpPpsOut : Statement (.ptpPpsOut) := fun _ _ e => nomatch e
theorem belDoorbell (src : Src) (chan : BitVec 6) (index : BitVec 32) : Statement (.belDoorbell src chan index) := fun _ _ e => nomatch e
theorem chcmdEnable (src : Src) (chan : BitVec 6) : Statement (.chcmdEnable src chan) := fun _ _ e => nomatch e
theorem chcmdDisable (src : Src) (chan : BitVec 6) : Statement (.chcmdDisable src chan) := fun _ _ e => nomatch e
theorem copy (chan : BitVec 6) (limit : Option Nat) : Statement (.copy chan limit) := fun _ _ e => nomatch e
theorem fill (chan : BitVec 6) (limit : Option Nat) : Statement (.fill chan limit) := fun _ _ e => nomatch e
theorem gather (chan : BitVec 6) (limit : Option Nat) : Statement (.gather chan limit) := fun _ _ e => nomatch e
theorem scatter (chan : BitVec 6) (limit : Option Nat) : Statement (.scatter chan limit) := fun _ _ e => nomatch e
theorem compare (chan : BitVec 6) (limit : Option Nat) : Statement (.compare chan limit) := fun _ _ e => nomatch e
theorem digest (chan : BitVec 6) (limit : Option Nat) : Statement (.digest chan limit) := fun _ _ e => nomatch e
theorem crc32c (chan : BitVec 6) (limit : Option Nat) : Statement (.crc32c chan limit) := fun _ _ e => nomatch e
theorem belDescriptorComplete (chan : BitVec 6) : Statement (.belDescriptorComplete chan) := fun _ _ e => nomatch e
theorem secRandom : Statement (.secRandom) := fun _ _ e => nomatch e
theorem secVerify : Statement (.secVerify) := fun _ _ e => nomatch e
theorem secQuote : Statement (.secQuote) := fun _ _ e => nomatch e
theorem secEncrypt : Statement (.secEncrypt) := fun _ _ e => nomatch e
theorem secDecrypt : Statement (.secDecrypt) := fun _ _ e => nomatch e
theorem secReadcfg : Statement (.secReadcfg) := fun _ _ e => nomatch e
theorem secOpComplete : Statement (.secOpComplete) := fun _ _ e => nomatch e
theorem stage (src : Src) : Statement (.stage src) := fun _ _ e => nomatch e
theorem sign (src : Src) : Statement (.sign src) := fun _ _ e => nomatch e
theorem commit (src : Src) (fault : StoreFault) : Statement (.commit src fault) := fun _ _ e => nomatch e
theorem clear (src : Src) : Statement (.clear src) := fun _ _ e => nomatch e
theorem tpcExpiry : Statement (.tpcExpiry) := fun _ _ e => nomatch e
theorem rngHealthFail : Statement (.rngHealthFail) := fun _ _ e => nomatch e
theorem dbgcmdHalt (src : Src) (ctx : BitVec 20) : Statement (.dbgcmdHalt src ctx) := fun _ _ e => nomatch e
theorem dbgcmdResume (src : Src) (ctx : BitVec 20) : Statement (.dbgcmdResume src ctx) := fun _ _ e => nomatch e
theorem dbgcmdStep (src : Src) (ctx : BitVec 20) : Statement (.dbgcmdStep src ctx) := fun _ _ e => nomatch e
theorem debugSessionOpen : Statement (.debugSessionOpen) := fun _ _ e => nomatch e
theorem debugAccess (access : DebugAccess) : Statement (.debugAccess access) := fun _ _ e => nomatch e
theorem scrubLine (pair : BitVec 29) (lo : Misread) (hi : Misread) : Statement (.scrubLine pair lo hi) := fun _ _ e => nomatch e
theorem pinctlClr (src : Src) : Statement (.pinctlClr src) := fun _ _ e => nomatch e
theorem pinctlErase (src : Src) : Statement (.pinctlErase src) := fun _ _ e => nomatch e
theorem pinctlUnerase (src : Src) : Statement (.pinctlUnerase src) := fun _ _ e => nomatch e
theorem failcmd (src : Src) (channel : BitVec 6) : Statement (.failcmd src channel) := fun _ _ e => nomatch e
theorem memRetrain (channel : BitVec 6) (ok : Bool) : Statement (.memRetrain channel ok) := fun _ _ e => nomatch e
theorem fxpLinkUp (port : BitVec 2) (partner : LinkPartner) : Statement (.fxpLinkUp port partner) := fun _ _ e => nomatch e
theorem fxpLinkDown (port : BitVec 2) : Statement (.fxpLinkDown port) := fun _ _ e => nomatch e
theorem cxlDeviceEvent (port : BitVec 2) : Statement (.cxlDeviceEvent port) := fun _ _ e => nomatch e
theorem inboundRead (port : BitVec 2) (target : Target) (len : BitVec 13) : Statement (.inboundRead port target len) := fun _ _ e => nomatch e
theorem inboundWrite (port : BitVec 2) (target : Target) (w : InWrite) : Statement (.inboundWrite port target w) := fun _ _ e => nomatch e
theorem inboundConfigRequest (reg : BitVec 12) (value : Option (BitVec 32)) : Statement (.inboundConfigRequest reg value) := fun _ _ e => nomatch e
theorem completionTimeout (ctx : BitVec 20) (env : Env) : Statement (.completionTimeout ctx env) := fun h _ e => Option.some.inj e ▸ of_env h
theorem msixcmd (src : Src) (vec : BitVec 6) : Statement (.msixcmd src vec) := fun _ _ e => nomatch e
theorem claimBeat (src : Src) : Statement (.claimBeat src) := fun _ _ e => nomatch e
theorem claimClaim (src : Src) : Statement (.claimClaim src) := fun _ _ e => nomatch e
theorem claimRelease (src : Src) : Statement (.claimRelease src) := fun _ _ e => nomatch e
theorem todset (src : Src) (value : Word) : Statement (.todset src value) := fun _ _ e => nomatch e
theorem todstep (src : Src) (value : Word) : Statement (.todstep src value) := fun _ _ e => nomatch e
theorem damperRefill : Statement (.damperRefill) := fun _ _ e => nomatch e
theorem thermalSample (r : Readings) : Statement (.thermalSample r) := fun _ _ e => nomatch e
theorem overtempTimeout : Statement (.overtempTimeout) := fun _ _ e => nomatch e
theorem thermalTrip : Statement (.thermalTrip) := fun _ _ e => nomatch e
theorem brownout (mv : BitVec 16) : Statement (.brownout mv) := fun _ _ e => nomatch e
theorem brownoutRecovery (mv : BitVec 16) : Statement (.brownoutRecovery mv) := fun _ _ e => nomatch e
theorem railfail (vin : Option (BitVec 16)) : Statement (.railfail vin) := fun _ _ e => nomatch e
theorem refloss (unlock : Bool) : Statement (.refloss unlock) := fun _ _ e => nomatch e
theorem pllRelock : Statement (.pllRelock) := fun _ _ e => nomatch e
theorem holdoverExpiry : Statement (.holdoverExpiry) := fun _ _ e => nomatch e
theorem pwrcmdOff (src : Src) (key : BitVec 32) : Statement (.pwrcmdOff src key) := fun _ _ e => nomatch e
theorem vsbRise : Statement (.vsbRise) := fun _ _ e => nomatch e
theorem vsbFall : Statement (.vsbFall) := fun _ _ e => nomatch e
theorem corePowerUp (env : BootEnv) (flash : Option (Flash × Flash)) : Statement (.corePowerUp env flash) := fun _ _ e => nomatch e
theorem bootctlRelease (src : Src) (hearths : BitVec 8) : Statement (.bootctlRelease src hearths) := fun _ _ e => nomatch e
theorem porstN : Statement (.porstN) := fun _ _ e => nomatch e
theorem warmN : Statement (.warmN) := fun _ _ e => nomatch e
theorem rstcmdStove (src : Src) (target : BitVec 6) (key : BitVec 32) : Statement (.rstcmdStove src target key) := fun _ _ e => nomatch e
theorem rstcmdHearth (src : Src) (target : BitVec 6) (key : BitVec 32) : Statement (.rstcmdHearth src target key) := fun _ _ e => nomatch e
theorem rstcmdWarm (src : Src) (key : BitVec 32) : Statement (.rstcmdWarm src key) := fun _ _ e => nomatch e
theorem rstcmdCold (src : Src) (key : BitVec 32) : Statement (.rstcmdCold src key) := fun _ _ e => nomatch e
theorem ashcmdClear (src : Src) (key : BitVec 32) : Statement (.ashcmdClear src key) := fun _ _ e => nomatch e
theorem ident (req : Mgmt) : Statement (.ident req) := fun _ _ e => nomatch e
theorem ashread (req : Mgmt) : Statement (.ashread req) := fun _ _ e => nomatch e
theorem lockread (req : Mgmt) : Statement (.lockread req) := fun _ _ e => nomatch e
theorem thermread (req : Mgmt) : Statement (.thermread req) := fun _ _ e => nomatch e
theorem masterread (req : Mgmt) : Statement (.masterread req) := fun _ _ e => nomatch e
theorem mgmtReset (req : Mgmt) : Statement (.mgmtReset req) := fun _ _ e => nomatch e
theorem powerdown (req : Mgmt) : Statement (.powerdown req) := fun _ _ e => nomatch e
theorem mgmtQuote (req : Mgmt) : Statement (.mgmtQuote req) := fun _ _ e => nomatch e
theorem cfgrecord (req : Mgmt) : Statement (.cfgrecord req) := fun _ _ e => nomatch e
theorem recovery (req : Mgmt) : Statement (.recovery req) := fun _ _ e => nomatch e
theorem mgmtDump (req : Mgmt) : Statement (.mgmtDump req) := fun _ _ e => nomatch e
theorem portLinkUp (port : BitVec 3) : Statement (.portLinkUp port) := fun _ _ e => nomatch e
theorem portLinkDown (port : BitVec 3) : Statement (.portLinkDown port) := fun _ _ e => nomatch e
theorem rngHealthPass : Statement (.rngHealthPass) := fun _ _ e => nomatch e
theorem debugSessionClose : Statement (.debugSessionClose) := fun _ _ e => nomatch e
theorem mantelCoreHalt (south : Bool) : Statement (.mantelCoreHalt south) := fun _ _ e => nomatch e
theorem perstNAssert : Statement (.perstNAssert) := fun _ _ e => nomatch e
theorem aerError (port : BitVec 2) (corr : Bool) : Statement (.aerError port corr) := fun _ _ e => nomatch e
theorem crcOrFramingError (iface : Iface) : Statement (.crcOrFramingError iface) := fun _ _ e => nomatch e
theorem unknownOp (req : Mgmt) : Statement (.unknownOp req) := fun _ _ e => nomatch e

end Sys2Proof.Laws.Wf
end

