-- ==== Sys2Proof/Laws/Registers.lean ====
section
/-!
SUPPORT. The laws of register writes: a write of a command register that its sender may make is its action, held while its block is
Quiesced; a write by the core without mastership is refused; the bit-field laws of the words that commands write.
-/

namespace Sys2Proof.Machine

/-- A field that a write leaves as it is: read-only, read-clear, or write-only outside the boot window's class. -/
def Field.inert (f : Field) : Bool :=
  match f.acc with
  | .ro | .rc => true
  | .wo => f.cls != .b
  | .rw | .w1c | .w1s => false

theorem writeField_inert {f : Field} (h : f.inert = true) (o : FieldsOut) (slot off v : Nat) : State.writeField o slot off v f = .ok o := by
  unfold State.writeField
  unfold Field.inert at h
  cases ha : f.acc <;> simp [ha] at h ⊢
  intro hc; exact absurd hc h

theorem writeFields_inert {fs : List Field} (h : fs.all Field.inert = true) (o : FieldsOut) (slot off v : Nat) :
    writeFields slot off v fs o = .ok o := by
  induction fs with
  | nil => rfl
  | cons f t ih =>
    simp only [List.all_cons, Bool.and_eq_true] at h
    simp only [writeFields, writeField_inert h.1, ih h.2]

/-- The sender of a register write, once admitted, is not refused. -/
theorem admits_reaches {s : State} {src : Src} (h : s.admits src = true) :
    s.reachesRegs src = true ∧ ¬(coreOf src ≠ 0 ∧ s.holder ≠ coreOf src) := by
  simp only [State.admits, Bool.and_eq_true, Bool.or_eq_true, beq_iff_eq] at h
  refine ⟨h.1, fun ⟨a, b⟩ => ?_⟩
  rcases h.2 with h | h
  · exact a h
  · exact b h

/-- A write that an admitted sender makes is applied. -/
theorem regWriteWith_admits {s : State} {src : Src} {slot off v : Nat} {k : PageKind} (x : Outside)
    (h : s.admits src = true) (hk : pageKind slot = some k) (hc : ¬(slot = Slot.man ∧ off = Off.MAN.CLAIM)) :
    s.regWriteWith src slot off v x = s.applyWrite k slot off v x := by
  obtain ⟨h1, h2⟩ := admits_reaches h
  unfold State.regWriteWith
  simp only [hk, h1, Bool.not_true, Bool.false_eq_true, if_false, hc]
  rw [if_neg h2]

/-- A write of a command register of a page that is not in reset is its action, performed or held. -/
theorem applyWrite_acts {s : State} {slot off v : Nat} {k : PageKind} {fs : List Field} (x : Outside)
    (ho : 0x40 ≤ off) (hf : ((findRow k off).map (·.fields)).getD [] = fs) (hr : s.inRst slot = false)
    (hi : fs.all Field.inert = true) : s.applyWrite k slot off v x = .ok (s.actOrPark k slot off v x) := by
  unfold State.applyWrite
  rw [if_neg (by show ¬ off = 8; omega)]
  have : ¬ off < 0x40 := by omega
  simp only [this, if_false, hf, hr, writeFields_inert hi, Bool.false_eq_true, and_false]

/-- A write of a command register that its sender may make. -/
theorem regWriteWith_acts {s : State} {src : Src} {slot off v : Nat} {k : PageKind} {fs : List Field} {x : Outside} (h : s.admits src = true) (hr : s.inRst slot = false) (hk : pageKind slot = some k)
    (hc : ¬(slot = Slot.man ∧ off = Off.MAN.CLAIM)) (ho : 0x40 ≤ off) (hf : ((findRow k off).map (·.fields)).getD [] = fs)
    (hi : fs.all Field.inert = true) :
    s.regWriteWith src slot off v x = .ok (s.actOrPark k slot off v x) := by
  rw [regWriteWith_admits x h hk hc, applyWrite_acts x ho hf hr hi]

/-- Without a reservation set nothing that is written is held. -/
theorem writesHeld_none {s t : State} (h : s.resv = []) : s.writesHeld t = false := by simp [State.writesHeld, h]

/-- A register that shows no BUSY bit is never BUSY. -/
theorem cmdBusy_none {s : State} {slot off : Nat} (h : busyBit slot off = none) : s.cmdBusy slot off = false := by
  unfold State.cmdBusy; rw [h]

/-- The action of a command register that is not BUSY is performed when it is not the work of a block. -/
theorem actOrPark_acts {s : State} {k : PageKind} {slot off v : Nat} {x : Outside} (hb : s.cmdBusy slot off = false)
    (h : actsForBlock k off = false) : s.actOrPark k slot off v x = s.act slot off v x := by
  unfold State.actOrPark; simp [hb, h]

/-- The action of a block that operates is performed when it writes no line that a reservation set holds. -/
theorem actOrPark_works {s : State} {k : PageKind} {slot off v : Nat} {x : Outside} (hb : s.cmdBusy slot off = false)
    (h : s.blockOn slot = true) (hw : s.writesHeld (s.act slot off v x) = false) :
    s.actOrPark k slot off v x = s.act slot off v x := by
  unfold State.actOrPark; simp [hb, h, hw]

/-- The action is held while the block does not operate. -/
theorem actOrPark_parks {s : State} {k : PageKind} {slot off v : Nat} {x : Outside} (hc : s.cmdBusy slot off = false)
    (h : actsForBlock k off = true) (hb : s.blockOn slot = false) : s.actOrPark k slot off v x = s.parkWrite slot off v := by
  unfold State.actOrPark; simp [hc, h, hb]

/-- When nothing waits, a command lets nothing go on. -/
theorem settle_idle {s : State} (h : s.idle = true) : s.settle = s := by simp [State.settle, h]

end Sys2Proof.Machine
end

