-- ==== Sys2Proof/Laws/State.lean ====
section
/-!
SUPPORT. What the basic updates of the state and of a bank leave: one lemma for each field an update does not write, and one for each
that it does.
-/

namespace Sys2Proof.Machine

/-! ## Registers -/

@[simp] theorem State.setReg_pending (s : State) (slot off v : Nat) : (s.setReg slot off v).pending = s.pending := rfl
@[simp] theorem State.setReg_mem (s : State) (slot off v : Nat) : (s.setReg slot off v).mem = s.mem := rfl
@[simp] theorem State.setReg_regsQ (s : State) (slot off v : Nat) : (s.setReg slot off v).regsQ = s.regsQ := rfl
@[simp] theorem State.setReg_lines (s : State) (slot off v : Nat) : (s.setReg slot off v).lines = s.lines := rfl
@[simp] theorem State.setReg_stores (s : State) (slot off v : Nat) : (s.setReg slot off v).stores = s.stores := rfl
@[simp] theorem State.setReg_dirty (s : State) (slot off v : Nat) : (s.setReg slot off v).dirty = s.dirty := rfl
@[simp] theorem State.setReg_banks (s : State) (slot off v : Nat) : (s.setReg slot off v).banks = s.banks := rfl
@[simp] theorem State.setReg_order (s : State) (slot off v : Nat) : (s.setReg slot off v).order = s.order := rfl
@[simp] theorem State.setReg_embers (s : State) (slot off v : Nat) : (s.setReg slot off v).embers = s.embers := rfl
@[simp] theorem State.setReg_temps (s : State) (slot off v : Nat) : (s.setReg slot off v).temps = s.temps := rfl
@[simp] theorem State.setReg_resv (s : State) (slot off v : Nat) : (s.setReg slot off v).resv = s.resv := rfl
@[simp] theorem State.setReg_ctxBusy (s : State) (slot off v : Nat) : (s.setReg slot off v).ctxBusy = s.ctxBusy := rfl
@[simp] theorem State.setReg_haltBusy (s : State) (slot off v : Nat) : (s.setReg slot off v).haltBusy = s.haltBusy := rfl
@[simp] theorem State.setReg_halting (s : State) (slot off v : Nat) : (s.setReg slot off v).halting = s.halting := rfl
@[simp] theorem State.setReg_charges (s : State) (slot off v : Nat) : (s.setReg slot off v).charges = s.charges := rfl
@[simp] theorem State.setReg_shelf (s : State) (slot off v : Nat) : (s.setReg slot off v).shelf = s.shelf := rfl
@[simp] theorem State.setReg_caches (s : State) (slot off v : Nat) : (s.setReg slot off v).caches = s.caches := rfl
@[simp] theorem State.setReg_damper (s : State) (slot off v : Nat) : (s.setReg slot off v).damper = s.damper := rfl
@[simp] theorem State.setReg_ash (s : State) (slot off v : Nat) : (s.setReg slot off v).ash = s.ash := rfl
@[simp] theorem State.setReg_boot (s : State) (slot off v : Nat) : (s.setReg slot off v).boot = s.boot := rfl
@[simp] theorem State.setReg_sealKey (s : State) (slot off v : Nat) : (s.setReg slot off v).sealKey = s.sealKey := rfl
@[simp] theorem State.setReg_parked (s : State) (slot off v : Nat) : (s.setReg slot off v).parked = s.parked := rfl
@[simp] theorem State.setReg_queues (s : State) (slot off v : Nat) : (s.setReg slot off v).queues = s.queues := rfl
@[simp] theorem State.setReg_rules (s : State) (slot off v : Nat) : (s.setReg slot off v).rules = s.rules := rfl
@[simp] theorem State.setReg_stats (s : State) (slot off v : Nat) : (s.setReg slot off v).stats = s.stats := rfl
@[simp] theorem State.setReg_inbuf (s : State) (slot off v : Nat) : (s.setReg slot off v).inbuf = s.inbuf := rfl
@[simp] theorem State.setReg_outbuf (s : State) (slot off v : Nat) : (s.setReg slot off v).outbuf = s.outbuf := rfl
@[simp] theorem State.setReg_pauses (s : State) (slot off v : Nat) : (s.setReg slot off v).pauses = s.pauses := rfl
@[simp] theorem State.setReg_rc (s : State) (slot off v : Nat) : (s.setReg slot off v).rc = s.rc := rfl
@[simp] theorem State.setReg_sessions (s : State) (slot off v : Nat) : (s.setReg slot off v).sessions = s.sessions := rfl
@[simp] theorem State.setReg_lost (s : State) (slot off v : Nat) : (s.setReg slot off v).lost = s.lost := rfl
@[simp] theorem State.setReg_acks (s : State) (slot off v : Nat) : (s.setReg slot off v).acks = s.acks := rfl
@[simp] theorem State.setReg_halted (s : State) (slot off v : Nat) : (s.setReg slot off v).halted = s.halted := rfl
@[simp] theorem State.setReg_watch (s : State) (slot off v : Nat) : (s.setReg slot off v).watch = s.watch := rfl
@[simp] theorem State.setReg_unused (s : State) (slot off v : Nat) : (s.setReg slot off v).unused = s.unused := rfl
@[simp] theorem State.setReg_closing (s : State) (slot off v : Nat) : (s.setReg slot off v).closing = s.closing := rfl
@[simp] theorem State.setReg_chans (s : State) (slot off v : Nat) : (s.setReg slot off v).chans = s.chans := rfl
@[simp] theorem State.setReg_secOp (s : State) (slot off v : Nat) : (s.setReg slot off v).secOp = s.secOp := rfl
@[simp] theorem State.setReg_staged (s : State) (slot off v : Nat) : (s.setReg slot off v).staged = s.staged := rfl
@[simp] theorem State.setReg_stepping (s : State) (slot off v : Nat) : (s.setReg slot off v).stepping = s.stepping := rfl
@[simp] theorem State.setReg_enrolled (s : State) (slot off v : Nat) : (s.setReg slot off v).enrolled = s.enrolled := rfl
@[simp] theorem State.setReg_rekindles (s : State) (slot off v : Nat) : (s.setReg slot off v).rekindles = s.rekindles := rfl
@[simp] theorem State.setReg_fuses (s : State) (slot off v : Nat) : (s.setReg slot off v).fuses = s.fuses := rfl
@[simp] theorem State.setReg_mantel (s : State) (slot off v : Nat) : (s.setReg slot off v).mantel = s.mantel := rfl
@[simp] theorem State.setReg_msix (s : State) (slot off v : Nat) : (s.setReg slot off v).msix = s.msix := rfl
@[simp] theorem State.setReg_msixPba (s : State) (slot off v : Nat) : (s.setReg slot off v).msixPba = s.msixPba := rfl
@[simp] theorem State.setReg_bars (s : State) (slot off v : Nat) : (s.setReg slot off v).bars = s.bars := rfl
@[simp] theorem State.setReg_msixCtl (s : State) (slot off v : Nat) : (s.setReg slot off v).msixCtl = s.msixCtl := rfl
@[simp] theorem State.setReg_scrubAt (s : State) (slot off v : Nat) : (s.setReg slot off v).scrubAt = s.scrubAt := rfl
@[simp] theorem State.setReg_doomed (s : State) (slot off v : Nat) : (s.setReg slot off v).doomed = s.doomed := rfl
@[simp] theorem State.setReg_resets (s : State) (slot off v : Nat) : (s.setReg slot off v).resets = s.resets := rfl
@[simp] theorem State.setReg_fresh (s : State) (slot off v : Nat) : (s.setReg slot off v).fresh = s.fresh := rfl
@[simp] theorem State.setReg_out (s : State) (slot off v : Nat) : (s.setReg slot off v).out = s.out := rfl

@[simp] theorem State.setFld_pending (s : State) (slot off lo w x : Nat) : (s.setFld slot off lo w x).pending = s.pending := rfl
@[simp] theorem State.setFld_mem (s : State) (slot off lo w x : Nat) : (s.setFld slot off lo w x).mem = s.mem := rfl
@[simp] theorem State.setFld_regsQ (s : State) (slot off lo w x : Nat) : (s.setFld slot off lo w x).regsQ = s.regsQ := rfl
@[simp] theorem State.setFld_lines (s : State) (slot off lo w x : Nat) : (s.setFld slot off lo w x).lines = s.lines := rfl
@[simp] theorem State.setFld_stores (s : State) (slot off lo w x : Nat) : (s.setFld slot off lo w x).stores = s.stores := rfl
@[simp] theorem State.setFld_dirty (s : State) (slot off lo w x : Nat) : (s.setFld slot off lo w x).dirty = s.dirty := rfl
@[simp] theorem State.setFld_banks (s : State) (slot off lo w x : Nat) : (s.setFld slot off lo w x).banks = s.banks := rfl
@[simp] theorem State.setFld_order (s : State) (slot off lo w x : Nat) : (s.setFld slot off lo w x).order = s.order := rfl
@[simp] theorem State.setFld_embers (s : State) (slot off lo w x : Nat) : (s.setFld slot off lo w x).embers = s.embers := rfl
@[simp] theorem State.setFld_temps (s : State) (slot off lo w x : Nat) : (s.setFld slot off lo w x).temps = s.temps := rfl
@[simp] theorem State.setFld_resv (s : State) (slot off lo w x : Nat) : (s.setFld slot off lo w x).resv = s.resv := rfl
@[simp] theorem State.setFld_ctxBusy (s : State) (slot off lo w x : Nat) : (s.setFld slot off lo w x).ctxBusy = s.ctxBusy := rfl
@[simp] theorem State.setFld_haltBusy (s : State) (slot off lo w x : Nat) : (s.setFld slot off lo w x).haltBusy = s.haltBusy := rfl
@[simp] theorem State.setFld_halting (s : State) (slot off lo w x : Nat) : (s.setFld slot off lo w x).halting = s.halting := rfl
@[simp] theorem State.setFld_charges (s : State) (slot off lo w x : Nat) : (s.setFld slot off lo w x).charges = s.charges := rfl
@[simp] theorem State.setFld_shelf (s : State) (slot off lo w x : Nat) : (s.setFld slot off lo w x).shelf = s.shelf := rfl
@[simp] theorem State.setFld_caches (s : State) (slot off lo w x : Nat) : (s.setFld slot off lo w x).caches = s.caches := rfl
@[simp] theorem State.setFld_damper (s : State) (slot off lo w x : Nat) : (s.setFld slot off lo w x).damper = s.damper := rfl
@[simp] theorem State.setFld_ash (s : State) (slot off lo w x : Nat) : (s.setFld slot off lo w x).ash = s.ash := rfl
@[simp] theorem State.setFld_boot (s : State) (slot off lo w x : Nat) : (s.setFld slot off lo w x).boot = s.boot := rfl
@[simp] theorem State.setFld_sealKey (s : State) (slot off lo w x : Nat) : (s.setFld slot off lo w x).sealKey = s.sealKey := rfl
@[simp] theorem State.setFld_parked (s : State) (slot off lo w x : Nat) : (s.setFld slot off lo w x).parked = s.parked := rfl
@[simp] theorem State.setFld_queues (s : State) (slot off lo w x : Nat) : (s.setFld slot off lo w x).queues = s.queues := rfl
@[simp] theorem State.setFld_rules (s : State) (slot off lo w x : Nat) : (s.setFld slot off lo w x).rules = s.rules := rfl
@[simp] theorem State.setFld_stats (s : State) (slot off lo w x : Nat) : (s.setFld slot off lo w x).stats = s.stats := rfl
@[simp] theorem State.setFld_inbuf (s : State) (slot off lo w x : Nat) : (s.setFld slot off lo w x).inbuf = s.inbuf := rfl
@[simp] theorem State.setFld_outbuf (s : State) (slot off lo w x : Nat) : (s.setFld slot off lo w x).outbuf = s.outbuf := rfl
@[simp] theorem State.setFld_pauses (s : State) (slot off lo w x : Nat) : (s.setFld slot off lo w x).pauses = s.pauses := rfl
@[simp] theorem State.setFld_rc (s : State) (slot off lo w x : Nat) : (s.setFld slot off lo w x).rc = s.rc := rfl
@[simp] theorem State.setFld_sessions (s : State) (slot off lo w x : Nat) : (s.setFld slot off lo w x).sessions = s.sessions := rfl
@[simp] theorem State.setFld_lost (s : State) (slot off lo w x : Nat) : (s.setFld slot off lo w x).lost = s.lost := rfl
@[simp] theorem State.setFld_acks (s : State) (slot off lo w x : Nat) : (s.setFld slot off lo w x).acks = s.acks := rfl
@[simp] theorem State.setFld_halted (s : State) (slot off lo w x : Nat) : (s.setFld slot off lo w x).halted = s.halted := rfl
@[simp] theorem State.setFld_watch (s : State) (slot off lo w x : Nat) : (s.setFld slot off lo w x).watch = s.watch := rfl
@[simp] theorem State.setFld_unused (s : State) (slot off lo w x : Nat) : (s.setFld slot off lo w x).unused = s.unused := rfl
@[simp] theorem State.setFld_closing (s : State) (slot off lo w x : Nat) : (s.setFld slot off lo w x).closing = s.closing := rfl
@[simp] theorem State.setFld_chans (s : State) (slot off lo w x : Nat) : (s.setFld slot off lo w x).chans = s.chans := rfl
@[simp] theorem State.setFld_secOp (s : State) (slot off lo w x : Nat) : (s.setFld slot off lo w x).secOp = s.secOp := rfl
@[simp] theorem State.setFld_staged (s : State) (slot off lo w x : Nat) : (s.setFld slot off lo w x).staged = s.staged := rfl
@[simp] theorem State.setFld_stepping (s : State) (slot off lo w x : Nat) : (s.setFld slot off lo w x).stepping = s.stepping := rfl
@[simp] theorem State.setFld_enrolled (s : State) (slot off lo w x : Nat) : (s.setFld slot off lo w x).enrolled = s.enrolled := rfl
@[simp] theorem State.setFld_rekindles (s : State) (slot off lo w x : Nat) : (s.setFld slot off lo w x).rekindles = s.rekindles := rfl
@[simp] theorem State.setFld_fuses (s : State) (slot off lo w x : Nat) : (s.setFld slot off lo w x).fuses = s.fuses := rfl
@[simp] theorem State.setFld_mantel (s : State) (slot off lo w x : Nat) : (s.setFld slot off lo w x).mantel = s.mantel := rfl
@[simp] theorem State.setFld_msix (s : State) (slot off lo w x : Nat) : (s.setFld slot off lo w x).msix = s.msix := rfl
@[simp] theorem State.setFld_msixPba (s : State) (slot off lo w x : Nat) : (s.setFld slot off lo w x).msixPba = s.msixPba := rfl
@[simp] theorem State.setFld_bars (s : State) (slot off lo w x : Nat) : (s.setFld slot off lo w x).bars = s.bars := rfl
@[simp] theorem State.setFld_msixCtl (s : State) (slot off lo w x : Nat) : (s.setFld slot off lo w x).msixCtl = s.msixCtl := rfl
@[simp] theorem State.setFld_scrubAt (s : State) (slot off lo w x : Nat) : (s.setFld slot off lo w x).scrubAt = s.scrubAt := rfl
@[simp] theorem State.setFld_doomed (s : State) (slot off lo w x : Nat) : (s.setFld slot off lo w x).doomed = s.doomed := rfl
@[simp] theorem State.setFld_resets (s : State) (slot off lo w x : Nat) : (s.setFld slot off lo w x).resets = s.resets := rfl
@[simp] theorem State.setFld_fresh (s : State) (slot off lo w x : Nat) : (s.setFld slot off lo w x).fresh = s.fresh := rfl
@[simp] theorem State.setFld_out (s : State) (slot off lo w x : Nat) : (s.setFld slot off lo w x).out = s.out := rfl

@[simp] theorem State.setFlag_pending (s : State) (slot off i : Nat) (v : Bool) : (s.setFlag slot off i v).pending = s.pending := rfl
@[simp] theorem State.setFlag_mem (s : State) (slot off i : Nat) (v : Bool) : (s.setFlag slot off i v).mem = s.mem := rfl
@[simp] theorem State.setFlag_regsQ (s : State) (slot off i : Nat) (v : Bool) : (s.setFlag slot off i v).regsQ = s.regsQ := rfl
@[simp] theorem State.setFlag_lines (s : State) (slot off i : Nat) (v : Bool) : (s.setFlag slot off i v).lines = s.lines := rfl
@[simp] theorem State.setFlag_stores (s : State) (slot off i : Nat) (v : Bool) : (s.setFlag slot off i v).stores = s.stores := rfl
@[simp] theorem State.setFlag_dirty (s : State) (slot off i : Nat) (v : Bool) : (s.setFlag slot off i v).dirty = s.dirty := rfl
@[simp] theorem State.setFlag_banks (s : State) (slot off i : Nat) (v : Bool) : (s.setFlag slot off i v).banks = s.banks := rfl
@[simp] theorem State.setFlag_order (s : State) (slot off i : Nat) (v : Bool) : (s.setFlag slot off i v).order = s.order := rfl
@[simp] theorem State.setFlag_embers (s : State) (slot off i : Nat) (v : Bool) : (s.setFlag slot off i v).embers = s.embers := rfl
@[simp] theorem State.setFlag_temps (s : State) (slot off i : Nat) (v : Bool) : (s.setFlag slot off i v).temps = s.temps := rfl
@[simp] theorem State.setFlag_resv (s : State) (slot off i : Nat) (v : Bool) : (s.setFlag slot off i v).resv = s.resv := rfl
@[simp] theorem State.setFlag_ctxBusy (s : State) (slot off i : Nat) (v : Bool) : (s.setFlag slot off i v).ctxBusy = s.ctxBusy := rfl
@[simp] theorem State.setFlag_haltBusy (s : State) (slot off i : Nat) (v : Bool) : (s.setFlag slot off i v).haltBusy = s.haltBusy := rfl
@[simp] theorem State.setFlag_halting (s : State) (slot off i : Nat) (v : Bool) : (s.setFlag slot off i v).halting = s.halting := rfl
@[simp] theorem State.setFlag_charges (s : State) (slot off i : Nat) (v : Bool) : (s.setFlag slot off i v).charges = s.charges := rfl
@[simp] theorem State.setFlag_shelf (s : State) (slot off i : Nat) (v : Bool) : (s.setFlag slot off i v).shelf = s.shelf := rfl
@[simp] theorem State.setFlag_caches (s : State) (slot off i : Nat) (v : Bool) : (s.setFlag slot off i v).caches = s.caches := rfl
@[simp] theorem State.setFlag_damper (s : State) (slot off i : Nat) (v : Bool) : (s.setFlag slot off i v).damper = s.damper := rfl
@[simp] theorem State.setFlag_ash (s : State) (slot off i : Nat) (v : Bool) : (s.setFlag slot off i v).ash = s.ash := rfl
@[simp] theorem State.setFlag_boot (s : State) (slot off i : Nat) (v : Bool) : (s.setFlag slot off i v).boot = s.boot := rfl
@[simp] theorem State.setFlag_sealKey (s : State) (slot off i : Nat) (v : Bool) : (s.setFlag slot off i v).sealKey = s.sealKey := rfl
@[simp] theorem State.setFlag_parked (s : State) (slot off i : Nat) (v : Bool) : (s.setFlag slot off i v).parked = s.parked := rfl
@[simp] theorem State.setFlag_queues (s : State) (slot off i : Nat) (v : Bool) : (s.setFlag slot off i v).queues = s.queues := rfl
@[simp] theorem State.setFlag_rules (s : State) (slot off i : Nat) (v : Bool) : (s.setFlag slot off i v).rules = s.rules := rfl
@[simp] theorem State.setFlag_stats (s : State) (slot off i : Nat) (v : Bool) : (s.setFlag slot off i v).stats = s.stats := rfl
@[simp] theorem State.setFlag_inbuf (s : State) (slot off i : Nat) (v : Bool) : (s.setFlag slot off i v).inbuf = s.inbuf := rfl
@[simp] theorem State.setFlag_outbuf (s : State) (slot off i : Nat) (v : Bool) : (s.setFlag slot off i v).outbuf = s.outbuf := rfl
@[simp] theorem State.setFlag_pauses (s : State) (slot off i : Nat) (v : Bool) : (s.setFlag slot off i v).pauses = s.pauses := rfl
@[simp] theorem State.setFlag_rc (s : State) (slot off i : Nat) (v : Bool) : (s.setFlag slot off i v).rc = s.rc := rfl
@[simp] theorem State.setFlag_sessions (s : State) (slot off i : Nat) (v : Bool) : (s.setFlag slot off i v).sessions = s.sessions := rfl
@[simp] theorem State.setFlag_lost (s : State) (slot off i : Nat) (v : Bool) : (s.setFlag slot off i v).lost = s.lost := rfl
@[simp] theorem State.setFlag_acks (s : State) (slot off i : Nat) (v : Bool) : (s.setFlag slot off i v).acks = s.acks := rfl
@[simp] theorem State.setFlag_halted (s : State) (slot off i : Nat) (v : Bool) : (s.setFlag slot off i v).halted = s.halted := rfl
@[simp] theorem State.setFlag_watch (s : State) (slot off i : Nat) (v : Bool) : (s.setFlag slot off i v).watch = s.watch := rfl
@[simp] theorem State.setFlag_unused (s : State) (slot off i : Nat) (v : Bool) : (s.setFlag slot off i v).unused = s.unused := rfl
@[simp] theorem State.setFlag_closing (s : State) (slot off i : Nat) (v : Bool) : (s.setFlag slot off i v).closing = s.closing := rfl
@[simp] theorem State.setFlag_chans (s : State) (slot off i : Nat) (v : Bool) : (s.setFlag slot off i v).chans = s.chans := rfl
@[simp] theorem State.setFlag_secOp (s : State) (slot off i : Nat) (v : Bool) : (s.setFlag slot off i v).secOp = s.secOp := rfl
@[simp] theorem State.setFlag_staged (s : State) (slot off i : Nat) (v : Bool) : (s.setFlag slot off i v).staged = s.staged := rfl
@[simp] theorem State.setFlag_stepping (s : State) (slot off i : Nat) (v : Bool) : (s.setFlag slot off i v).stepping = s.stepping := rfl
@[simp] theorem State.setFlag_enrolled (s : State) (slot off i : Nat) (v : Bool) : (s.setFlag slot off i v).enrolled = s.enrolled := rfl
@[simp] theorem State.setFlag_rekindles (s : State) (slot off i : Nat) (v : Bool) : (s.setFlag slot off i v).rekindles = s.rekindles := rfl
@[simp] theorem State.setFlag_fuses (s : State) (slot off i : Nat) (v : Bool) : (s.setFlag slot off i v).fuses = s.fuses := rfl
@[simp] theorem State.setFlag_mantel (s : State) (slot off i : Nat) (v : Bool) : (s.setFlag slot off i v).mantel = s.mantel := rfl
@[simp] theorem State.setFlag_msix (s : State) (slot off i : Nat) (v : Bool) : (s.setFlag slot off i v).msix = s.msix := rfl
@[simp] theorem State.setFlag_msixPba (s : State) (slot off i : Nat) (v : Bool) : (s.setFlag slot off i v).msixPba = s.msixPba := rfl
@[simp] theorem State.setFlag_bars (s : State) (slot off i : Nat) (v : Bool) : (s.setFlag slot off i v).bars = s.bars := rfl
@[simp] theorem State.setFlag_msixCtl (s : State) (slot off i : Nat) (v : Bool) : (s.setFlag slot off i v).msixCtl = s.msixCtl := rfl
@[simp] theorem State.setFlag_scrubAt (s : State) (slot off i : Nat) (v : Bool) : (s.setFlag slot off i v).scrubAt = s.scrubAt := rfl
@[simp] theorem State.setFlag_doomed (s : State) (slot off i : Nat) (v : Bool) : (s.setFlag slot off i v).doomed = s.doomed := rfl
@[simp] theorem State.setFlag_resets (s : State) (slot off i : Nat) (v : Bool) : (s.setFlag slot off i v).resets = s.resets := rfl
@[simp] theorem State.setFlag_fresh (s : State) (slot off i : Nat) (v : Bool) : (s.setFlag slot off i v).fresh = s.fresh := rfl
@[simp] theorem State.setFlag_out (s : State) (slot off i : Nat) (v : Bool) : (s.setFlag slot off i v).out = s.out := rfl

/-! ## Memory -/

@[simp] theorem State.poke_pending (s : State) (a : Nat) (bs : List Byte) : (s.poke a bs).pending = s.pending := rfl
@[simp] theorem State.poke_regs (s : State) (a : Nat) (bs : List Byte) : (s.poke a bs).regs = s.regs := rfl
@[simp] theorem State.poke_regsQ (s : State) (a : Nat) (bs : List Byte) : (s.poke a bs).regsQ = s.regsQ := rfl
@[simp] theorem State.poke_lines (s : State) (a : Nat) (bs : List Byte) : (s.poke a bs).lines = s.lines := rfl
@[simp] theorem State.poke_stores (s : State) (a : Nat) (bs : List Byte) : (s.poke a bs).stores = s.stores := rfl
@[simp] theorem State.poke_dirty (s : State) (a : Nat) (bs : List Byte) : (s.poke a bs).dirty = s.dirty := rfl
@[simp] theorem State.poke_banks (s : State) (a : Nat) (bs : List Byte) : (s.poke a bs).banks = s.banks := rfl
@[simp] theorem State.poke_order (s : State) (a : Nat) (bs : List Byte) : (s.poke a bs).order = s.order := rfl
@[simp] theorem State.poke_embers (s : State) (a : Nat) (bs : List Byte) : (s.poke a bs).embers = s.embers := rfl
@[simp] theorem State.poke_temps (s : State) (a : Nat) (bs : List Byte) : (s.poke a bs).temps = s.temps := rfl
@[simp] theorem State.poke_resv (s : State) (a : Nat) (bs : List Byte) : (s.poke a bs).resv = s.resv := rfl
@[simp] theorem State.poke_ctxBusy (s : State) (a : Nat) (bs : List Byte) : (s.poke a bs).ctxBusy = s.ctxBusy := rfl
@[simp] theorem State.poke_haltBusy (s : State) (a : Nat) (bs : List Byte) : (s.poke a bs).haltBusy = s.haltBusy := rfl
@[simp] theorem State.poke_halting (s : State) (a : Nat) (bs : List Byte) : (s.poke a bs).halting = s.halting := rfl
@[simp] theorem State.poke_charges (s : State) (a : Nat) (bs : List Byte) : (s.poke a bs).charges = s.charges := rfl
@[simp] theorem State.poke_shelf (s : State) (a : Nat) (bs : List Byte) : (s.poke a bs).shelf = s.shelf := rfl
@[simp] theorem State.poke_caches (s : State) (a : Nat) (bs : List Byte) : (s.poke a bs).caches = s.caches := rfl
@[simp] theorem State.poke_damper (s : State) (a : Nat) (bs : List Byte) : (s.poke a bs).damper = s.damper := rfl
@[simp] theorem State.poke_ash (s : State) (a : Nat) (bs : List Byte) : (s.poke a bs).ash = s.ash := rfl
@[simp] theorem State.poke_boot (s : State) (a : Nat) (bs : List Byte) : (s.poke a bs).boot = s.boot := rfl
@[simp] theorem State.poke_sealKey (s : State) (a : Nat) (bs : List Byte) : (s.poke a bs).sealKey = s.sealKey := rfl
@[simp] theorem State.poke_parked (s : State) (a : Nat) (bs : List Byte) : (s.poke a bs).parked = s.parked := rfl
@[simp] theorem State.poke_queues (s : State) (a : Nat) (bs : List Byte) : (s.poke a bs).queues = s.queues := rfl
@[simp] theorem State.poke_rules (s : State) (a : Nat) (bs : List Byte) : (s.poke a bs).rules = s.rules := rfl
@[simp] theorem State.poke_stats (s : State) (a : Nat) (bs : List Byte) : (s.poke a bs).stats = s.stats := rfl
@[simp] theorem State.poke_inbuf (s : State) (a : Nat) (bs : List Byte) : (s.poke a bs).inbuf = s.inbuf := rfl
@[simp] theorem State.poke_outbuf (s : State) (a : Nat) (bs : List Byte) : (s.poke a bs).outbuf = s.outbuf := rfl
@[simp] theorem State.poke_pauses (s : State) (a : Nat) (bs : List Byte) : (s.poke a bs).pauses = s.pauses := rfl
@[simp] theorem State.poke_rc (s : State) (a : Nat) (bs : List Byte) : (s.poke a bs).rc = s.rc := rfl
@[simp] theorem State.poke_sessions (s : State) (a : Nat) (bs : List Byte) : (s.poke a bs).sessions = s.sessions := rfl
@[simp] theorem State.poke_lost (s : State) (a : Nat) (bs : List Byte) : (s.poke a bs).lost = s.lost := rfl
@[simp] theorem State.poke_acks (s : State) (a : Nat) (bs : List Byte) : (s.poke a bs).acks = s.acks := rfl
@[simp] theorem State.poke_halted (s : State) (a : Nat) (bs : List Byte) : (s.poke a bs).halted = s.halted := rfl
@[simp] theorem State.poke_watch (s : State) (a : Nat) (bs : List Byte) : (s.poke a bs).watch = s.watch := rfl
@[simp] theorem State.poke_unused (s : State) (a : Nat) (bs : List Byte) : (s.poke a bs).unused = s.unused := rfl
@[simp] theorem State.poke_closing (s : State) (a : Nat) (bs : List Byte) : (s.poke a bs).closing = s.closing := rfl
@[simp] theorem State.poke_chans (s : State) (a : Nat) (bs : List Byte) : (s.poke a bs).chans = s.chans := rfl
@[simp] theorem State.poke_secOp (s : State) (a : Nat) (bs : List Byte) : (s.poke a bs).secOp = s.secOp := rfl
@[simp] theorem State.poke_staged (s : State) (a : Nat) (bs : List Byte) : (s.poke a bs).staged = s.staged := rfl
@[simp] theorem State.poke_stepping (s : State) (a : Nat) (bs : List Byte) : (s.poke a bs).stepping = s.stepping := rfl
@[simp] theorem State.poke_enrolled (s : State) (a : Nat) (bs : List Byte) : (s.poke a bs).enrolled = s.enrolled := rfl
@[simp] theorem State.poke_rekindles (s : State) (a : Nat) (bs : List Byte) : (s.poke a bs).rekindles = s.rekindles := rfl
@[simp] theorem State.poke_fuses (s : State) (a : Nat) (bs : List Byte) : (s.poke a bs).fuses = s.fuses := rfl
@[simp] theorem State.poke_mantel (s : State) (a : Nat) (bs : List Byte) : (s.poke a bs).mantel = s.mantel := rfl
@[simp] theorem State.poke_msix (s : State) (a : Nat) (bs : List Byte) : (s.poke a bs).msix = s.msix := rfl
@[simp] theorem State.poke_msixPba (s : State) (a : Nat) (bs : List Byte) : (s.poke a bs).msixPba = s.msixPba := rfl
@[simp] theorem State.poke_bars (s : State) (a : Nat) (bs : List Byte) : (s.poke a bs).bars = s.bars := rfl
@[simp] theorem State.poke_msixCtl (s : State) (a : Nat) (bs : List Byte) : (s.poke a bs).msixCtl = s.msixCtl := rfl
@[simp] theorem State.poke_scrubAt (s : State) (a : Nat) (bs : List Byte) : (s.poke a bs).scrubAt = s.scrubAt := rfl
@[simp] theorem State.poke_doomed (s : State) (a : Nat) (bs : List Byte) : (s.poke a bs).doomed = s.doomed := rfl
@[simp] theorem State.poke_resets (s : State) (a : Nat) (bs : List Byte) : (s.poke a bs).resets = s.resets := rfl
@[simp] theorem State.poke_fresh (s : State) (a : Nat) (bs : List Byte) : (s.poke a bs).fresh = s.fresh := rfl
@[simp] theorem State.poke_out (s : State) (a : Nat) (bs : List Byte) : (s.poke a bs).out = s.out := rfl

/-! ## Banks -/

@[simp] theorem State.putBank_pending (s : State) (b : Bank) : (s.putBank b).pending = s.pending := rfl
@[simp] theorem State.putBank_mem (s : State) (b : Bank) : (s.putBank b).mem = s.mem := rfl
@[simp] theorem State.putBank_regs (s : State) (b : Bank) : (s.putBank b).regs = s.regs := rfl
@[simp] theorem State.putBank_regsQ (s : State) (b : Bank) : (s.putBank b).regsQ = s.regsQ := rfl
@[simp] theorem State.putBank_lines (s : State) (b : Bank) : (s.putBank b).lines = s.lines := rfl
@[simp] theorem State.putBank_stores (s : State) (b : Bank) : (s.putBank b).stores = s.stores := rfl
@[simp] theorem State.putBank_dirty (s : State) (b : Bank) : (s.putBank b).dirty = s.dirty := rfl
@[simp] theorem State.putBank_order (s : State) (b : Bank) : (s.putBank b).order = s.order := rfl
@[simp] theorem State.putBank_embers (s : State) (b : Bank) : (s.putBank b).embers = s.embers := rfl
@[simp] theorem State.putBank_temps (s : State) (b : Bank) : (s.putBank b).temps = s.temps := rfl
@[simp] theorem State.putBank_resv (s : State) (b : Bank) : (s.putBank b).resv = s.resv := rfl
@[simp] theorem State.putBank_ctxBusy (s : State) (b : Bank) : (s.putBank b).ctxBusy = s.ctxBusy := rfl
@[simp] theorem State.putBank_haltBusy (s : State) (b : Bank) : (s.putBank b).haltBusy = s.haltBusy := rfl
@[simp] theorem State.putBank_halting (s : State) (b : Bank) : (s.putBank b).halting = s.halting := rfl
@[simp] theorem State.putBank_charges (s : State) (b : Bank) : (s.putBank b).charges = s.charges := rfl
@[simp] theorem State.putBank_shelf (s : State) (b : Bank) : (s.putBank b).shelf = s.shelf := rfl
@[simp] theorem State.putBank_caches (s : State) (b : Bank) : (s.putBank b).caches = s.caches := rfl
@[simp] theorem State.putBank_damper (s : State) (b : Bank) : (s.putBank b).damper = s.damper := rfl
@[simp] theorem State.putBank_ash (s : State) (b : Bank) : (s.putBank b).ash = s.ash := rfl
@[simp] theorem State.putBank_boot (s : State) (b : Bank) : (s.putBank b).boot = s.boot := rfl
@[simp] theorem State.putBank_sealKey (s : State) (b : Bank) : (s.putBank b).sealKey = s.sealKey := rfl
@[simp] theorem State.putBank_parked (s : State) (b : Bank) : (s.putBank b).parked = s.parked := rfl
@[simp] theorem State.putBank_queues (s : State) (b : Bank) : (s.putBank b).queues = s.queues := rfl
@[simp] theorem State.putBank_rules (s : State) (b : Bank) : (s.putBank b).rules = s.rules := rfl
@[simp] theorem State.putBank_stats (s : State) (b : Bank) : (s.putBank b).stats = s.stats := rfl
@[simp] theorem State.putBank_inbuf (s : State) (b : Bank) : (s.putBank b).inbuf = s.inbuf := rfl
@[simp] theorem State.putBank_outbuf (s : State) (b : Bank) : (s.putBank b).outbuf = s.outbuf := rfl
@[simp] theorem State.putBank_pauses (s : State) (b : Bank) : (s.putBank b).pauses = s.pauses := rfl
@[simp] theorem State.putBank_rc (s : State) (b : Bank) : (s.putBank b).rc = s.rc := rfl
@[simp] theorem State.putBank_sessions (s : State) (b : Bank) : (s.putBank b).sessions = s.sessions := rfl
@[simp] theorem State.putBank_lost (s : State) (b : Bank) : (s.putBank b).lost = s.lost := rfl
@[simp] theorem State.putBank_acks (s : State) (b : Bank) : (s.putBank b).acks = s.acks := rfl
@[simp] theorem State.putBank_halted (s : State) (b : Bank) : (s.putBank b).halted = s.halted := rfl
@[simp] theorem State.putBank_watch (s : State) (b : Bank) : (s.putBank b).watch = s.watch := rfl
@[simp] theorem State.putBank_unused (s : State) (b : Bank) : (s.putBank b).unused = s.unused := rfl
@[simp] theorem State.putBank_closing (s : State) (b : Bank) : (s.putBank b).closing = s.closing := rfl
@[simp] theorem State.putBank_chans (s : State) (b : Bank) : (s.putBank b).chans = s.chans := rfl
@[simp] theorem State.putBank_secOp (s : State) (b : Bank) : (s.putBank b).secOp = s.secOp := rfl
@[simp] theorem State.putBank_staged (s : State) (b : Bank) : (s.putBank b).staged = s.staged := rfl
@[simp] theorem State.putBank_stepping (s : State) (b : Bank) : (s.putBank b).stepping = s.stepping := rfl
@[simp] theorem State.putBank_enrolled (s : State) (b : Bank) : (s.putBank b).enrolled = s.enrolled := rfl
@[simp] theorem State.putBank_rekindles (s : State) (b : Bank) : (s.putBank b).rekindles = s.rekindles := rfl
@[simp] theorem State.putBank_fuses (s : State) (b : Bank) : (s.putBank b).fuses = s.fuses := rfl
@[simp] theorem State.putBank_mantel (s : State) (b : Bank) : (s.putBank b).mantel = s.mantel := rfl
@[simp] theorem State.putBank_msix (s : State) (b : Bank) : (s.putBank b).msix = s.msix := rfl
@[simp] theorem State.putBank_msixPba (s : State) (b : Bank) : (s.putBank b).msixPba = s.msixPba := rfl
@[simp] theorem State.putBank_bars (s : State) (b : Bank) : (s.putBank b).bars = s.bars := rfl
@[simp] theorem State.putBank_msixCtl (s : State) (b : Bank) : (s.putBank b).msixCtl = s.msixCtl := rfl
@[simp] theorem State.putBank_scrubAt (s : State) (b : Bank) : (s.putBank b).scrubAt = s.scrubAt := rfl
@[simp] theorem State.putBank_doomed (s : State) (b : Bank) : (s.putBank b).doomed = s.doomed := rfl
@[simp] theorem State.putBank_resets (s : State) (b : Bank) : (s.putBank b).resets = s.resets := rfl
@[simp] theorem State.putBank_fresh (s : State) (b : Bank) : (s.putBank b).fresh = s.fresh := rfl
@[simp] theorem State.putBank_out (s : State) (b : Bank) : (s.putBank b).out = s.out := rfl

/-! ## The registers of a bank -/

@[simp] theorem Bank.setG_stove (b : Bank) (r : BitVec 4) (v : Word) : (b.setG r v).stove = b.stove := rfl
@[simp] theorem Bank.setG_slot (b : Bank) (r : BitVec 4) (v : Word) : (b.setG r v).slot = b.slot := rfl
@[simp] theorem Bank.setG_ctx (b : Bank) (r : BitVec 4) (v : Word) : (b.setG r v).ctx = b.ctx := rfl
@[simp] theorem Bank.setG_flue (b : Bank) (r : BitVec 4) (v : Word) : (b.setG r v).flue = b.flue := rfl
@[simp] theorem Bank.setG_f (b : Bank) (r : BitVec 4) (v : Word) : (b.setG r v).f = b.f := rfl
@[simp] theorem Bank.setG_d (b : Bank) (r : BitVec 4) (v : Word) : (b.setG r v).d = b.d := rfl
@[simp] theorem Bank.setG_m (b : Bank) (r : BitVec 4) (v : Word) : (b.setG r v).m = b.m := rfl
@[simp] theorem Bank.setG_msg (b : Bank) (r : BitVec 4) (v : Word) : (b.setG r v).msg = b.msg := rfl
@[simp] theorem Bank.setG_psw (b : Bank) (r : BitVec 4) (v : Word) : (b.setG r v).psw = b.psw := rfl
@[simp] theorem Bank.setG_ttr (b : Bank) (r : BitVec 4) (v : Word) : (b.setG r v).ttr = b.ttr := rfl
@[simp] theorem Bank.setG_lis (b : Bank) (r : BitVec 4) (v : Word) : (b.setG r v).lis = b.lis := rfl
@[simp] theorem Bank.setG_evpend (b : Bank) (r : BitVec 4) (v : Word) : (b.setG r v).evpend = b.evpend := rfl
@[simp] theorem Bank.setG_wait (b : Bank) (r : BitVec 4) (v : Word) : (b.setG r v).wait = b.wait := rfl
@[simp] theorem Bank.setG_wdrawn (b : Bank) (r : BitVec 4) (v : Word) : (b.setG r v).wdrawn = b.wdrawn := rfl
@[simp] theorem Bank.setG_image (b : Bank) (r : BitVec 4) (v : Word) : (b.setG r v).image = b.image := rfl
@[simp] theorem Bank.setG_charged (b : Bank) (r : BitVec 4) (v : Word) : (b.setG r v).charged = b.charged := rfl
@[simp] theorem Bank.setG_slice (b : Bank) (r : BitVec 4) (v : Word) : (b.setG r v).slice = b.slice := rfl
@[simp] theorem Bank.setG_leave (b : Bank) (r : BitVec 4) (v : Word) : (b.setG r v).leave = b.leave := rfl
@[simp] theorem Bank.setG_resume (b : Bank) (r : BitVec 4) (v : Word) : (b.setG r v).resume = b.resume := rfl
@[simp] theorem Bank.setG_saved (b : Bank) (r : BitVec 4) (v : Word) : (b.setG r v).saved = b.saved := rfl
@[simp] theorem Bank.setG_cont (b : Bank) (r : BitVec 4) (v : Word) : (b.setG r v).cont = b.cont := rfl
@[simp] theorem Bank.setG_spillBad (b : Bank) (r : BitVec 4) (v : Word) : (b.setG r v).spillBad = b.spillBad := rfl
@[simp] theorem Bank.setG_pins (b : Bank) (r : BitVec 4) (v : Word) : (b.setG r v).pins = b.pins := rfl
@[simp] theorem Bank.setG_due (b : Bank) (r : BitVec 4) (v : Word) : (b.setG r v).due = b.due := rfl
@[simp] theorem Bank.setG_due16 (b : Bank) (r : BitVec 4) (v : Word) : (b.setG r v).due16 = b.due16 := rfl

@[simp] theorem Bank.setF_stove (b : Bank) (r : BitVec 4) (v : Word) : (b.setF r v).stove = b.stove := rfl
@[simp] theorem Bank.setF_slot (b : Bank) (r : BitVec 4) (v : Word) : (b.setF r v).slot = b.slot := rfl
@[simp] theorem Bank.setF_ctx (b : Bank) (r : BitVec 4) (v : Word) : (b.setF r v).ctx = b.ctx := rfl
@[simp] theorem Bank.setF_flue (b : Bank) (r : BitVec 4) (v : Word) : (b.setF r v).flue = b.flue := rfl
@[simp] theorem Bank.setF_g (b : Bank) (r : BitVec 4) (v : Word) : (b.setF r v).g = b.g := rfl
@[simp] theorem Bank.setF_d (b : Bank) (r : BitVec 4) (v : Word) : (b.setF r v).d = b.d := rfl
@[simp] theorem Bank.setF_m (b : Bank) (r : BitVec 4) (v : Word) : (b.setF r v).m = b.m := rfl
@[simp] theorem Bank.setF_msg (b : Bank) (r : BitVec 4) (v : Word) : (b.setF r v).msg = b.msg := rfl
@[simp] theorem Bank.setF_psw (b : Bank) (r : BitVec 4) (v : Word) : (b.setF r v).psw = b.psw := rfl
@[simp] theorem Bank.setF_ttr (b : Bank) (r : BitVec 4) (v : Word) : (b.setF r v).ttr = b.ttr := rfl
@[simp] theorem Bank.setF_lis (b : Bank) (r : BitVec 4) (v : Word) : (b.setF r v).lis = b.lis := rfl
@[simp] theorem Bank.setF_evpend (b : Bank) (r : BitVec 4) (v : Word) : (b.setF r v).evpend = b.evpend := rfl
@[simp] theorem Bank.setF_wait (b : Bank) (r : BitVec 4) (v : Word) : (b.setF r v).wait = b.wait := rfl
@[simp] theorem Bank.setF_wdrawn (b : Bank) (r : BitVec 4) (v : Word) : (b.setF r v).wdrawn = b.wdrawn := rfl
@[simp] theorem Bank.setF_image (b : Bank) (r : BitVec 4) (v : Word) : (b.setF r v).image = b.image := rfl
@[simp] theorem Bank.setF_charged (b : Bank) (r : BitVec 4) (v : Word) : (b.setF r v).charged = b.charged := rfl
@[simp] theorem Bank.setF_slice (b : Bank) (r : BitVec 4) (v : Word) : (b.setF r v).slice = b.slice := rfl
@[simp] theorem Bank.setF_leave (b : Bank) (r : BitVec 4) (v : Word) : (b.setF r v).leave = b.leave := rfl
@[simp] theorem Bank.setF_resume (b : Bank) (r : BitVec 4) (v : Word) : (b.setF r v).resume = b.resume := rfl
@[simp] theorem Bank.setF_saved (b : Bank) (r : BitVec 4) (v : Word) : (b.setF r v).saved = b.saved := rfl
@[simp] theorem Bank.setF_cont (b : Bank) (r : BitVec 4) (v : Word) : (b.setF r v).cont = b.cont := rfl
@[simp] theorem Bank.setF_spillBad (b : Bank) (r : BitVec 4) (v : Word) : (b.setF r v).spillBad = b.spillBad := rfl
@[simp] theorem Bank.setF_pins (b : Bank) (r : BitVec 4) (v : Word) : (b.setF r v).pins = b.pins := rfl
@[simp] theorem Bank.setF_due (b : Bank) (r : BitVec 4) (v : Word) : (b.setF r v).due = b.due := rfl
@[simp] theorem Bank.setF_due16 (b : Bank) (r : BitVec 4) (v : Word) : (b.setF r v).due16 = b.due16 := rfl

@[simp] theorem Bank.setD_stove (b : Bank) (r : BitVec 3) (v : BitVec 256) : (b.setD r v).stove = b.stove := rfl
@[simp] theorem Bank.setD_slot (b : Bank) (r : BitVec 3) (v : BitVec 256) : (b.setD r v).slot = b.slot := rfl
@[simp] theorem Bank.setD_ctx (b : Bank) (r : BitVec 3) (v : BitVec 256) : (b.setD r v).ctx = b.ctx := rfl
@[simp] theorem Bank.setD_flue (b : Bank) (r : BitVec 3) (v : BitVec 256) : (b.setD r v).flue = b.flue := rfl
@[simp] theorem Bank.setD_g (b : Bank) (r : BitVec 3) (v : BitVec 256) : (b.setD r v).g = b.g := rfl
@[simp] theorem Bank.setD_f (b : Bank) (r : BitVec 3) (v : BitVec 256) : (b.setD r v).f = b.f := rfl
@[simp] theorem Bank.setD_m (b : Bank) (r : BitVec 3) (v : BitVec 256) : (b.setD r v).m = b.m := rfl
@[simp] theorem Bank.setD_msg (b : Bank) (r : BitVec 3) (v : BitVec 256) : (b.setD r v).msg = b.msg := rfl
@[simp] theorem Bank.setD_psw (b : Bank) (r : BitVec 3) (v : BitVec 256) : (b.setD r v).psw = b.psw := rfl
@[simp] theorem Bank.setD_ttr (b : Bank) (r : BitVec 3) (v : BitVec 256) : (b.setD r v).ttr = b.ttr := rfl
@[simp] theorem Bank.setD_lis (b : Bank) (r : BitVec 3) (v : BitVec 256) : (b.setD r v).lis = b.lis := rfl
@[simp] theorem Bank.setD_evpend (b : Bank) (r : BitVec 3) (v : BitVec 256) : (b.setD r v).evpend = b.evpend := rfl
@[simp] theorem Bank.setD_wait (b : Bank) (r : BitVec 3) (v : BitVec 256) : (b.setD r v).wait = b.wait := rfl
@[simp] theorem Bank.setD_wdrawn (b : Bank) (r : BitVec 3) (v : BitVec 256) : (b.setD r v).wdrawn = b.wdrawn := rfl
@[simp] theorem Bank.setD_image (b : Bank) (r : BitVec 3) (v : BitVec 256) : (b.setD r v).image = b.image := rfl
@[simp] theorem Bank.setD_charged (b : Bank) (r : BitVec 3) (v : BitVec 256) : (b.setD r v).charged = b.charged := rfl
@[simp] theorem Bank.setD_slice (b : Bank) (r : BitVec 3) (v : BitVec 256) : (b.setD r v).slice = b.slice := rfl
@[simp] theorem Bank.setD_leave (b : Bank) (r : BitVec 3) (v : BitVec 256) : (b.setD r v).leave = b.leave := rfl
@[simp] theorem Bank.setD_resume (b : Bank) (r : BitVec 3) (v : BitVec 256) : (b.setD r v).resume = b.resume := rfl
@[simp] theorem Bank.setD_saved (b : Bank) (r : BitVec 3) (v : BitVec 256) : (b.setD r v).saved = b.saved := rfl
@[simp] theorem Bank.setD_cont (b : Bank) (r : BitVec 3) (v : BitVec 256) : (b.setD r v).cont = b.cont := rfl
@[simp] theorem Bank.setD_spillBad (b : Bank) (r : BitVec 3) (v : BitVec 256) : (b.setD r v).spillBad = b.spillBad := rfl
@[simp] theorem Bank.setD_pins (b : Bank) (r : BitVec 3) (v : BitVec 256) : (b.setD r v).pins = b.pins := rfl
@[simp] theorem Bank.setD_due (b : Bank) (r : BitVec 3) (v : BitVec 256) : (b.setD r v).due = b.due := rfl
@[simp] theorem Bank.setD_due16 (b : Bank) (r : BitVec 3) (v : BitVec 256) : (b.setD r v).due16 = b.due16 := rfl

@[simp] theorem Bank.setMsg_stove (b : Bank) (m : Msg) : (b.setMsg m).stove = b.stove := rfl
@[simp] theorem Bank.setMsg_slot (b : Bank) (m : Msg) : (b.setMsg m).slot = b.slot := rfl
@[simp] theorem Bank.setMsg_ctx (b : Bank) (m : Msg) : (b.setMsg m).ctx = b.ctx := rfl
@[simp] theorem Bank.setMsg_flue (b : Bank) (m : Msg) : (b.setMsg m).flue = b.flue := rfl
@[simp] theorem Bank.setMsg_g (b : Bank) (m : Msg) : (b.setMsg m).g = b.g := rfl
@[simp] theorem Bank.setMsg_f (b : Bank) (m : Msg) : (b.setMsg m).f = b.f := rfl
@[simp] theorem Bank.setMsg_d (b : Bank) (m : Msg) : (b.setMsg m).d = b.d := rfl
@[simp] theorem Bank.setMsg_m (b : Bank) (m : Msg) : (b.setMsg m).m = b.m := rfl
@[simp] theorem Bank.setMsg_psw (b : Bank) (m : Msg) : (b.setMsg m).psw = b.psw := rfl
@[simp] theorem Bank.setMsg_ttr (b : Bank) (m : Msg) : (b.setMsg m).ttr = b.ttr := rfl
@[simp] theorem Bank.setMsg_lis (b : Bank) (m : Msg) : (b.setMsg m).lis = b.lis := rfl
@[simp] theorem Bank.setMsg_evpend (b : Bank) (m : Msg) : (b.setMsg m).evpend = b.evpend := rfl
@[simp] theorem Bank.setMsg_wait (b : Bank) (m : Msg) : (b.setMsg m).wait = b.wait := rfl
@[simp] theorem Bank.setMsg_wdrawn (b : Bank) (m : Msg) : (b.setMsg m).wdrawn = b.wdrawn := rfl
@[simp] theorem Bank.setMsg_image (b : Bank) (m : Msg) : (b.setMsg m).image = b.image := rfl
@[simp] theorem Bank.setMsg_charged (b : Bank) (m : Msg) : (b.setMsg m).charged = b.charged := rfl
@[simp] theorem Bank.setMsg_slice (b : Bank) (m : Msg) : (b.setMsg m).slice = b.slice := rfl
@[simp] theorem Bank.setMsg_leave (b : Bank) (m : Msg) : (b.setMsg m).leave = b.leave := rfl
@[simp] theorem Bank.setMsg_resume (b : Bank) (m : Msg) : (b.setMsg m).resume = b.resume := rfl
@[simp] theorem Bank.setMsg_saved (b : Bank) (m : Msg) : (b.setMsg m).saved = b.saved := rfl
@[simp] theorem Bank.setMsg_cont (b : Bank) (m : Msg) : (b.setMsg m).cont = b.cont := rfl
@[simp] theorem Bank.setMsg_spillBad (b : Bank) (m : Msg) : (b.setMsg m).spillBad = b.spillBad := rfl
@[simp] theorem Bank.setMsg_pins (b : Bank) (m : Msg) : (b.setMsg m).pins = b.pins := rfl
@[simp] theorem Bank.setMsg_due (b : Bank) (m : Msg) : (b.setMsg m).due = b.due := rfl
@[simp] theorem Bank.setMsg_due16 (b : Bank) (m : Msg) : (b.setMsg m).due16 = b.due16 := rfl

@[simp] theorem Bank.setPsw_stove (b : Bank) (p : Psw) : (b.setPsw p).stove = b.stove := rfl
@[simp] theorem Bank.setPsw_slot (b : Bank) (p : Psw) : (b.setPsw p).slot = b.slot := rfl
@[simp] theorem Bank.setPsw_ctx (b : Bank) (p : Psw) : (b.setPsw p).ctx = b.ctx := rfl
@[simp] theorem Bank.setPsw_flue (b : Bank) (p : Psw) : (b.setPsw p).flue = b.flue := rfl
@[simp] theorem Bank.setPsw_g (b : Bank) (p : Psw) : (b.setPsw p).g = b.g := rfl
@[simp] theorem Bank.setPsw_f (b : Bank) (p : Psw) : (b.setPsw p).f = b.f := rfl
@[simp] theorem Bank.setPsw_d (b : Bank) (p : Psw) : (b.setPsw p).d = b.d := rfl
@[simp] theorem Bank.setPsw_m (b : Bank) (p : Psw) : (b.setPsw p).m = b.m := rfl
@[simp] theorem Bank.setPsw_msg (b : Bank) (p : Psw) : (b.setPsw p).msg = b.msg := rfl
@[simp] theorem Bank.setPsw_ttr (b : Bank) (p : Psw) : (b.setPsw p).ttr = b.ttr := rfl
@[simp] theorem Bank.setPsw_dirty (b : Bank) (p : Psw) : (b.setPsw p).dirty = b.dirty := rfl
@[simp] theorem Bank.setPsw_lis (b : Bank) (p : Psw) : (b.setPsw p).lis = b.lis := rfl
@[simp] theorem Bank.setPsw_evpend (b : Bank) (p : Psw) : (b.setPsw p).evpend = b.evpend := rfl
@[simp] theorem Bank.setPsw_wait (b : Bank) (p : Psw) : (b.setPsw p).wait = b.wait := rfl
@[simp] theorem Bank.setPsw_wdrawn (b : Bank) (p : Psw) : (b.setPsw p).wdrawn = b.wdrawn := rfl
@[simp] theorem Bank.setPsw_image (b : Bank) (p : Psw) : (b.setPsw p).image = b.image := rfl
@[simp] theorem Bank.setPsw_charged (b : Bank) (p : Psw) : (b.setPsw p).charged = b.charged := rfl
@[simp] theorem Bank.setPsw_slice (b : Bank) (p : Psw) : (b.setPsw p).slice = b.slice := rfl
@[simp] theorem Bank.setPsw_leave (b : Bank) (p : Psw) : (b.setPsw p).leave = b.leave := rfl
@[simp] theorem Bank.setPsw_resume (b : Bank) (p : Psw) : (b.setPsw p).resume = b.resume := rfl
@[simp] theorem Bank.setPsw_saved (b : Bank) (p : Psw) : (b.setPsw p).saved = b.saved := rfl
@[simp] theorem Bank.setPsw_cont (b : Bank) (p : Psw) : (b.setPsw p).cont = b.cont := rfl
@[simp] theorem Bank.setPsw_spillBad (b : Bank) (p : Psw) : (b.setPsw p).spillBad = b.spillBad := rfl
@[simp] theorem Bank.setPsw_pins (b : Bank) (p : Psw) : (b.setPsw p).pins = b.pins := rfl
@[simp] theorem Bank.setPsw_due (b : Bank) (p : Psw) : (b.setPsw p).due = b.due := rfl
@[simp] theorem Bank.setPsw_due16 (b : Bank) (p : Psw) : (b.setPsw p).due16 = b.due16 := rfl

@[simp] theorem Bank.setPsw_psw (b : Bank) (p : Psw) : (b.setPsw p).psw = p := rfl
@[simp] theorem Bank.setMsg_msg (b : Bank) (m : Msg) : (b.setMsg m).msg = m := rfl

/-- R61: a general register that was written reads back. -/
@[simp] theorem Bank.getG_setG (b : Bank) (r : BitVec 4) (v : Word) : (b.setG r v).getG r = v := by
  simp [Bank.getG, Bank.setG, Bank.touchGroup]

/-- R61: another general register reads as before. -/
theorem Bank.getG_setG_ne (b : Bank) (r q : BitVec 4) (v : Word) (h : q ≠ r) : (b.setG r v).getG q = b.getG q := by
  have : r.toNat ≠ q.toNat := fun e => h (BitVec.eq_of_toNat_eq e.symm)
  simp [Bank.getG, Bank.setG, Bank.touchGroup, this]

@[simp] theorem Bank.getF_setF (b : Bank) (r : BitVec 4) (v : Word) : (b.setF r v).getF r = v := by
  simp [Bank.getF, Bank.setF, Bank.touchGroup]

theorem Bank.getF_setF_ne (b : Bank) (r q : BitVec 4) (v : Word) (h : q ≠ r) : (b.setF r v).getF q = b.getF q := by
  have : r.toNat ≠ q.toNat := fun e => h (BitVec.eq_of_toNat_eq e.symm)
  simp [Bank.getF, Bank.setF, Bank.touchGroup, this]

@[simp] theorem Bank.getD_setD (b : Bank) (r : BitVec 3) (v : BitVec 256) : (b.setD r v).getD r = v := by
  simp [Bank.getD, Bank.setD, Bank.touchGroup]

theorem Bank.getD_setD_ne (b : Bank) (r q : BitVec 3) (v : BitVec 256) (h : q ≠ r) : (b.setD r v).getD q = b.getD q := by
  have : r.toNat ≠ q.toNat := fun e => h (BitVec.eq_of_toNat_eq e.symm)
  simp [Bank.getD, Bank.setD, Bank.touchGroup, this]

end Sys2Proof.Machine
end

