-- ==== Sys2Proof/Laws/Units.lean ====
section
/-!
SUPPORT. The units of a stove run straight (R361): what each delivers in pass A and in every unrefired instruction.
-/

namespace Sys2Proof.Machine

@[simp] theorem addUnit_straight (a b : Int) : addUnit .straight a b = a + b := by rfl
@[simp] theorem subUnit_straight (a b : Int) : subUnit .straight a b = a - b := by rfl
@[simp] theorem andUnit_straight (w a b : Nat) : andUnit .straight w a b = a &&& b := by rfl
@[simp] theorem orUnit_straight (w a b : Nat) : orUnit .straight w a b = a ||| b := by rfl
@[simp] theorem xorUnit_straight (w a b : Nat) : xorUnit .straight w a b = a ^^^ b := by rfl
@[simp] theorem notUnit_straight (w a : Nat) : notUnit .straight w a = invBits w a := by rfl
@[simp] theorem shlUnit_straight (w a c : Nat) : shlUnit .straight w a c = if c < w then a * 2 ^ c % 2 ^ w else 0 := by rfl
@[simp] theorem shrUnit_straight (w a c : Nat) : shrUnit .straight w a c = if c < w then a / 2 ^ c else 0 := by rfl
@[simp] theorem sraUnit_straight (x : Int) (c : Nat) : sraUnit .straight x c = x / (2 ^ c : Nat) := by rfl
@[simp] theorem slaUnit_straight (x : Int) (c : Nat) : slaUnit .straight x c = x * (2 ^ c : Nat) := by rfl
@[simp] theorem mulUnit_straight (a b : Int) : mulUnit .straight a b = a * b := by rfl
@[simp] theorem quotUnit_straight (a b : Int) : quotUnit .straight a b = a.tdiv b := by rfl
@[simp] theorem remUnit_straight (a b : Int) : remUnit .straight a b = a.tmod b := by rfl
@[simp] theorem decAddUnit_straight (a b : Int) : decAddUnit .straight a b = a + b := by rfl
@[simp] theorem decSubUnit_straight (a b : Int) : decSubUnit .straight a b = a - b := by rfl
@[simp] theorem decPassUnit_straight (a : Int) : decPassUnit .straight a = a := by rfl
@[simp] theorem decMulUnit_straight (a b : Int) : decMulUnit .straight a b = a * b := by rfl
@[simp] theorem decQuotUnit_straight (a b : Int) : decQuotUnit .straight a b = a.tdiv b := by rfl
@[simp] theorem decRemUnit_straight (a b : Int) : decRemUnit .straight a b = a.tmod b := by rfl
@[simp] theorem convUnit_straight (a : Int) : convUnit .straight a = a := by rfl
@[simp] theorem moveUnit_straight (bs : List Byte) : moveUnit .straight bs = bs := by rfl
@[simp] theorem moveVal_straight (n v : Nat) : moveVal .straight n v = v := by rfl
@[simp] theorem rotUnit_straight (w a c : Nat) : rotUnit .straight w a c = rotl w a c := by rfl
@[simp] theorem cmpUnit_straight (a b : Int) : cmpUnit .straight a b = cmpCc a b := by rfl
@[simp] theorem passDigits_straight (ds : List Nat) : passDigits .straight ds = ds := by rfl
@[simp] theorem FFmt.addBy_straight (f : FFmt) (rm : Nat) (a b : FVal) : f.addBy .straight rm a b = f.add rm a b := by rfl
@[simp] theorem FFmt.mulBy_straight (f : FFmt) (rm : Nat) (a b : FVal) : f.mulBy .straight rm a b = f.mul rm a b := by rfl
@[simp] theorem FFmt.fmaBy_straight (f : FFmt) (rm : Nat) (a b c : FVal) : f.fmaBy .straight rm a b c = f.fma rm a b c := by rfl
@[simp] theorem FFmt.divBy_straight (f : FFmt) (rm : Nat) (a b : FVal) : f.divBy .straight rm a b = f.div rm a b := by rfl
@[simp] theorem fcompareBy_straight (a b : FVal) : fcompareBy .straight a b = fcompare a b := by rfl
@[simp] theorem toIntegerBy_straight (w rm : Nat) (a : FVal) : toIntegerBy .straight w rm a = toInteger w rm a := by rfl
@[simp] theorem FFmt.ofIntBy_straight (f : FFmt) (rm : Nat) (v : Int) : f.ofIntBy .straight rm v = f.ofInt rm v := by rfl
@[simp] theorem FFmt.convertBy_straight (f : FFmt) (rm : Nat) (a : FVal) : f.convertBy .straight rm a = f.convert rm a := by rfl

end Sys2Proof.Machine
end

