-- ==== Sys2Proof/Machine/Pins.lean ====
section
/-!
DEFINITION. The output pins as functions of the state (R42, R587).
-/

namespace Sys2Proof.Machine

/-- What a pin is driven to. -/
inductive Level where
  | low
  | high
  | released
  deriving DecidableEq, Repr

/-- R587: PWRGD_OUT is high once start-up has completed step 2. -/
def State.pinPwrgd (s : State) : Level := if s.mantel.core then .high else .low

/-- R549, R587: THERMTRIP_N is low from a thermal trip until the next cold reset is accepted. -/
def State.pinThermtrip (s : State) : Level := if s.mantel.tripped then .low else .high

/-- R343, R587: LOCKUP_N is low while a stove is locked. -/
def State.pinLockup (s : State) : Level :=
  if (List.range 64).any (fun n => s.flag (Slot.stv n) Off.STV.STATUS 0) then .low else .released

/-- R33: the populated page slots. -/
def pageSlots : List Nat := (List.range 256).filter (fun n => (pageKind n).isSome)

/-- R42, R558: ALERT_N is low while a page with PIN set alerts, or start-up has stopped. -/
def State.pinAlert (s : State) : Level :=
  if pageSlots.any (fun n => s.flag n Off.PAGE.ALERT 0 && s.alerting n) || s.flag Slot.rst Off.RST.BOOTSTEP 12 then .low
  else .released

/-- R587: MEM_RESET_N of every position: released while the core is unpowered, low before step 6. -/
def State.pinMemReset (s : State) : Level :=
  if !s.mantel.core then .released
  else if s.fld Slot.rst Off.RST.BOOTSTEP 0 4 < 6 then .low else .high

/-- R587, R426: PERST_N of a port: an input in endpoint mode; low while a root-mode port does not operate. -/
def State.pinPerst (s : State) (p : Nat) : Level :=
  if s.portMode p = 3 then .released else if s.portMode p = 0 ∨ !s.pageRuns (Slot.fxp p) then .low else .released

/-- R469: PTP_PPS_OUT. -/
def State.pinPps (s : State) : Level := if s.mantel.ppsOut then .high else .low

end Sys2Proof.Machine
end

