-- ==== Sys2Proof/Tests/Slice0.lean ====
section
/-!
SUPPORT. Tests. For every statement with hypotheses, a theorem evaluates its hypotheses in order on a concrete state and concrete operands
and finds that all of them hold, one theorem or one case for each clause; then the checks of well-formedness, each with a command it
refuses, and a few results worked out by hand.
-/

namespace Sys2Proof.Tests

set_option Elab.async false

open Sys2Proof Sys2Proof.Machine

/-! ## Hypotheses evaluated -/

/-- Work that completes, with a result and a Cpu that pass a check. -/
def met {α : Type} (r : EStateM.Result Stop Cpu α) (k : α → Cpu → Bool) : Bool :=
  match r with
  | .ok a c => k a c
  | .error _ _ => false

theorem met_spec {α : Type} {r : EStateM.Result Stop Cpu α} {k : α → Cpu → Bool} (h : met r k = true) :
    ∃ a c, r = .ok a c ∧ k a c = true := by
  cases r with
  | ok a c => exact ⟨a, c, rfl, h⟩
  | error e c => cases h

/-- What `Ready` asks of a state and a bank besides the fetch. -/
def readyAt (i : Issue) (s : State) (b : Bank) : Bool :=
  decide (s.bankOf b.ctx = some b ∧ s.stoveRuns i.stove = true ∧ s.flueShut i.stove i.flue = false
    ∧ (b.wait = none ∧ b.wdrawn = none ∧ b.resume = 0) ∧ (b.psw.rf = false ∧ b.psw.dbg = false)
    ∧ (i.env.wait = none ∧ i.env.mem = [] ∧ i.env.evicted = [] ∧ i.env.excess = [] ∧ i.env.bare = []))

/-- Ready, leaving a bank and a Cpu that pass a check. -/
def readies (i : Issue) (s : State) (k : Bank → Cpu → Bool) : Bool :=
  match s.boundTo i.stove i.flue with
  | none => false
  | some b => readyAt i s b
      && met (fetchCheck (Cpu.start s b i.env.device)) fun _ c => decide (c.s.blockedStores c.b.ctx = []) && k b c

theorem readies_spec {i : Issue} {s : State} {k : Bank → Cpu → Bool} (h : readies i s k = true) : ∃ b c, Ready i s b c ∧ k b c = true := by
  unfold readies at h
  split at h
  · cases h
  · rename_i b hb
    simp only [readyAt, Bool.and_eq_true, decide_eq_true_eq] at h
    obtain ⟨⟨h1, h2, h3, h4, h5, h6⟩, hm⟩ := h
    obtain ⟨_, c, hf, hk⟩ := met_spec hm
    simp only [Bool.and_eq_true, decide_eq_true_eq] at hk
    exact ⟨b, c, ⟨hb, h1, h2, h3, h4, h5, h6, hf, hk.1⟩, hk.2⟩

/-- A word that a shape accepts under the PSW of a bank. -/
def accepted (sh : Shape) (w : Word112) (p : Psw) : Bool :=
  decide (sh.fmts.contains w.fmt.toNat = true ∧ (sh.priv = true → p.sup = true)
    ∧ (sh.opd1.accepts w.opd1 && sh.opd2.accepts w.opd2 && sh.opd3.accepts w.opd3 && sh.rule w) = true
    ∧ (sh.repeats = true ∨ p.rcnt = 0))

/-- An instruction that starts, leaving a Cpu that passes a check. -/
def starts (op : BitVec 12) (sh : Shape) (i : Issue) (s : State) (k : Cpu → Bool) : Bool :=
  readies i s fun b c => accepted sh i.word b.psw && k (c.withImage op i.word)

theorem starts_spec {op : BitVec 12} {sh : Shape} {i : Issue} {s : State} {k : Cpu → Bool} (h : starts op sh i s k = true) :
    ∃ c, Starts op sh i s c ∧ k c = true := by
  obtain ⟨b, c, hr, h⟩ := readies_spec h
  rw [Bool.and_eq_true] at h
  obtain ⟨h6, h7, h8, h9⟩ := of_decide_eq_true h.1
  exact ⟨_, ⟨b, c, hr, ⟨h6, h7, h8, h9⟩, rfl⟩, h.2⟩

/-- Completion leaves a state. -/
def retires (c : Cpu) (n : Nat) : Bool :=
  (match c.next with
    | .svc _ => false
    | .advance | .stay | .jump _ | .load _ => true)
  && match (c.settle.s.putBank (c.settle.retired n)).performAll c.b.ctx c.after with
    | .ok _ => true
    | .error _ => false

theorem retires_spec {c : Cpu} {n : Nat} (h : retires c n = true) : ∃ t, c.Retires n t := by
  unfold retires at h
  simp only [Bool.and_eq_true] at h
  obtain ⟨h1, h2⟩ := h
  split at h2
  · exact ⟨_, fun k e => by simp [e] at h1, ‹_›⟩
  · cases h2

theorem retires_quiet {c : Cpu} {n : Nat} (h : ∀ k, c.next ≠ .svc k) (ha : c.after = []) : ∃ t, c.Retires n t :=
  ⟨c.settle.s.putBank (c.settle.retired n), And.intro h (by rw [ha]; rfl)⟩

theorem retires_plain {c : Cpu} {n : Nat} (h : c.next = .advance) (ha : c.after = []) : ∃ t, c.Retires n t :=
  retires_quiet (fun k e => by rw [h] at e; cases e) ha

/-! ## Small states -/

/-- Pages enabled and not Quiesced. -/
def operating (slots : List Nat) (s : State) : State :=
  slots.foldl (fun s n => (s.setReg n Off.PAGE.CTL 1).setReg n Off.PAGE.STS 0) s

/-- A specifier of a mode, a base register and a displacement. -/
def sp (mode base : Nat) (disp : Nat := 0) : BitVec 32 := BitVec.ofNat 32 (mode * 2 ^ 28 + base * 2 ^ 24 + disp)

/-- The word of an instruction below its opcode, on flue 0 of stove 0. -/
def ins (fmt : BitVec 4) (len : BitVec 16) (a b : BitVec 32) (c : BitVec 32 := 0) : Issue :=
  { stove := 0, flue := 0, word := { fmt := fmt, len := len, opd1 := a, opd2 := b, opd3 := c }, env := {} }

/-- Context 5 on flue 0 of stove 0, at 0x8000 in supervisor state, with the registers listed. -/
def bank (regs : List (BitVec 4 × Word)) : Bank :=
  regs.foldl (fun b r => b.setG r.1 r.2) { Bank.fresh 0 0 5 with flue := some 0, psw := { Psw.zero with ia := 0x8000, sup := true } }

/-- The machine with one context. -/
def live (b : Bank) : State := { operating [Slot.grt, Slot.nmc, Slot.hrtA 0, Slot.stv 0] State.reset with banks := [b] }

/-- G1 = 7, G2 = 3, G3 and G4 addresses of memory, G5 = -1, G6 the greatest and G7 the least 64-bit value. -/
def plain : Bank :=
  bank [(1, 7), (2, 3), (3, 0x100000), (4, 0x100100), (5, -1), (6, 0x7FFFFFFFFFFFFFFF), (7, 0x8000000000000000), (15, 0x180000)]

/-- The same with overflow enabled. -/
def strict : Bank := { plain with psw := { plain.psw with fom := true, dom := true } }

/-! ## The binary family -/

/-- MovesDeliver: a register, a memory operand of each width, and an effective address. -/
theorem wit_MovesDeliver :
    [ins 4 0 (sp 0 1) (sp 0 2), ins 1 0 (sp 4 3) (sp 0 1), ins 4 0 (sp 4 3 60) (sp 3 0 5)].all (fun i =>
      i.word.fmt != 0 && starts 0x000 shapeMov i (live plain) fun c => met (formMove i.word c) fun r c1 =>
        met (writeVal r.1 (fmtBytes i.word.fmt) r.2 c1) fun _ c2 => retires c2 1) = true
    ∧ (let i := ins 4 0 (sp 0 1) (sp 4 3 0x3FFFF)
       starts 0x001 shapeLea i (live plain) fun c => met (formAddress i.word.opd2 1 c) fun p c1 =>
        retires { c1 with b := c1.b.setG (spBase i.word.opd1) (BitVec.ofNat 64 p.addr) } 1) = true := by decide +kernel

/-- The hypotheses of a signed result, of two operands and of one. -/
def signedCase (op : BitVec 12) (f : Int → Int → Int) (n : Nat) (i : Issue) (s : State) : Bool :=
  starts op shapeBoth i s fun c => met (formBoth i.word c) fun (o, x, y) c1 =>
    let k := 8 * fmtBytes i.word.fmt
    let e := f (signed k x) (signed k y)
    (!overflows k e || !c1.b.psw.fom)
      && met (writeVal o (fmtBytes i.word.fmt) (wrapInt k e) (c1.withCc (exactCc k e))) fun _ c2 => retires c2 n

/-- SignedArithmetic: results that fit while FOM is 1, and that overflow while it is 0. -/
theorem wit_SignedArithmetic :
    signedOps.all (fun a => signedCase a.2.1 a.2.2.1 a.2.2.2 (ins 4 0 (sp 0 1) (sp 0 2)) (live strict)
      && signedCase a.2.1 a.2.2.1 a.2.2.2 (ins 4 0 (sp 0 7) (sp 0 7)) (live plain)) = true
    ∧ signedUnaryOps.all (fun a => [1, 7].all fun r =>
      let i := ins 4 0 (sp 4 3) (sp 0 r)
      starts a.2.1 shapeNeg i (live plain) fun c => met (formMove i.word c) fun (o, y) c1 =>
        let e := a.2.2 (signed 64 y)
        met (writeVal o 8 (wrapInt 64 e) (c1.withCc (exactCc 64 e))) fun _ c2 => retires c2 1) = true := by decide +kernel

/-- Bytes at G3 = 0x100000, and others at G4 = 0x100100. -/
def withData (bs cs : List Byte) (b : Bank) : State := ((live b).poke 0x100000 bs).poke 0x100100 cs

/-- The instructions that divide two 64-bit registers, with FLAG 0. -/
def divideWords (a b : Nat) : Issue := ins 4 0 (sp 0 a) (sp 0 b)

/-- ArithmeticTraps: an overflow while FOM is 1, a division by G0 = 0, and a packed source without a sign. -/
theorem wit_ArithmeticTraps :
    ([(signedOps[0], 1), (signedOps[1], 5), (signedOps[2], 2)].all fun (a, r) => let i := ins 4 0 (sp 0 6) (sp 0 r)
      starts a.2.1 shapeBoth i (live strict) fun c => met (formBoth i.word c) fun (_, x, y) c1 =>
        overflows 64 (a.2.2.1 (signed 64 x) (signed 64 y)) && c1.b.psw.fom) = true
    ∧ ((divideOps (divideWords 1 0).word).all fun a => let i := divideWords 1 0
      starts a.2.1 a.2.2.1 i (live plain) fun c => met (formBoth i.word c) fun (_, _, y) _ => y == 0) = true
    ∧ ([(0x202, shapeTwoP, 1, sp 4 4), (0x208, shapeCvbp, 8, sp 0 1)].all fun (op, sh, n, d) => let i := ins 5 0 d (sp 4 3)
      starts op sh i (withData [0x11] [] plain) fun c => met (formOpnd i.word.opd1 n [.store] c) fun _ c1 =>
        met (formOpnd i.word.opd2 1 [.load] c1) fun o2 c2 => met (readOpnd o2 1 c2) fun bs _ => !packedOk bs) = true := by decide +kernel

/-- MulhHighHalf: of unsigned and of signed operands. -/
theorem wit_MulhHighHalf :
    [0x8000, 0].all (fun len => let i := ins 4 len (sp 0 7) (sp 0 5)
      starts 0x013 shapeBothU i (live plain) fun c => met (formBoth i.word c) fun (o, x, y) c1 =>
        let u := x * y / 2 ^ 64
        let r := signed 64 x * signed 64 y / (2 ^ 64 : Nat)
        met (writeVal o 8 (if lenFlag i.word.len then u else wrapInt 64 r)
          (c1.withCc (if lenFlag i.word.len then (if u = 0 then 0 else 2) else signCc r))) fun _ c2 => retires c2 4) = true := by decide +kernel

/-- DivisionDelivers: 7 by 3, and the least value by -1 while FOM is 0. -/
theorem wit_DivisionDelivers :
    [divideWords 1 2, divideWords 7 5].all (fun i => (divideOps i.word).all fun a =>
      starts a.2.1 a.2.2.1 i (live plain) fun c => met (formBoth i.word c) fun (o, x, y) c1 =>
        y != 0 && (!quotientOverflows a.2.2.2.1 64 x y || !c1.b.psw.fom)
          && met (writeVal o 8 (divided a.2.2.2.1 a.2.2.2.2 64 x y) (c1.withCc (dividedCc a.2.2.2.1 a.2.2.2.2 64 x y)))
            fun _ c2 => retires c2 (divideCount a.2.2.2.1 64 x y)) = true := by decide +kernel

/-- LogicAndCompares: two operands, one operand, and the two that write CC alone. -/
theorem wit_LogicAndCompares :
    (logicOps.all fun a => let i := ins 4 0 (sp 0 1) (sp 0 2)
      i.word.fmt != 0 && starts a.2.1 shapeBoth i (live plain) fun c => met (formBoth i.word c) fun (o, x, y) c1 =>
        met (writeVal o 8 (a.2.2 x y) (c1.withCc (zeroCc (a.2.2 x y)))) fun _ c2 => retires c2 1) = true
    ∧ (let i := ins 4 0 (sp 0 1) (sp 0 5)
       starts 0x023 shapeNot i (live plain) fun c => met (formMove i.word c) fun (o, y) c1 =>
        met (writeVal o 8 (2 ^ 64 - 1 - y) (c1.withCc (zeroCc (2 ^ 64 - 1 - y)))) fun _ c2 => retires c2 1) = true
    ∧ ([0, 0x8000].all fun len => let i := ins 4 len (sp 0 5) (sp 0 6)
       starts 0x040 (shapeCompare flagOnly) i (live plain) fun c => met (formSources i.word c) fun (x, y) c1 =>
        retires (c1.withCc (if lenFlag i.word.len then cmpCc x y else cmpCc (signed 64 x) (signed 64 y))) 1) = true
    ∧ (let i := ins 4 0 (sp 0 1) (sp 0 2)
       starts 0x041 (shapeCompare (fun w => w.len == 0)) i (live plain) fun c => met (formSources i.word c) fun (x, y) c1 =>
        retires (c1.withCc (tstCc (x &&& y) y)) 1) = true := by decide +kernel

/-- The hypotheses of a shift by a count in LEN. -/
def shiftCase (op : BitVec 12) (left : Bool) (len : BitVec 16) (r : Nat → Nat → Nat × BitVec 2) : Bool :=
  let i := ins 4 len (sp 0 7) 0
  starts op (shapeShift left i.word) i (live plain) fun c => met (formShift i.word c) fun (o, x, m) c1 =>
    met (writeVal o 8 (r x m).1 (c1.withCc (r x m).2)) fun _ c2 => retires c2 1

/-- ShiftsDeliver: counts of 64 and 63, an arithmetic shift left that overflows while FOM is 0, one right, and both rotations. -/
theorem wit_ShiftsDeliver :
    shiftCase 0x030 false 0x8040 (fun _ _ => (0, zeroCc 0)) = true
    ∧ shiftCase 0x031 false 0x803F (fun x m => (x / 2 ^ m, zeroCc (x / 2 ^ m))) = true
    ∧ shiftCase 0x032 true 0xC001 (fun x m => (wrapInt 64 (signed 64 x * (2 ^ m : Nat)), exactCc 64 (signed 64 x * (2 ^ m : Nat)))) = true
    ∧ shiftCase 0x032 true 0x80FF (fun x m => (wrapInt 64 (signed 64 x / (2 ^ m : Nat)), signCc (signed 64 x / (2 ^ m : Nat)))) = true
    ∧ shiftCase 0x033 true 0xC001 (fun x m => (rotl 64 x (m % 64), zeroCc (rotl 64 x (m % 64)))) = true
    ∧ shiftCase 0x033 true 0x8001 (fun x m => (rotl 64 x (64 - m % 64), zeroCc (rotl 64 x (64 - m % 64)))) = true := by decide +kernel

/-- A bank in user state. -/
def user (b : Bank) : Bank := { b with psw := { b.psw with sup := false } }

/-- The hypotheses of AND or OR into the PSW of an immediate. -/
def pswCase (op : BitVec 12) (imm : Nat) (f : Nat → Nat → Nat) (b : Bank) (k : Nat → Cpu → Bool) : Bool :=
  let i := ins 0 0x8000 0 (sp 3 0 imm)
  starts op shapePswOp i (live b) fun c => met (formOpnd i.word.opd2 8 [.load] c) fun o c1 => met (readVal o 8 c1) fun v c2 =>
    let new := f c2.b.psw.control v
    decide ((new ^^^ c2.b.psw.control) &&& fixedControl = 0) && k new c2

/-- PswForms: MOV from the PSW; OR of a supervisor bit in supervisor state, of FOM in user state; AND that keeps all. -/
theorem wit_PswForms :
    (let i := ins 0 0x8000 (sp 0 1) 0
     starts 0x000 shapeMovPsw i (live plain) fun c =>
      retires { c with b := c.b.setG (spBase i.word.opd1) (BitVec.ofNat 64 c.b.psw.control) } 1) = true
    ∧ [plain, user plain].all (fun b =>
      pswCase 0x021 (if b.psw.sup then 1 else 2 ^ 9) (fun p v => p ||| v) b (fun new c =>
        (c.b.psw.sup || decide ((new ^^^ c.b.psw.control) &&& supControl = 0))
          && retires { c with b := c.b.setPsw (Psw.ofControl c.b.psw.ia new) } 1)
      && pswCase 0x020 0xFFFFFFF (fun p v => p &&& v) b (fun new c =>
        (c.b.psw.sup || decide ((new ^^^ c.b.psw.control) &&& supControl = 0))
          && retires { c with b := c.b.setPsw (Psw.ofControl c.b.psw.ia new) } 1)) = true := by decide +kernel

/-! ## Control -/

/-- ControlInstructions: BR; BRC taken and not taken; CALL with its stack slot; RET to an aligned address; REP with 0 and with 65,535. -/
theorem wit_ControlInstructions :
    (let i := ins 0 0 (sp 0 3) 0
     starts 0x100 shapeBr i (live plain) fun c => met (formTarget i.word.opd1 c) fun a c1 => retires (c1.goes (.jump a)) 1) = true
    ∧ ([1, 2].all fun len => let i := ins 0 len (sp 8 0 32) 0
       starts 0x101 shapeBrc i (live plain) fun c => met (formTarget i.word.opd1 c) fun a c1 =>
        retires (if bitAt i.word.len.toNat c1.b.psw.cc.toNat then c1.goes (.jump a) else c1) 1) = true
    ∧ (let i := ins 0 0 (sp 0 3) 0
       starts 0x102 shapeCall i (live plain) fun c => met (formTarget i.word.opd1 c) fun a c1 =>
        let d := addWrap (c1.b.getG 15).toNat (-8)
        inSpace d 8 && met (checkPieces [.store] .logical 8 none (pieces d 8) c1) fun ps c2 => met (awaitLines ps c2) fun _ c2 =>
          met (writePieces ps (wordBytes (c1.b.psw.ia + 16)) c2) fun _ c3 =>
            retires ({ c3 with b := c3.b.setG 15 (BitVec.ofNat 64 d) }.goes (.jump a)) 2) = true
    ∧ (let i := ins 0 0 0 0
       starts 0x103 shapeRet i ((live plain).poke 0x180000 [0x20]) fun c =>
        let a := (c.b.getG 15).toNat
        inSpace a 8 && met (checkPieces [.load] .logical 8 none (pieces a 8) c) fun ps c1 => met (awaitNeeded ps c1) fun _ c1 =>
          met (readPieces ps false c1) fun bs c2 => leNat bs % 16 == 0
            && retires ({ c2 with b := c2.b.setG 15 (BitVec.ofNat 64 (addWrap a 8)) }.goes (.jump (BitVec.ofNat 64 (leNat bs)))) 2) = true
    ∧ ([(0, 0), (2, 0xFFFF)].all fun ((r, v) : Nat × Word) => let i := ins 0 0 (sp 0 r) 0
       starts 0x104 shapeRep i (live (plain.setG (BitVec.ofNat 4 r) v)) fun c =>
        let n := (c.b.getG (spBase i.word.opd1)).toNat
        decide (n ≤ 65535) && retires (c.goes (.load (if n = 0 then { c.b.psw with ia := c.b.psw.ia + 32 }
          else { c.b.psw with ia := c.b.psw.ia + 16, rcnt := BitVec.ofNat 16 n }))) 1) = true := by decide +kernel

/-! ## The packed decimal family -/

/-- Damper leave held. -/
def leave (b : Bank) : Bank := { b with leave := some 0 }

/-- PackedArithmetic: results that fit one byte while DOM is 1 and do not while it is 0, and a long MULP that has its leave. -/
theorem wit_PackedArithmetic :
    [(ins 5 0 (sp 4 3) (sp 4 4), [(0x1C : Byte)], [(0x1D : Byte)], strict), (ins 5 0 (sp 4 3) (sp 4 4), [0x9C], [0x9C], plain),
      (ins 5 0x4000 (sp 4 3) (sp 4 4), zeros 16 ++ [0x1C], [0x2C], leave plain)].all (fun (i, x, y, b) =>
      (packedOps i.word).all fun a => starts a.2.1 shapeTwoP i (withData x y b) fun c => met (formTwoP i.word c) fun (o, x, y) c1 =>
        let n := lenL1 i.word.len
        let v := a.2.2.1 x y
        decide ((capacity n ≤ v.natAbs → c1.b.psw.dom = false) ∧ (a.2.1 = 0x204 → (16 < n ∨ 16 < lenL2 i.word.len) → c1.b.leave ≠ none)
            ∧ c1.b.resume = 0)
          && met (writeOpnd o (packedBytes n v) (c1.withCc (packedCc n v))) fun _ c2 => retires c2 a.2.2.2) = true := by decide +kernel

/-- An instruction of two operands of these accesses, both formed, and the second read. -/
def twoThenRead (op : BitVec 12) (sh : Shape) (i : Issue) (s : State) (n1 n2 : Nat) (k1 k2 : List Acc)
    (k : Opnd → List Byte → Cpu → Bool) : Bool :=
  starts op sh i s fun c => met (formOpnd i.word.opd1 n1 k1 c) fun o1 c1 => met (formOpnd i.word.opd2 n2 k2 c1) fun o2 c2 =>
    met (readOpnd o2 n2 c2) fun bs c3 => k o1 bs c3

/-- PackedMovesAndCompare: a source that fits while DOM is 1 and one that does not while it is 0; a comparison; a load and a store of an
accumulator, of 1 byte and of 32. -/
theorem wit_PackedMovesAndCompare :
    [(ins 5 0 (sp 4 3) (sp 4 4), [(0x9D : Byte)], strict, 1), (ins 5 0x20 (sp 4 3) (sp 4 4), [0x99, 0x9C], plain, 2)].all (fun (i, y, b, n2) =>
      twoThenRead 0x202 shapeTwoP i (withData [] y b) 1 n2 [.store] [.load] fun o bs c3 =>
        packedOk bs && decide (capacity 1 ≤ (packedVal bs).natAbs → c3.b.psw.dom = false)
          && met (writeOpnd o (packedBytes 1 (packedVal bs)) (c3.withCc (packedCc 1 (packedVal bs)))) fun _ c4 =>
            retires c4 (addpCount i.word)) = true
    ∧ (let i := ins 5 0 (sp 4 3) (sp 4 4)
       starts 0x203 shapeTwoP i (withData [0x1C] [0x1D] plain) fun c => met (formOpnd i.word.opd1 1 [.load] c) fun o c1 =>
        met (formOpnd i.word.opd2 1 [.load] c1) fun o2 c2 => met (readOpnd o 1 c2) fun b1 c4 => met (readOpnd o2 1 c4) fun b2 c5 =>
          packedOk b1 && packedOk b2 && retires (c5.withCc (cmpCc (packedVal b1) (packedVal b2))) (addpCount i.word)) = true
    ∧ [0, 31].all (fun l => let i := ins 5 (BitVec.ofNat 16 (31 * 1024 + l * 32)) (sp 1 7) (sp 4 4)
       twoThenRead 0x20C shapeLda i (live plain) 32 (l + 1) [] [.load] fun o bs c3 =>
        met (writeOpnd o (zeros (32 - (l + 1)) ++ bs) c3) fun _ c4 => retires c4 2) = true
    ∧ [0, 31].all (fun l => let i := ins 5 (BitVec.ofNat 16 (l * 1024 + 31 * 32)) (sp 4 4) (sp 1 7)
       twoThenRead 0x20D shapeSta i (live plain) (l + 1) 32 [.store] [] fun o bs c3 =>
        met (writeOpnd o (bs.drop (32 - (l + 1))) c3) fun _ c4 => retires c4 2) = true := by decide +kernel

/-- PackedDivideScaleTest: 7 by -3 with leave; a scaling by 10^-1 in mode 5 that fits while DOM is 1, and by 10^63 that does not while
it is 0; a test of a bad operand. -/
theorem wit_PackedDivideScaleTest :
    (let i := ins 5 0 (sp 4 3) (sp 4 3 8) (sp 4 4)
     starts 0x205 shapeDivp i (withData (zeros 8 ++ [0x7C]) [0x3D] (leave plain)) fun c => met (formOpnd i.word.opd1 1 [.store] c) fun o1 c1 =>
      met (formOpnd i.word.opd2 1 [.load, .store] c1) fun o2 c2 => met (formOpnd i.word.opd3 1 [.load] c2) fun o3 c3 =>
      met (readOpnd o2 1 c3) fun b2 c4 => met (readOpnd o3 1 c4) fun b3 c5 =>
        let x := packedVal b2
        let y := packedVal b3
        packedOk b2 && packedOk b3 && decide (y ≠ 0 ∧ (x.tdiv y).natAbs < capacity 1 ∧ c5.b.leave ≠ none ∧ c5.b.resume = 0)
          && met (writeOpnd o2 (packedBytes 1 (x.tmod y)) c5) fun _ c6 => met (writeOpnd o1 (packedBytes 1 (x.tdiv y)) c6) fun _ c7 =>
            retires (c7.withCc (signCc (x.tdiv y))) (12 + max 1 (sigDigits x.natAbs + 1 - sigDigits y.natAbs))) = true
    ∧ [(strict, (0x5FF : Word)), (plain, 0x03F)].all (fun (b, ctl) => let i := ins 5 0 (sp 4 3) (sp 0 8)
       starts 0x206 shapeSrpp i (withData [0x7C] [] (b.setG 8 ctl)) fun c => met (formOpnd i.word.opd1 1 [.load, .store] c) fun o c1 =>
        met (formOpnd i.word.opd2 8 [.load] c1) fun o2 c2 => met (readVal o2 8 c2) fun ctl c3 =>
          decide (ctl / 2 ^ 11 = 0 ∧ bitsOf ctl 8 3 ≤ 5 ∧ (sextInt 8 ctl).natAbs ≤ 63) && met (readPacked o 1 c3) fun x c4 =>
            let v := srppValue x (sextInt 8 ctl) (bitsOf ctl 8 3)
            decide (capacity 1 ≤ v.natAbs → c4.b.psw.dom = false)
              && met (writeOpnd o (packedBytes 1 v) (c4.withCc (packedCc 1 v))) fun _ c5 => retires c5 4) = true
    ∧ (let i := ins 5 0 (sp 4 3) 0
       starts 0x207 shapeTstp i (withData [0xA1] [] plain) fun c => met (formOpnd i.word.opd1 1 [.load] c) fun o c1 =>
        met (readOpnd o 1 c1) fun bs c2 =>
          retires (c2.withCc (BitVec.ofNat 2 (b2n ((splitPacked bs).1.any (fun d => decide (9 < d))) * 2 + b2n (!signOk (splitPacked bs).2))))
            2) = true := by decide +kernel

/-- DecimalConversions: -2^63 and one more than the greatest to binary; both ways between zoned and packed, of a signed and of an unsigned
source. -/
theorem wit_DecimalConversions :
    [((5 : BitVec 16), [(0x92 : Byte), 0x23, 0x37, 0x20, 0x36, 0x85, 0x47, 0x75, 0x80, 0x8D], strict),
      (5, [0x92, 0x23, 0x37, 0x20, 0x36, 0x85, 0x47, 0x75, 0x80, 0x8C], plain)].all (fun (_, y, b) => let i := ins 5 0x120 (sp 0 1) (sp 4 4)
      twoThenRead 0x208 shapeCvbp i (withData [] y b) 8 10 [.store] [.load] fun o bs c3 =>
        let v := packedVal bs
        packedOk bs && (!overflows 64 v || !c3.b.psw.fom)
          && met (writeVal o 8 (wrapInt 64 v) (c3.withCc (exactCc 64 v))) fun _ c4 => retires c4 8) = true
    ∧ [(strict, 1), (plain, 7)].all (fun (b, r) => let i := ins 5 0 (sp 4 3) (sp 0 r)
       twoThenRead 0x209 shapeCvdp i (live b) 1 8 [.store] [.load] fun o bs c3 =>
        let v := signed 64 (leNat bs)
        decide (capacity 1 ≤ v.natAbs → c3.b.psw.dom = false)
          && met (writeOpnd o (packedBytes 1 v) (c3.withCc (packedCc 1 v))) fun _ c4 => retires c4 10) = true
    ∧ [((0x20 : BitVec 16), [(0x31 : Byte), 0xD2]), (0x8020, [0x31, 0x32])].all (fun (len, y) => let i := ins 5 len (sp 4 3) (sp 4 4)
       twoThenRead 0x20A shapePack i (withData [] y plain) 1 2 [.store] [.load] fun o bs c3 =>
        let zoned := bs.map (fun b => b.toNat % 16)
        let sg := (bs.getLast?.map (fun b => b.toNat / 16)).getD 0
        let m : Int := if !lenFlag i.word.len && isMinus sg then -(digitsNat zoned : Int) else digitsNat zoned
        zoned.all (fun d => decide (d ≤ 9)) && (lenFlag i.word.len || signOk sg) && decide (capacity 1 ≤ m.natAbs → c3.b.psw.dom = false)
          && met (writeOpnd o (packedBytes 1 m) (c3.withCc (packedCc 1 m))) fun _ c4 => retires c4 (packCount i.word)) = true
    ∧ [((0x20 : BitVec 16), plain, [(0x01 : Byte), 0x2D]), (0x8020, strict, [0x00, 0x9C])].all (fun (len, b, y) => let i := ins 5 len (sp 4 3) (sp 4 4)
       twoThenRead 0x20B shapeUnpk i (withData [] y b) 1 2 [.store] [.load] fun o bs c3 =>
        let v := packedVal bs
        packedOk bs && decide (10 ^ 1 ≤ v.natAbs → c3.b.psw.dom = false)
          && met (writeOpnd o (zonedBytes 1 v (lenFlag i.word.len)) (c3.withCc (if 10 ^ 1 ≤ v.natAbs then 3 else signCc v))) fun _ c4 =>
            retires c4 (packCount i.word)) = true := by decide +kernel

/-! ## Floating point -/

/-- F1 = 1.5 and F2 = 3, with leave. -/
def floats : Bank := ((leave plain).setF 1 0x3FF8000000000000).setF 2 0x4008000000000000

/-- Every floating-point flag enabled. -/
def enabled (b : Bank) : Bank := { b with psw := { b.psw with fpe := 0x1F } }

/-- FloatArithmetic: exact results while every flag is enabled, but a quotient by 0 while none is. -/
theorem wit_FloatArithmetic :
    floatOps.all (fun a => [((1 : Nat), (1 : Nat), enabled floats), (1, 0, floats)].all fun (x, y, b) => let i := ins 7 0 (sp 2 x) (sp 2 y)
      starts a.2.1 shapeFp i (live b) fun c => met (formFp i.word c) fun (o, x, y) c1 =>
        let r := a.2.2 (ffmt 7) c1.b.psw.brm.toNat x y
        decide (r.2 &&& c1.b.psw.fpe.toNat = 0 ∧ (a.2.1 = 0x504 → c1.b.leave ≠ none) ∧ c1.b.resume = 0)
          && met (writeVal o 8 r.1 (c1.withFlags r.2)) fun _ c2 => retires c2 (if a.2.1 = 0x504 then 12 else 2)) = true := by decide +kernel

/-- FloatOthers, FMA and FSQRT: exact while every flag is enabled. -/
theorem wit_FloatOthers_fma_fsqrt :
    (let i := ins 7 0 (sp 2 1) (sp 2 2) (sp 2 1)
     starts 0x503 shapeFma i (live (enabled floats)) fun c => met (formOpnd i.word.opd1 8 [.load, .store] c) fun o1 c1 =>
      met (formOpnd i.word.opd2 8 [.load] c1) fun o2 c2 => met (formOpnd i.word.opd3 8 [.load] c2) fun o3 c3 =>
      met (readVal o1 8 c3) fun x c4 => met (readVal o2 8 c4) fun y c5 => met (readVal o3 8 c5) fun z c6 =>
        let f := ffmt 7
        let r := f.fma c6.b.psw.brm.toNat (f.decode x) (f.decode y) (f.decode z)
        decide (r.2 &&& c6.b.psw.fpe.toNat = 0) && met (writeVal o1 8 r.1 (c6.withFlags r.2)) fun _ c7 => retires c7 3) = true
    ∧ (let i := ins 7 0 (sp 2 3) (sp 2 0)
       starts 0x505 shapeFsqrt i (live (enabled floats)) fun c => met (formOpnd i.word.opd1 8 [.store] c) fun o1 c1 =>
        met (formOpnd i.word.opd2 8 [.load] c1) fun o2 c2 => met (readVal o2 8 c2) fun y c3 =>
          let r := (ffmt 7).sqrt c3.b.psw.brm.toNat ((ffmt 7).decode y)
          decide (c3.b.leave ≠ none ∧ c3.b.resume = 0 ∧ r.2 &&& c3.b.psw.fpe.toNat = 0)
            && met (writeVal o1 8 r.1 (c3.withFlags r.2)) fun _ c4 => retires c4 14) = true := by decide +kernel

/-- FloatOthers, FCMP and FCVT: compared; to an integer, from one, and between the two formats. -/
theorem wit_FloatOthers_fcmp_fcvt :
    (let i := ins 7 0x8000 (sp 2 1) (sp 2 2)
     starts 0x506 shapeFcmp i (live (enabled floats)) fun c => met (formOpnd i.word.opd1 8 [.load] c) fun o1 c1 =>
      met (formOpnd i.word.opd2 8 [.load] c1) fun o2 c2 => met (readVal o1 8 c2) fun x c3 => met (readVal o2 8 c3) fun y c4 =>
        let f := ffmt 7
        let fl := if anySnan [f.decode x, f.decode y] || (lenFlag i.word.len && anyNan [f.decode x, f.decode y]) then 1 else 0
        decide (fl &&& c4.b.psw.fpe.toNat = 0)
          && retires ((c4.withFlags fl).withCc (fcompareCc (fcompare (f.decode x) (f.decode y)))) 1) = true
    ∧ [ins 4 7 (sp 0 1) (sp 2 2), ins 7 4 (sp 2 3) (sp 0 1), ins 6 7 (sp 2 3) (sp 2 1)].all (fun i =>
       starts 0x507 (shapeFcvt i.word) i (live (enabled floats)) fun c =>
        met (formOpnd i.word.opd1 (fmtBytes i.word.fmt) [.store] c) fun o1 c1 =>
        met (formOpnd i.word.opd2 (fmtBytes (BitVec.ofNat 4 (bitsOf i.word.len.toNat 0 4))) [.load] c1) fun o2 c2 =>
        met (readVal o2 (fmtBytes (BitVec.ofNat 4 (bitsOf i.word.len.toNat 0 4))) c2) fun y c3 =>
          let r := convertTo i.word c3.b.psw.brm.toNat y
          decide (r.2 &&& c3.b.psw.fpe.toNat = 0)
            && met (writeVal o1 (fmtBytes i.word.fmt) r.1 (c3.withFlags r.2)) fun _ c4 => retires c4 2) = true := by decide +kernel

/-- FloatOthers, DOT: of no elements, of one and of two. -/
theorem wit_FloatOthers_dot :
    [0, 1, 2].all (fun n => let i := ins 7 8 (sp 2 1) (sp 0 3) (sp 0 4)
      starts 0x508 shapeDot i (live (floats.setG 8 n)) fun c =>
        let len := (c.b.getG (BitVec.ofNat 4 i.word.len.toNat)).toNat
        let k := min 256 len
        let a := c.b.getG (spBase i.word.opd2)
        let b := c.b.getG (spBase i.word.opd3)
        decide (c.b.resume = 0) &&
          if len = 0 then retires { c with b := c.b.setPsw { c.b.psw with ip := false } } 4
          else decide (256 < len → c.b.cont = false → c.b.leave ≠ none)
            && met (dotUnit .straight (ffmt 7) c.b.psw.brm.toNat 8 k a.toNat b.toNat ((c.b.getF (spBase i.word.opd1)).toNat % 2 ^ 64) 0 c) fun (v, fl) c1 =>
              met (dotCommit i.word k len a b v fl c1) fun _ c2 => retires c2 (4 + ceilDiv k 4)) = true := by decide +kernel

/-! ## Long strings -/

/-- The pairs G8 to G11. -/
def pairs (a la b lb : Word) : Bank := (((plain.setG 8 a).setG 9 la).setG 10 b).setG 11 lb

/-- LongStrings, MOVL: a unit that pads and completes, a unit of 256 bytes of 257, an empty one, and operands that overlap. -/
theorem wit_LongStrings_movl :
    [pairs 0x100000 3 0x100100 2, pairs 0x100000 257 0x100200 0, pairs 0x100000 0 0x100100 1].all (fun b => let i := ins 0 0x40 (sp 0 8) (sp 0 10)
      starts 0x300 shapeMovl i (live b) fun c => met (formPairs i.word c) fun x c1 => !x.overlaps && met (x.moveReach c1) fun r c2 =>
        let j := r.bytes
        let k := min j (min x.moveLen x.ls)
        r.exc.isNone && met (longRead x.ss x.gs k c2) fun bs c3 =>
          met (longWrite x.sd x.gd (bs ++ List.replicate (j - k) x.pad) c3) fun _ c4 =>
            let c5 := if 0 < x.moveLen then (c4.moved x.d j).moved x.r k else c4
            let c6 := if j = x.ld then c5.withCc (cmpCc x.ld x.ls) else c5
            retires ((c6.crossed (crossings x.moveOps j)).unitEnds (j == x.ld)) (countMove j)) = true
    ∧ (let i := ins 0 0 (sp 0 8) (sp 0 10)
       starts 0x300 shapeMovl i (live (pairs 0x100001 2 0x100000 2)) fun c => met (formPairs i.word c) fun x c1 =>
        x.overlaps && retires (c1.withCc 3) 3) = true := by decide +kernel

/-- The reach of a unit that raises nothing. -/
def reached (r : EStateM.Result Stop Cpu Reached) (stop : Bool) (k : Nat → Cpu → Bool) : Bool :=
  met r fun r c => r.exc.isNone && r.stop == stop && k r.bytes c

/-- LongStrings, CMPL: bytes that differ at once; operands that agree; operands of which a unit is not the whole. -/
theorem wit_LongStrings_cmpl :
    (let i := ins 0 0 (sp 0 8) (sp 0 10)
     starts 0x301 shapeMovl i (withData [1] [2] (pairs 0x100000 1 0x100100 1)) fun c => met (formPairs i.word c) fun x c1 =>
      reached (x.compareReach c1) true fun j c2 =>
        met (x.bothAt (j - 1) 1 ((c2.scanned x.d (min (j - 1) x.ld)).scanned x.r (min (j - 1) x.ls))) fun p c3 =>
          retires (((c3.withCc (differCc p)).crossed (crossings x.compareOps j)).unitEnds true) (countMove j)) = true
    ∧ [pairs 0x100000 2 0x100100 1, pairs 0x100000 257 0x100200 0].all (fun b => let i := ins 0 0 (sp 0 8) (sp 0 10)
       starts 0x301 shapeMovl i (live b) fun c => met (formPairs i.word c) fun x c1 => reached (x.compareReach c1) false fun j c2 =>
        let c3 := ((c2.scanned x.d (min j x.ld)).scanned x.r (min j x.ls)).crossed (crossings x.compareOps j)
        retires (if j = max x.ld x.ls then (c3.withCc 0).unitEnds true else c3.unitEnds false) (countMove j)) = true := by decide +kernel

/-- LongStrings, SRCH: found at the last byte; not found; not found in a unit that is not the whole. -/
theorem wit_LongStrings_srch :
    (let i := ins 0 7 (sp 0 8) 0
     starts 0x304 shapeSrch i (withData [1, 7] [] (pairs 0x100000 2 0 0)) fun c => met (formScan i.word c) fun y c1 =>
      reached (y.srchReach i.word c1) true fun j c2 => retires ((((c2.scanned y.r (j - 1)).withCc 1).crossed (crossings [(y.g, y.len)] j)).unitEnds true)
        (countMove j)) = true
    ∧ [2, 257].all (fun l => let i := ins 0 7 (sp 0 8) 0
       starts 0x304 shapeSrch i (live (pairs 0x100000 l 0 0)) fun c => met (formScan i.word c) fun y c1 =>
        reached (y.srchReach i.word c1) false fun j c2 =>
          let c3 := (c2.scanned y.r j).crossed (crossings [(y.g, y.len)] j)
          retires (if j = y.l then (c3.withCc 2).unitEnds true else c3.unitEnds false) (countMove j)) = true := by decide +kernel

/-- LongStrings, TRL and TRTL: a translation; a scan that stops at its last byte, and one that finds no function. -/
theorem wit_LongStrings_tables :
    (let i := ins 0 0 (sp 0 8) (sp 0 4)
     starts 0x302 shapeTrl i (withData [1] [] (pairs 0x100000 2 0 0)) fun c => met (formTable i.word c) fun f c1 =>
      met (f.trlReach c1) fun r c2 => r.exc.isNone && met (f.functions 0 r.bytes c2) fun bs c3 => met (longWrite f.x.sp f.x.g bs c3) fun _ c4 =>
        retires (((c4.scanned f.x.r r.bytes).crossed (crossings [(f.x.g, f.x.len)] r.bytes)).unitEnds (r.bytes == f.x.l)) (countTable r.bytes)) = true
    ∧ (let i := ins 0 0 (sp 0 8) (sp 0 4) (sp 0 1)
       starts 0x303 shapeTrtl i (withData [0, 1] [0, 9] (pairs 0x100000 2 0 0)) fun c => met (formTable i.word c) fun f c1 =>
        reached (f.trtlReach c1) true fun j c2 => met (f.functions (j - 1) 1 c2) fun bs c3 =>
          retires (((((c3.scanned f.x.r (j - 1)).withG (spBase i.word.opd3) (BitVec.ofNat 64 (leNat (bs.take 1)))).withCc
            (if j = f.x.l then 2 else 1)).crossed (crossings [(f.x.g, f.x.len)] j)).unitEnds true) (countTable j)) = true
    ∧ (let i := ins 0 0 (sp 0 8) (sp 0 4) (sp 0 1)
       starts 0x303 shapeTrtl i (live (pairs 0x100000 2 0 0)) fun c => met (formTable i.word c) fun f c1 =>
        reached (f.trtlReach c1) false fun j c2 =>
          let c3 := (c2.scanned f.x.r j).crossed (crossings [(f.x.g, f.x.len)] j)
          retires (if j = f.x.l then (c3.withCc 0).unitEnds true else c3.unitEnds false) (countTable j)) = true := by decide +kernel

/-- EditsUnit: no pattern; and a pattern of a digit place and a message byte, of EDIT and of EDMK. -/
theorem wit_EditsUnit :
    [(false, (0x305 : BitVec 12)), (true, 0x306)].all (fun (isMark, op) => let i := ins 0 0 (sp 0 8) (sp 0 10) (sp 0 1)
      (starts op (shapeEdit isMark) i (live (pairs 0x100000 0x100200 0x100100 0)) fun c => met (formEdit isMark i.word c) fun x c1 =>
        x.isNone && retires (c1.withCc 0) 4)
      && starts op (shapeEdit isMark) i ((withData [] [0xF0, 0x2E] (pairs 0x100000 0x100200 0x100100 2)).poke 0x100200 [0x1C]) fun c =>
        met (formEdit isMark i.word c) fun x c1 => match x with
          | none => false
          | some x => met (editUnit x.f (!c1.b.psw.rf) (min 64 x.start.gl.toNat) { done := 0, st := x.start, out := [] } c1) fun (a, e) c2 =>
              e.isNone && met (x.store a (c2.crossed a.cross)) fun _ c3 =>
                retires ((x.left i.word a.st c3).unitEnds (a.st.gl == 0)) (4 + a.done)) = true := by decide +kernel

/-! ## The ledger -/

/-- Ring 0 of 32 records at 0x500000, whose table is at 0x400000, with a head, the last durable record and FAULT; and the bytes of two
balances, of a posting of +1 in a limit mode, and of a context block. -/
def ledger (head durable fault lmode : Nat) (ba bk : Byte) (b : Bank) : State :=
  ((((withData [ba] [bk] b).setReg Slot.chm1 Off.CHM1.JRTBASE 0x400000).poke 0x400000
    (leBytes 8 0x500000 ++ leBytes 8 (49 + fault * 2) ++ leBytes 8 head ++ leBytes 8 0 ++ leBytes 8 durable)).poke 0x10020F [0x1C]).poke
      0x100210 [BitVec.ofNat 8 lmode]

/-- LedgerInstructions, POST: one that posts, and each that does not. -/
theorem wit_LedgerInstructions_post :
    [(0, 2 ^ 64 - 1, 0, (0x5C : Byte), (0x3C : Byte), (0 : BitVec 2)), (0, 2 ^ 64 - 1, 0, 0x5C, 0x9C, 2), (0, 2 ^ 64 - 1, 1, 0x0C, 0x3C, 1),
      (32, 31, 0, 0x5C, 0x3C, 3)].all (fun (head, durable, lmode, ba, bk, out) =>
      let i := ins 5 0 (sp 4 3) (sp 4 4) (sp 4 8)
      starts 0x400 shapePost i (ledger head durable 0 lmode ba bk (leave (plain.setG 8 0x100200))) fun c =>
        met (formPost i.word c) fun f c1 =>
          if out = 1 ∨ out = 2 then f.outcome (c1.s.ring 0) i.word == out && retires (c1.leaveBack.released.withCc out) 48
          else met (claimRing f.x.ring c1) fun e c2 => f.outcome e i.word == out && if out = 3 then retires (c2.leaveBack.released.withCc 3) 48
            else match f.o3 with
              | .mem ps =>
                met (appendRecord f.x.ring (f.record e.head c2.b c2.latch) c2) fun _ c3 =>
                met (writePieces f.p1 (packedBytes (lenL1 i.word.len) f.debit) c3) fun _ c4 =>
                met (writePieces f.p2 (packedBytes (lenL2 i.word.len) f.credit) c4) fun _ c5 =>
                met (writePieces (subPieces ps 0x18 8) (leBytes 8 e.head) c5) fun _ c6 =>
                  retires (Cpu.withCc (Cpu.released { c6 with s := c6.s.drainFree c2.b.ctx }) 0) 48
              | _ => false) = true := by decide +kernel

/-- LedgerInstructions, JAPP: the shortest and the longest payload, and a full ring. -/
theorem wit_LedgerInstructions_japp :
    [((1 : BitVec 16), 0, 2 ^ 64 - 1), (68, 0, 2 ^ 64 - 1), (1, 32, 31)].all (fun (len, head, durable) =>
      let i := ins 0 len (sp 0 1) (sp 3 0 0) (sp 4 3)
      starts 0x401 shapeJapp i (ledger head durable 0 0 1 1 plain) fun c => met (formOpnd i.word.opd1 8 [] c) fun o1 c1 =>
        met (ringOperand i.word.opd2 c1) fun r c2 => decide (r < 4096) && met (formOpnd i.word.opd3 len.toNat [.load] c2) fun o3 c3 =>
        met (checkRing false r c3.drained) fun _ c4 => met (readOpnd o3 len.toNat c4) fun bs c5 => met (claimRing r c5) fun e c6 =>
          if e.full then retires (c6.released.withCc 3) (24 + ceilDiv len.toNat 32)
          else let p := bs ++ zeros (68 - len.toNat)
            met (appendRecord r (recordBody e.head c6.latch (p.take 64) (recordStatus (leNat (p.drop 64)) 2 c6.b.psw.key.toNat c6.b.ctx 0)) c6)
              fun _ c7 => met (writeVal o1 8 e.head c7) fun _ c8 => retires (c8.released.withCc 0) (24 + ceilDiv len.toNat 32)) = true := by
  decide +kernel

/-- LedgerInstructions, DURW: a durable record, one not appended, and one on a ring whose journal has failed. -/
theorem wit_LedgerInstructions_durw :
    [((0 : Word), (0 : BitVec 2)), (2, 1), (1, 2)].all (fun (n, cc) => let i := ins 0 0 (sp 0 1) (sp 3 0 0)
      starts 0x402 shapeDurw i (ledger 2 0 1 0 0 0 (plain.setG 1 n)) fun c => met (formOpnd i.word.opd1 8 [] c) fun o1 c1 =>
        met (readVal o1 8 c1) fun n c2 => met (ringOperand i.word.opd2 c2) fun r c3 => met (checkRing true r c3) fun _ c4 => met (ringNow true r c4) fun e c5 =>
          decide (r < 4096) && decide (0 ≤ seqDiff e.durable n ∨ seqDiff e.head n ≤ 0 ∨ e.fault = true)
            && (if 0 ≤ seqDiff e.durable n then 0 else if seqDiff e.head n ≤ 0 then 1 else 2) == cc && retires (c5.withCc cc) 2) = true := by
  decide +kernel

/-! ## Events and queues -/

/-- The same bank with pending events. -/
def pending (e : BitVec 4) (b : Bank) : Bank := { b with evpend := e }

/-- EventInstructions, WAIT: each class pending, a deadline that has passed, and nothing to take. -/
theorem wit_EventInstructions_wait :
    [((15 : Word), (1 : BitVec 4), true), (31, 0, true), (15, 0, false), (1, 2, false)].all (fun (m, e, some') => let i := ins 0 0 (sp 0 1) (sp 0 0)
      starts 0x700 shapeWait i (live (pending e (plain.setG 1 m))) fun c =>
        let m := (c.b.getG (spBase i.word.opd1)).toNat
        decide (m ≠ 0 ∧ m < 32) && met (takeEvents m [0, 1, 3, 2] 0 c) fun r c1 =>
          let r' := if bitAt m 4 && decide ((c1.b.getG (spBase i.word.opd2)).toNat ≤ c1.latch) then r + 16 else r
          (r' != 0) == some'
            && (r' == 0 || retires ((c1.withG (spBase i.word.opd1) (BitVec.ofNat 64 r')).withCc 0) 3)) = true := by decide +kernel

/-- A context directory at 0x600000 in which context 5 is resident with its block at 0x700000, and wake group 0xFFF in use. -/
def directory (s : State) : State :=
  ((((s.setReg Slot.grt Off.GRT.CDBASE 0x600000).setReg Slot.grt Off.GRT.WGBASE 0x680000).poke 0x6000A0 (leBytes 8 0x700000)).poke 0x6000B8 [4]).poke
    (0x680000 + 0xFFF * 32) [1]

/-- EventInstructions, SIGNAL of a wake group, of a context, and of a target that does not exist; and FENCE. -/
theorem wit_EventInstructions_signal :
    [((0x8000 : BitVec 16), (0xFFF : Word), true), (0x8000, 0, false), (0, 5, true), (0, 0xFFFFF, false)].all (fun (len, v, found) =>
      let i := ins 0 len (sp 0 1) 0
      starts 0x701 shapeSignal i (directory (live (plain.setG 1 v))) fun c => met (formOpnd i.word.opd1 8 [] c.drained) fun o c1 =>
        met (readVal o 8 c1) fun v c2 =>
          if lenFlag i.word.len then decide (v < 4096) && bitAt (c2.s.ld (c2.s.wgAt v) 8) 0 == found
            && retires (if found then Cpu.withCc { c2 with after := c2.after ++ [.signalGroup v] } 0 else c2.withCc 1) 2
          else decide (v < 2 ^ 20) && (c2.s.st (BitVec.ofNat 20 v) != St.unused) == found
            && retires (if found then Cpu.withCc { c2 with after := c2.after ++ [.signalCtx (BitVec.ofNat 20 v)] } 0 else c2.withCc 1) 2) = true
    ∧ (starts 0x706 shapeFence (ins 0 0 0 0) (live plain) fun c => retires c.drained 1) = true := by decide +kernel

/-- A queue state: its receive ring of 4 KiB at 0x800000 and its transmit ring at 0x810000, the producer of each and RXTAIL, with OWNER and
TXOWN; active. -/
def queueState (own : Bool) (rxProd txProd : Nat) : List Byte :=
  leBytes 8 0x800000 ++ leBytes 8 (12 + 8 * 2 ^ 6 + b2n own * 2 ^ 13 + 2 ^ 63) ++ leBytes 8 rxProd ++ zeros 16
    ++ leBytes 8 (4 + b2n own * 2 ^ 10) ++ leBytes 8 txProd ++ zeros 8 ++ leBytes 8 0x810000

/-- The machine with Chimney, and the state of queue 3. -/
def queued (qs : List Byte) (b : Bank) : State :=
  ((operating [Slot.chm0, Slot.chm1] (directory (live b))).setReg Slot.chm1 Off.CHM1.QSBASE 0x900000).poke (0x900000 + 3 * 128) qs

/-- QueueInstructions, RECV: of a message, of an empty queue, and of one that software owns. -/
theorem wit_QueueInstructions_recv :
    [(queueState false 1 0, (0 : BitVec 2)), (queueState false 0 0, 1), (queueState true 1 0, 2), (zeros 128, 2)].all (fun (qs, cc) =>
      let i := ins 0 0 (sp 3 0 3) 0
      starts 0x703 shapeRecv i ((queued qs plain).poke 0x80002C [1]) fun c => met (formOpnd i.word.opd1 8 [] c) fun o c1 =>
        met (readVal o 8 c1) fun q c2 => decide (q < 524288) && met (claimQueue q c2) fun _ c2' => met (readQueue q c2') fun v0 c3 =>
        met (checkQueueKey q v0 c3) fun _ c4 =>
        met (readQueue q { c4 with s := if c4.b.msg.v then c4.s.releaseMsg c4.b.ctx c4.b.msg else c4.s }) fun v c5 =>
          let n := c5.s.passSkips v (qSlots v) (qRxNext v)
          let w := qPut v 0x18 8 n
          let h := qSlotAt w n
          let none' : Msg := { c4.b.msg with v := false }
          let shut := !qActive v || qSizeExp v == 0 || qOwner v || c5.s.mirrorNames q
          (if shut then 2 else if n = qRxProd w then 1 else 0) == cc
            && retires (if shut then Cpu.withCc { c5 with b := c5.b.setMsg none' } 2
              else if n = qRxProd w then Cpu.withCc { c5 with s := c5.s.setQueue q w, b := c5.b.setMsg none' } 1
              else
                let got : Msg := { buf := BitVec.ofNat 64 (h + 64 + c5.s.ld (h + 0x0A) 2),
                                   len := BitVec.ofNat 16 (c5.s.ld (h + 0x08) 2 - c5.s.ld (h + 0x0A) 2), queue := BitVec.ofNat 19 q, v := true }
                let s6 := ((c5.s.devWrite (h + 0x0C) (leBytes 2 (c5.s.hdrFlags h ||| 2))).devWrite (h + 0x20) (leBytes 4 c5.b.ctx.toNat)).setQueue q
                  (qPut w 0x18 8 ((n + c5.s.hdrSlots h) % 2 ^ 64))
                Cpu.withCc { c5 with s := s6, b := c5.b.setMsg got } 0).released 4) = true := by decide +kernel

/-- QueueInstructions, SEND: one with a free descriptor with and without a current message, one of a full queue and one of a queue that is
not active. -/
theorem wit_QueueInstructions_send :
    [(queueState false 0 0, (0 : BitVec 2), false), (queueState false 0 15, 0, true), (queueState false 0 16, 1, false), (zeros 128, 2, false)].all
      (fun (qs, cc, msg) => let i := ins 0 0 (sp 3 0 3) (sp 4 3) (sp 0 2)
      starts 0x702 shapeSend i (queued qs (plain.setMsg { buf := 0x800040, len := 64, queue := 3, v := msg })) fun c =>
        met (formOpnd i.word.opd3 8 [] c) fun o3 c1 => met (readVal o3 8 c1) fun n c2 => met (formOpnd i.word.opd1 8 [] c2) fun o1 c3 =>
        met (readVal o1 8 c3) fun q c4 => decide (q < 524288 ∧ n ≠ 0 ∧ n ≤ 65535) && met (formAddress i.word.opd2 n c4) fun p c5 =>
        met (sendPieces p.via n none 0 true (p.parts.flatMap (fun (a, k) => pieces a k)) c5) fun pa c6 =>
          pa.isSome && met (claimQueue q c6) fun _ c6' => met (readQueue q c6') fun v c7 => met (checkQueueKey q v c7) fun _ c7 =>
          let shut := !qActive v || qDexp v == 0 || qTxOwn v || c7.s.mirrorNames q || (qTxMode v == 1 && !c7.b.msg.v)
          (if shut then 2 else if seqSub (qTxProd v) (qTxCons v) = 2 ^ qDexp v then 1 else 0) == cc
            && if cc ≠ 0 then retires (c7.withCc cc).released 6
              else met (if c7.b.msg.v then readQueue c7.b.msg.queue.toNat c7 else .ok 0 c7) fun mv c8 =>
                let h := msgHeader mv c7.b.msg.buf.toNat
                let r := if c7.b.msg.v && c8.s.releasable h c7.b.ctx then h else 0
                let d := sendDesc (pa.getD 0) n (bitAt i.word.len.toNat 0) (qTxMode v == 1) r
                met (readQueue q { c8 with s := c8.drained.s.devWrite (qDescAt v (qTxProd v)) d }) fun v' c9 =>
                  retires (Cpu.withCc { c9 with s := c9.s.setQueue q (qPut v' 0x30 8 (qTxProd v' + 1)), b := c9.b.setMsg { c7.b.msg with v := false } }
                    0).released 6) = true := by decide +kernel

/-- PinsSamplesKeys, PIN and UNPIN: within the limits, over one, and taken away. -/
theorem wit_PinsSamplesKeys_pin :
    [((31 : BitVec 16), (0 : Nat), (0 : BitVec 2)), (31, 33, 1), (0x801F, 33, 0)].all (fun (len, held, cc) => let i := ins 0 len (sp 4 3) 0
      starts 0x704 shapePin i (live { plain with pins := List.range held }) fun c => met (formAddress i.word.opd1 1 c) fun p c1 =>
        met (pinLines (p.addr / 64 * 64) 32 c1) fun ls c2 =>
          let full := decide (64 < c2.b.pins.length + 32 ∨ 512 < c2.s.pinsOf c2.b.stove.toNat + 32)
          (lenFlag len || (if full then 1 else 0) == cc)
            && retires (if lenFlag len then Cpu.withCc { c2 with b := { c2.b with pins := c2.b.pins.filter (fun l => !ls.contains l) } } 0
              else if full then c2.withCc 1
              else Cpu.withCc { c2 with b := { c2.b with pins := ls.foldl (fun ps l => if ps.contains l then ps else ps ++ [l]) c2.b.pins } } 0) 3)
        = true := by decide +kernel

/-- PinsSamplesKeys, SAMPLE: each of its six sources. -/
theorem wit_PinsSamplesKeys_sample :
    ([0, 5].all fun src => let i := ins 0 src (sp 0 1) 0
      starts 0x705 (shapeSample true) i (live plain) fun c =>
        let v := if bitsOf src.toNat 0 4 = 0 then c.s.tod else c.b.evpend.toNat
        retires (Cpu.withCc (Cpu.withG { c with vol := c.vol ++ [(none, v)] } 1 (BitVec.ofNat 64 v)) 0) 2) = true
    ∧ ([(1, queueState false 1 0), (2, queueState false 1 0), (1, zeros 128)].all fun ((src, qs) : Nat × List Byte) =>
      let i := ins 0 (BitVec.ofNat 16 src) (sp 0 1) (sp 3 0 3)
      starts 0x705 (shapeSample false) i (queued qs plain) fun c => met (formOpnd i.word.opd2 8 [] c) fun o c1 => met (readVal o 8 c1) fun q c2 =>
        met (sampleQueue src q c2) fun x c3 =>
          retires (Cpu.withCc (Cpu.withG { c3 with vol := c3.vol ++ [(none, x.getD 0)] } 1 (BitVec.ofNat 64 (x.getD 0)))
            (if x.isSome then 0 else 2)) 2) = true
    ∧ ([3, 4].all fun src => let i := ins 0 (BitVec.ofNat 16 src) (sp 0 1) (sp 3 0 0)
      starts 0x705 (shapeSample false) i (ledger 2 0 0 0 0 0 plain) fun c => met (formOpnd i.word.opd2 8 [] c) fun o c1 =>
        met (readVal o 8 c1) fun q c2 => decide (q < 4096) && met (checkRingBy (ringRead q) q c2) fun _ c3 =>
        met (ringRead q c3) fun e c4 =>
          let v := if src = 3 then e.durable else e.head
          retires (Cpu.withCc (Cpu.withG { c4 with vol := c4.vol ++ [(none, v)] } 1 (BitVec.ofNat 64 v)) 0) 2) = true := by decide +kernel

/-- PinsSamplesKeys, SETKEY with leave, and TESTKEY of a frame that is reached and of an address that is not. -/
theorem wit_PinsSamplesKeys_keys :
    (let i := ins 0 3 (sp 0 3) (sp 3 0 31)
     let f := 0x100000
     starts 0x800 shapeSetkey i (live (leave plain)) fun c => met (formOpnd i.word.opd2 1 [] c.drained) fun o c1 => met (readVal o 8 c1) fun v c2 =>
      decide ((c.b.getG (spBase i.word.opd1)).toNat / 4096 * 4096 = f ∧ f / 2 ^ 48 = 0 ∧ c.drained.s.ordinary f = true
        ∧ c.drained.s.populated .load f = true ∧ v % 256 / 32 = 0 ∧ c.drained.s.inVault f = false ∧ c2.b.leave ≠ none)
        && met (reserve ((List.range 64).map (lineOf f + ·)) c2) fun _ c3 =>
          retires (Cpu.released (Cpu.withCc { c3 with s := c3.s.setKey f (v % 256) (bitAt i.word.len.toNat 0) (bitAt i.word.len.toNat 1) }
            (BitVec.ofNat 2 (c3.s.refChg f)))) 16) = true
    ∧ ([(3, true), (5, false)].all fun ((r, found) : Nat × Bool) => let i := ins 0 0 (sp 0 1) (sp 4 r)
      starts 0x801 shapeTestkey i (live plain) fun c => met (formAddress i.word.opd2 1 c) fun p c1 => met (testReach .load p.addr c1) fun pa c2 =>
        pa.isSome == found && if found then met (testReach .store p.addr c2) fun st c3 =>
          let key := c3.b.psw.key.toNat
          let outside := !c3.s.ordinary (pa.getD 0)
          let full := (if outside then 0 else c3.s.keyByte (pa.getD 0) + c3.s.refChg (pa.getD 0) * 2 ^ 8) + b2n outside * 2 ^ 10
          retires ((c3.withG 1 (BitVec.ofNat 64 (if c3.b.psw.sup then full else b2n outside * 2 ^ 10))).withCc
            (if !c3.s.keyPasses (pa.getD 0) key false then 2 else if st.isSome && c3.s.keyPasses (pa.getD 0) key true then 0 else 1)) 3
          else retires ((c2.withG 1 0).withCc 3) 3) = true := by decide +kernel

/-! ## Frames and returns -/

/-- What work leaves: its Cpu, and its value or the one given. -/
def cpuOf {α : Type} : EStateM.Result Stop Cpu α → Cpu
  | .ok _ c => c
  | .error _ c => c

def valOf {α : Type} (d : α) : EStateM.Result Stop Cpu α → α
  | .ok a _ => a
  | .error _ _ => d

theorem met_eq {α : Type} {r : EStateM.Result Stop Cpu α} {k : α → Cpu → Bool} (d : α) (h : met r k = true) :
    r = .ok (valOf d r) (cpuOf r) ∧ k (valOf d r) (cpuOf r) = true := by
  cases r with
  | ok a c => exact ⟨rfl, h⟩
  | error e c => cases h

/-- The Cpu in which an instruction starts. -/
def cpuAt (op : BitVec 12) (i : Issue) (b : Bank) (s : State) : Cpu := (cpuOf (fetchCheck (Cpu.start s b i.env.device))).withImage op i.word

/-- An instruction starts there, and the machine is as it was, while FSTEN is 0 and its context has no store in the buffer. -/
theorem starts_at {op : BitVec 12} {sh : Shape} {i : Issue} {s : State} {b : Bank} (h : starts op sh i s (fun _ => true) = true)
    (hb : s.boundTo i.stove i.flue = some b) (hk : s.flag Slot.key Off.KEY.KEYCTL 0 = false) (hs : s.ownStores b.ctx = []) :
    Starts op sh i s (cpuAt op i b s) ∧ (cpuAt op i b s).s = s := by
  obtain ⟨c, ⟨b', c', hr, ha, rfl⟩, -⟩ := starts_spec h
  obtain rfl : b' = b := Option.some.inj (hr.bound.symm.trans hb)
  have e : c' = cpuOf (fetchCheck (Cpu.start s b' i.env.device)) := by rw [hr.fetched]; rfl
  refine ⟨⟨b', c', hr, ha, by rw [e]; rfl⟩, ?_⟩
  show (cpuOf (fetchCheck (Cpu.start s b' i.env.device))).s = s
  rw [← e]
  obtain ⟨h1, h2⟩ := (fetchCheck_frame (by simp [Cpu.start]) hr.fetched).2 hs
  rw [h1, h2 hk]
  rfl

/-- Context 5 with a free frame at 0x740000, and a saved one there when `saved`. -/
def frames (saved : Bool) (b : Bank) : State :=
  ((directory (live b)).poke (if saved then 0x700B08 else 0x700B00) [0, 0, 0x74]).poke 0x740018 [5]

/-- FrameInstructions, SAVEH with no group to save, and of group 0. -/
theorem wit_FrameInstructions_saveh :
    (let i := ins 0 0x3C 0 0
     starts 0x600 shapeFrames i (frames false (bank [])) fun c => c.b.psw.ip == false
      && (if bitAt i.word.len.toNat 1 then selMask i.word.len else selMask i.word.len &&& c.b.dirty.toNat) == 0
      && retires (c.withCc 1) 4) = true
    ∧ (let i := ins 0 6 0 0
     starts 0x600 shapeFrames i (frames false plain) fun c => c.b.psw.ip == false && met (saveStart i.word c) fun x c1 => match x with
      | none => false
      | some x => met (saveGroups 7 ((maskGroups x.groups).filter (fun k => !bitAt x.done k)) 0 x c1) fun (g, y) c2 =>
        decide (g < 7) && met (saveFinish g y c2) fun _ c3 => retires c3 (framesCount c3.b g)) = true := by decide +kernel

/-- A frame's CHECK put into memory. -/
def withCheck (f : Nat) (w : Word) (s : State) : State :=
  { s with mem := (wordBytes w).zipIdx.foldl (fun m x => SMap.insert m (f + 0x20 + x.2) x.1) s.mem }

theorem withCheck_sealKey (f : Nat) (w : Word) (s : State) : (withCheck f w s).sealKey = s.sealKey := rfl

/-- It reads back there. -/
theorem check_read (f : Nat) (w : Word) (s : State) (rest : List Byte) :
    (((withCheck f w s).viewBytes [] f 64 ++ rest).drop 0x20).take 8 = wordBytes w := by
  generalize ht : withCheck f w s = t
  have hb : ∀ i < 8, t.byte (f + 32 + i) = ((wordBytes w)[i]?).getD 0 := by
    intro i hi
    obtain ⟨b0, b1, b2, b3, b4, b5, b6, b7, hw⟩ : ∃ b0 b1 b2 b3 b4 b5 b6 b7, wordBytes w = [b0, b1, b2, b3, b4, b5, b6, b7] :=
      ⟨_, _, _, _, _, _, _, _, rfl⟩
    rw [← ht, hw]
    simp only [withCheck, hw, State.byte, SMap.get, List.zipIdx_cons, List.zipIdx_nil, List.foldl_cons, List.foldl_nil, SMap.find?_insert]
    have : i = 0 ∨ i = 1 ∨ i = 2 ∨ i = 3 ∨ i = 4 ∨ i = 5 ∨ i = 6 ∨ i = 7 := by omega
    rcases this with rfl | rfl | rfl | rfl | rfl | rfl | rfl | rfl <;> simp
  have e : ((t.viewBytes [] f 64 ++ rest).drop 0x20).take 8 = (List.range 8).map (fun i => t.byte (f + 32 + i)) := rfl
  rw [e]
  rw [List.map_congr_left (fun i hi => hb i (List.mem_range.mp hi))]
  rfl

theorem check_pieces {f n : Nat} (w : Word) (s : State) (h : (pieces f n).head? = some (f, 64)) :
    (((pieces f n).flatMap fun x => (withCheck f w s).viewBytes [] x.1 x.2).drop 0x20).take 8 = wordBytes w := by
  cases hp : pieces f n with
  | nil => rw [hp] at h; cases h
  | cons x t =>
    rw [hp] at h
    cases h
    exact check_read f w s _

/-- A frame whose CHECK is the seal `v` of its bytes verifies, and one whose CHECK is one more does not. -/
theorem verifies_with {s : State} {ctx : BitVec 20} {bs : List Byte} {w v : Word} (hc : (bs.drop 0x20).take 8 = wordBytes w)
    (hs : s.sealOf ctx bs = v) : (w = v → s.verifies ctx bs = true) ∧ (w = v + 1 → s.verifies ctx bs = false) := by
  have e : wordAt bs 0x20 = w := by rw [wordAt, hc, leNat_wordBytes]
  rw [State.verifies, e, hs]
  exact ⟨fun h => by rw [h]; exact beq_self_eq_true _, fun h => by rw [h]; simp⟩

/-- A frame has the seal of another that has its key and its covered bytes. -/
theorem sealOf_congr {s t : State} {ctx : BitVec 20} {bs cs : List Byte} (hk : s.sealKey = t.sealKey) (h : coveredHeader bs = coveredHeader cs
    ∧ coveredParts bs = coveredParts cs ∧ bitAt (leNat (sliceBytes bs 0x10 8)) 16 = bitAt (leNat (sliceBytes cs 0x10 8)) 16) :
    s.sealOf ctx bs = t.sealOf ctx cs := by
  rw [State.sealOf, State.sealOf, hk, h.1, h.2.1, h.2.2]

/-- The machine with a saved frame that holds no group, and a CHECK. -/
def savedFrame (w : Word) : State := withCheck 0x740000 w (frames true plain)

/-- The seal of that frame. -/
def savedSeal : Word := (frames true plain).sealOf 5 ((frames true plain).bytes 0x740000 1024)

/-- Another value. -/
def otherSeal : Word := savedSeal + 1

/-- A RESTH there: its Cpu, that in which the head of the chain has been read, what is read of the frame, and the Cpu then. -/
def resth (w : Word) : Cpu := cpuAt 0x601 (ins 0 0 0 0) plain (savedFrame w)

def resth1 (w : Word) : Cpu := cpuOf (frLd (0x700000 + 0xB08) 8 (resth w))

def resthBytes (w : Word) : List Byte := valOf [] (frLdBytes 0x740000 1024 (resth1 w))

def resth2 (w : Word) : Cpu := cpuOf (frLdBytes 0x740000 1024 (resth1 w))

/-- What is decided of a frame address that a load of `n` bytes of context 5 reaches. -/
def readsAt (s : State) (ctx : BitVec 20) (a n : Nat) : Bool :=
  decide (bitAt (s.cxa ctx) 0 = false ∧ (s.ordinary a = true ∧ s.populated .load a = true) ∧ (s.keyLost a = false ∧ s.anyPoison a n = false)
    ∧ s.flag Slot.key Off.KEY.KEYCTL 0 = false)

theorem readsAt_spec {s : State} {ctx : BitVec 20} {a n : Nat} (h : readsAt s ctx a n = true) : FrameReads s ctx a n := by
  obtain ⟨h1, h2, h3, h4⟩ := of_decide_eq_true h
  exact ⟨h1, h2, h3, h4⟩

/-- What is decided of a Cpu that reads `n` bytes of a frame. -/
def frameReads (c : Cpu) (a n : Nat) : Bool :=
  readsAt c.s c.b.ctx a n && decide (c.replay = [] ∧ c.pass = .plain ∧ c.s.ownStores c.b.ctx = []) && (pieces a n).all (fun x => c.s.ordinary x.1)

theorem frameReads_spec {c c' : Cpu} {a n : Nat} {bs : List Byte} (h : frameReads c a n = true) (e : frLdBytes a n c = .ok bs c') :
    bs = (pieces a n).flatMap (fun x => c.s.viewBytes [] x.1 x.2) ∧ OnlyNoted c c' := by
  simp only [frameReads, Bool.and_eq_true, decide_eq_true_eq, List.all_eq_true] at h
  exact frLdBytes_eq (readsAt_spec h.1.1) h.1.2.1 h.1.2.2.1 h.1.2.2.2 h.2 e

theorem frLd_bytes {a n v : Nat} {c c' : Cpu} (h : frLd a n c = .ok v c') : ∃ bs, frLdBytes a n c = .ok bs c' := by
  unfold frLd at h
  rw [bind_run] at h
  split at h
  · cases h; exact ⟨_, ‹_›⟩
  · cases h

/-- What is decided of that RESTH. -/
def resthOk (w : Word) : Bool :=
  starts 0x601 shapeFrames (ins 0 0 0 0) (savedFrame w) (fun _ => true)
    && decide ((savedFrame w).boundTo 0 0 = some plain ∧ (savedFrame w).flag Slot.key Off.KEY.KEYCTL 0 = false ∧ (savedFrame w).ownStores 5 = [])
    && decide ((resth w).b.ctx = 5 ∧ (resth w).s.block 5 = 0x700000)
    && met (frLd (0x700000 + 0xB08) 8 (resth w)) (fun f _ => f == 0x740000) && met (frLdBytes 0x740000 1024 (resth1 w)) (fun _ _ => true)
    && frameReads (resth w) (0x700000 + 0xB08) 8 && frameReads (resth1 w) 0x740000 1024
    && decide (coveredHeader (resthBytes w) = coveredHeader ((frames true plain).bytes 0x740000 1024)
      ∧ coveredParts (resthBytes w) = coveredParts ((frames true plain).bytes 0x740000 1024)
      ∧ bitAt (leNat (sliceBytes (resthBytes w) 0x10 8)) 16 = bitAt (leNat (sliceBytes ((frames true plain).bytes 0x740000 1024) 0x10 8)) 16)

theorem resth_reads {w : Word} (h : resthOk w = true) :
    Starts 0x601 shapeFrames (ins 0 0 0 0) (savedFrame w) (resth w)
      ∧ frLd ((resth w).s.block (resth w).b.ctx + 0xB08) 8 (resth w) = .ok 0x740000 (resth1 w)
      ∧ frLdBytes 0x740000 1024 (resth1 w) = .ok (resthBytes w) (resth2 w)
      ∧ (w = savedSeal → (resth2 w).s.verifies (resth w).b.ctx (resthBytes w) = true)
      ∧ (w = otherSeal → (resth2 w).s.verifies (resth w).b.ctx (resthBytes w) = false) := by
  simp only [resthOk, Bool.and_eq_true, decide_eq_true_eq] at h
  obtain ⟨⟨⟨⟨⟨⟨⟨h1, hb, hk, ho⟩, hctx, hblk⟩, e1⟩, e2⟩, r1⟩, r2⟩, hc⟩ := h
  obtain ⟨hs, hst⟩ := starts_at h1 hb hk ho
  obtain ⟨e1, v1⟩ := met_eq 0 e1
  obtain ⟨e2, -⟩ := met_eq [] e2
  have v1 := eq_of_beq v1
  obtain ⟨bs1, f1⟩ := frLd_bytes e1
  have n1 := (frameReads_spec r1 f1).2
  obtain ⟨hbs, n2⟩ := frameReads_spec r2 e2
  have s1 : (resth1 w).s = savedFrame w := n1.same.trans hst
  have s2 : (resth2 w).s = savedFrame w := n2.same.trans s1
  refine ⟨hs, by rw [hctx, hblk, e1, v1]; rfl, e2, ?_⟩
  rw [hctx, s2]
  refine verifies_with (v := savedSeal) ?_ (sealOf_congr (withCheck_sealKey _ w _) hc)
  rw [show resthBytes w = _ from hbs, s1]
  exact check_pieces w _ (by decide +kernel)

theorem resthOk_saved : resthOk savedSeal = true := by decide +kernel

theorem resthOk_other : resthOk otherSeal = true := by decide +kernel

/-- What is decided of what a RESTH does with the frame `bs`, which it has read in `c`. -/
def restores (len : BitVec 16) (cb f : Nat) (bs : List Byte) (c : Cpu) : Bool :=
  let d := leNat (sliceBytes bs 0x10 8)
  decide (bitsOf d 17 2 = 0 ∧ bitAt d 19 = bitAt len.toNat 0 ∧ (bitAt d 16 && bitAt d 6 && bitAt (leNat (sliceBytes bs 0x280 16)) 127) = false)
    && met (restoreGroups 7 f bs ((maskGroups (selMask len &&& d)).filter (fun k => !bitAt (leNat (sliceBytes bs 0x28 8) % 256) k)) 0
        (leNat (sliceBytes bs 0x28 8) % 256) c) fun g c3 =>
      decide (g < 7) && met (restoreFree cb f c3) fun free c4 => met (restoreFinish cb f free bs c4) fun _ c5 => c5.next == .advance && c5.after == []

theorem restores_spec {len : BitVec 16} {cb f : Nat} {bs : List Byte} {c : Cpu} (h : restores len cb f bs c = true) :
    let d := leNat (sliceBytes bs 0x10 8)
    let restored := leNat (sliceBytes bs 0x28 8) % 256
    (bitsOf d 17 2 = 0 ∧ bitAt d 19 = bitAt len.toNat 0 ∧ (bitAt d 16 && bitAt d 6 && bitAt (leNat (sliceBytes bs 0x280 16)) 127) = false)
      ∧ ∃ g free c3 c4 c5 t,
        restoreGroups 7 f bs ((maskGroups (selMask len &&& d)).filter (fun k => !bitAt restored k)) 0 restored c = .ok g c3
          ∧ g < 7 ∧ restoreFree cb f c3 = .ok free c4 ∧ restoreFinish cb f free bs c4 = .ok () c5 ∧ c5.Retires (framesCount c5.b g) t := by
  simp only [restores, Bool.and_eq_true, decide_eq_true_eq] at h
  obtain ⟨k, h⟩ := h
  obtain ⟨g, c3, e3, h⟩ := met_spec h
  simp only [Bool.and_eq_true, decide_eq_true_eq] at h
  obtain ⟨hg, h⟩ := h
  obtain ⟨free, c4, e4, h⟩ := met_spec h
  obtain ⟨_, c5, e5, h⟩ := met_spec h
  simp only [Bool.and_eq_true, beq_iff_eq] at h
  obtain ⟨t, ht⟩ := retires_plain (n := framesCount c5.b g) h.1 h.2
  exact ⟨k, g, free, c3, c4, c5, t, e3, hg, e4, e5, ht⟩

theorem restores_saved : restores (ins 0 0 0 0).word.len ((resth savedSeal).s.block (resth savedSeal).b.ctx) 0x740000 (resthBytes savedSeal)
    (resth2 savedSeal) = true := by decide +kernel

/-- FrameInstructions, RESTH of a frame that verifies. -/
theorem wit_FrameInstructions_resth :
    ∃ (i : Issue) (s : State) (c c1 c2 c3 c4 c5 : Cpu) (f g free : Nat) (bs : List Byte) (t : State), Starts 0x601 shapeFrames i s c
      ∧ frLd (c.s.block c.b.ctx + 0xB08) 8 c = .ok f c1 ∧ f ≠ 0 ∧ frLdBytes f 1024 c1 = .ok bs c2
      ∧ c2.s.verifies c.b.ctx bs = true ∧ bitsOf (leNat (sliceBytes bs 0x10 8)) 17 2 = 0
      ∧ bitAt (leNat (sliceBytes bs 0x10 8)) 19 = bitAt i.word.len.toNat 0
      ∧ (bitAt (leNat (sliceBytes bs 0x10 8)) 16 && bitAt (leNat (sliceBytes bs 0x10 8)) 6 && bitAt (leNat (sliceBytes bs 0x280 16)) 127) = false
      ∧ restoreGroups 7 f bs ((maskGroups (selMask i.word.len &&& leNat (sliceBytes bs 0x10 8))).filter
          (fun k => !bitAt (leNat (sliceBytes bs 0x28 8) % 256) k)) 0 (leNat (sliceBytes bs 0x28 8) % 256) c2 = .ok g c3
      ∧ g < 7 ∧ restoreFree (c.s.block c.b.ctx) f c3 = .ok free c4 ∧ restoreFinish (c.s.block c.b.ctx) f free bs c4 = .ok () c5
      ∧ c5.Retires (framesCount c5.b g) t := by
  have h0 : 0x740000 ≠ 0 := by decide
  obtain ⟨hs, e1, e2, hv, -⟩ := resth_reads (w := savedSeal) resthOk_saved
  obtain ⟨⟨k1, k2, k3⟩, g, free, c3, c4, c5, t, e3, hg, e4, e5, ht⟩ := restores_spec restores_saved
  exact ⟨ins 0 0 0 0, savedFrame savedSeal, resth savedSeal, resth1 savedSeal, resth2 savedSeal, c3, c4, c5, 0x740000, g, free,
    resthBytes savedSeal, t, hs, e1, h0, e2, hv rfl, k1, k2, k3, e3, hg, e4, e5, ht⟩

/-- FrameInstructions, RESTH of no frame, and of a frame that does not verify. -/
theorem wit_FrameInstructions_resth_not :
    (starts 0x601 shapeFrames (ins 0 0 0 0) (frames false plain) fun c => met (frLd (c.s.block c.b.ctx + 0xB08) 8 c) fun f c1 =>
      f == 0 && retires (c1.withCc 1) 4) = true
    ∧ ∃ (i : Issue) (s : State) (c c1 c2 : Cpu) (f : Nat) (bs : List Byte), Starts 0x601 shapeFrames i s c
      ∧ frLd (c.s.block c.b.ctx + 0xB08) 8 c = .ok f c1 ∧ f ≠ 0 ∧ frLdBytes f 1024 c1 = .ok bs c2
      ∧ c2.s.verifies c.b.ctx bs = false := by
  refine ⟨by decide +kernel, ?_⟩
  have h0 : 0x740000 ≠ 0 := by decide
  obtain ⟨hs, e1, e2, -, hv⟩ := resth_reads (w := otherSeal) resthOk_other
  exact ⟨ins 0 0 0 0, savedFrame otherSeal, resth otherSeal, resth1 otherSeal, resth2 otherSeal, 0x740000, resthBytes otherSeal, hs, e1, h0, e2, hv rfl⟩

/-- FrameInstructions, SEALF of a save frame, of an exception frame and of a spill frame, each written by software. -/
theorem wit_FrameInstructions_sealf :
    [(0, 0), (2, 0x80), (1, 0x80)].all (fun (kind, mask) => let i := ins 0 0 (sp 4 3) 0
      starts 0x602 shapeFrame i ((live plain).poke 0x100010 (leBytes 8 (kind * 2 ^ 17 + mask) ++ [5])) fun c =>
        met (formAddress i.word.opd1 256 c) fun p c1 => met (readFrame p.via (p.addr + 0x10) 8 c1) fun hd c2 =>
          let k := bitsOf (leNat hd) 17 2
          let n := kindLen k
          k == kind && decide (k ≠ 3 ∧ p.addr % n = 0 ∧ inSpace p.addr n = true ∧ (p.via = .scratch → p.addr + n ≤ c1.s.block c1.b.ctx + 0x2000))
            && met (readFrame p.via p.addr n c2) fun bs c3 => frameClean k bs && frameClaims k bs
              && met (checkPieces [.store] p.via 32 none (pieces (p.addr + 0x10) 32) c3) fun ps c4 =>
                let d := leNat (sliceBytes bs 0x10 8)
                let fr := spliceBytes (spliceBytes bs 0x10 (leBytes 8 (putBits (putBits d 16 1 1) 8 8 d))) 0x28 (zeros 8)
                met (awaitLines ps c4) (fun _ c5 => decide (c5.s = c4.s ∧ c5.b = c4.b))
                  && met (writePieces ps (sliceBytes (c3.s.sealed (BitVec.ofNat 20 (leNat (sliceBytes bs 0x18 8))) fr) 0x10 32) c4) fun _ c5 =>
                    retires c5 6) = true := by decide +kernel

/-- An exception frame of software at 0x100000 for context 5 whose old PSW is at 0x9000 in user state, with a CHECK. -/
def softFrame : State := ((live plain).poke 0x100010 (leBytes 8 0x40080 ++ [5])).poke 0x100041 [0x90]

def returnState (w : Word) : State := withCheck 0x100000 w softFrame

/-- Its seal. -/
def returnSeal : Word := softFrame.sealOf 5 (softFrame.bytes 0x100000 256)

/-- Another value. -/
def otherReturnSeal : Word := returnSeal + 1

/-- A RETX of it: its Cpu, those in which its operand is formed and its frame checked and read, and what is read. -/
def retx : Issue := ins 0 0 (sp 4 3) 0

def returning (w : Word) : Cpu := cpuAt 0x603 retx plain (returnState w)

def framePlace : Place := { via := .logical, parts := [(0x100000, 256)] }

def framePieces : List Piece :=
  valOf [] (checkPieces [.load] .logical 256 none (pieces 0x100000 256) (returning 0))

def returning1 (w : Word) : Cpu := cpuOf (checkPieces [.load] .logical 256 none (pieces 0x100000 256) (returning w))

def returningBytes (w : Word) : List Byte := valOf [] (readPieces framePieces false (returning1 w))

def returning2 (w : Word) : Cpu := cpuOf (readPieces framePieces false (returning1 w))

/-- What is decided of it besides its CHECK. -/
def returningOk (w : Word) : Bool :=
  starts 0x603 shapeFrame retx (returnState w) (fun _ => true)
    && decide ((returnState w).boundTo 0 0 = some plain ∧ (returnState w).flag Slot.key Off.KEY.KEYCTL 0 = false
      ∧ (returnState w).ownStores 5 = [])
    && decide ((returning w).b.getG 3 = 0x100000 ∧ (returning w).b.ctx = 5 ∧ (returning w).pass = .plain)
    && met (checkPieces [.load] .logical 256 none (pieces 0x100000 256) (returning w)) (fun ps _ => ps == framePieces)
    && met (awaitLines framePieces (returning1 w)) (fun _ _ => true)
    && met (readPieces framePieces false (returning1 w)) (fun _ _ => true)
    && decide ((returning1 w).replay = [] ∧ (returning1 w).pass = .plain ∧ (returning1 w).s.ownStores (returning1 w).b.ctx = [])
    && framePieces.all (fun p => !p.own && (returning1 w).s.ordinary p.pa)
    && decide (coveredHeader (returningBytes w) = coveredHeader (softFrame.bytes 0x100000 256)
      ∧ coveredParts (returningBytes w) = coveredParts (softFrame.bytes 0x100000 256)
      ∧ bitAt (leNat (sliceBytes (returningBytes w) 0x10 8)) 16 = bitAt (leNat (sliceBytes (softFrame.bytes 0x100000 256) 0x10 8)) 16)

theorem framePieces_parts (s : State) :
    (framePieces.flatMap fun p => s.viewBytes [] p.pa p.len) = (pieces 0x100000 256).flatMap fun x => s.viewBytes [] x.1 x.2 := by
  have e : framePieces.map (fun p => (p.pa, p.len)) = pieces 0x100000 256 := by decide +kernel
  rw [← e, List.flatMap_map]

theorem formAddress_base {sp : BitVec 32} {n a : Nat} {c : Cpu} (hm : spMode sp = 4)
    (ha : addWrap (c.b.getG (spBase sp)).toNat (spDisp sp) = a) (hi : inSpace a n = true) :
    formAddress sp n c = .ok { via := .logical, parts := [(a, n)] } c := by
  have h9 : ¬(4 : Nat) = 9 := by decide
  unfold formAddress formPlace
  simp only [hm, h9, if_false, bind_run, getB_run, ha, hi, raiseIf_false (b := false) rfl, Bool.not_true, pure_run]

theorem returning_form {c : Cpu} (h : c.b.getG 3 = 0x100000) : formAddress retx.word.opd1 256 c = .ok framePlace c := by
  refine formAddress_base (by decide) ?_ (by decide)
  rw [show spBase retx.word.opd1 = 3 from by decide, h]
  decide

theorem returning_reads {w : Word} (h : returningOk w = true) :
    Starts 0x603 shapeFrame retx (returnState w) (returning w) ∧ formAddress retx.word.opd1 256 (returning w) = .ok framePlace (returning w)
      ∧ readFrame framePlace.via framePlace.addr 256 (returning w) = .ok (returningBytes w) (returning2 w)
      ∧ (w = returnSeal → (returning2 w).s.verifies (returning2 w).b.ctx (returningBytes w) = true)
      ∧ (w = otherReturnSeal → (returning2 w).s.verifies (returning2 w).b.ctx (returningBytes w) = false) := by
  simp only [returningOk, Bool.and_eq_true, decide_eq_true_eq, List.all_eq_true, Bool.not_eq_true'] at h
  obtain ⟨⟨⟨⟨⟨⟨⟨⟨h1, hb, hk, ho⟩, hg, hctx, hp⟩, e1⟩, e2⟩, e3⟩, hr, hp1, hs1⟩, h4⟩, hc⟩ := h
  obtain ⟨hs, hst⟩ := starts_at h1 hb hk ho
  obtain ⟨e1, v1⟩ := met_eq [] e1
  obtain ⟨_, c2, e2, -⟩ := met_spec e2
  have e2' := awaitLines_frame (by simp [hp1]) e2
  subst e2'
  obtain ⟨e3, -⟩ := met_eq [] e3
  obtain ⟨c3, r3, n3⟩ := readPieces_run framePieces false (returning1 w) hr hs1 h4
  have hbs : returningBytes w = framePieces.flatMap fun p => (returning1 w).s.viewBytes [] p.pa p.len :=
    congrArg (valOf []) r3
  have hc3 : returning2 w = c3 := congrArg cpuOf r3
  obtain ⟨m1, m2⟩ := checkPieces_frame _ _ _ _ _ _ _ _ e1
  have s1 : (returning1 w).s = returnState w := by
    have hs0 : (returning w).s = returnState w := hst
    have : (returning1 w).s.mem = (returnState w).mem := by rw [← hs0]; exact m2 (by rw [hs0]; exact hk)
    have k : (returning1 w).s = { (returning w).s with mem := (returning1 w).s.mem } := by
      have := congrArg Cpu.s m1
      exact this
    rw [k, this, hs0]
  have hb1 : (returning1 w).b.ctx = 5 := by
    have := congrArg (fun c => c.b.ctx) m1
    exact this.trans hctx
  refine ⟨hs, returning_form hg, ?_, ?_⟩
  · show readFrame .logical 0x100000 256 (returning w) = _
    unfold readFrame
    rw [bind_ok (e1.trans (by rw [eq_of_beq v1]))]
    have ha : awaitNeeded framePieces (returning1 w) = .ok () (returning1 w) := by
      unfold awaitNeeded
      simp only [bind_run, get_run, hp1, reduceCtorEq, if_false]
      exact e2
    exact (bind_ok ha).trans e3
  · rw [hc3, n3.same, show c3.b = (returning1 w).b from by rw [n3], hb1, s1]
    refine verifies_with (v := returnSeal) ?_ (sealOf_congr (withCheck_sealKey _ w _) hc)
    rw [hbs, s1, framePieces_parts]
    exact check_pieces w _ (by decide +kernel)

theorem returningOk_seal : returningOk returnSeal = true := by decide +kernel

theorem returningOk_other : returningOk otherReturnSeal = true := by decide +kernel

/-- What is decided of a RETX that reads `bs` in `c`. -/
def returns (bs : List Byte) (c : Cpu) : Bool :=
  let d := leNat (sliceBytes bs 0x10 8)
  let old := leNat (sliceBytes bs 0x40 16)
  let code := leNat (sliceBytes bs 0x50 8)
  let s2 := c.s.dropEmber c.b.ctx
  decide (bitsOf d 17 2 = 2 ∧ (bitAt d 16 = true → bitAt old 68 = false ∧ bitAt old 78 = false ∧ bitsOf code 12 2 = 0)
    ∧ pswLegal old = true ∧ bitAt code 12 = false ∧ s2.wantsRf c.b.ctx (Psw.ofNat old) = false) && c.after == []

theorem returns_seal : returns (returningBytes returnSeal) (returning2 returnSeal) = true := by decide +kernel

/-- ReturnsAndCalls, RETX from a frame that verifies. -/
theorem wit_ReturnsAndCalls_retx :
    ∃ (i : Issue) (s : State) (c c1 c2 : Cpu) (p : Place) (bs : List Byte), Starts 0x603 shapeFrame i s c
      ∧ formAddress i.word.opd1 256 c = .ok p c1 ∧ p.addr % 256 = 0 ∧ readFrame p.via p.addr 256 c1 = .ok bs c2
      ∧ bitsOf (leNat (sliceBytes bs 0x10 8)) 17 2 = 2 ∧ c2.s.verifies c2.b.ctx bs = true
      ∧ (bitAt (leNat (sliceBytes bs 0x10 8)) 16 = true → bitAt (leNat (sliceBytes bs 0x40 16)) 68 = false
        ∧ bitAt (leNat (sliceBytes bs 0x40 16)) 78 = false ∧ bitsOf (leNat (sliceBytes bs 0x50 8)) 12 2 = 0)
      ∧ pswLegal (leNat (sliceBytes bs 0x40 16)) = true ∧ bitAt (leNat (sliceBytes bs 0x50 8)) 12 = false
      ∧ (let old := leNat (sliceBytes bs 0x40 16)
         let s2 := c2.s.dropEmber c2.b.ctx
         let b2 := { c2.b with lis := if bitAt (leNat (sliceBytes bs 0x50 8)) 13 then some (lisOf bs) else none, resume := 0, saved := none }
         let broken : List Effect := if s2.wantsRf c2.b.ctx (Psw.ofNat old) && (Psw.ofNat old).dbg then [.refireBroken] else []
         ∃ t, (Cpu.goes { c2 with s := s2, b := b2, after := c2.after ++ broken } (.load (s2.loadRf b2.ctx (Psw.ofNat old)))).Retires 6 t) := by
  have h0 : framePlace.addr % 256 = 0 := by decide
  obtain ⟨hs, e1, e2, hv, -⟩ := returning_reads returningOk_seal
  have h := returns_seal
  generalize returning2 returnSeal = c2 at e2 hv h
  generalize returningBytes returnSeal = bs at e2 hv h
  simp only [returns, Bool.and_eq_true, decide_eq_true_eq, beq_iff_eq] at h
  obtain ⟨⟨h1, h2, h3, h4, h5⟩, ha⟩ := h
  refine ⟨retx, returnState returnSeal, returning returnSeal, returning returnSeal, c2, framePlace, bs, hs, e1, h0, e2, h1, hv rfl, h2, h3,
    h4, retires_quiet (fun k x => by cases x) ?_⟩
  show c2.after ++ _ = []
  simp only [h5, Bool.false_and, Bool.false_eq_true, if_false, ha, List.append_nil]

/-- ReturnsAndCalls, RETX from a frame that does not verify. -/
theorem wit_ReturnsAndCalls_retx_not :
    ∃ (i : Issue) (s : State) (c c1 c2 : Cpu) (p : Place) (bs : List Byte), Starts 0x603 shapeFrame i s c
      ∧ formAddress i.word.opd1 256 c = .ok p c1 ∧ p.addr % 256 = 0 ∧ readFrame p.via p.addr 256 c1 = .ok bs c2
      ∧ bitsOf (leNat (sliceBytes bs 0x10 8)) 17 2 = 2 ∧ c2.s.verifies c2.b.ctx bs = false := by
  have h0 : framePlace.addr % 256 = 0 := by decide
  have h1 : bitsOf (leNat (sliceBytes (returningBytes otherReturnSeal) 0x10 8)) 17 2 = 2 := by decide +kernel
  obtain ⟨hs, e1, e2, -, hv⟩ := returning_reads returningOk_other
  exact ⟨retx, returnState otherReturnSeal, returning otherReturnSeal, returning otherReturnSeal, returning2 otherReturnSeal, framePlace,
    returningBytes otherReturnSeal, hs, e1, h0, e2, h1, hv rfl⟩

/-- ReturnsAndCalls, SVC with the greatest code. -/
theorem wit_ReturnsAndCalls_svc :
    starts 0x604 shapeSvc (ins 0 0xFFFF 0 0) (live plain) (fun c =>
      let n := c.goes (.svc 0xFFFF)
      match (n.settle.s.putBank (n.settle.retired 6)).performAll n.b.ctx n.after with
      | .ok t => (t.bankOf n.b.ctx).isSome
      | .error _ => false) = true := by decide +kernel

/-! ## The Grate -/

/-- Context 5 in a state, with the banks listed. -/
def inState (st : Byte) (bs : List Bank) : State := { (directory (live plain)).poke 0x6000B8 [st] with banks := bs }

/-- ContextCommands: a command while one is BUSY; the Grate Quiesced and operating; each state of the context. -/
theorem wit_ContextCommands :
    (let s := (inState 1 []).setReg Slot.grt Off.GRT.CTXSTS 1
     s.admits .context = true ∧ s.inRst Slot.grt = false ∧ s.flag Slot.grt Off.GRT.CTXSTS 0 = true)
    ∧ (let s := (inState 1 []).setReg Slot.grt Off.PAGE.STS 1
       s.admits .context = true ∧ s.inRst Slot.grt = false ∧ s.flag Slot.grt Off.GRT.CTXSTS 0 = false ∧ s.blockOn Slot.grt = false)
    ∧ (∀ st ∈ [(0 : Byte), 1, 2, 3, 4, 5, 6], let s := inState st (if st = 4 then [plain] else [])
       (s.admits .north = true ∧ s.inRst Slot.grt = false ∧ s.flag Slot.grt Off.GRT.CTXSTS 0 = false ∧ s.blockOn Slot.grt = true)
        ∧ s.resv = [] ∧ s.st 5 = st.toNat ∧ (st = 4 → s.bankOf 5 = some plain) ∧ (st ≠ 4 → s.bankOf 5 = none)) := by decide +kernel

/-- ContextCommands: a resident context that may leave its bank, bound and unbound, and one that may not; and WGCMD. -/
theorem wit_ContextCommands_resident :
    (∀ b ∈ [plain, { plain with flue := none }], let s := inState 4 [b]
      s.bankOf 5 = some b ∧ s.mayLeave b = true ∧ s.halting.contains 5 = false)
    ∧ (let b := { plain with resume := 1 }
       (inState 4 [b]).bankOf 5 = some b ∧ (inState 4 [b]).mayLeave b = false)
    ∧ (let s := inState 1 []
       (s.admits .context = true ∧ s.inRst Slot.grt = false ∧ s.blockOn Slot.grt = true ∧ s.resv = [])
        ∧ s.flag Slot.key Off.KEY.KEYCTL 0 = false ∧ s.flag Slot.key Off.KEY.KEYCTL 1 = false) := by decide +kernel

/-- A bank of context `n` on flue 0, 1, 2 or 3, or unbound. -/
def other (n : BitVec 20) (slot : BitVec 5) (flue : Option (BitVec 2)) : Bank := { plain with ctx := n, slot := slot, flue := flue }

/-- SchedulerEvents, FLUE_BIND, TIME_SLICE_DUE at the last cycle of a slice, and PREEMPTION by a slice and by a priority. -/
theorem wit_SchedulerEvents_flues :
    (let s := { inState 4 [other 5 0 none] with order := { ready := [5], waiting := [], bound := [] } }
     s.stoveRuns 0 = true ∧ s.stoveAsked 0 = false ∧ s.boundTo 0 0 = none ∧ (s.openTiming 0 = true → (0 : BitVec 2) = 0) ∧ s.toBind 0 = some (other 5 0 none))
    ∧ (let b := { plain with slice := 128 }
       let s := ((inState 4 [b]).poke 0x6000A8 [8]).setReg (Slot.hrtB (hearthOf 0)) Off.HRTB.SCHEDCTL 2
       let t := s.fld (Slot.hrtB (hearthOf 0)) Off.HRTB.SCHEDCTL 0 16
       s.boundTo 0 0 = some b ∧ t ≠ 0 ∧ bitAt (s.sched b.ctx) 3 = true ∧ t * 64 ≤ b.slice)
    ∧ (let b := { plain with due := true }
       let s := inState 4 [b, other 6 1 none]
       s.bankOf 5 = some b ∧ b.flue.isSome = true ∧ s.mayLeave b = true ∧ s.stoveRuns b.stove = true
        ∧ b.due = true ∧ s.rival b (fun p => decide (s.prio 5 ≤ p)) = true)
    ∧ (let s := { ((inState 4 [other 5 0 (some 0), other 6 1 (some 1), other 7 2 (some 2), other 8 3 (some 3), other 9 4 none]).poke 0x600128 [1]).setReg
          (Slot.hrtB (hearthOf 0)) Off.HRTB.SCHEDCTL (2 ^ 16) with order := { ready := [9], waiting := [], bound := [5, 6, 7, 8] } }
       s.bankOf 5 = some (other 5 0 (some 0)) ∧ (other 5 0 (some 0)).flue.isSome = true ∧ s.mayLeave (other 5 0 (some 0)) = true ∧ s.stoveRuns 0 = true
        ∧ s.flag (Slot.hrtB (hearthOf 0)) Off.HRTB.SCHEDCTL 16 = true ∧ (s.ppreVictim 0).map (·.ctx) = some 5) := by decide +kernel

/-- SchedulerEvents, TIMER_ALARM and WAIT_DEADLINE at their times, and ALARM_TAKEN between instructions. -/
theorem wit_SchedulerEvents_alarms :
    (let s := ((inState 4 [plain]).poke 0x6000B0 [7]).setReg Slot.clk Off.CLK.TOD 7
     s.alarm 5 ≠ 0 ∧ s.alarm 5 ≤ s.tod ∧ s.routerQuiet = false)
    ∧ (let b := { plain with wait := some (.event 16 7) }
       let s := (inState 4 [b]).setReg Slot.clk Off.CLK.TOD 7
       s.bankOf 5 = some b ∧ bitAt (16 : BitVec 5).toNat 4 = true ∧ (7 : Word).toNat ≤ s.tod)
    ∧ (∀ leave ∈ [none, some 20000], let b := { plain with psw := { plain.psw with am := true }, leave := leave }
       let s := (inState 4 [b]).poke 0x700AC0 [0x22, 1]
       ((s.bankOf 5 = some b ∧ s.st 5 = St.resident) ∧ s.stoveRuns b.stove = true ∧ s.blockedStores b.ctx = [])
        ∧ (match s.alarmOf b, b.boundaryCost with
          | some r, some _ => r.slot == 7 && match fSt b.ctx (s.block b.ctx + 0x900 + 64 * r.slot) 8 (putBits r.hdr 8 1 0) s with
            | .ok _ _ => true
            | .error _ _ => false
          | _, _ => false) = true) := by decide +kernel

/-- The same for work on frames. -/
def metF {ε α : Type} (r : EStateM.Result ε State α) (k : α → State → Bool) : Bool :=
  match r with
  | .ok a s => k a s
  | .error _ _ => false

theorem metF_spec {ε α : Type} {r : EStateM.Result ε State α} {k : α → State → Bool} (h : metF r k = true) :
    ∃ a s, r = .ok a s ∧ k a s = true := by
  cases r with
  | ok a s => exact ⟨a, s, rfl, h⟩
  | error e s => cases h

/-- What is decided of a frame address that a store reaches. -/
def clearAt (s : State) (ctx : BitVec 20) (a : Nat) : Bool :=
  decide (bitAt (s.cxa ctx) 0 = false ∧ (s.ordinary a = true ∧ s.populated .store a = true) ∧ (s.flag Slot.key Off.KEY.KEYCTL 1 = false ∧ s.keyLost a = false)
    ∧ s.flag Slot.key Off.KEY.KEYCTL 0 = false)

theorem clearAt_spec {s : State} {ctx : BitVec 20} {a : Nat} (h : clearAt s ctx a = true) : FrameClear s ctx a := by
  obtain ⟨h1, h2, h3, h4⟩ := of_decide_eq_true h
  exact ⟨h1, h2, h3, h4⟩

/-- Context 5 resident with a free frame. -/
def spilling : State := { frames false plain with banks := [plain] }

/-- SpillsAndRefills, SPILL to a frame of the free chain. -/
theorem wit_SpillsAndRefills_spill :
    ∃ (ctx : BitVec 20) (s s1 : State) (b : Bank), s.bankOf ctx = some b ∧ s.st ctx = St.resident ∧ s.stoveRuns b.stove = true
      ∧ s.mayLeave b = true ∧ s.routerQuiet = false ∧ spillFrames b ((s.putBank b).drain b.ctx) = .ok true s1 := by
  have h : metF (spillTarget plain.ctx ((spilling.putBank plain).drain 5)) (fun t s1 => match t with
      | none => false
      | some t => t.free == some 0 && t.spill == some 0x740000 && !t.busy && t.addr == 0x740000
        && metF (fLd 5 (s1.block 5 + 0xB18) 8 s1) fun seq s2 => metF (frameAddr 5 (s1.block 5 + 0xB00) 0x28 true s2) fun _ s3 =>
          clearAt s3 5 0x740000 && clearAt s3 5 (s1.block 5 + 0xB18) && clearAt s3 5 (s1.block 5 + 0xB00) && clearAt s3 5 (s1.block 5 + 0xB10)
            && decide (s3.dirAt 5 + 8 ≤ 0x740000 ∧ s3.dirAt 5 + 8 ≤ s1.block 5)) = true := by decide +kernel
  obtain ⟨t, s1, e1, h⟩ := metF_spec h
  cases t with
  | none => cases h
  | some t =>
    simp only [Bool.and_eq_true, beq_iff_eq, Bool.not_eq_true'] at h
    obtain ⟨⟨⟨⟨hf, hs⟩, hb⟩, ha⟩, h⟩ := h
    obtain ⟨seq, s2, e2, h⟩ := metF_spec h
    obtain ⟨a, s3, e3, h⟩ := metF_spec h
    simp only [Bool.and_eq_true, decide_eq_true_eq] at h
    obtain ⟨⟨⟨⟨h1, h2⟩, h3⟩, h4⟩, d1, d2⟩ := h
    obtain ⟨s', e⟩ := spillFrames_run (b := plain) e1 hf hs hb e2 e3 (by rw [ha]; exact clearAt_spec h1) (clearAt_spec h2) (clearAt_spec h3)
      (clearAt_spec h4) (Or.inl (by rw [ha]; exact d1)) (Or.inl d2)
    have k : spilling.bankOf 5 = some plain ∧ spilling.st 5 = St.resident ∧ spilling.stoveRuns plain.stove = true
      ∧ spilling.mayLeave plain = true ∧ spilling.routerQuiet = false := by decide +kernel
    exact ⟨5, spilling, s', plain, k.1, k.2.1, k.2.2.1, k.2.2.2.1, k.2.2.2.2, e⟩

/-- Context 5 ready with a spill frame at 0x740000 and a CHECK. -/
def spilledBase : State :=
  { (((directory (live plain)).poke 0x6000B8 [2]).poke 0x6000A9 [1]).poke 0x740010 (leBytes 8 (2 ^ 17 + 0x80) ++ [5]) |>.poke 0x700B10
    [0, 0, 0x74] with banks := [] }

def spilled (w : Word) : State := withCheck 0x740000 w spilledBase

/-- The seal of that frame. -/
def spilledSeal : Word := spilledBase.sealOf 5 (spilledBase.bytes 0x740000 1024)

/-- A frame's CHECK is among its bytes. -/
theorem check_bytes (f : Nat) (w : Word) (s : State) : (((withCheck f w s).bytes f 1024).drop 0x20).take 8 = wordBytes w := by
  have h := check_read f w s []
  rw [List.append_nil] at h
  rw [← h]
  generalize withCheck f w s = t
  rfl

/-- What is decided of a refill of it. -/
def refills : Bool :=
  let s := spilled spilledSeal
  let bs := s.bytes 0x740000 1024
  let d := leNat (sliceBytes bs 0x10 8)
  decide ((s.st 5 = St.ready ∧ s.bankOf 5 = none ∧ s.routerQuiet = false) ∧ s.chooseHearth 5 = some 0 ∧ s.chooseStove 0 = some 0)
    && decide (s.block 5 = 0x700000 ∧ s.ld (0x700000 + 0xB10) 8 = 0x740000 ∧ bitsOf d 17 2 = 1 ∧ bitAt d 7 = true ∧ bitAt d 16 = false)
    && readsAt s 5 (0x700000 + 0xB10) 8 && readsAt s 5 (0x700000 + 0xB20) 8 && readsAt s 5 0x740000 1024
    && decide (coveredHeader bs = coveredHeader (spilledBase.bytes 0x740000 1024)
      ∧ coveredParts bs = coveredParts (spilledBase.bytes 0x740000 1024)
      ∧ bitAt d 16 = bitAt (leNat (sliceBytes (spilledBase.bytes 0x740000 1024) 0x10 8)) 16)

theorem refills_spilled : refills = true := by decide +kernel

theorem spilled_verifies :
    (coveredHeader ((spilled spilledSeal).bytes 0x740000 1024) = coveredHeader (spilledBase.bytes 0x740000 1024)
      ∧ coveredParts ((spilled spilledSeal).bytes 0x740000 1024) = coveredParts (spilledBase.bytes 0x740000 1024)
      ∧ bitAt (leNat (sliceBytes ((spilled spilledSeal).bytes 0x740000 1024) 0x10 8)) 16
        = bitAt (leNat (sliceBytes (spilledBase.bytes 0x740000 1024) 0x10 8)) 16) →
    (spilled spilledSeal).verifies 5 ((spilled spilledSeal).bytes 0x740000 1024) = true := fun e =>
  (verifies_with (v := spilledSeal) (check_bytes _ _ _) (sealOf_congr (withCheck_sealKey _ spilledSeal _) e)).1 rfl

/-- SpillsAndRefills, REFILL from a spill frame that verifies. -/
theorem wit_SpillsAndRefills_refill :
    ∃ (ctx : BitVec 20) (s s1 : State) (b : Bank) (q : Psw) (h n : Nat), s.st ctx = St.ready ∧ s.bankOf ctx = none ∧ s.routerQuiet = false
      ∧ s.chooseHearth ctx = some h ∧ s.chooseStove h = some n
      ∧ refillFrames ctx (BitVec.ofNat 6 n) (BitVec.ofNat 5 (s.freeSlot n)) (bitsOf (s.ctxState ctx) 15 4) s = .ok (.ok (b, false, q)) s1 := by
  have h := refills_spilled
  unfold refills at h
  have hv := spilled_verifies
  generalize spilled spilledSeal = s at h hv
  simp only [Bool.and_eq_true, decide_eq_true_eq] at h
  obtain ⟨⟨⟨⟨⟨⟨⟨h1, h2, h3⟩, h4, h5⟩, hb, hl, k1, k2, k3⟩, r1⟩, r2⟩, r3⟩, hc⟩ := h
  rw [← hb] at r1 r2 hl
  obtain ⟨b, q, e⟩ := refillFrames_run (stove := BitVec.ofNat 6 0) (slot := BitVec.ofNat 5 (s.freeSlot 0)) (ev := bitsOf (s.ctxState 5) 15 4)
    (readsAt_spec r1).fLd_here (readsAt_spec r2).fLd_here (by rw [hl]; rfl) (by rw [hl]; exact (readsAt_spec r3).fLdBytes_here) (hv hc) ⟨k1, k2⟩ k3
  exact ⟨5, s, s, b, q, 0, 0, h1, h2, h3, h4, h5, e⟩

/-! ## Microwords, leave, stores and lines -/

/-- Port 0 leads to a PCIe device. -/
def withDevice (s : State) : State := ((operating [Slot.fxp 0] s).setReg (Slot.fxp 0) Off.FXP.MODE 2).setReg (Slot.fxp 0) Off.FXP.LINK 1

/-- Completed work of a command that may stop. -/
def made (r : Except Fault State) : Bool :=
  match r with
  | .ok _ => true
  | .error _ => false

/-- A microword of opcode `op` withdrawn. -/
def withdrawn (op : BitVec 12) (i : Issue) (cause : WaitCause) (b : Bank) : Bank :=
  { b with wdrawn := some { op := op, word := i.word, cause := cause, trace := [], latch := none, upsets := [], began := false } }

/-- What is decided of a reissue: what the wait ended with, and how the instruction goes on. -/
def reissues (op : BitVec 12) (i : Issue) (s : State) (b : Bank) (dev : List Completion) (k : EStateM.Result Stop Cpu Nat → Bool) : Bool :=
  let body := bodyOf op i.word
  decide (b.psw.rf = false ∧ b.psw.dbg = false ∧ b.resume = 0 ∧ b.saved = none) && made (s.issueBank b body i.word { device := dev })
    && met (fetchCheck { Cpu.start s b dev with replay := [], latch := s.tod }) fun _ c =>
      decide (c.s.blockedStores c.b.ctx = []) && k (body.fetched i.word c)

/-- MicrowordsReissue: an ADD that waited for its instruction line, and a load from a device that has not answered. -/
theorem wit_MicrowordsReissue :
    (let i := ins 4 0 (sp 0 1) (sp 0 2)
     let b := withdrawn 0x010 i (.ext .fetch) plain
     let s := live b
     decide (s.bankOf 5 = some b ∧ s.boundTo 0 0 = some b ∧ s.stoveRuns 0 = true ∧ s.flueShut 0 0 = false ∧ b.wait = none)
      && reissues 0x010 i s b [] fun r => match r with
        | .ok n c => retires c n
        | .error _ _ => false) = true
    ∧ (let i := ins 4 0 (sp 0 1) (sp 4 8)
       let b := withdrawn 0x000 i (.ext .device) (plain.setG 8 0x10000000000)
       let s := withDevice (live b)
       let x : Withdrawn := { op := 0x000, word := i.word, cause := .ext .device, trace := [], latch := none, upsets := [], began := false }
       decide (s.bankOf 5 = some b ∧ s.stoveRuns b.stove = true ∧ b.wdrawn = some x ∧ s.awaitsCompletion b x = true)
        && reissues 0x000 i s b [.timeout] fun r => match r with
          | .error (.exc _) _ => true
          | _ => false) = true := by decide +kernel

/-- StoresAndGrants: a store over two lines and a modified line; the last line of a set and one before it; and leave at its exact cost. -/
theorem wit_StoresAndGrants :
    (let x : BufStore := { ctx := 5, stove := 0, addr := 0x10003F, bytes := [1, 2], old := false }
     let s : State := { live plain with stores := [x] }
     s.stores.find? (·.ctx == 5) = some x ∧ (linesTouched x.addr x.bytes.length).any (s.heldByOther 5) = false)
    ∧ (let m : ModLine := { line := 0x4000, mask := 1, bel := false, stove := 0, ctx := 5, addr := 0x100000, old := zeros 64 }
       let s : State := { live plain with dirty := [m] }
       s.dirty.find? (·.line == (0x4000 : BitVec 42).toNat) = some m ∧ s.lineHeld ((0x4000 : BitVec 42).toNat * 64) 1 = false
        ∧ s.nearStops ((0x4000 : BitVec 42).toNat * 64) 64 = false)
    ∧ (∀ rest ∈ [[], [0x4001]],
       let b := { plain with wait := some .reserved }
       let r : Resv := { ctx := 5, want := 0x4000 :: rest, held := [] }
       let s : State := { live b with resv := [r] }
       s.resv.find? (·.ctx == 5) = some r ∧ s.heldByOther 5 0x4000 = false ∧ s.bankOf 5 = some b ∧ b.wait = some .reserved)
    ∧ (let k : Bucket := { level := 20000, cap := 20000, queue := [.engine] }
       let s0 := live plain
       let s : State := { s0 with damper := s0.damper.set 8 k, mantel := { s0.mantel with granting := true } }
       s.damper[(8 : BitVec 4).toNat]? = some k ∧ s.mantel.granting = true ∧ ((LeaveReq.engine.cost : Int) ≤ k.level)) := by decide +kernel

/-! ## The care of stoves, and register pages -/

/-- The pages of the Mantel, of the Ember images and of a stove, out of reset. -/
def machine : State := operating [Slot.man, Slot.emb, Slot.sec, Slot.nmc, Slot.chm0, Slot.chm1, Slot.bel, Slot.grt, Slot.hrtA 0, Slot.hrtA 7, Slot.stv 0, Slot.stv 63,
  Slot.fxp 0, Slot.fxp 3] State.reset

/-- StoveCare: a locked stove and one that runs, stove 0 and stove 63. -/
theorem wit_StoveCare :
    (machine.admits .context = true ∧ (∀ slot ∈ [Slot.man, Slot.emb, Slot.stv 0, Slot.stv 63], machine.inRst slot = false))
    ∧ (∀ n ∈ [(0 : BitVec 6), 63], machine.flag (Slot.stv n.toNat) Off.STV.STATUS 0 = false
        ∧ (machine.setFlag (Slot.stv n.toNat) Off.STV.STATUS 0 true).flag (Slot.stv n.toNat) Off.STV.STATUS 0 = true
        ∧ machine.fld (Slot.stv n.toNat) Off.STV.STATUS 0 2 = 0 ∧ machine.stoveRuns n = true)
    ∧ (∀ upc ∈ [0, 0x3FFF], let page := Slot.stv 63
       let counted := (machine.incSat page Off.STV.EMBPAR 0 16 1).setFld page Off.STV.EMBPAR 16 14 upc
       let stopped := (counted.banks.filter (·.stove == 63)).foldl State.discardWork counted
       stopped.blockOn Slot.emb = true ∧ stopped.rekindles = []) := by decide +kernel

/-- QuiesceHandshake: a page of every block that can be Quiesced: its request, before and after the acknowledgement. -/
theorem wit_QuiesceHandshake :
    (∀ slot ∈ [Slot.sec, Slot.nmc, Slot.chm0, Slot.chm1, Slot.bel, Slot.grt, Slot.emb, Slot.hrtA 0, Slot.hrtA 7, Slot.stv 0, Slot.stv 63, Slot.fxp 0, Slot.fxp 3],
      let n := (BitVec.ofNat 8 slot).toNat
      let s := machine.setFlag n Off.PAGE.CTL 1 true
      let s' := s.setFlag n Off.PAGE.STS 0 true
      quiescesSlot n = true ∧ (s.admits .north = true ∧ s.qreq n = true ∧ s.flag n Off.PAGE.STS 0 = false)
        ∧ (s'.admits .north = true ∧ s'.qreq n = true ∧ s'.flag n Off.PAGE.STS 0 = true ∧ s'.flag n Off.PAGE.STS 4 = false)
        ∧ pageKind n ∈ [some .fxp, some .emb, some .hrtA, some .sec, some .nmc, some .chm0, some .chm1, some .bel, some .grt, some .stv]) := by
  decide +kernel

/-- RegisterAccesses: an address that is not aligned and the last aligned one; a slot without a page; a core that does not hold mastership;
SCRATCH; a hearth Quiesced and not; and FKTEN in the boot window and after it. -/
theorem wit_RegisterAccesses :
    ((0xFFFFF : BitVec 20).toNat % 8 ≠ 0 ∧ (0xFFFF8 : BitVec 20).toNat % 8 = 0)
    ∧ pageKind ((0xFFFF8 : BitVec 20).toNat / 4096) = none
    ∧ (let a : BitVec 20 := BitVec.ofNat 20 (Slot.grt * 4096)
       a.toNat % 8 = 0 ∧ pageKind (a.toNat / 4096) ≠ none ∧ machine.reachesRegs .south = true ∧ coreOf .south ≠ 0 ∧ machine.holder ≠ coreOf .south
        ∧ ¬(a.toNat / 4096 = Slot.man ∧ a.toNat % 4096 = Off.MAN.CLAIM))
    ∧ (let a : BitVec 20 := BitVec.ofNat 20 (Slot.grt * 4096 + Off.PAGE.SCRATCH)
       a.toNat % 8 = 0 ∧ pageKind (a.toNat / 4096) ≠ none ∧ machine.admits .north = true ∧ a.toNat % 4096 = Off.PAGE.SCRATCH)
    ∧ (machine.admits .context = true ∧ machine.inRst (Slot.hrtA (7 : BitVec 3).toNat) = false
        ∧ (machine.setFlag (Slot.hrtA 7) Off.PAGE.STS 0 true).quiesced (Slot.hrtA (7 : BitVec 3).toNat) = true
        ∧ machine.quiesced (Slot.hrtA (7 : BitVec 3).toNat) = false)
    ∧ (∀ boot ∈ [true, false], let s : State := { operating [Slot.key] machine with boot := boot }
       s.admits .context = true ∧ s.inRst Slot.key = false ∧ s.flag Slot.key Off.KEY.KEYCTL 1 ≠ true ∧ s.boot = boot) := by decide +kernel


/-- A wake group's entry whose line a reservation set holds. -/
def heldGroup : State :=
  let s := machine.setReg Slot.grt Off.GRT.WGBASE 0x680000
  { s with resv := [{ ctx := 5, want := [], held := [lineOf 0x680000] }] }

/-- RegisterAccesses: commands to a block that operates and to one that is Quiesced, to a register that is BUSY, and one that would write a
line that is held. -/
theorem wit_RegisterAccesses_commands :
    ((blockCommands .context 3 0 1 2 0 0).all fun a =>
      let s := machine.setReg a.2.1 Off.PAGE.STS 1
      s.admits .context && !s.inRst a.2.1 && !s.cmdBusy a.2.1 a.2.2.1 && !s.blockOn a.2.1) = true
    ∧ ((blockCommands .context 3 0 1 2 0 0).any fun a =>
      (match busyBit a.2.1 a.2.2.1 with
        | some (o, i, _) => (machine.setFlag a.2.1 o i true).cmdBusy a.2.1 a.2.2.1
        | none => false) && machine.admits .context && !machine.inRst a.2.1) = true
    ∧ (heldGroup.admits .context = true ∧ heldGroup.inRst Slot.grt = false ∧ heldGroup.cmdBusy Slot.grt Off.GRT.WGCMD = false
      ∧ heldGroup.writesHeld (heldGroup.act Slot.grt Off.GRT.WGCMD (2 ^ 12) {}) = true) := by decide +kernel

/-! ## Chimney -/

/-- Chimney, with the link of port 0 up. -/
def chimney : State := (queued (queueState false 1 1) plain).setReg Slot.chm0 Off.CHM0.PORTSTS 1

/-- A MAC control frame with a PFC of priority 0. -/
def pfcFrame : List Byte := controlAddr ++ zeros 6 ++ [0x88, 0x08, 0x01, 0x01, 0, 1, 0, 9] ++ zeros 40

/-- FramesRulesAndPorts: the lengths at each limit, the last port that is made and one that is not, CHM0 Quiesced, addresses accepted and not,
frames that PFCCTL heeds and does not, CHM1 Quiesced, the ranges of rules, and links that no mirror set uses. -/
theorem wit_FramesRulesAndPorts :
    ((∀ p < 8, chimney.portMade p = true) ∧ chimney.blockOn Slot.chm0 = true
      ∧ (chimney.setReg Slot.chm0 Off.PAGE.STS 1).blockOn Slot.chm0 = false)
    ∧ (chimney.setFld Slot.chm0 Off.CHM0.PORTCFG 0 2 1).portMade 4 = false
    ∧ ((zeros 59).length + 4 < 64 ∧ 9216 < (zeros 9213).length + 4 ∧ 64 ≤ (zeros 60).length + 4 ∧ (zeros 9212).length + 4 ≤ 9216)
    ∧ (let s1 (s : State) (f : List Byte) := (s.countPort 0 0 1).countPort 0 1 (f.length + 4)
       let mine : List Byte := List.replicate 6 0xFF ++ zeros 54
       let other : List Byte := 2 :: zeros 59
       let quiet := chimney.setReg Slot.chm1 Off.PAGE.STS 1
       ((s1 chimney mine).pauseFrame 0 mine).isNone = true ∧ (s1 chimney mine).macAccepts 0 mine = true
        ∧ ((s1 chimney other).pauseFrame 0 other).isNone = true ∧ (s1 chimney other).macAccepts 0 other = false
        ∧ ((s1 (chimney.setReg Slot.chm0 Off.CHM0.PFCCTL 1) pfcFrame).pauseFrame 0 pfcFrame).isSome = true
        ∧ (s1 chimney mine).blockOn Slot.chm1 = true ∧ (s1 quiet mine).blockOn Slot.chm1 = false ∧ (s1 quiet mine).macAccepts 0 mine = true)
    ∧ (chimney.admits .south = false ∧ chimney.admits .context = true ∧ chimney.inRst Slot.chm1 = false ∧ chimney.inRst Slot.chm0 = false
        ∧ chimney.blockOn Slot.chm1 = true ∧ chimney.resv = [] ∧ chimney.flag Slot.chm1 Off.CHM1.RULECMD 32 = false
        ∧ (0 : BitVec 10).toNat ≤ (1023 : BitVec 10).toNat)
    ∧ (∀ i < 8, (chimney.setFlag Slot.chm0 Off.CHM0.PORTSTS 0 true).msetOn i = false
        ∧ ((chimney.setFlag Slot.chm0 Off.CHM0.PORTSTS 0 false).setErr Slot.chm0 Off.CHM0.CHM0ERR 0).msetOn i = false) := by decide +kernel

/-- A queue state as a number, and its bytes. -/
def queueNat (own : Bool) (rxProd txProd : Nat) : Nat := leNat (queueState own rxProd txProd)

/-- QueueCommands: a queue that ENABLE accepts; an active one; a message that may be released; an RC queue. -/
theorem wit_QueueCommands_qcmd :
    (let s := queued (leBytes 128 (putBits (queueNat false 1 1) 127 1 0)) plain
     let m := leNat (s.bytes (s.queueAt 3) 128)
     (s.admits .context = true ∧ s.inRst Slot.chm1 = false ∧ s.blockOn Slot.chm1 = true ∧ s.resv = []
        ∧ s.flag Slot.chm1 Off.CHM1.QCMD 32 = false)
        ∧ s.queues.any (·.1 == 3) = false ∧ s.nearPop (s.queueAt 3) = true ∧ s.anyPoison (s.queueAt 3) 128 = false
        ∧ s.keyLost (s.queueAt 3) = false ∧ qActive m = false ∧ (s.devRead (s.queueAt 3) 128).queueOk 3 m = true)
    ∧ (let s := ((chimney.poke 0x80000C [2, 0]).poke 0x80002C [1]).setReg Slot.chm1 Off.CHM1.QARG 0x800000
       let v := (s.useQueue 3).2
       qActive v = true ∧ qSizeExp v ≠ 0 ∧ (s.useQueue 3).1.isHeader v (s.reg Slot.chm1 Off.CHM1.QARG) (qSlots v) (qRxTail v) = true
        ∧ (s.useQueue 3).1.hdrFlags (s.reg Slot.chm1 Off.CHM1.QARG) &&& 6 = 2)
    ∧ (let s := queued (leBytes 128 (putBits (queueNat false 1 1) 576 2 1)) plain
       let s1 := (s.useQueue 3).1
       let v := (s.useQueue 3).2
       qActive v = true ∧ qRMode v = 1 ∧ ((s1.setQueue 3 (putBits v 580 1 0)).qcmdSts false).sideOf 3 = none) := by
  decide +kernel

/-- QueueCommands: CHM1 Quiesced; a doorbell that fills the ring, and one that moves the tail to the producer. -/
theorem wit_QueueCommands_doorbells :
    (chimney.setReg Slot.chm1 Off.PAGE.STS 1).blockOn Slot.chm1 = false
    ∧ (let s := queued (queueState true 1 0) plain
       let v := (s.useQueue 3).2
       (s.blockOn Slot.chm1 = true ∧ qActive v = true)
        ∧ (qDexp v ≠ 0 ∧ qTxOwn v = true ∧ extendIndex (qTxProd v) (16 : BitVec 32).toNat = some 16 ∧ seqSub 16 (qTxCons v) ≤ 2 ^ qDexp v)
        ∧ (qSizeExp v ≠ 0 ∧ qOwner v = true ∧ extendIndex (qRxTail v) (1 : BitVec 32).toNat = some 1
          ∧ seqSub 1 (qRxTail v) ≤ seqSub (qRxProd v) (qRxTail v))) := by decide +kernel

/-- The kinds of sending. -/
def kindOf : Sending → Nat
  | .frame _ _ => 0
  | .ud _ _ => 1
  | .rc _ => 2
  | .refused _ => 3

/-- A queue whose descriptor sends 14 bytes in a mode, its header at the start of its receive ring. -/
def sendingQueue (tx rm len : Nat) : State :=
  let qs := leBytes 128 (putBits (putBits (queueNat false 1 1) 328 2 tx) 576 2 rm)
  let s := (queued qs plain).setReg Slot.chm0 Off.CHM0.PORTSTS 1
  (s.poke 0x810000 (leBytes 8 0x100000 ++ leBytes 8 len ++ leBytes 8 0x800000)).poke 0x800008 (leBytes 2 60 ++ zeros 2 ++ leBytes 2 16)

/-- QueueCommands: a descriptor that sends a frame, one that sends a UD message, one that sends an RC message, and one of 13 bytes, which is
refused. -/
theorem wit_QueueCommands_send :
    [(0, 0, 14, 0), (2, 2, 14, 1), (2, 1, 14, 2), (0, 0, 13, 3)].all (fun (tx, rm, len, kind) =>
      let s := sendingQueue tx rm len
      let s1 := (s.useQueue 3).1
      let v := (s.useQueue 3).2
      let n := (s1.rcOf 3).waiting
      let i := (qTxCons v + n) % 2 ^ 64
      let f := s1.formSending 3 v (s1.descFound v (qDescAt v i))
      s.chimneyOn && qActive v && qDexp v != 0 && i != qTxProd v && s1.lineStatus (txKey v) (lineOf (qDescAt v i)) == 0 && s1.mayGo v f
        && kindOf f == kind && n == 0) = true := by decide +kernel

/-! ## RoCE packets -/

/-- The head of a packet for queue pair 3. -/
def headOf (psn : BitVec 24) : RoceHead := { port := 0, qp := 3, psn := psn, icrcOk := true, ackReq := true }

/-- Queue pair 3 with a RoCE mode, its expected PSN 0xFFFFFF, and a region of 4 KiB at 0x100000 that may be written and read. -/
def paired (mode : Nat) : Nat :=
  putBits (putBits (putBits (putBits (queueNat false 1 0) 576 2 mode) 672 24 0xFFFFFF) 960 8 (12 + 0xC0)) 896 64 0x100000

/-- The machine with that queue pair. -/
def roce (mode : Nat) : State := (queued (leBytes 128 (paired mode)) plain).setReg Slot.chm0 Off.CHM0.PORTSTS 1

/-- RocePackets: CHM0 Quiesced, CHM1 Quiesced, a queue pair that does not exist, and one in each mode. -/
theorem wit_RocePackets_pairs :
    ((roce 1).setReg Slot.chm0 Off.PAGE.STS 1).blockOn Slot.chm0 = false
    ∧ (let s := (roce 1).setReg Slot.chm1 Off.PAGE.STS 1
       s.blockOn Slot.chm0 = true ∧ s.blockOn Slot.chm1 = false)
    ∧ ((roce 0).chimneyOn = true ∧ ((roce 0).roceQp (headOf 0)).2 = none)
    ∧ (∀ mode ∈ [1, 2], (roce mode).chimneyOn = true ∧ ((roce mode).roceQp (headOf 0)).2 = some (paired mode)
        ∧ qErr (paired mode) = false ∧ qRMode (paired mode) = mode)
    ∧ psnOrder (paired 1) (0xFFFFFF : BitVec 24).toNat = .expected := by decide +kernel

/-- RocePackets: a SEND that is placed, a UD SEND with its Q_Key, accesses of the whole region, one of nothing, a positive and a
sequence-error acknowledgement, and a message that times out, the first time and the last. -/
theorem wit_RocePackets_accesses :
    (let v := paired 1
     let s1 := ((roce 1).roceQp (headOf 0xFFFFFF)).1
     let x : RoceSend := { first := true, last := true, imm := none, ud := none, payload := zeros 64 }
     x.payload.length ≤ 65535 ∧ (qSizeExp v ≠ 0 ∧ s1.mirrorNames 3 = false ∧ 64 + x.payload.length ≤ 2 ^ qSizeExp v)
        ∧ (s1.placeSend (headOf 0xFFFFFF) x x.payload).2 = .placed)
    ∧ (let u : UdInfo := { qkey := 0, srcQp := 1, frame := zeros 60, doff := 42 }
       qRMode (paired 2) ≠ 1 ∧ u.qkey.toNat = qQKey (paired 2))
    ∧ (let s1 := ((roce 1).roceQp (headOf 0xFFFFFF)).1
       ((zeros 4096).length ≤ (4096 : BitVec 32).toNat ∧ s1.regionOk (paired 1) (0x100000 : Word).toNat 4096 0 true = true)
        ∧ s1.regionOk (paired 1) (0x100000 : Word).toNat 4096 0 false = true ∧ s1.anyPoison (0x100000 : Word).toNat 4096 = false
        ∧ s1.regionOk (paired 1) (0x100000 : Word).toNat 0 0 false = true)
    ∧ ((31 : BitVec 8).toNat < 32 ∧ (0x60 : BitVec 8).toNat / 32 = 3)
    ∧ (∀ tries ∈ [0, 6], let m : RcSent := { psn := 0, pkts := 1, load := .mirror none, stamp := 0, bytes := [] }
       let s : State := { roce 1 with rc := [{ qp := 3, part := none, write := none, sent := [m], tries := tries }] }
       (s.rcOf (3 : BitVec 16).toNat).sent ≠ [] ∧ s.blockOn Slot.chm1 = true) := by decide +kernel

/-! ## Mirroring -/

/-- A peer's identity key, the point G of the curve, and a signature by it over SM3 of 192 bytes of zeros, made from the standard outside the model. -/
def peerKey : BitVec 512 :=
  8429026473700038520107240704196401427771037567655649700079599073991508187158289247987595722269141161003138297893806973326626127366555630813907674888848434
def peerSig : BitVec 512 :=
  12440536016290342320964753037579815160607647296967605416268321766856764120593646945733125645416221058699558784060971610288343899676864247068964463009603800

/-- Mirror set 0 with peer 0 on queue pair 3, as primary or shadow, whose identity key is enrolled. -/
def mirrored (shadow : Bool) (xs : List Session) : State :=
  { (roce 1).setReg Slot.chm1 Off.CHM1.MSET0 (2 ^ 63 + b2n shadow * 2 ^ 43 + 2 ^ 40 + 3) with
    sessions := xs, enrolled := [(32, BitVec.ofNat 256 (sm3Nat (vecBytes 64 peerKey)))] }

/-- A session of peer 0 whose nonces and ephemeral keys are zeros. -/
def session (phase : Phase) : Session := { Session.new 0 false phase with pub := peerKey }

/-- CTR of a message to a primary, and to a shadow. -/
def fromShadow : MirrorHead := { qp := 3, ctr := 0x8000000000000000, tagOk := true }
def fromPrimary : MirrorHead := { qp := 3, ctr := 0, tagOk := true }

/-- MirrorMessages: Chimney Quiesced in either block, the start of a session, HELLO, and CLOSE. -/
theorem wit_MirrorMessages_hello :
    (((mirrored false []).setReg Slot.chm0 Off.PAGE.STS 1).blockOn Slot.chm0 = false
      ∧ (let s := (mirrored false []).setReg Slot.chm1 Off.PAGE.STS 1
         s.blockOn Slot.chm0 = true ∧ s.blockOn Slot.chm1 = false))
    ∧ (let s := mirrored false []
     s.blockOn Slot.chm1 = true ∧ s.setNames 0 false = true ∧ s.setShadow 0 = false ∧ s.qpReady (s.setQp 0 false) = true ∧ s.session? 0 false = none
        ∧ s.lost.contains (2 * 0 + b2n false) = false)
    ∧ (let s := mirrored true []
       let x : Session := { Session.new 0 false .wantReply with na := 0, ea := 0, pub := peerKey, rx := 1 }
       let s1 : State := { s.putSession x with lost := s.lost.filter (· != 0) }
       s.chimneyOn = true ∧ s.sideOf 3 = some (0, false) ∧ s.setShadow 0 = true ∧ s.peerLive 0 false = false ∧ bitAt fromPrimary.ctr.toNat 63 = false
        ∧ s1.peerKeyOk 0 false peerKey = true)
    ∧ (match (mirrored false [session .live]).receiveMsg 3 fromShadow.ctr.toNat true with
      | (_, some _) => true
      | (_, none) => false) = true := by decide +kernel

/-- MirrorMessages, HELLO-REPLY and CONFIRM whose signatures hold. -/
theorem wit_MirrorMessages_signed :
    (match (mirrored false [session .helloSent]).receiveMsg 3 fromShadow.ctr.toNat true with
      | (_, none) => false
      | (s1, some x) =>
        let x' : Session := { x with nb := 0, eb := 0, pub := peerKey }
        let s2 := (s1.sign x'.confirmDigest).1.mirrorSend x' 3 0 0 0 (s1.sign x'.confirmDigest).2 false
        x.phase == .helloSent && s1.peerKeyOk x.set.toNat x.peer peerKey && sm2Verify (vecBytes 64 peerKey) x'.replyDigest (vecBytes 64 peerSig)
          && (s2.session? x.set.toNat x.peer).isSome) = true
    ∧ (match (mirrored true [session .replySent]).receiveMsg 3 fromPrimary.ctr.toNat true with
      | (_, none) => false
      | (_, some x) => x.phase == .replySent && sm2Verify (vecBytes 64 x.pub) x.confirmDigest (vecBytes 64 peerSig)) = true := by decide +kernel

/-- A live session with a ring of which records below 2 are sent. -/
def marked : Session := { session .live with marks := [{ ring := 0, sent := 2 }] }

/-- Ring 0 of 32 records at 0x500000 of mirror set 0, with its peers, HEAD and DURABLE. -/
def ringed (npeer head : Nat) (s : State) : State :=
  (s.setReg Slot.chm1 Off.CHM1.JRTBASE 0x400000).poke 0x400000
    (leBytes 8 0x500000 ++ leBytes 8 (49 + npeer * 2 ^ 12 + npeer * 2 ^ 14) ++ leBytes 8 head ++ leBytes 8 0 ++ leBytes 8 0)

/-- MirrorMessages at the primary: RESUME at the head and one that no record confirms, and ACK of the last record sent. -/
theorem wit_MirrorMessages_primary :
    (let s := ringed 1 34 (mirrored false [marked])
     s.chimneyOn && (match s.receiveMsg 3 fromShadow.ctr.toNat true with
      | (_, none) => false
      | (s1, some x) =>
        let e := s1.ring 0
        let s2 := s1.devRead (s1.ringAt 0) 128
        let s3 := s2.devRead (e.slot (1 : Word).toNat + 96) 32
        decide (x.phase = .live ∧ s2.setShadow x.set.toNat = false ∧ s1.setShadow x.set.toNat = false) && decide (e.mirrors 0 false = true
          ∧ x.mark 0 = some { ring := 0, sent := 2 } ∧ seqDiff (1 : Word).toNat (2 : Word).toNat < 0 ∧ 0 ≤ seqDiff (1 : Word).toNat e.tail
          ∧ s2.chainAt e (1 : Word).toNat = vecBytes 32 (0 : BitVec 256)
          ∧ 0 < seqDiff ((1 : Word).toNat + 1) (s3.ackOf 0 false)))) = true := by
  decide +kernel

/-- MirrorMessages at the primary: a loss, and the records after those sent. -/
theorem wit_MirrorMessages_sent :
    (let s := ringed 1 34 (mirrored false [marked])
     (s.session? 0 false = some marked ∧ marked.phase = .live ∧ s.blockOn Slot.chm1 = true
        ∧ marked.marks.any (fun n => decide (0 < seqDiff n.sent.toNat (s.ackOf n.ring.toNat false))) = true)
     ∧ (let b := s.ring 0
        let g := min 32 (seqSub b.head 2)
        let looked := s.devRead (s.ringAt 0) 128
        g = 32 ∧ s.setShadow 0 = false ∧ b.mirrors 0 false = true ∧ s.halted.contains 0 = false ∧ s.chimneyOn = true
          ∧ s.recordsWaiting (s.setQp 0 false) 0 = false
          ∧ ((List.range g).map (fun j => b.slot (2 + j))).any (fun a => looked.anyPoison a 128 || looked.keyLost a) = false)) := by
  decide +kernel

/-- MirrorMessages at the shadow: a record whose chain holds, and one whose chain does not. -/
theorem wit_MirrorMessages_shadow :
    ∀ (c : Bool), let s := ringed 0 0 (mirrored true [session .live])
      let rs := [if c then zeros 96 ++ sm3 (zeros 128) else zeros 128]
      (s.chimneyOn && match s.receiveMsg 3 fromPrimary.ctr.toNat true with
      | (_, none) => false
      | (s1, some x) => x.phase == .live && s.sideOf 3 == some (0, false) && s.setShadow 0
          && decide ((s.ring 0).en = true ∧ (s.ring 0).npeer = 0 ∧ (s.ring 0).mset = 0 ∧ seqDiff (0 : Word).toNat (s.ring 0).head ≤ 0
            ∧ s.shadowFull 0 0 rs.length = false)
          && (s1.shadowRecords 0 0 rs).2.isNone == c) = true
      ∧ ([BitVec.ofNat 1024 (leNat (rs.headD []))].take 32).map (vecBytes 128) = rs := by decide +kernel

/-! ## Bellows -/

/-- Bellows with a table at 0x300000 whose entry 63 has a ring of 16 descriptors at 0x800000, and channel 63 active or not. -/
def bellows (ks : List Chan) : State :=
  { ((((operating [Slot.bel] (directory (live plain))).setReg Slot.bel Off.BEL.CHBASE 0x300000).poke (0x300000 + 63 * 64)
      (zeros 8)).poke (0x300000 + 63 * 64) (leBytes 8 0x800000 ++ leBytes 8 4 ++ leBytes 8 16)) with chans := ks }

/-- Channel 63 with a descriptor to do, and its work. -/
def channel (work : Option BelWork) : Chan := { chan := 63, rbase := 0x800000, dexp := 4, key := 0, prod := 1, cons := 0, work := work }

/-- Work of an operation on `n` bytes. -/
def workOf (op n : Nat) (stop : Option (BitVec 8)) : BelWork :=
  { op := op, src := [(0x100000, n)], dst := [(0x140000, n)], total := n, arg := zeros 32, event := some 5, done := 0, acc := [], leave := false,
    stop := stop, result := zeros 32, list := none }

/-- BellowsCommands: an entry with a full ring that ENABLE accepts, a channel that is active and one that is not, and a doorbell that fills
the ring. -/
theorem wit_BellowsCommands_channels :
    (let s := bellows []
     let a := s.chanAt (63 : BitVec 6).toNat
     let ctl := s.ld (a + 8) 8
     let dexp := bitsOf ctl 0 5
     (s.admits .context = true ∧ s.inRst Slot.bel = false ∧ s.blockOn Slot.bel = true ∧ s.resv = []) ∧ s.flag Slot.bel Off.BEL.CHCMD 32 = false ∧ s.nearPop a = true ∧ s.poisoned a = false
        ∧ bitsOf ctl 9 54 = 0 ∧ s.ld (a + 0x20) 32 = 0 ∧ 4 ≤ dexp ∧ dexp ≤ 16 ∧ s.ld a 8 % (2 ^ dexp * 64) = 0 ∧ s.nearRange (s.ld a 8) (2 ^ dexp * 64) = true
        ∧ s.ld (a + 0x18) 8 ≤ s.ld (a + 0x10) 8 ∧ s.ld (a + 0x10) 8 ≤ s.ld (a + 0x18) 8 + 2 ^ dexp ∧ s.chan 63 = none)
    ∧ (let s := bellows [channel none]
       s.chan 63 = some (channel none) ∧ (channel none).work = none ∧ extendIndex (channel none).prod.toNat (16 : BitVec 32).toNat = some 16
        ∧ seqSub 16 (channel none).cons.toNat ≤ 2 ^ (channel none).dexp) := by decide +kernel

/-- BellowsCommands: each operation below and at the length that needs leave, and a descriptor that has ended. -/
theorem wit_BellowsCommands_operations :
    (∀ a ∈ bellowsOps.map (·.2), ∀ n ∈ [65535, 65536], let w := workOf a n none
      let k := channel (some w)
      (match (bellows [k]).belStart 63 with
        | (_, some (k', w')) => k' == k && w' == w
        | (_, none) => false) = true ∧ w.op = a ∧ w.needsLeave = decide (n = 65536))
    ∧ (let w := workOf 1 64 (some 0)
       let k := channel (some w)
       let a := k.descAt k.cons.toNat
       (match (bellows [k]).belStart 63 with
        | (s1, some (k', w')) => k' == k && w' == w && s1.nearPop a && !s1.keyLost a && keyAllows (s1.keyByte a) k.key.toNat true
        | (_, none) => false) = true ∧ w.stop = some 0) := by decide +kernel

/-! ## The security engine and two-party commit -/

/-- The security engine, healthy, with a block at 0x100000 for an operation, and that operation in progress. -/
def engine (op : Nat) (leave : Bool) (done : Option (BitVec 8)) : State :=
  { ((operating [Slot.sec, Slot.tpc] (live plain)).setReg Slot.sec Off.SEC.RNGSTS 1).poke 0x100000
      (leBytes 8 op ++ leBytes 8 0x101000 ++ leBytes 8 1 ++ leBytes 8 0x102000 ++ leBytes 8 0x103000) with
    secOp := some { block := 0x100000, leave := leave, done := done } }

/-- EngineOperations: each operation that passes, with and without leave; one refused for its reserved bits; and one that has ended. -/
theorem wit_EngineOperations :
    (∀ a ∈ engineOps.map (·.2), ∀ l ∈ [true, false], (engine a l none).blockOn Slot.sec = true ∧ (engine a l none).secOpcode 0x100000 = a
        ∧ (engine a l none).secRefusal 0x100000 = 0 ∧ ((engine a l none).poke 0x100028 [1]).secRefusal 0x100000 ≠ 0
        ∧ ((engine a l none).poke 0x100028 [1]).secOpcode 0x100000 = a)
    ∧ ((engine 1 false (some 0)).blockOn Slot.sec = true ∧ 0x100000 % 64 = 0 ∧ (engine 1 false (some 0)).nearBuf 0x100000 64 = true) := by
  decide +kernel

/-- A change block that enrols officers 0 and 15, officer 0 with the point G. -/
def changeBlock : List Byte :=
  leBytes 8 2 ++ zeros 56 ++ leBytes 8 2 ++ zeros 24 ++ sm3 (vecBytes 64 peerKey) ++ leBytes 8 2 ++ zeros 8 ++ leBytes 8 15 ++ zeros 8 ++ zeros 32

/-- Officer 0's signature block for that change: DIGEST, NONCE and the serial number are zeros. -/
def signBlock : List Byte := zeros 16 ++ vecBytes 64 peerKey ++ vecBytes 64 (
  1623490484587576324603086729981608632573265784886210900804244941592350178225645967626072848499519540653131017715604890343568002930216603736107612209557919
    : BitVec 512)

/-- Two-party commit in a state, with the change staged and a SIGN in progress or not. -/
def commits (st : Nat) (sign : Option Word) : State :=
  let s := ((((engine 1 false none).setReg Slot.tpc Off.TPC.ARG 0x100000).setReg Slot.tpc Off.TPC.STS st).setReg Slot.tpc Off.TPC.EXPIRY 1).setReg
    Slot.dev Off.DEV.SERIAL 0
  { (s.poke 0x100000 signBlock) with staged := some { block := changeBlock, addr := 0x200000, sign := sign, leave := sign.isSome } }

/-- TwoPartyCommit, STAGE of a change of the factory state, and CLEAR and the expiry of one that is staged. -/
theorem wit_TwoPartyCommit_stage :
    (let s := (((engine 1 false none).setReg Slot.tpc Off.TPC.ARG 0x200000).poke 0x200000 changeBlock)
     let s0 := s.tpcErr 0
     let a := s0.reg Slot.tpc Off.TPC.ARG
     let h1 := s0.devRead a 64
     let n := h1.ld a 8
     let h := h1.devRead a (64 + 64 * n)
     let bs := h.bytes a (64 + 64 * n)
     (s.admits .context = true ∧ s.inRst Slot.tpc = false) ∧ s0.tpcBusy = false ∧ s0.tpcState = 0 ∧ a % 64 = 0 ∧ s0.readable a 64 = true ∧ 1 ≤ n
        ∧ n ≤ 255 ∧ h1.readable a (64 + 64 * n) = true ∧ leNat (sliceBytes bs 8 8) = h.cseq ∧ h.rngOk = true
        ∧ (match blockItems bs with
          | some items => (h.changed items).resultOk items
          | none => false) = true)
    ∧ (let s := (commits 1 none).setReg Slot.clk Off.CLK.TOD 1
       ((s.tpcErr 0).tpcBusy = false ∧ (s.tpcErr 0).tpcState ≠ 0) ∧ s.tpcState ≠ 0 ∧ s.reg Slot.tpc Off.TPC.EXPIRY ≤ s.tod) := by decide +kernel

/-- TwoPartyCommit, SIGN with leave whose signature holds, SIGN that asks for leave, and COMMIT whose writes succeed. -/
theorem wit_TwoPartyCommit_sign :
    (∀ st ∈ [9, 10], let s := commits st (some 0x100000)
     let s' := ({ s with staged := some { block := changeBlock, addr := 0x200000, sign := none, leave := false } } : State).setFlag Slot.tpc Off.TPC.STS 3 false
     let s1 := s'.signRead 0x100000
     s1.tpcState = st - 8 ∧ (st = 9 → s'.signRefusal ((blockItems changeBlock).getD []) 0x100000 = 0
      ∧ sm2Verify (s1.bytes 0x100010 64) s1.signMessage (s1.bytes 0x100050 64) = true))
    ∧ (let s := commits 1 none
       let s0 := s.tpcErr 0
       s0.tpcState ≠ 3 ∧ s0.signRefusal ((blockItems changeBlock).getD []) (s0.reg Slot.tpc Off.TPC.ARG) = 0)
    ∧ (let s := commits 3 none
       let s0 := s.tpcErr 0
       let items := (blockItems changeBlock).getD []
       let t := s0.changed items
       let fs := vkeyFrames items
       let m := s0.mantel
       let s0 : State := { s0 with mantel := { m with flash := m.flash.map (fun f => { f with present := true }) } }
       s0.tpcBusy = false ∧ s0.tpcState = 3 ∧ fs.any (fun f => s0.lineHeld f.1 4096) = false ∧ s0.tod < s0.reg Slot.tpc Off.TPC.EXPIRY
        ∧ t.vkeysOk fs = true ∧ s0.rngOk = true ∧ (s0.storeRecord (t.cfgRecord (s0.cseq + 1)) .none).2 = true) := by decide +kernel

/-! ## The debug path, near memory and the ports -/

/-- The debug path at a level. -/
def debugged (level : Nat) (b : Bank) : State :=
  (operating [Slot.dbg] (directory (live b))).setReg Slot.dbg Off.DBG.DBGEN level

/-- DebugPath: a context that each level accepts and one that is not accepted, one that stops at once and one between boundary points. -/
theorem wit_DebugPath_commands :
    (∀ x ∈ [(1, false), (2, true)], let b := { plain with psw := { plain.psw with sup := x.2 } }
      let s := (debugged x.1 b).poke 0x6000B8 [1]
      s.admits .context = true ∧ s.inRst Slot.dbg = false ∧ s.flag Slot.dbg Off.DBG.DBGCMD 32 = false ∧ s.dbgAccepts 5 = true
        ∧ s.haltWaits 5 = false ∧ (s.ctxStart 5).flag Slot.grt Off.GRT.CTXSTS 1 = false)
    ∧ (let s := debugged 2 { plain with resume := 1 }
       s.dbgAccepts 5 = true ∧ s.haltWaits 5 = true)
    ∧ ((debugged 1 plain).dbgAccepts 5 = false ∧ (debugged 0 plain).dbgLevel = 0 ∧ (debugged 3 plain).dbgLevel = 0) := by decide +kernel

/-- DebugPath: a register; and the first byte, and a page, of memory, one that is held, one that is poisoned and one whose key byte is lost. -/
theorem wit_DebugPath_accesses :
    (let s0 := debugged 2 plain
     let s : State := { s0 with mantel := { s0.mantel with vsb := true, core := true } }
     let held : State := { s with resv := [{ ctx := 5, want := [], held := [0] }] }
     let lost : State := { s with lines := { s.lines with keyLost := [0] } }
     (s.mantel.vsb = true ∧ s.dbgLevel ≠ 0 ∧ s.mantel.core = true) ∧ (0xFFFF8 : BitVec 20).toNat % 8 = 0
      ∧ (match s.regWrite .debug (Slot.grt + 0) Off.PAGE.SCRATCH 7 with
        | .ok _ => true
        | .error _ => false) = true
      ∧ (∀ x ∈ [(0, 1), (0x100000, 4096)], s.ordinary x.1 = true ∧ x.2 ≠ 0
        ∧ (linesTouched x.1 x.2).all (fun l => s.populated .load (max x.1 (l * 64)) && s.populated .store (max x.1 (l * 64))) = true
        ∧ s.oneRow x.1 x.2 = true ∧ (s.lineHeld x.1 x.2 || s.nearStops x.1 x.2) = false ∧ (s.anyPoison x.1 x.2 || s.anyKeyLost x.1 x.2) = false
        ∧ (linesTouched x.1 x.2).any (fun l => s.fktLine (l * 64)) = false)
      ∧ held.debugWaits (.readMem 0 1) = true ∧ held.debugWaits (.writeMem 0 [1]) = true
      ∧ ((s.poisonLine 0).anyPoison 0 1 = true ∧ (s.poisonLine 0).debugWaits (.readMem 0 1) = false)
      ∧ lost.anyKeyLost 0 1 = true ∧ lost.debugWaits (.readMem 0 1) = false ∧ lost.debugWaits (.writeMem 0 [1]) = false) := by decide +kernel

/-- NearMemoryCare: the pair that is next and one that is not, the first, the last but one and the last; and the last pin. -/
theorem wit_NearMemoryCare :
    (let s := machine.setReg Slot.nmc Off.NMC.SCRUBCTL 1
     (s.blockOn Slot.nmc = true ∧ s.flag Slot.nmc Off.NMC.SCRUBCTL 0 = true)
      ∧ s.nextPair 8 s.scrubAt ≠ (1 : BitVec 29).toNat
      ∧ (∀ a ∈ [0, s.pairCount - 2, s.pairCount - 1], let s : State := { s with scrubAt := a }
        let pair := BitVec.ofNat 29 a
        let s1 := (s.scrubOne (2 * pair.toNat) {}).scrubOne (2 * pair.toNat + 1) {}
        s.nextPair 8 s.scrubAt = pair.toNat ∧ s.nearPop (pair.toNat * 128) = true
          ∧ (s1.nextPair 8 (pair.toNat + 1) < s1.pairCount ↔ a + 1 < s.pairCount)))
    ∧ (let s := machine.setReg Slot.nmc Off.NMC.PINSEL 639
       (s.admits .context = true ∧ s.inRst Slot.nmc = false ∧ s.blockOn Slot.nmc = true ∧ s.resv = [])
        ∧ (s.setFld Slot.nmc Off.NMC.PINCTL 0 16 (s.fld Slot.nmc Off.NMC.PINCTL 0 16)).fld Slot.nmc Off.NMC.PINSEL 0 10 < 640) := by decide +kernel

/-- Port 0 in a mode, its link up or down. -/
def ported (mode link : Nat) : State := (machine.setReg (Slot.fxp 0) Off.FXP.MODE mode).setReg (Slot.fxp 0) Off.FXP.LINK link

/-- PortLinks: each mode, with the link down and up; and the narrowest CXL link, one that is narrower and one that is slower. -/
theorem wit_PortLinks :
    (∀ mode ∈ [1, 2, 3], ((ported mode 0).blockOn (Slot.fxp 0) = true ∧ (ported mode 0).portUp 0 = false ∧ (ported mode 0).portMode 0 = mode)
      ∧ (ported mode 1).portUp 0 = true ∧ (ported mode 1).portMode 0 = mode)
    ∧ (let s := ported (1 + 4 * 4) 0
       let w (x : BitVec 3) := min (widthOf (s.fld (Slot.fxp 0) Off.FXP.MODE 2 3)) (widthOf x.toNat)
       let g (x : BitVec 3) := min (genOf (s.fld (Slot.fxp 0) Off.FXP.MODE 5 3)) (genOf x.toNat)
       s.portMode 0 = 1 ∧ w 2 = 2 ∧ w 1 < 2 ∧ g 5 = 5 ∧ g 4 ≠ 5) := by decide +kernel

/-- A root port whose inbound window is the 4 KiB at 0x100000, and an endpoint whose BAR0 leads there. -/
def windowed (mode : Nat) : State :=
  ((ported mode 1).setReg (Slot.fxp 0) Off.FXP.INBASE 0x100000).setReg (Slot.fxp 0) Off.FXP.INCTL (1 + 12 * 2 ^ 6)

/-- What a target reaches, as a number. -/
def reachOf : InReach → Nat × Nat
  | .window a => (0, a)
  | .door a => (1, a)
  | .bar4 o => (2, o)
  | .none => (3, 0)

/-- InboundRequests: the whole window, allowed and not; one byte past it; the last doorbell and the last entry of the MSI-X table; a held
line; and a port that is Quiesced. -/
theorem wit_InboundRequests :
    (let s := windowed 2
     let lost : State := { s with lines := { s.lines with keyLost := [256] } }
     let held : State := { s with resv := [{ ctx := 5, want := [], held := [lineOf 0x100000] }] }
     (s.portUp 0 = true ∧ s.parked = [] ∧ s.blockOn (Slot.fxp 0) = true)
      ∧ (s.setReg (Slot.fxp 0) Off.PAGE.STS 1).blockOn (Slot.fxp 0) = false
      ∧ (∀ x ∈ [s, s.setErr (Slot.fxp 0) Off.FXP.FXPERR 3], reachOf (x.reaches 0 4096 (.phys 0x100000)) = (0, 0x100000)
        ∧ reachOf (x.reaches 0 4096 (.phys 0x100001)) = (3, 0) ∧ x.inboundOk 0 0x100000 4096 true = true)
      ∧ s.inboundHeld 0 (.read (.phys 0x100000) 4096) = false ∧ s.inboundHeld 0 (.write (.phys 0x100000) (zeros 64) true) = false
      ∧ held.inboundHeld 0 (.read (.phys 0x100000) 64) = true ∧ held.inboundHeld 0 (.write (.phys 0x100000) (zeros 64) false) = true
      ∧ s.inboundOk 0 0x100000 4096 false = true
      ∧ lost.inboundOk 0 0x100000 64 true = false ∧ lost.inboundOk 0 0x100000 64 false = false ∧ lost.inboundHeld 0 (.read (.phys 0x100000) 64) = false)
    ∧ (let s := windowed 3
       s.portUp 0 = true ∧ s.parked = [] ∧ s.blockOn (Slot.fxp 0) = true
        ∧ reachOf (s.reaches 0 8 (.bar2 0x3FFFF8)) = (1, 0xF300003FFFF8) ∧ 0xF300003FFFF8 % 8 = 0 ∧ 0xF300003FFFFC % 8 ≠ 0
        ∧ reachOf (s.reaches 0 4 (.bar2 0x3FFFFC)) = (1, 0xF300003FFFFC) ∧ reachOf (s.reaches 0 4 (.bar4 0x3FFC)) = (2, 0x3FFC)
        ∧ s.inboundHeld 0 (.read (.bar2 0x3FFFF8) 8) = false ∧ s.inboundHeld 0 (.write (.bar2 0x3FFFF8) (zeros 8) false) = false
        ∧ s.inboundHeld 0 (.read (.bar4 0x3FFC) 4) = false ∧ s.inboundHeld 0 (.write (.bar4 0x3FFC) (zeros 4) false) = false
        ∧ reachOf ((s.setErr (Slot.fxp 0) Off.FXP.FXPERR 3).reaches 0 4 (.bar4 0x3FFC)) = (2, 0x3FFC)
        ∧ s.inboundHeld 0 (.write (.bar4 0x3FFC) (zeros 4) true) = false) := by
  decide +kernel

/-- EndpointConfiguration: an endpoint that is enabled, one that is Quiesced, one without its link, and a port in another mode. -/
theorem wit_EndpointConfiguration :
    (let s := ported 3 1
     (s.flag (Slot.fxp 0) Off.PAGE.CTL 0 = true ∧ s.portMode 0 = 3) ∧ s.parked = [] ∧ s.blockOn (Slot.fxp 0) = true
      ∧ (s.setReg (Slot.fxp 0) Off.PAGE.STS 1).blockOn (Slot.fxp 0) = false
      ∧ (s.admits .context = true ∧ s.inRst (Slot.fxp 0) = false ∧ s.resv = []) ∧ s.portUp 0 = true)
    ∧ (ported 2 1).portMode 0 ≠ 3 ∧ (ported 3 0).portUp 0 = false
    ∧ (let s := ported 2 1
       ¬(s.flag (Slot.fxp 0) Off.PAGE.CTL 0 = true ∧ s.portMode 0 = 3)
        ∧ (s.admits .context = true ∧ s.inRst (Slot.fxp 0) = false ∧ s.blockOn (Slot.fxp 0) = true ∧ s.resv = [])) := by decide +kernel

/-! ## The Mantel -/

/-- MastershipAndClocks: no holder, a holder whose beat is at its limit and one past it, and the holder itself; the clocks. -/
theorem wit_MastershipAndClocks :
    (let claims (holder age : Nat) : State := (machine.setReg Slot.man Off.MAN.TOKEN holder).setReg Slot.man Off.MAN.HBAGE (age * 2 ^ 32)
     let limit := machine.beatLimit
     (coreOf .north ≠ 0 ∧ machine.reachesRegs .north = true)
      ∧ ((claims 0 0).holder = 0 ∧ (claims 2 (limit + 1)).beatLimit < (claims 2 (limit + 1)).fld Slot.man Off.MAN.HBAGE (ageAt 2) 32)
      ∧ ((claims 2 limit).holder ≠ 0 ∧ (claims 2 limit).fld Slot.man Off.MAN.HBAGE (ageAt 2) 32 ≤ (claims 2 limit).beatLimit)
      ∧ (claims 1 0).holder = coreOf .north)
    ∧ (debugged 2 plain).dbgLevel = 2
    ∧ (let s := (operating [Slot.clk] machine).setReg Slot.clk Off.CLK.TOD 5
       (s.admits .context = true ∧ s.inRst Slot.clk = false ∧ s.boot = true ∧ ({ s with boot := false } : State).boot = false)
        ∧ s.tod ≤ (5 : Word).toNat ∧ (4 : Word).toNat < s.tod)
    ∧ ((machine.setReg Slot.clk Off.CLK.CLKSTS 2).flag Slot.clk Off.CLK.CLKSTS 1 = true
        ∧ (machine.setReg Slot.clk Off.CLK.CLKSTS 4).flag Slot.clk Off.CLK.CLKSTS 2 = true) := by decide +kernel

/-- Readings of 25 degrees. -/
def readings : Readings := { hearths := Vector.replicate 8 25, bases := Vector.replicate 4 25, vin := 0 }

/-- PowerAndHeat: a stove in reset; readings below the set point with full duty; a brown-out one below its limit, and a recovery; and the right keys. -/
theorem wit_PowerAndHeat :
    (∃ x ∈ (machine.resetStove 63).resets, 1 < x.2) ∧
    (let s := machine.setReg Slot.pwr Off.PWR.THROTTLE 0x77777777
     let s1 := s.showReadings readings
     s.mantel.vsb = true ∧ (∀ t ∈ sensorTemps readings, t < (s1.tset : Int) - 2) ∧ (∀ h < 8, 7 ≤ s1.fld Slot.pwr Off.PWR.THROTTLE (4 * h) 4))
    ∧ (let s : State := { machine with mantel := { machine.mantel with hot := true, granting := true, core := true } }
       s.mantel.hot = true ∧ s.mantel.granting = true ∧ s.mantel.core = true ∧ (2499 : BitVec 16).toNat < s.brownMv
        ∧ s.brownMv + 100 < (2801 : BitVec 16).toNat ∧ (2449 : BitVec 16).toNat < 2450)
    ∧ (let s := operating [Slot.pwr, Slot.ash] (machine.setReg Slot.dev Off.DEV.SERIAL 7)
       s.admits .north = true ∧ s.admits .context = true ∧ s.inRst Slot.pwr = false ∧ s.inRst Slot.ash = false ∧ (7 : BitVec 32).toNat = s.serialKey) := by
  decide +kernel

/-! ## Resets, start-up and management -/

/-- The machine with start-up at a step. -/
def started (step : Nat) : State :=
  { operating [Slot.rst] (machine.setReg Slot.dev Off.DEV.SERIAL 7) with mantel := { machine.mantel with core := true } } |>.setReg Slot.rst Off.RST.BOOTSTEP step

/-- ResetCommands: before and after a thermal trip, at the last step before a reset counts and at the first, the right key and a wrong
one, and the last hearth. -/
theorem wit_ResetCommands :
    ((started 9).coldRefused = false ∧ (started 9).mantel.vsb = true
      ∧ ({ started 9 with mantel := { (started 9).mantel with tripped := true, hot := true } } : State).coldRefused = true)
    ∧ ((started 9).admits .context = true ∧ (started 9).inRst Slot.rst = false)
    ∧ ((7 : BitVec 32).toNat = (started 9).serialKey ∧ (8 : BitVec 32).toNat ≠ (started 9).serialKey ∧ (7 : BitVec 6).toNat < 8)
    ∧ ((started 9).rstSts false).flag (Slot.hrtA ((63 : BitVec 6).toNat / 8)) Off.PAGE.STS 4 = false
    ∧ (((started 6).rstSts false).bootReached = 6 ∧ ((started 7).rstSts false).bootReached = 7) := by decide +kernel

/-- StartUp: a power-up with each fault and none, and RELEASE inside and outside the boot window. -/
theorem wit_StartUp :
    (machine.mantel.vsb = true ∧ machine.mantel.core = false ∧ machine.mantel.down = false ∧ machine.mantel.tripped = false
      ∧ machine.flag Slot.rst Off.RST.BOOTSTEP 12 = false)
    ∧ ((started 9).admits .context = true ∧ (started 9).inRst Slot.rst = false ∧ (started 9).boot = true
      ∧ ({ started 9 with boot := false } : State).boot = false) := by decide +kernel

/-- A request with a payload. -/
def request (payload : List Byte) : Mgmt := { iface := .uart, tag := 3, payload := payload }

/-- The firmware runs, or has not started. -/
def managed (firmware : Bool) : State :=
  (started (if firmware then 9 else 2)).setReg Slot.man Off.MAN.CORESTS (if firmware then 3 else 0)

/-- ManagementRequests: each level with its last target, the last entry of the ash log and one past it, the serial number and another,
and each request with and without firmware. -/
theorem wit_ManagementRequests :
    ((managed true).mantel.vsb = true ∧ (managed true).firmware = true ∧ (managed false).firmware = false ∧ (managed false).mantel.vsb = true)
    ∧ (leNat [0xFF, 3] < 1024 ∧ 1024 ≤ leNat [0, 4])
    ∧ ((managed true).serialIs (leBytes 8 8) = false ∧ (managed true).serialIs (leBytes 8 7) = true)
    ∧ (4 < (managed true).bootReached ∧ ((managed true).setReg Slot.sec Off.SEC.RNGSTS 1).rngOk = true) := by decide +kernel

/-- ManagementRequests, a reset of each level. -/
theorem wit_ManagementRequests_reset :
    ([((1 : Byte), (63 : Byte)), (2, 7), (3, 0), (4, 0)].all fun x => let r := request ([x.1, x.2] ++ leBytes 8 7)
       decide (r.payload.length = 10 ∧ 1 ≤ leNat (r.payload.take 1) ∧ leNat (r.payload.take 1) ≤ 4 ∧ leNat (sliceBytes r.payload 1 1) < 64
        ∧ (leNat (r.payload.take 1) = 2 → leNat (sliceBytes r.payload 1 1) < 8))
        && (managed true).serialIs (r.payload.drop 2) && !(managed true).resetDropped (leNat (r.payload.take 1)) (leNat (sliceBytes r.payload 1 1)) && !(managed true).coldRefused)
      = true := by decide +kernel

/-- ManagementRequests, a dump of a locked stove and of one that is not. -/
theorem wit_ManagementRequests_dump :
    (let s := (managed true).setReg (Slot.stv 63) Off.STV.STATUS 1
     s.flag (Slot.stv (leNat [63])) Off.STV.STATUS 0 && !(managed true).flag (Slot.stv (leNat [63])) Off.STV.STATUS 0
      && (s.dump 63).mantel.vsb && s.firmware) = true := by decide +kernel

/-- ManagementRequests, a configuration record that is accepted and one that is not, and a chunk of a recovery image. -/
theorem wit_ManagementRequests_boot :
    (let s := (managed true).setReg Slot.rst Off.RST.BOOTSTEP (4 + 5 * 2 ^ 4 + 2 ^ 12)
     let good : State := { s with mantel := { s.mantel with nvDigest := BitVec.ofNat 256 (leNat (sm3 (zeros 1536))) } }
     let bad : State := { s with mantel := { s.mantel with nvDigest := 0 } }
     (s.firmware = true ∧ s.reg Slot.rst Off.RST.BOOTSTEP = 4 + 5 * 2 ^ 4 + 2 ^ 12)
      ∧ (good.acceptRecord (zeros 1536)).2 = true ∧ (bad.acceptRecord (zeros 1536)).2 = false ∧ (bad.acceptRecord (zeros 1536)).1.mantel.vsb = true)
    ∧ (let s := (managed true).setReg Slot.rst Off.RST.BOOTSTEP 3
       let s : State := { s with mantel := { s.mantel with env := { bootsel := 3 } } }
       8 ≤ (zeros 9).length ∧ s.mantel.env.bootsel = 3 ∧ s.reg Slot.rst Off.RST.BOOTSTEP = 3 ∧ Iface.uart ≠ .jtag ∧ s.firmware = true
        ∧ (s.recoveryChunk 0 false [0]).2 = true ∧ (s.recoveryChunk 0 false [0]).1.mantel.vsb = true) := by decide +kernel

/-! ## Privilege, frames and the whole machine -/

/-- PrivilegeTraps: each privileged instruction, and a change of AM, in user state; and the last OP, which is not assigned. -/
theorem wit_PrivilegeTraps :
    (privilegedOps.all fun a => readies (ins 0 0 0 0) (live (user plain)) fun b _ => a.2.2.fmts.contains 0 && !b.psw.sup) = true
    ∧ ([((0x020 : BitVec 12), (0xFFFFFFFFFFFFF7FF : Word)), (0x021, 0x800)].all fun x =>
        let i := ins 0 0x8000 0 (sp 0 8)
        starts x.1 shapePswOp i (live { (user plain).setG 8 x.2 with psw := { (user plain).psw with am := x.1 == 0x020 } }) fun c => met (formOpnd i.word.opd2 8 [.load] c) fun o c1 =>
          met (readVal o 8 c1) fun v c2 =>
            let new := if x.1 = 0x020 then c2.b.psw.control &&& v else c2.b.psw.control ||| v
            decide ((new ^^^ c2.b.psw.control) &&& fixedControl = 0 ∧ c2.b.psw.sup = false ∧ (new ^^^ c2.b.psw.control) &&& supControl ≠ 0)) = true
    ∧ (assignedOps.contains (0xFFF : BitVec 12).toNat = false ∧ readies (ins 0 0 0 0) (live plain) (fun _ _ => true) = true) := by
  decide +kernel

/-- RegisterFormFrame: each instruction, its destination its source too. -/
theorem wit_RegisterFormFrame :
    met (fetchCheck (Cpu.start (live plain) plain {})) (fun _ _ => true) = true
    ∧ (registerOps.all fun a => [1, 2].all fun r => let i := ins 4 0 (sp 0 1) (sp 0 r)
      starts a.2 shapeBoth i (live plain) fun c => decide (spMode i.word.opd1 = 0 ∧ spMode i.word.opd2 = 0 ∧ c.b.psw.fom = false)) = true := by
  decide +kernel

/-- StoreFormFrame: a store over two lines. -/
theorem wit_StoreFormFrame :
    (let i := ins 4 0 (sp 4 3 60) (sp 0 1)
     (starts 0x000 shapeMov i (live plain) fun c => met (formMove i.word c) fun r c1 => match r.1 with
        | .mem ps => ps.length == 2 && ps.all fun p => !p.own && c1.s.ordinary p.pa
        | _ => false)
      && match exec (.mov ⟨i, none⟩) (live plain) with
        | .next _ => true
        | _ => false) = true := by decide +kernel

/-- EncodingsRoundTrip: the greatest value of one byte and of 31. -/
theorem wit_EncodingsRoundTrip :
    ∀ x ∈ [(1, 9), (1, -9), (31, (capacity 31 : Int) - 1)], 0 < x.1 ∧ x.2.natAbs < capacity x.1 := by decide +kernel

/-- ResetLeaves: a page that start-up holds, and one that it does not. -/
theorem wit_ResetLeaves :
    (pageKind Slot.grt).map (fun k => (k.quiesces, k.held)) = some (true, true)
    ∧ (List.range 256).any (fun n => ((pageKind n).map (fun k => k.quiesces && !k.held)).getD false) = true := by decide +kernel

/-- EmptyQueueIsOneClock: the root PLL locked and no step. -/
theorem wit_EmptyQueueIsOneClock :
    let s := State.reset.setReg Slot.clk Off.CLK.CLKSTS 8
    s.pending = [] ∧ s.mantel.vsb = true ∧ s.flag Slot.clk Off.CLK.CLKSTS 3 = true ∧ s.todRate = 0 ∧ s.stepRem = 0 ∧ s.tod + 32 < 2 ^ 64 := by
  decide +kernel

/-- The machine after reset with two commands waiting. -/
def waiting : State := { State.reset with pending := [.vsbRise, .quiesceRequest .north 0x13] }

/-- A step that goes on. -/
def goesOn (s : State) : Bool :=
  match step s with
  | .next _ => true
  | .fault _ => false
  | .refused _ => false

/-- StepsKeepQueueAndFuses: a step with two commands waiting. -/
theorem wit_StepsKeepQueueAndFuses : waiting.queueWf = true ∧ goesOn waiting = true := by decide +kernel

/-- StepsKeepCanonicalForms: the same, and a step of a machine with bytes in memory. -/
theorem wit_StepsKeepCanonicalForms :
    ∀ s ∈ [waiting, directory waiting], Memory.wf s.mem = true ∧ Registers.wf s.regs = true ∧ goesOn s = true := by decide +kernel

/-! ## Ill-formed commands -/

/-- The word of an instruction that stands for any. -/
def nop : Word112 := { fmt := 0, len := 0, opd1 := 0, opd2 := 0, opd3 := 0 }

theorem test_wf_other_op : (Instr.mov ⟨{ stove := 0, flue := 0, word := nop, env := {} }, some 0x010⟩).wf = false := by decide

theorem test_wf_refire_tries :
    ([List.replicate 9 {}, [{ a := [{ item := 0, kind := .value 0 }] }], [{ b := [{ item := 0, kind := .dest 0 }] }], [{ shelf := [(64, 1)] }]].all
      fun (us : List Upset) => !(Instr.add { stove := 0, flue := 0, word := nop, env := { upsets := us } }).wf) = true := by decide

theorem test_wf_memory_findings :
    [MemFinding.filled 0 { flips := [(0, 0)] }, .filled 0 { flips := [(1, 1), (1, 2)] }, .retried 0, .burst 40].all
      (fun f => !(Instr.microwordReissue 0 0 { mem := [f] }).wf) = true := by decide

theorem test_wf_write_back :
    (Instr.lineWriteBack 0 (.farError (zeros 63) false)).wf = false ∧ (Instr.lineWriteBack 0 (.merged { flips := [(0, 0)] })).wf = false := by decide

theorem test_wf_registers : (Instr.registerWrite .north 4 0).wf = false ∧ (Instr.rcRead 4).wf = false
    ∧ (Instr.debugAccess (.readReg 4)).wf = false ∧ (Instr.debugAccess (.writeReg 4 0)).wf = false := by decide

theorem test_wf_debug_memory : (Instr.debugAccess (.readMem 0 4097)).wf = false ∧ (Instr.debugAccess (.writeMem 0 (zeros 4097))).wf = false := by
  decide +kernel

theorem test_wf_frame : (Instr.frameReceive 0 true (zeros 13)).wf = false := by decide

theorem test_wf_roce :
    (Instr.roceSendReceive (headOf 0) { first := true, last := true, imm := none, ud := none, payload := zeros 4097 }).wf = false
    ∧ (let u : UdInfo := { qkey := 0, srcQp := 0, frame := [], doff := 1 }
       Instr.roceSendReceive (headOf 0) { first := true, last := true, imm := none, ud := some u, payload := [] }).wf = false
    ∧ (Instr.rdmaWriteReceive (headOf 0) { first := true, last := true, va := 0, rkey := 0, len := 0, payload := zeros 4097 }).wf = false := by
  decide +kernel

theorem test_wf_records : (Instr.records fromPrimary 0 0 []).wf = false ∧ (Instr.records fromPrimary 0 0 (List.replicate 33 0)).wf = false := by
  decide +kernel

theorem test_wf_channels : (Instr.failcmd .north 40).wf = false ∧ (Instr.memRetrain 40 true).wf = false := by decide

theorem test_wf_scrub :
    (Instr.scrubLine 0 { flips := [(0, 0)] } {}).wf = false ∧ (Instr.scrubLine 0 {} { flips := [(0, 0)] }).wf = false := by
  decide

theorem test_wf_partner :
    [63, 64].all (fun c => !(Instr.fxpLinkUp 0 { width := 0, gen := 0, type3 := true, capacity := c, memory := some [(64, 0)], poison := [] }).wf)
      = true := by decide

theorem test_wf_inbound : [(0 : BitVec 13), 4097].all (fun n => !(Instr.inboundRead 0 (.phys 0) n).wf) = true
    ∧ (Instr.inboundWrite 0 (.phys 0) ⟨[], false⟩).wf = false ∧ (Instr.inboundWrite 0 (.phys 0) ⟨zeros 4097, true⟩).wf = false := by decide +kernel

theorem test_wf_hearth : (Instr.rstcmdHearth .north 8 0).wf = false := by decide

theorem test_wf_management : (Instr.ident (request (zeros 4097))).wf = false := by decide +kernel

theorem test_wf_flash :
    flashWf (some ({ present := true, image := zeros 0x1FF0001, copy0 := [], copy1 := [] }, { present := true, image := [], copy0 := [], copy1 := [] }))
      = decide ((zeros 0x1FF0001).length ≤ 0x1FF0000) := by
  simp [flashWf, Flash.wf]

/-! ## Results worked out by hand, or given by a standard -/

/-- What a command leaves in the bank of context 5. -/
def leaves (i : Instr) (s : State) (k : Bank → Bool) : Bool :=
  match exec i s with
  | .next t => (t.bankOf 5).any k
  | _ => false

/-- The greatest value plus 7 wraps, with CC 0b11; and IA moves on by 16. -/
theorem test_add_wraps :
    leaves (.add (ins 4 0 (sp 0 1) (sp 0 6))) (live plain) (fun b => b.getG 1 == 0x8000000000000006 && b.psw.cc == 3 && b.psw.ia == 0x8010) = true := by
  decide +kernel

/-- 7 less -1 is 8. -/
theorem test_sub : leaves (.sub (ins 4 0 (sp 0 1) (sp 0 5))) (live plain) (fun b => b.getG 1 == 8 && b.psw.cc == 2) = true := by decide +kernel

/-- The least value times -1 overflows; the high half of its unsigned product is the value less 1. -/
theorem test_mul : leaves (.mul (ins 4 0 (sp 0 7) (sp 0 5))) (live plain) (fun b => b.getG 7 == 0x8000000000000000 && b.psw.cc == 3) = true
    ∧ leaves (.mulh (ins 4 0x8000 (sp 0 7) (sp 0 5))) (live plain) (fun b => b.getG 7 == 0x7FFFFFFFFFFFFFFF && b.psw.cc == 2) = true := by
  decide +kernel

/-- -7 by 3 is -2 with remainder -1: the quotient is truncated. -/
theorem test_divide :
    leaves (.div (ins 4 0 (sp 0 8) (sp 0 2))) (live (plain.setG 8 (-7))) (fun b => b.getG 8 == -2 && b.psw.cc == 1) = true
    ∧ leaves (.rem (ins 4 0 (sp 0 8) (sp 0 2))) (live (plain.setG 8 (-7))) (fun b => b.getG 8 == -1 && b.psw.cc == 1) = true := by decide +kernel

/-- 7 and 3 is 3, 7 or 8 is 15, and a value exclusive-or itself is 0. -/
theorem test_and_or_xor :
    leaves (.and (ins 4 0 (sp 0 1) (sp 0 2))) (live plain) (fun b => b.getG 1 == 3) = true
    ∧ leaves (.or (ins 4 0 (sp 0 1) (sp 3 0 8))) (live plain) (fun b => b.getG 1 == 15) = true
    ∧ leaves (.xor (ins 4 0 (sp 0 1) (sp 0 1))) (live plain) (fun b => b.getG 1 == 0 && b.psw.cc == 0) = true := by decide +kernel

/-- R290's example in open timing: MOV.Q G1, [G3+0x3C] with its instruction line and both lines of its operand in near memory is charged
722; in steady timing its count is 2. -/
theorem test_open_charge :
    (let i := ins 4 0 (sp 0 1) (sp 4 3 0x3C)
     leaves (.mov ⟨i, none⟩) ((live plain).setFlag (Slot.hrtA 0) Off.HRTA.MODE 0 true) (fun b => b.charged == 722)
      && leaves (.mov ⟨i, none⟩) ((live plain).setFlag (Slot.hrtA 0) Off.HRTA.MODE 0 false) (fun b => b.charged == 2)) = true := by decide +kernel

/-- +5 plus +7 is +12 in packed decimal; a store is seen by its own context at once, and by the machine when it is drained. -/
theorem test_addp :
    (match exec (.addp (ins 5 (BitVec.ofNat 16 0x0000) (sp 4 3) (sp 4 4))) (withData [0x5C] [0x7C] (leave plain)) with
      | .next t => t.byte 0x100000 == 0x5C && (t.drain 5).byte 0x100000 == 0x2C && (t.bankOf 5).any (fun b => b.psw.cc == 3)
      | _ => false) = true
    ∧ packedBytes 2 12 = [0x01, 0x2C] ∧ packedBytes 2 (-12) = [0x01, 0x2D] := by decide +kernel

/-- 1.5 and 3.0 are 4.5. -/
theorem test_fadd : leaves (.fadd (ins 7 0 (sp 2 1) (sp 2 2))) (live floats) (fun b => b.getF 1 == 0x4012000000000000) = true := by decide +kernel

/-- SM3 of "abc" (GB/T 32905, example 1). -/
theorem test_sm3 : beNat (sm3 [0x61, 0x62, 0x63]) = 0x66C7F0F462EEEDD9D1F2D46BDC10E4E24167C4875CF2F7A2297DA02B8F4BA8E0 := by decide +kernel

/-- SM4 of the block that is its key (GB/T 32907, example 1). -/
theorem test_sm4 :
    sm4Enc (sm4Schedule (beBytes 16 0x0123456789ABCDEFFEDCBA9876543210)) 0x0123456789ABCDEFFEDCBA9876543210 = 0x681EDF34D206965E86B3E94F536E4246 := by
  decide +kernel

/-- CRC-32C of "123456789". -/
theorem test_crc : crc32cFrom 0 ((List.range 9).map fun i => BitVec.ofNat 8 (0x31 + i)) = 0xE3069283 := by decide +kernel

end Sys2Proof.Tests
end

section
/-!
SUPPORT. The laws of an instruction that checks its encoding, forms its operands and works on what they read; the meanings of the
binary and the control family as such work; and the statements of R139 and R152 to R157 settled with them.
-/

namespace Sys2Proof.Machine

/-! ## An instruction that starts and forms its operands -/

/-- R138: an instruction whose body checks its encoding, forms its operands and then works on them completes when that work does. -/
theorem starts_forms {α : Type} {body : Body} {sh : Shape} {i : Issue} {s t : State} {c c1 c2 : Cpu} {n : Nat} {form : M α}
    {rest : α → M Nat} {r : α} (h : Starts body.op sh i s c)
    (hb : body.run i.word = (checkShape sh i.word >>= fun _ => form >>= rest)) (hf : form c = .ok r c1)
    (hr : rest r c1 = .ok n c2) (ht : c2.Retires n t) : issue body i s = .next (s.after t) := by
  have hrun : body.run i.word c = .ok n c2 := by
    rw [hb, bind_ok (starts_checkShape h), bind_ok hf, hr]
  exact starts_completes h hrun ht

/-- R153: a logical result sets its code and is written. -/
theorem deliverLogic_run {o : Opnd} {n v : Nat} {c c' : Cpu} (hw : writeVal o n v (c.withCc (zeroCc v)) = .ok () c') :
    deliverLogic o n v c = .ok () c' :=
  (bind_ok (setCc_run _ c)).trans hw

/-- R147, R148: an exact result that fits, or that overflows while FOM is 0, sets its code and is written wrapped. -/
theorem deliverArith_run {o : Opnd} {n : Nat} {e : Int} {c c' : Cpu} (h : overflows (8 * n) e = true → c.b.psw.fom = false)
    (hw : writeVal o n (wrapInt (8 * n) e) (c.withCc (exactCc (8 * n) e)) = .ok () c') : deliverArith o n e c = .ok () c' :=
  (bind_ok (setArith_run h)).trans hw

/-- A check whose condition is the negation of what holds passes. -/
theorem raiseIf_not {b : Bool} {code : Nat} {c : Cpu} (h : b = true) : raiseIf (!b) code c = .ok () c :=
  raiseIf_false (by rw [h, Bool.not_true])

/-! ## The commands of the two families -/

section Arms

variable (i : Issue) (s : State)

theorem exec_and : exec (.and i) s = issue (both 0x020 andBody) i s := rfl
theorem exec_or : exec (.or i) s = issue (both 0x021 orBody) i s := rfl
theorem exec_xor : exec (.xor i) s = issue (both 0x022 xorBody) i s := rfl
theorem exec_not : exec (.not i) s = issue (both 0x023 notBody) i s := rfl
theorem exec_shl : exec (.shl i) s = issue (both 0x030 shlBody) i s := rfl
theorem exec_shr : exec (.shr i) s = issue (both 0x031 shrBody) i s := rfl
theorem exec_sha : exec (.sha i) s = issue (both 0x032 shaBody) i s := rfl
theorem exec_rot : exec (.rot i) s = issue (both 0x033 rotBody) i s := rfl
theorem exec_cmp : exec (.cmp i) s = issue (both 0x040 cmpBody) i s := rfl
theorem exec_tst : exec (.tst i) s = issue (both 0x041 tstBody) i s := rfl
theorem exec_br : exec (.br i) s = issue (same 0x100 brBody) i s := rfl
theorem exec_brc : exec (.brc i) s = issue (same 0x101 brcBody) i s := rfl
theorem exec_call : exec (.call i) s = issue (same 0x102 callBody) i s := rfl
theorem exec_ret : exec (.ret i) s = issue (same 0x103 retBody) i s := rfl
theorem exec_rep : exec (.rep i) s = issue (same 0x104 repBody) i s := rfl

end Arms

/-! ## Logic and comparisons (R153, R154) -/

section Logic

variable {i : Issue} {s t : State} {c c1 c2 : Cpu} {o : Opnd} {x y : Nat}

/-- R153: AND, OR and XOR of two operands, outside the PSW forms of AND and OR. -/
theorem exec_logicOps {a : (Issue → Instr) × BitVec 12 × (Nat → Nat → Nat)} (ha : a ∈ logicOps) (hfmt : i.word.fmt ≠ 0)
    (h : Starts a.2.1 shapeBoth i s c) (hf : formBoth i.word c = .ok (o, x, y) c1)
    (hw : writeVal o (fmtBytes i.word.fmt) (a.2.2 x y) (c1.withCc (zeroCc (a.2.2 x y))) = .ok () c2) (ht : c2.Retires 1 t) :
    exec (a.1 i) s = .next (s.after t) := by
  simp only [logicOps, List.mem_cons, List.not_mem_nil, or_false] at ha
  obtain rfl | rfl | rfl := ha
  · exact (exec_and i s).trans (starts_forms h (if_neg hfmt) hf (bind_ok (deliverLogic_run hw)) ht)
  · exact (exec_or i s).trans (starts_forms h (if_neg hfmt) hf (bind_ok (deliverLogic_run hw)) ht)
  · exact (exec_xor i s).trans (starts_forms h rfl hf (bind_ok (deliverLogic_run hw)) ht)

/-- R153: NOT delivers the bits inverted, which are those of the greatest value less the operand. -/
theorem exec_not_complements (h : Starts 0x023 shapeNot i s c) (hf : formMove i.word c = .ok (o, y) c1)
    (hw : writeVal o (fmtBytes i.word.fmt) (invBits (8 * fmtBytes i.word.fmt) y)
      (c1.withCc (zeroCc (invBits (8 * fmtBytes i.word.fmt) y))) = .ok () c2) (ht : c2.Retires 1 t) :
    exec (.not i) s = .next (s.after t) :=
  (exec_not i s).trans (starts_forms h rfl hf (bind_ok (deliverLogic_run hw)) ht)

/-- R154: CMP writes CC alone, from its operands unsigned when FLAG is 1 and signed otherwise. -/
theorem exec_cmp_setsCc (h : Starts 0x040 (shapeCompare flagOnly) i s c) (hf : formSources i.word c = .ok (x, y) c1)
    (ht : (c1.withCc (if lenFlag i.word.len then cmpCc x y
      else cmpCc (signed (8 * fmtBytes i.word.fmt) x) (signed (8 * fmtBytes i.word.fmt) y))).Retires 1 t) :
    exec (.cmp i) s = .next (s.after t) :=
  (exec_cmp i s).trans (starts_forms h rfl hf (bind_ok (setCc_run _ c1)) ht)

/-- R153: TST writes CC alone. -/
theorem exec_tst_setsCc (h : Starts 0x041 (shapeCompare (fun w => w.len == 0)) i s c) (hf : formSources i.word c = .ok (x, y) c1)
    (ht : (c1.withCc (tstCc (x &&& y) y)).Retires 1 t) : exec (.tst i) s = .next (s.after t) :=
  (exec_tst i s).trans (starts_forms h rfl hf (bind_ok (setCc_run _ c1)) ht)

end Logic

/-! ## Shifts (R152) -/

section Shifts

variable {i : Issue} {s t : State} {c c1 c2 : Cpu} {o : Opnd} {x m : Nat}

/-- R152: SHL, whose result is 0 at a count of the width or more. -/
theorem exec_shl_delivers (h : Starts 0x030 (shapeShift false i.word) i s c) (hf : formShift i.word c = .ok (o, x, m) c1)
    (hw : writeVal o (fmtBytes i.word.fmt) (shlUnit .straight (8 * fmtBytes i.word.fmt) x m)
      (c1.withCc (zeroCc (shlUnit .straight (8 * fmtBytes i.word.fmt) x m))) = .ok () c2) (ht : c2.Retires 1 t) :
    exec (.shl i) s = .next (s.after t) :=
  (exec_shl i s).trans (starts_forms h rfl hf (bind_ok (deliverLogic_run hw)) ht)

/-- R152: SHR, whose result is 0 at a count of the width or more. -/
theorem exec_shr_delivers (h : Starts 0x031 (shapeShift false i.word) i s c) (hf : formShift i.word c = .ok (o, x, m) c1)
    (hw : writeVal o (fmtBytes i.word.fmt) (shrUnit .straight (8 * fmtBytes i.word.fmt) x m)
      (c1.withCc (zeroCc (shrUnit .straight (8 * fmtBytes i.word.fmt) x m))) = .ok () c2) (ht : c2.Retires 1 t) :
    exec (.shr i) s = .next (s.after t) :=
  (exec_shr i s).trans (starts_forms h rfl hf (bind_ok (deliverLogic_run hw)) ht)

/-- R148, R152: SHA to the left multiplies by the power of two, under the overflow rule. -/
theorem exec_sha_left (h14 : bitAt i.word.len.toNat 14 = true)
    (hov : overflows (8 * fmtBytes i.word.fmt) (signed (8 * fmtBytes i.word.fmt) x * (2 ^ m : Nat)) = true → c1.b.psw.fom = false)
    (h : Starts 0x032 (shapeShift true i.word) i s c) (hf : formShift i.word c = .ok (o, x, m) c1)
    (hw : writeVal o (fmtBytes i.word.fmt)
      (wrapInt (8 * fmtBytes i.word.fmt) (signed (8 * fmtBytes i.word.fmt) x * (2 ^ m : Nat)))
      (c1.withCc (exactCc (8 * fmtBytes i.word.fmt) (signed (8 * fmtBytes i.word.fmt) x * (2 ^ m : Nat)))) = .ok () c2)
    (ht : c2.Retires 1 t) : exec (.sha i) s = .next (s.after t) :=
  (exec_sha i s).trans
    (starts_forms h rfl hf ((congrFun (if_pos h14) c1).trans (bind_ok (deliverArith_run hov hw))) ht)

/-- R152: SHA to the right divides by the power of two towards minus infinity. -/
theorem exec_sha_right (h14 : bitAt i.word.len.toNat 14 = false) (h : Starts 0x032 (shapeShift true i.word) i s c)
    (hf : formShift i.word c = .ok (o, x, m) c1)
    (hw : writeVal o (fmtBytes i.word.fmt)
      (wrapInt (8 * fmtBytes i.word.fmt) (signed (8 * fmtBytes i.word.fmt) x / (2 ^ m : Nat)))
      (c1.withCc (signCc (signed (8 * fmtBytes i.word.fmt) x / (2 ^ m : Nat)))) = .ok () c2)
    (ht : c2.Retires 1 t) : exec (.sha i) s = .next (s.after t) :=
  (exec_sha i s).trans
    (starts_forms h rfl hf ((congrFun (if_neg (Bool.eq_false_iff.mp h14)) c1).trans ((bind_ok (setCc_run _ c1)).trans (bind_ok hw))) ht)

/-- R152: ROT to the left by the count modulo the width, or to the right, which is to the left by the rest of the width. -/
theorem exec_rot_delivers {r : Nat}
    (hr : r = rotl (8 * fmtBytes i.word.fmt) x (if bitAt i.word.len.toNat 14 then m % (8 * fmtBytes i.word.fmt)
      else 8 * fmtBytes i.word.fmt - m % (8 * fmtBytes i.word.fmt)))
    (h : Starts 0x033 (shapeShift true i.word) i s c) (hf : formShift i.word c = .ok (o, x, m) c1)
    (hw : writeVal o (fmtBytes i.word.fmt) r (c1.withCc (zeroCc r)) = .ok () c2) (ht : c2.Retires 1 t) :
    exec (.rot i) s = .next (s.after t) := by
  subst hr
  exact (exec_rot i s).trans (starts_forms h rfl hf (bind_ok (deliverLogic_run hw)) ht)

end Shifts

/-! ## Control (R139, R155 to R157) -/

section Control

variable {i : Issue} {s t : State} {c c1 c2 c3 : Cpu} {a : Word} {ps : List Piece} {bs : List Byte}

/-- R156: BR goes to its target. -/
theorem exec_br_jumps (h : Starts 0x100 shapeBr i s c) (hf : formTarget i.word.opd1 c = .ok a c1)
    (ht : (c1.goes (.jump a)).Retires 1 t) : exec (.br i) s = .next (s.after t) :=
  (exec_br i s).trans (starts_forms h rfl hf (bind_ok (setNext_run _ c1)) ht)

/-- R156: BRC goes to its target when its mask names CC, and on to the next instruction otherwise. -/
theorem exec_brc_jumps (h : Starts 0x101 shapeBrc i s c) (hf : formTarget i.word.opd1 c = .ok a c1)
    (ht : (if bitAt i.word.len.toNat c1.b.psw.cc.toNat then c1.goes (.jump a) else c1).Retires 1 t) :
    exec (.brc i) s = .next (s.after t) := by
  refine (exec_brc i s).trans (starts_forms h rfl hf ((bind_ok (getPsw_run c1)).trans ?_) ht)
  by_cases hm : bitAt i.word.len.toNat c1.b.psw.cc.toNat = true
  · exact (congrFun (if_pos hm) c1).trans (by rw [if_pos hm]; rfl)
  · exact (congrFun (if_neg hm) c1).trans (by rw [if_neg hm]; rfl)

/-- R157: CALL pushes the address after it and goes to its target. -/
theorem exec_call_pushes (h : Starts 0x102 shapeCall i s c) (hf : formTarget i.word.opd1 c = .ok a c1)
    (hin : inSpace (addWrap (c1.b.getG 15).toNat (-8)) 8 = true)
    (hps : checkPieces [.store] .logical 8 none (pieces (addWrap (c1.b.getG 15).toNat (-8)) 8) c1 = .ok ps c2)
    (hfree : awaitLines ps c2 = .ok () c2) (hw : writePieces ps (wordBytes (c1.b.psw.ia + 16)) c2 = .ok () c3)
    (ht : Cpu.Retires ({ c3 with b := c3.b.setG 15 (BitVec.ofNat 64 (addWrap (c1.b.getG 15).toNat (-8))) }.goes (.jump a)) 2 t) :
    exec (.call i) s = .next (s.after t) :=
  (exec_call i s).trans (starts_forms h rfl hf ((bind_ok (readG_run 15 c1)).trans <| (bind_ok (getPsw_run c1)).trans <|
    (bind_ok (raiseIf_not hin)).trans <| (bind_ok hps).trans <| (bind_ok hfree).trans <| bind_ok hw) ht)

/-- R157: RET pops an aligned address and goes there. -/
theorem exec_ret_pops (h : Starts 0x103 shapeRet i s c) (hin : inSpace (c.b.getG 15).toNat 8 = true)
    (hps : checkPieces [.load] .logical 8 none (pieces (c.b.getG 15).toNat 8) c = .ok ps c1)
    (hneed : awaitNeeded ps c1 = .ok () c1) (hbs : readPieces ps false c1 = .ok bs c2) (hal : leNat bs % 16 = 0)
    (ht : Cpu.Retires ({ c2 with b := c2.b.setG 15 (BitVec.ofNat 64 (addWrap (c.b.getG 15).toNat 8)) }.goes
      (.jump (BitVec.ofNat 64 (leNat bs)))) 2 t) :
    exec (.ret i) s = .next (s.after t) :=
  have haligned : (leNat bs % 16 != 0) = false := by rw [hal]; rfl
  (exec_ret i s).trans (starts_forms h rfl (readG_run 15 c) ((bind_ok (raiseIf_not hin)).trans <| (bind_ok hps).trans <|
    (bind_ok hneed).trans <| (bind_ok hbs).trans <| bind_ok (raiseIf_false haligned)) ht)

/-- R139: REP with a count of 0 skips the next instruction, and with one of 1 to 65,535 repeats it. -/
theorem exec_rep_loads {n : Nat} (hn : n = (c.b.getG (spBase i.word.opd1)).toNat) (h : Starts 0x104 shapeRep i s c) (hle : n ≤ 65535)
    (ht : (c.goes (.load (if n = 0 then { c.b.psw with ia := c.b.psw.ia + 32 }
      else { c.b.psw with ia := c.b.psw.ia + 16, rcnt := BitVec.ofNat 16 n }))).Retires 1 t) :
    exec (.rep i) s = .next (s.after t) := by
  subst hn
  have hfits : decide (65535 < (c.b.getG (spBase i.word.opd1)).toNat) = false := decide_eq_false (Nat.not_lt.mpr hle)
  refine (exec_rep i s).trans (starts_forms h rfl (readG_run _ c)
    ((bind_ok (raiseIf_false hfits)).trans <| (bind_ok (getPsw_run c)).trans ?_) ht)
  by_cases h0 : (c.b.getG (spBase i.word.opd1)).toNat = 0
  · exact (congrFun (if_pos h0) c).trans (by rw [if_pos h0]; rfl)
  · exact (congrFun (if_neg h0) c).trans (by rw [if_neg h0]; rfl)

end Control

/-! ## The statements -/

/-- Settles O6: each of the six forms its operands, then delivers through the logic unit or only sets CC. -/
theorem logicAndCompares : Obligations.LogicAndCompares := by
  refine ⟨⟨?logic, ?complement⟩, ?compares⟩
  case logic =>
    intro a ha i s t c c1 c2 o x y hfmt h hf hw ht
    exact exec_logicOps ha hfmt h hf hw ht
  case complement =>
    intro i s t c c1 c2 o y r h hf hw ht
    exact exec_not_complements h hf hw ht
  case compares =>
    intro i s t c c1 x y k
    exact ⟨exec_cmp_setsCc, exec_tst_setsCc⟩

/-- Settles O7, by cases on the shift and, for SHA, on its direction. -/
theorem shiftsDeliver : Obligations.ShiftsDeliver := by
  intro i s t c c1 c2 o x m ctor op left r cc k e d shl shr rot hop h hf hw ht
  simp only [Prod.mk.injEq] at hop
  obtain ⟨rfl, rfl, rfl, rfl, rfl⟩ | ⟨rfl, rfl, rfl, rfl, rfl⟩ | ⟨h14, hov, rfl, rfl, rfl, rfl, rfl⟩
    | ⟨h14, rfl, rfl, rfl, rfl, rfl⟩ | ⟨rfl, rfl, rfl, rfl, rfl⟩ := hop
  · exact exec_shl_delivers h hf hw ht
  · exact exec_shr_delivers h hf hw ht
  · exact exec_sha_left h14 hov h hf hw ht
  · exact exec_sha_right h14 h hf hw ht
  · exact exec_rot_delivers rfl h hf hw ht

/-- Settles O9: BR and BRC, then CALL and RET, then REP. -/
theorem controlInstructions : Obligations.ControlInstructions := by
  refine ⟨?branches, ?calls, ?repeats⟩
  case branches =>
    intro i s t c c1 a hf
    exact ⟨fun h => exec_br_jumps h hf, fun h => exec_brc_jumps h hf⟩
  case calls =>
    intro i s t c c1 c2 c3 a ps bs
    exact ⟨exec_call_pushes, exec_ret_pops⟩
  case repeats =>
    intro i s t c n h hle ht
    exact exec_rep_loads rfl h hle ht

end Sys2Proof.Machine
end

section
/-!
SUPPORT. The laws of POST, JAPP and DURW once their operands are formed (R243 to R246, R262, R267), and the statement of R245 settled
with them.
-/

namespace Sys2Proof.Machine

/-! ## The commands of the ledger family -/

section LedgerArms

variable (i : Issue) (s : State)

theorem exec_post : exec (.post i) s = issue (both 0x400 postBody) i s := rfl
theorem exec_japp : exec (.japp i) s = issue (same 0x401 jappBody) i s := rfl
theorem exec_durw : exec (.durw i) s = issue (same 0x402 durwBody) i s := rfl

end LedgerArms

/-! ## Giving back what an instruction holds (R244) -/

theorem giveLeaveBack_run (c : Cpu) : giveLeaveBack c = .ok () c.leaveBack := by
  unfold giveLeaveBack Cpu.leaveBack
  rw [bind_ok (get_run c)]
  cases c.b.leave <;> rfl

theorem leaveBack_pass (c : Cpu) : c.leaveBack.pass = c.pass := by
  unfold Cpu.leaveBack
  split <;> rfl

/-- Outside a refire pair the lines and the claim are released. -/
theorem releaseLines_run {c : Cpu} (hp : c.pass = .plain) : releaseLines c = .ok () c.released := by
  unfold releaseLines
  rw [bind_ok (get_run c)]
  exact congrFun (if_pos hp) c

/-- An instruction that releases what it holds, sets CC and counts `n`. -/
theorem releases_setsCc {c : Cpu} (hp : c.pass = .plain) (v : BitVec 2) (n : Nat) :
    (releaseLines >>= fun _ => setCc v >>= fun _ => (pure n : M Nat)) c = .ok n (c.released.withCc v) :=
  (bind_ok (releaseLines_run hp)).trans (bind_ok (setCc_run v _))

/-- R244: a POST that ends without its effect gives back its leave, its lines and its claim. -/
theorem postEnds_run {c : Cpu} (hp : c.pass = .plain) (v : BitVec 2) :
    postEnds v c = .ok () (c.leaveBack.released.withCc v) :=
  (bind_ok (giveLeaveBack_run c)).trans <|
    (bind_ok (releaseLines_run ((leaveBack_pass c).trans hp))).trans (setCc_run v _)

/-- A ring number in range passes its check. -/
theorem ringNumber_run {r : Nat} (h : r < 4096) (c : Cpu) : ringNumber r c = .ok () c :=
  raiseIf_false (decide_eq_false (Nat.not_le.mpr h))

/-! ## The outcome of a POST (R245) -/

/-- R245: the outcome is the refusal, when there is one, and is decided by the room in the ring otherwise. -/
theorem PostForm.outcome_eq (f : PostForm) (e : Ring) (w : Word112) :
    f.outcome e w = if f.refusal (lenL1 w.len) (lenL2 w.len) ≠ 0 then f.refusal (lenL1 w.len) (lenL2 w.len)
      else if e.full then 3 else 0 := by
  unfold PostForm.outcome PostForm.refusal
  by_cases hfits : capacity (lenL1 w.len) ≤ f.debit.natAbs ∨ capacity (lenL2 w.len) ≤ f.credit.natAbs
  · simp [hfits]
  · by_cases hlimit : limitRefuses f.x.lmode f.debit f.credit f.limit = true
    · simp [hfits, hlimit]
    · simp [hfits, hlimit]

theorem PostForm.refusal_ne_three (f : PostForm) (n1 n2 : Nat) : f.refusal n1 n2 ≠ 3 := by
  unfold PostForm.refusal
  split
  · decide
  · split <;> decide

/-- R245: the outcomes 0b10 and 0b01 are refusals, whatever the ring holds. -/
theorem PostForm.refusal_of_outcome {f : PostForm} {e : Ring} {w : Word112} (h : f.outcome e w = 1 ∨ f.outcome e w = 2) :
    f.refusal (lenL1 w.len) (lenL2 w.len) ≠ 0 ∧ f.outcome e w = f.refusal (lenL1 w.len) (lenL2 w.len) := by
  by_cases hr : f.refusal (lenL1 w.len) (lenL2 w.len) = 0
  · have hring : f.outcome e w = if e.full then 3 else 0 := by rw [f.outcome_eq, if_neg (not_not_intro hr)]
    rw [hring] at h
    exact absurd h (by cases e.full <;> decide)
  · exact ⟨hr, by rw [f.outcome_eq, if_pos hr]⟩

/-- R245: the outcome 0b11 is that of a POST without a refusal whose ring is full. -/
theorem PostForm.full_of_outcome {f : PostForm} {e : Ring} {w : Word112} (h : f.outcome e w = 3) :
    f.refusal (lenL1 w.len) (lenL2 w.len) = 0 ∧ e.full = true := by
  rw [f.outcome_eq] at h
  split at h
  · exact absurd h (f.refusal_ne_three _ _)
  · split at h
    · exact ⟨Classical.not_not.mp ‹_›, ‹_›⟩
    · simp at h

/-- R245: the outcome 0b00 is that of a POST without a refusal whose ring has room. -/
theorem PostForm.room_of_outcome {f : PostForm} {e : Ring} {w : Word112} (h : f.outcome e w = 0) :
    f.refusal (lenL1 w.len) (lenL2 w.len) = 0 ∧ e.full = false := by
  rw [f.outcome_eq] at h
  split at h
  · exact absurd h ‹_›
  · split at h
    · simp at h
    · exact ⟨Classical.not_not.mp ‹_›, Bool.eq_false_iff.mpr ‹_›⟩

/-! ## POST (R243 to R246) -/

section Post

variable {i : Issue} {s t : State} {c c1 c2 c3 c4 c5 c6 : Cpu} {f : PostForm} {e : Ring} {ps : List Piece}

/-- R244, R251: the effect of a POST is its record, its two balances and SEQ, all of them visible. -/
theorem PostForm.commit_run {n1 n2 : Nat} (ho : f.o3 = .mem ps)
    (hrec : appendRecord f.x.ring (f.record e.head c2.b c2.latch) c2 = .ok () c3)
    (hdebit : writePieces f.p1 (packedBytes n1 f.debit) c3 = .ok () c4)
    (hcredit : writePieces f.p2 (packedBytes n2 f.credit) c4 = .ok () c5)
    (hseq : writePieces (subPieces ps 0x18 8) (leBytes 8 e.head) c5 = .ok () c6) :
    f.commit e .straight n1 n2 c2 = .ok () { c6 with s := c6.s.drainFree c2.b.ctx } := by
  unfold PostForm.commit
  rw [bind_ok (get_run c2), bind_ok hrec, bind_ok hdebit, bind_ok hcredit, ho]
  exact (bind_ok hseq).trans (modS_run _ c6)

/-- R244: a POST whose balances or limit refuse it makes no claim and writes nothing. -/
theorem exec_post_refused (h : Starts 0x400 shapePost i s c) (hf : formPost i.word c = .ok f c1)
    (ho : f.outcome e i.word = 1 ∨ f.outcome e i.word = 2)
    (ht : (c1.leaveBack.released.withCc (f.outcome e i.word)).Retires 48 t) : exec (.post i) s = .next (s.after t) := by
  obtain ⟨hr, heq⟩ := PostForm.refusal_of_outcome ho
  have hp := (SamePass.formPost _ _ _ _ hf).plain (starts_pass h)
  rw [heq] at ht
  exact (exec_post i s).trans
    (starts_forms h rfl hf ((congrFun (if_pos hr) c1).trans (bind_ok (postEnds_run hp _))) ht)

/-- R244: a POST whose ring is found full under its claim writes nothing. -/
theorem exec_post_full (h : Starts 0x400 shapePost i s c) (hf : formPost i.word c = .ok f c1) (ho : f.outcome e i.word = 3)
    (hc : claimRing f.x.ring c1 = .ok e c2) (ht : (c2.leaveBack.released.withCc 3).Retires 48 t) :
    exec (.post i) s = .next (s.after t) := by
  obtain ⟨hr, hfull⟩ := PostForm.full_of_outcome ho
  have hp := (SamePass.claimRing _ _ _ _ hc).plain ((SamePass.formPost _ _ _ _ hf).plain (starts_pass h))
  exact (exec_post i s).trans (starts_forms h rfl hf
    ((congrFun (if_neg (not_not_intro hr)) c1).trans <| (bind_ok hc).trans <|
      (congrFun (if_pos hfull) c2).trans (bind_ok (postEnds_run hp 3))) ht)

/-- R243, R244: a POST that nothing refuses and whose ring has room commits its effect. -/
theorem exec_post_posts (h : Starts 0x400 shapePost i s c) (hf : formPost i.word c = .ok f c1) (ho : f.outcome e i.word = 0)
    (hc : claimRing f.x.ring c1 = .ok e c2) (ho3 : f.o3 = .mem ps)
    (hrec : appendRecord f.x.ring (f.record e.head c2.b c2.latch) c2 = .ok () c3)
    (hdebit : writePieces f.p1 (packedBytes (lenL1 i.word.len) f.debit) c3 = .ok () c4)
    (hcredit : writePieces f.p2 (packedBytes (lenL2 i.word.len) f.credit) c4 = .ok () c5)
    (hseq : writePieces (subPieces ps 0x18 8) (leBytes 8 e.head) c5 = .ok () c6)
    (ht : (Cpu.withCc (Cpu.released { c6 with s := c6.s.drainFree c2.b.ctx }) 0).Retires 48 t) :
    exec (.post i) s = .next (s.after t) := by
  obtain ⟨hr, hroom⟩ := PostForm.room_of_outcome ho
  have hp2 := (SamePass.claimRing _ _ _ _ hc).plain ((SamePass.formPost _ _ _ _ hf).plain (starts_pass h))
  have hp4 := (SamePass.writePieces _ _ _ _ _ hdebit).plain ((SamePass.appendRecord _ _ _ _ _ hrec).plain hp2)
  have hp6 := (SamePass.writePieces _ _ _ _ _ hseq).plain ((SamePass.writePieces _ _ _ _ _ hcredit).plain hp4)
  exact (exec_post i s).trans (starts_forms h rfl hf
    ((congrFun (if_neg (not_not_intro hr)) c1).trans <| (bind_ok hc).trans <|
      (congrFun (if_neg (Bool.eq_false_iff.mp hroom)) c2).trans <|
      (bind_ok (PostForm.commit_run ho3 hrec hdebit hcredit hseq)).trans (releases_setsCc (c := { c6 with s := c6.s.drainFree c2.b.ctx }) hp6 0 48)) ht)

end Post

/-! ## JAPP (R262) -/

/-- R262: what a JAPP does once its ring is claimed. -/
def jappEnds (w : Word112) (o1 : Opnd) (r : Nat) (payload : List Byte) (e : Ring) : M Nat := do
  if e.full then do
    releaseLines
    setCc 3
  else do
    appendRecord r (jappRecord e.head (← get) payload (bitsOf w.len.toNat 0 7))
    writeVal o1 8 e.head
    releaseLines
    setCc 0
  pure (24 + ceilDiv (bitsOf w.len.toNat 0 7) 32)

section Japp

variable {i : Issue} {s t : State} {c c1 c2 c3 c4 c5 c6 c7 c8 : Cpu} {o1 o3 : Opnd} {r : Nat} {e : Ring} {bs : List Byte}

variable (h : Starts 0x401 shapeJapp i s c) (h1 : formOpnd i.word.opd1 8 [] c = .ok o1 c1)
  (h2 : ringOperand i.word.opd2 c1 = .ok r c2) (hr : r < 4096)
  (h3 : formOpnd i.word.opd3 (bitsOf i.word.len.toNat 0 7) [.load] c2 = .ok o3 c3)
  (h4 : checkRing false r c3.drained = .ok () c4) (h5 : readOpnd o3 (bitsOf i.word.len.toNat 0 7) c4 = .ok bs c5)
  (h6 : claimRing r c5 = .ok e c6)

include h h1 h2 h3 h4 h5 h6

/-- A JAPP that has claimed its ring still works plainly. -/
theorem japp_pass : c6.pass = .plain := by
  have hp2 := (SamePass.ringOperand _ _ _ _ h2).plain ((SamePass.formOpnd _ _ _ _ _ _ h1).plain (starts_pass h))
  have hp3 : c3.drained.pass = .plain := (SamePass.formOpnd _ _ _ _ _ _ h3).plain hp2
  have hp5 := (SamePass.readOpnd _ _ _ _ _ h5).plain ((SamePass.checkRing _ _ _ _ _ h4).plain hp3)
  exact (SamePass.claimRing _ _ _ _ h6).plain hp5

include hr

/-- R262: a JAPP forms and checks its operands and claims its ring, and completes when what it does then completes. -/
theorem exec_japp_claimed {n : Nat} {c' : Cpu} (hends : jappEnds i.word o1 r bs e c6 = .ok n c') (ht : c'.Retires n t) :
    exec (.japp i) s = .next (s.after t) :=
  (exec_japp i s).trans (starts_forms h rfl h1 ((bind_ok h2).trans <| (bind_ok h3).trans <| (bind_ok (ringNumber_run hr c3)).trans <|
    (bind_ok (drainOwn_run c3)).trans <| (bind_ok h4).trans <| (bind_ok h5).trans <| (bind_ok h6).trans hends) ht)

/-- R262: a JAPP whose ring is full writes nothing. -/
theorem exec_japp_full (hfull : e.full = true)
    (ht : (c6.released.withCc 3).Retires (24 + ceilDiv (bitsOf i.word.len.toNat 0 7) 32) t) : exec (.japp i) s = .next (s.after t) :=
  exec_japp_claimed h h1 h2 hr h3 h4 h5 h6
    ((congrFun (if_pos hfull) c6).trans (releases_setsCc (japp_pass h h1 h2 h3 h4 h5 h6) 3 _)) ht

/-- R262: a JAPP whose ring has room appends its record and delivers the record's sequence number. -/
theorem exec_japp_appends (hroom : e.full = false)
    (h7 : appendRecord r (jappRecord e.head c6 bs (bitsOf i.word.len.toNat 0 7)) c6 = .ok () c7)
    (h8 : writeVal o1 8 e.head c7 = .ok () c8)
    (ht : (c8.released.withCc 0).Retires (24 + ceilDiv (bitsOf i.word.len.toNat 0 7) 32) t) :
    exec (.japp i) s = .next (s.after t) := by
  have hp7 := (SamePass.appendRecord _ _ _ _ _ h7).plain (japp_pass h h1 h2 h3 h4 h5 h6)
  have hp8 := (SamePass.writeVal _ _ _ _ _ _ h8).plain hp7
  exact exec_japp_claimed h h1 h2 hr h3 h4 h5 h6
    ((congrFun (if_neg (Bool.eq_false_iff.mp hroom)) c6).trans <| (bind_ok (get_run c6)).trans <| (bind_ok h7).trans <|
      (bind_ok h8).trans (releases_setsCc hp8 0 _)) ht

end Japp

/-! ## DURW (R267) -/

section Durw

variable {i : Issue} {s t : State} {c c1 c2 c3 c4 c5 : Cpu} {o : Opnd} {n r : Nat} {e : Ring}

/-- R267: the condition code of a DURW of sequence number `n` that does not wait. -/
def durwCc (e : Ring) (n : Nat) : BitVec 2 := if 0 ≤ seqDiff e.durable n then 0 else if seqDiff e.head n ≤ 0 then 1 else 2

/-- R267: a DURW waits only for a record that is appended, not yet durable, and on a ring whose journal has not failed. -/
theorem exec_durw_answers (h : Starts 0x402 shapeDurw i s c) (h1 : formOpnd i.word.opd1 8 [] c = .ok o c1)
    (h2 : readVal o 8 c1 = .ok n c2) (h3 : ringOperand i.word.opd2 c2 = .ok r c3) (hr : r < 4096)
    (h4 : checkRing true r c3 = .ok () c4) (h5 : ringNow true r c4 = .ok e c5)
    (hw : 0 ≤ seqDiff e.durable n ∨ seqDiff e.head n ≤ 0 ∨ e.fault = true) (ht : (c5.withCc (durwCc e n)).Retires 2 t) :
    exec (.durw i) s = .next (s.after t) := by
  refine (exec_durw i s).trans (starts_forms h rfl h1 ((bind_ok h2).trans <| (bind_ok h3).trans <|
    (bind_ok (ringNumber_run hr c3)).trans <| (bind_ok h4).trans <| (bind_ok h5).trans ?_) ht)
  unfold durwCc
  by_cases hdurable : 0 ≤ seqDiff e.durable n
  · rw [if_pos hdurable, if_pos hdurable]
    rfl
  · rw [if_neg hdurable, if_neg hdurable]
    by_cases habsent : seqDiff e.head n ≤ 0
    · rw [if_pos habsent, if_pos habsent]
      rfl
    · have hfault : e.fault = true := (hw.resolve_left hdurable).resolve_left habsent
      rw [if_neg habsent, if_neg habsent, if_pos hfault]
      rfl

end Durw

/-! ## The statement -/

/-- Settles O18: POST by cases on its outcome, JAPP on the room in its ring, and DURW. -/
theorem ledgerInstructions : Obligations.LedgerInstructions := by
  refine ⟨?post, ?append⟩
  case post =>
    intro i s t c c1 c2 c3 c4 c5 c6 f e ps h hf
    exact ⟨exec_post_refused h hf, exec_post_full h hf, exec_post_posts h hf⟩
  case append =>
    intro i s t c c1 c2 c3 c4 c5 c6 c7 c8 o1 o3 r n e bs len p
    refine ⟨?japp, exec_durw_answers⟩
    intro h h1 h2 hr h3 h4 h5 h6
    exact ⟨exec_japp_appends h h1 h2 hr h3 h4 h5 h6, exec_japp_full h h1 h2 hr h3 h4 h5 h6⟩

end Sys2Proof.Machine
end

section
/-!
SUPPORT. What every command answers: the state that `State.after` leaves, a fault, or the state it found; and the statements about
steps, the queue, the fuses and reset settled with it.
-/

namespace Sys2Proof.Machine

/-! ## What a command answers -/

/-- A command answers: it goes on with the queue and the fuses it found, or faults; it is never refused. -/
def Answers (s : State) : Host.Outcome State Fault Refusal → Prop
  | .next t => t.pending = s.pending ∧ t.fuses = s.fuses
  | .fault _ => True
  | .refused _ => False

theorem done_answers (s t : State) : Answers s (done s t) := ⟨rfl, rfl⟩

theorem outcome_answers (s : State) (r : Except Fault State) : Answers s (outcome s r) := by
  cases r with
  | ok t => exact done_answers s t
  | error f => trivial

/-- R274: an issue cycle passes empty, or answers what its instruction does. -/
theorem issue_answers (body : Body) (i : Issue) (s : State) : Answers s (issue body i s) := by
  unfold issue
  split
  · exact ⟨rfl, rfl⟩
  · split
    · exact ⟨rfl, rfl⟩
    · simp only
      split
      · exact done_answers _ _
      · exact outcome_answers _ _

/-- Every command of the table answers, in every state. -/
theorem exec_answers (i : Instr) (s : State) : Answers s (exec i s) := by
  cases i
  case registerWrite src addr value =>
    show Answers s (execRegisterWrite src addr value s)
    unfold execRegisterWrite
    split
    · exact outcome_answers _ _
    · trivial
  case rcRead addr =>
    show Answers s (execRcRead addr s)
    unfold execRcRead
    split
    · exact done_answers _ _
    · trivial
  all_goals first
    | exact issue_answers _ _ _
    | exact outcome_answers _ _
    | exact done_answers _ _

/-- Two states with one queue and one set of fuses. -/
def SameQueue (s t : State) : Prop := t.pending = s.pending ∧ t.fuses = s.fuses

namespace SameQueue

theorem refl (s : State) : SameQueue s s := ⟨rfl, rfl⟩
theorem trans {x y z : State} (h : SameQueue x y) (k : SameQueue y z) : SameQueue x z := ⟨k.1.trans h.1, k.2.trans h.2⟩

theorem ite {p : Prop} [Decidable p] {s a b : State} (ha : SameQueue s a) (hb : SameQueue s b) : SameQueue s (if p then a else b) := by
  split
  · exact ha
  · exact hb

theorem mantel (s : State) (m : Mantel) : SameQueue s { s with mantel := m } := ⟨rfl, rfl⟩
theorem setReg (s : State) (slot off v : Nat) : SameQueue s (s.setReg slot off v) := ⟨rfl, rfl⟩
theorem incSat (s : State) (slot off lo w n : Nat) : SameQueue s (s.incSat slot off lo w n) := ⟨rfl, rfl⟩

theorem todClock (s : State) : SameQueue s s.todClock := (mantel _ _).trans ((setReg _ _ _ _).trans (setReg _ _ _ _))
theorem ageBeats (s : State) : SameQueue s s.ageBeats := (incSat _ _ _ _ _ _).trans (incSat _ _ _ _ _ _)

/-- A Mantel clock leaves the queue and the fuses: it advances the time of day, counts, and ages the beats. -/
theorem tick (s : State) : SameQueue s s.tick :=
  .ite (.refl s) <| .trans (.ite (todClock s) (.refl s)) <| .trans (mantel _ _) <| .ite (ageBeats _) (.refl _)

end SameQueue

theorem step_of_nil {s : State} (h : s.pending = []) : step s = .next s.tick := by
  unfold step
  rw [h]

theorem step_of_cons {s : State} {i : Instr} {rest : List Instr} (h : s.pending = i :: rest) :
    step s = exec i { s with pending := rest } := by
  unfold step
  rw [h]

/-- A step takes the front command off the queue and changes no fuse (R503). -/
theorem step_pending_fuses {s t : State} (h : step s = .next t) : t.pending = s.pending.tail ∧ t.fuses = s.fuses := by
  cases hp : s.pending with
  | nil =>
    rw [step_of_nil hp] at h
    obtain rfl := Host.Outcome.next.inj h
    obtain ⟨hpend, hfuse⟩ := SameQueue.tick s
    exact ⟨by rw [hpend, hp, List.tail_nil], hfuse⟩
  | cons i rest =>
    rw [step_of_cons hp] at h
    have hans := exec_answers i { s with pending := rest }
    rw [h] at hans
    exact hans

/-! ## The statements -/

/-- Settles O58: a step leaves the tail of the queue, whose commands were well-formed in it. -/
theorem stepsKeepQueueAndFuses : Obligations.StepsKeepQueueAndFuses := by
  intro s t hwf h
  obtain ⟨hp, hf⟩ := step_pending_fuses h
  refine ⟨?_, hp, hf⟩
  unfold State.queueWf at hwf ⊢
  rw [hp, List.all_eq_true]
  exact fun i hi => List.all_eq_true.mp hwf i (List.mem_of_mem_tail hi)

/-- Settles O57: a command that answers is not refused. -/
theorem noCommandIsRefused : Obligations.NoCommandIsRefused := by
  intro i s r h
  have hans := exec_answers i s
  rw [h] at hans
  exact hans

/-- Settles O55. -/
theorem stepRunsFrontCommand : Obligations.StepRunsFrontCommand :=
  fun _ _ => step_of_cons rfl

/-- Settles O60: reset lists nothing but BOOTPOL, whose factory value is not its reset value. -/
theorem resetIsWellFormed : Obligations.ResetIsWellFormed := ⟨rfl, memWf_reset, by decide⟩

end Sys2Proof.Machine
end

section
/-!
SUPPORT. The moves, the signed arithmetic, the divisions and the PSW forms of the binary family (R69, R119, R147 to R150), the
exceptions they raise, and the instructions of the supervisor (R138), each settled by what its body does with its formed operands.
-/

namespace Sys2Proof.Machine

/-! ## Instructions that start and raise -/

/-- An instruction that starts passes the other rules of its encoding. -/
theorem starts_rule {op : BitVec 12} {sh : Shape} {i : Issue} {s : State} {c : Cpu} (h : Starts op sh i s c) : sh.rule i.word = true := by
  obtain ⟨b, c', -, hacc, -⟩ := h
  have hopnds := hacc.opnds
  simp only [Bool.and_eq_true] at hopnds
  exact hopnds.2

/-- R138: an instruction whose body checks its encoding and then works completes when that work does. -/
theorem starts_works {body : Body} {sh : Shape} {i : Issue} {s t : State} {c c1 : Cpu} {n : Nat} {rest : M Nat}
    (h : Starts body.op sh i s c) (hb : body.run i.word = (checkShape sh i.word >>= fun _ => rest)) (hr : rest c = .ok n c1)
    (ht : c1.Retires n t) : issue body i s = .next (s.after t) :=
  starts_completes h (by rw [hb, bind_ok (starts_checkShape h), hr]) ht

/-- R138: an instruction whose work raises an exception takes it. -/
theorem starts_works_traps {body : Body} {sh : Shape} {i : Issue} {s : State} {c c1 : Cpu} {e : Exc} {rest : M Nat}
    (h : Starts body.op sh i s c) (hb : body.run i.word = (checkShape sh i.word >>= fun _ => rest)) (hr : rest c = .error (.exc e) c1) :
    issue body i s = .next (s.after (c1.takes body.op i.word e)) :=
  starts_traps h (by rw [hb, bind_ok (starts_checkShape h), hr])

/-! ## The commands of the family -/

section BinaryArms

variable (i : Issue) (s : State)

theorem exec_mov : exec (.mov ⟨i, none⟩) s = issue (both 0x000 movBody) i s := rfl
theorem exec_movPsw : exec (.movPsw i) s = issue (both 0x000 movPswBody) i s := rfl
theorem exec_andPsw : exec (.andPsw i) s = issue (both 0x020 andPswBody) i s := rfl
theorem exec_orPsw : exec (.orPsw i) s = issue (both 0x021 orPswBody) i s := rfl
theorem exec_lea : exec (.lea i) s = issue (same 0x001 leaBody) i s := rfl
theorem exec_add : exec (.add i) s = issue (both 0x010 addBody) i s := rfl
theorem exec_sub : exec (.sub i) s = issue (both 0x011 subBody) i s := rfl
theorem exec_mul : exec (.mul i) s = issue (both 0x012 mulBody) i s := rfl
theorem exec_mulh : exec (.mulh i) s = issue (both 0x013 mulhBody) i s := rfl
theorem exec_div : exec (.div i) s = issue (both 0x014 divBody) i s := rfl
theorem exec_divu : exec (.divu i) s = issue (both 0x015 divuBody) i s := rfl
theorem exec_rem : exec (.rem i) s = issue (both 0x016 remBody) i s := rfl
theorem exec_neg : exec (.neg i) s = issue (both 0x017 negBody) i s := rfl
theorem exec_abs : exec (.abs i) s = issue (both 0x018 absBody) i s := rfl
theorem exec_zapp : exec (.zapp i) s = issue (both 0x202 zappBody) i s := rfl
theorem exec_cvbp : exec (.cvbp i) s = issue (both 0x208 cvbpBody) i s := rfl
theorem exec_sealf : exec (.sealf i) s = issue (same 0x602 sealfBody) i s := rfl
theorem exec_retx : exec (.retx i) s = issue (same 0x603 retxBody) i s := rfl
theorem exec_setkey : exec (.setkey i) s = issue (same 0x800 setkeyBody) i s := rfl

end BinaryArms

/-! ## MOV and LEA (R119, R147) -/

section Moves

variable {i : Issue} {s t : State} {c c1 c2 : Cpu}

/-- R147: MOV outside its PSW form copies its source. -/
theorem exec_mov_copies {o : Opnd} {y : Nat} (hfmt : i.word.fmt ≠ 0) (h : Starts 0x000 shapeMov i s c)
    (hf : formMove i.word c = .ok (o, y) c1) (hw : writeVal o (fmtBytes i.word.fmt) y c1 = .ok () c2) (ht : c2.Retires 1 t) :
    exec (.mov ⟨i, none⟩) s = .next (s.after t) :=
  (exec_mov i s).trans (starts_forms h (if_neg hfmt) hf (bind_ok hw) ht)

/-- R119: LEA delivers the effective address. -/
theorem exec_lea_delivers {p : Place} (h : Starts 0x001 shapeLea i s c) (hf : formAddress i.word.opd2 1 c = .ok p c1)
    (ht : Cpu.Retires { c1 with b := c1.b.setG (spBase i.word.opd1) (BitVec.ofNat 64 p.addr) } 1 t) :
    exec (.lea i) s = .next (s.after t) :=
  (exec_lea i s).trans (starts_forms h rfl hf (bind_ok (writeG_run _ _ c1)) ht)

end Moves

/-! ## Signed arithmetic (R147, R148) -/

section Arithmetic

variable {i : Issue} {s t : State} {c c1 c2 : Cpu} {o : Opnd} {x y : Nat}

/-- The magnitude as ABS forms it, by subtracting from 0 or adding to it. -/
theorem natAbs_eq_from_zero (v : Int) : (v.natAbs : Int) = if v < 0 then 0 - v else 0 + v := by
  split <;> omega

/-- R147: ADD, SUB and MUL deliver an exact result that fits, or that overflows while FOM is 0. -/
theorem exec_signedOps {a : (Issue → Instr) × BitVec 12 × (Int → Int → Int) × Nat} (ha : a ∈ signedOps)
    (h : Starts a.2.1 shapeBoth i s c) (hf : formBoth i.word c = .ok (o, x, y) c1)
    (hd : deliverArith o (fmtBytes i.word.fmt)
      (a.2.2.1 (signed (8 * fmtBytes i.word.fmt) x) (signed (8 * fmtBytes i.word.fmt) y)) c1 = .ok () c2)
    (ht : c2.Retires a.2.2.2 t) : exec (a.1 i) s = .next (s.after t) := by
  simp only [signedOps, List.mem_cons, List.not_mem_nil, or_false] at ha
  obtain rfl | rfl | rfl := ha
  · exact (exec_add i s).trans (starts_forms h rfl hf (bind_ok hd) ht)
  · exact (exec_sub i s).trans (starts_forms h rfl hf (bind_ok hd) ht)
  · exact (exec_mul i s).trans (starts_forms h rfl hf (bind_ok hd) ht)

/-- R148: ADD, SUB and MUL whose delivery raises an exception take it. -/
theorem exec_signedOps_traps {a : (Issue → Instr) × BitVec 12 × (Int → Int → Int) × Nat} {e : Exc} (ha : a ∈ signedOps)
    (h : Starts a.2.1 shapeBoth i s c) (hf : formBoth i.word c = .ok (o, x, y) c1)
    (hd : deliverArith o (fmtBytes i.word.fmt)
      (a.2.2.1 (signed (8 * fmtBytes i.word.fmt) x) (signed (8 * fmtBytes i.word.fmt) y)) c1 = .error (.exc e) c2) :
    exec (a.1 i) s = .next (s.after (c2.takes a.2.1 i.word e)) := by
  simp only [signedOps, List.mem_cons, List.not_mem_nil, or_false] at ha
  obtain rfl | rfl | rfl := ha
  · exact (exec_add i s).trans (starts_works_traps h rfl ((bind_ok hf).trans (bind_error hd)))
  · exact (exec_sub i s).trans (starts_works_traps h rfl ((bind_ok hf).trans (bind_error hd)))
  · exact (exec_mul i s).trans (starts_works_traps h rfl ((bind_ok hf).trans (bind_error hd)))

/-- R147: NEG and ABS deliver their exact result. -/
theorem exec_signedUnaryOps {a : (Issue → Instr) × BitVec 12 × (Int → Int)} (ha : a ∈ signedUnaryOps)
    (h : Starts a.2.1 shapeNeg i s c) (hf : formMove i.word c = .ok (o, y) c1)
    (hd : deliverArith o (fmtBytes i.word.fmt) (a.2.2 (signed (8 * fmtBytes i.word.fmt) y)) c1 = .ok () c2) (ht : c2.Retires 1 t) :
    exec (a.1 i) s = .next (s.after t) := by
  simp only [signedUnaryOps, List.mem_cons, List.not_mem_nil, or_false] at ha
  obtain rfl | rfl := ha
  · dsimp only at hd
    rw [← Int.zero_sub] at hd
    exact (exec_neg i s).trans (starts_forms h rfl hf (bind_ok hd) ht)
  · dsimp only at hd
    rw [natAbs_eq_from_zero] at hd
    exact (exec_abs i s).trans (starts_forms h rfl hf (bind_ok hd) ht)

/-- R147: MULH delivers the high half of the product, unsigned when FLAG is 1. -/
theorem exec_mulh_delivers {n : Nat} (hn : n = fmtBytes i.word.fmt) (h : Starts 0x013 shapeBothU i s c)
    (hf : formBoth i.word c = .ok (o, x, y) c1)
    (hw : writeVal o n (if lenFlag i.word.len then x * y / 2 ^ (8 * n)
        else wrapInt (8 * n) (signed (8 * n) x * signed (8 * n) y / (2 ^ (8 * n) : Nat)))
      (c1.withCc (if lenFlag i.word.len then (if x * y / 2 ^ (8 * n) = 0 then 0 else 2)
        else signCc (signed (8 * n) x * signed (8 * n) y / (2 ^ (8 * n) : Nat)))) = .ok () c2) (ht : c2.Retires 4 t) :
    exec (.mulh i) s = .next (s.after t) := by
  subst hn
  refine (exec_mulh i s).trans (starts_forms h rfl hf ?_ ht)
  by_cases hflag : lenFlag i.word.len = true
  · rw [if_pos hflag, if_pos hflag] at hw
    exact (congrFun (if_pos hflag) c1).trans ((bind_ok (setCc_run _ c1)).trans (bind_ok hw))
  · rw [if_neg hflag, if_neg hflag] at hw
    exact (congrFun (if_neg hflag) c1).trans ((bind_ok (setCc_run _ c1)).trans (bind_ok hw))

end Arithmetic

/-! ## Division (R149, R150) -/

section Division

variable {w : Word112} {rem : Bool} {c c1 c2 : Cpu} {o : Opnd} {x y : Nat}

/-- R149: the quotient that does not fit is as wide as its dividend: they differ by `2 ^ k`. -/
theorem wrapInt_overflow (k : Nat) : wrapInt k (2 ^ (k - 1) : Nat) = wrapInt k (-(2 ^ (k - 1) : Nat)) := by
  unfold wrapInt
  cases k with
  | zero => simp
  | succ k =>
    have hsum : ((2 ^ k : Nat) : Int) = -(2 ^ k : Nat) + (2 ^ (k + 1) : Nat) := by
      rw [Nat.pow_succ]; omega
    rw [Nat.add_sub_cancel]
    conv => lhs; rw [hsum, Int.add_emod_right]

theorem quotientOverflows_iff (k x y : Nat) :
    quotientOverflows true k x y = true ↔ signed k x = -(2 ^ (k - 1) : Nat) ∧ signed k y = -1 := by
  simp [quotientOverflows]

/-- R149: what the overflowing division delivers. -/
theorem divided_overflow {k : Nat} (h : signed k x = -(2 ^ (k - 1) : Nat) ∧ signed k y = -1) :
    divided true rem k x y = if rem then 0 else wrapInt k (signed k x) := by
  obtain ⟨hx, hy⟩ := h
  unfold divided
  rw [if_pos rfl, hx, hy]
  cases rem
  · simp only [Bool.false_eq_true, if_false, Int.tdiv_neg, Int.tdiv_one, Int.neg_neg]
    exact wrapInt_overflow k
  · simp [wrapInt]

/-- R149: a signed division by a divisor that is not zero. -/
theorem signedDivide_run (hf : formBoth w c = .ok (o, x, y) c1) (hy : y ≠ 0)
    (hfom : quotientOverflows true (8 * fmtBytes w.fmt) x y = true → c1.b.psw.fom = false)
    (hw : writeVal o (fmtBytes w.fmt) (divided true rem (8 * fmtBytes w.fmt) x y)
      (c1.withCc (dividedCc true rem (8 * fmtBytes w.fmt) x y)) = .ok () c2) :
    signedDivide .straight rem w c = .ok (divideCount true (8 * fmtBytes w.fmt) x y) c2 := by
  have hdivisor : raiseIf (y == 0) 0x07 c1 = .ok () c1 := raiseIf_false (by simpa using hy)
  refine (bind_ok hf).trans ((bind_ok hdivisor).trans ?_)
  by_cases hov : quotientOverflows true (8 * fmtBytes w.fmt) x y = true
  · have hmin := (quotientOverflows_iff _ _ _).mp hov
    rw [divided_overflow hmin, dividedCc, if_pos hov] at hw
    exact (congrFun (if_pos hmin) c1).trans <| (bind_ok (getPsw_run c1)).trans <|
      (bind_ok (raiseLate_false (hfom hov))).trans <| (bind_ok (setCc_run _ c1)).trans (bind_ok hw)
  · rw [dividedCc, if_neg hov, if_pos rfl] at hw
    exact (congrFun (if_neg (fun hmin => hov ((quotientOverflows_iff _ _ _).mpr hmin))) c1).trans <|
      (bind_ok (setCc_run _ c1)).trans (bind_ok hw)

/-- R149: the divider on magnitudes gives the quotient or the remainder of natural numbers. -/
theorem divider_toNat (rem : Bool) (x y : Nat) :
    (if rem then remUnit .straight x y else quotUnit .straight x y).toNat = if rem then x % y else x / y := by
  cases rem
  · show ((x : Int).tdiv (y : Int)).toNat = x / y
    rw [Int.tdiv_eq_ediv_of_nonneg (Int.natCast_nonneg x), ← Int.natCast_ediv, Int.toNat_natCast]
  · show ((x : Int).tmod (y : Int)).toNat = x % y
    rw [Int.tmod_eq_emod_of_nonneg (Int.natCast_nonneg x), ← Int.natCast_emod, Int.toNat_natCast]

/-- R149: an unsigned division by a divisor that is not zero. -/
theorem unsignedDivide_run (hf : formBoth w c = .ok (o, x, y) c1) (hy : y ≠ 0)
    (hw : writeVal o (fmtBytes w.fmt) (divided false rem (8 * fmtBytes w.fmt) x y)
      (c1.withCc (dividedCc false rem (8 * fmtBytes w.fmt) x y)) = .ok () c2) :
    unsignedDivide .straight rem w c = .ok (divideCount false (8 * fmtBytes w.fmt) x y) c2 := by
  have hdivisor : raiseIf (y == 0) 0x07 c1 = .ok () c1 := raiseIf_false (by simpa using hy)
  have hvalue : (if rem then remUnit .straight x y else quotUnit .straight x y).toNat = divided false rem (8 * fmtBytes w.fmt) x y :=
    divider_toNat rem x y
  have hcode : dividedCc false rem (8 * fmtBytes w.fmt) x y =
      if divided false rem (8 * fmtBytes w.fmt) x y = 0 then 0 else 2 := rfl
  rw [hcode, ← hvalue] at hw
  exact (bind_ok hf).trans <| (bind_ok hdivisor).trans <| (bind_ok (setCc_run _ c1)).trans (bind_ok hw)

/-- R149: either division by 0 raises 0x07. -/
theorem divide_zero_traps (hf : formBoth w c = .ok (o, x, 0) c1) :
    signedDivide .straight rem w c = .error (.exc { code := 0x07 }) c1
      ∧ unsignedDivide .straight rem w c = .error (.exc { code := 0x07 }) c1 :=
  ⟨(bind_ok hf).trans (bind_error (raiseIf_true rfl)), (bind_ok hf).trans (bind_error (raiseIf_true rfl))⟩

/-- What a division of the table does after its encoding checks. -/
def divides (sgn rem : Bool) (w : Word112) : M Nat :=
  if sgn then signedDivide .straight rem w else unsignedDivide .straight rem w

/-- REM divides unsigned when FLAG is 1. -/
theorem remBody_divides (w : Word112) :
    remBody .straight w = (checkShape shapeBothU w >>= fun _ => divides (!lenFlag w.len) true w) := by
  unfold remBody divides
  cases lenFlag w.len <;> rfl

/-- R149: DIV, DIVU and REM are the division of their row after its encoding checks: one that completes. -/
theorem exec_divideOps {i : Issue} {s t : State} {n : Nat} {a : (Issue → Instr) × BitVec 12 × Shape × Bool × Bool}
    (ha : a ∈ divideOps i.word) (h : Starts a.2.1 a.2.2.1 i s c) (hd : divides a.2.2.2.1 a.2.2.2.2 i.word c = .ok n c2)
    (ht : c2.Retires n t) : exec (a.1 i) s = .next (s.after t) := by
  simp only [divideOps, List.mem_cons, List.not_mem_nil, or_false] at ha
  obtain rfl | rfl | rfl := ha
  · exact (exec_div i s).trans (starts_works h rfl hd ht)
  · exact (exec_divu i s).trans (starts_works h rfl hd ht)
  · exact (exec_rem i s).trans (starts_works h (remBody_divides i.word) hd ht)

/-- R149: one that raises an exception takes it. -/
theorem exec_divideOps_traps {i : Issue} {s : State} {e : Exc} {a : (Issue → Instr) × BitVec 12 × Shape × Bool × Bool}
    (ha : a ∈ divideOps i.word) (h : Starts a.2.1 a.2.2.1 i s c) (hd : divides a.2.2.2.1 a.2.2.2.2 i.word c = .error (.exc e) c2) :
    exec (a.1 i) s = .next (s.after (c2.takes a.2.1 i.word e)) := by
  simp only [divideOps, List.mem_cons, List.not_mem_nil, or_false] at ha
  obtain rfl | rfl | rfl := ha
  · exact (exec_div i s).trans (starts_works_traps h rfl hd)
  · exact (exec_divu i s).trans (starts_works_traps h rfl hd)
  · exact (exec_rem i s).trans (starts_works_traps h (remBody_divides i.word) hd)

end Division

/-! ## Packed sources (R177) -/

/-- R177: a packed source with a bad digit or sign raises 0x05. -/
theorem readPacked_traps {o : Opnd} {n : Nat} {bs : List Byte} {c c1 : Cpu} (h : readOpnd o n c = .ok bs c1) (hbad : packedOk bs = false) :
    readPacked o n c = .error (.exc { code := 0x05 }) c1 :=
  (bind_ok h).trans (bind_error (raiseIf_true (by rw [hbad]; rfl)))

/-! ## The PSW forms (R69) -/

section PswForms

variable {i : Issue} {s t : State} {c c1 c2 : Cpu}

/-- R69: the PSW form is accepted with FLAG 1. -/
theorem pswFmt_run {w : Word112} (h : pswRule w = true) (c : Cpu) : pswFmt w c = .ok () c := by
  have hlen : w.len = 0x8000 := by simpa [pswRule] using h
  have hflag : lenFlag w.len = true := by rw [hlen]; decide
  exact raiseIf_false (by rw [hflag, Bool.not_true, Bool.and_false])

/-- R69: MOV from the PSW delivers the control word. -/
theorem movPswBody_run (h : Starts 0x000 shapeMovPsw i s c) :
    movPswBody .straight i.word c = .ok 1 { c with b := c.b.setG (spBase i.word.opd1) (BitVec.ofNat 64 c.b.psw.control) } :=
  (bind_ok (pswFmt_run (starts_rule h) c)).trans <| (bind_ok (starts_checkShape h)).trans <|
    (bind_ok (getPsw_run c)).trans (bind_ok (writeG_run _ _ c))

theorem exec_movPsw_reads (h : Starts 0x000 shapeMovPsw i s c)
    (ht : Cpu.Retires { c with b := c.b.setG (spBase i.word.opd1) (BitVec.ofNat 64 c.b.psw.control) } 1 t) :
    exec (.movPsw i) s = .next (s.after t) :=
  (exec_movPsw i s).trans (starts_completes h (movPswBody_run h) ht)

/-- R69: with FMT 0 MOV is its PSW form. -/
theorem exec_mov_reads (hfmt : i.word.fmt = 0) (h : Starts 0x000 shapeMovPsw i s c)
    (ht : Cpu.Retires { c with b := c.b.setG (spBase i.word.opd1) (BitVec.ofNat 64 c.b.psw.control) } 1 t) :
    exec (.mov ⟨i, none⟩) s = .next (s.after t) :=
  (exec_mov i s).trans (starts_completes h ((congrFun (if_pos hfmt) c).trans (movPswBody_run h)) ht)

/-- R69: a control word that changes no fixed bit, and in user state none of the supervisor, replaces the old one. -/
theorem applyControl_run {new : Nat} (hfix : (new ^^^ c.b.psw.control) &&& fixedControl = 0)
    (hsup : c.b.psw.sup = true ∨ (new ^^^ c.b.psw.control) &&& supControl = 0) :
    applyControl new c = .ok () { c with b := c.b.setPsw (Psw.ofControl c.b.psw.ia new) } := by
  have hfixed : raiseIf ((new ^^^ c.b.psw.control) &&& fixedControl != 0) 0x04 c = .ok () c := raiseIf_false (by simp [hfix])
  have huser : raiseIf (!c.b.psw.sup && (new ^^^ c.b.psw.control) &&& supControl != 0) 0x02 c = .ok () c :=
    raiseIf_false (by obtain hs | hs := hsup <;> simp [hs])
  exact (bind_ok (getPsw_run c)).trans <| (bind_ok hfixed).trans <| (bind_ok huser).trans (modPsw_run _ c)

/-- R69: in user state a control word that changes a bit of the supervisor raises 0x02. -/
theorem applyControl_traps {new : Nat} (hfix : (new ^^^ c.b.psw.control) &&& fixedControl = 0) (huser : c.b.psw.sup = false)
    (hsup : (new ^^^ c.b.psw.control) &&& supControl ≠ 0) : applyControl new c = .error (.exc { code := 0x02 }) c := by
  have hfixed : raiseIf ((new ^^^ c.b.psw.control) &&& fixedControl != 0) 0x04 c = .ok () c := raiseIf_false (by simp [hfix])
  exact (bind_ok (getPsw_run c)).trans <| (bind_ok hfixed).trans <| bind_error <|
    raiseIf_true (by simpa [huser] using hsup)

/-- R69: AND into the PSW applies what its operand leaves of the control word. -/
theorem andPswBody_eq {o : Opnd} {v : Nat} (h : Starts 0x020 shapePswOp i s c) (hf : formOpnd i.word.opd2 8 [.load] c = .ok o c1)
    (hv : readVal o 8 c1 = .ok v c2) :
    andPswBody .straight i.word c = (applyControl (c2.b.psw.control &&& v) >>= fun _ => pure 1) c2 :=
  (bind_ok (pswFmt_run (starts_rule h) c)).trans <| (bind_ok (starts_checkShape h)).trans <| (bind_ok hf).trans <|
    (bind_ok hv).trans (bind_ok (getPsw_run c2))

/-- R69: OR into the PSW applies the control word with the bits of its operand. -/
theorem orPswBody_eq {o : Opnd} {v : Nat} (h : Starts 0x021 shapePswOp i s c) (hf : formOpnd i.word.opd2 8 [.load] c = .ok o c1)
    (hv : readVal o 8 c1 = .ok v c2) :
    orPswBody .straight i.word c = (applyControl (c2.b.psw.control ||| v) >>= fun _ => pure 1) c2 :=
  (bind_ok (pswFmt_run (starts_rule h) c)).trans <| (bind_ok (starts_checkShape h)).trans <| (bind_ok hf).trans <|
    (bind_ok hv).trans (bind_ok (getPsw_run c2))

/-- The PSW forms of AND and OR: the control word `new` that an instruction `ctor` of opcode `op` makes of `old` and its operand. -/
def PswForm (ctor : Issue → Instr) (op : BitVec 12) (old v new : Nat) : Prop :=
  (ctor, op, new) = (Instr.andPsw, 0x020, old &&& v) ∨ (ctor, op, new) = (Instr.orPsw, 0x021, old ||| v)

variable {o : Opnd} {v new : Nat} {ctor : Issue → Instr} {op : BitVec 12}

/-- R69: a PSW form whose control word is accepted replaces it. -/
theorem exec_pswForm_replaces (hop : PswForm ctor op c2.b.psw.control v new) (h : Starts op shapePswOp i s c)
    (hf : formOpnd i.word.opd2 8 [.load] c = .ok o c1) (hv : readVal o 8 c1 = .ok v c2)
    (ha : applyControl new c2 = .ok () { c2 with b := c2.b.setPsw (Psw.ofControl c2.b.psw.ia new) })
    (ht : Cpu.Retires { c2 with b := c2.b.setPsw (Psw.ofControl c2.b.psw.ia new) } 1 t) : exec (ctor i) s = .next (s.after t) := by
  simp only [PswForm, Prod.mk.injEq] at hop
  obtain ⟨rfl, rfl, rfl⟩ | ⟨rfl, rfl, rfl⟩ := hop
  · exact (exec_andPsw i s).trans (starts_completes h ((andPswBody_eq h hf hv).trans (bind_ok ha)) ht)
  · exact (exec_orPsw i s).trans (starts_completes h ((orPswBody_eq h hf hv).trans (bind_ok ha)) ht)

/-- R69: a PSW form whose control word raises an exception takes it. -/
theorem exec_pswForm_traps {e : Exc} (hop : PswForm ctor op c2.b.psw.control v new) (h : Starts op shapePswOp i s c)
    (hf : formOpnd i.word.opd2 8 [.load] c = .ok o c1) (hv : readVal o 8 c1 = .ok v c2)
    (ha : applyControl new c2 = .error (.exc e) c2) : exec (ctor i) s = .next (s.after (c2.takes op i.word e)) := by
  simp only [PswForm, Prod.mk.injEq] at hop
  obtain ⟨rfl, rfl, rfl⟩ | ⟨rfl, rfl, rfl⟩ := hop
  · exact (exec_andPsw i s).trans (starts_traps h ((andPswBody_eq h hf hv).trans (bind_error ha)))
  · exact (exec_orPsw i s).trans (starts_traps h ((orPswBody_eq h hf hv).trans (bind_error ha)))

end PswForms

/-! ## Supervisor instructions and unassigned opcodes (R109, R138) -/

/-- R138: an instruction of the supervisor fails its encoding checks in user state, after the check of FMT. -/
theorem checkShape_privileged {sh : Shape} {w : Word112} {c : Cpu} (hpriv : sh.priv = true) (hfmt : sh.fmts.contains w.fmt.toNat = true)
    (huser : c.b.psw.sup = false) : checkShape sh w c = .error (.exc { code := 0x02 }) c :=
  (bind_ok (getPsw_run c)).trans <| (bind_ok (raiseIf_not hfmt)).trans <|
    bind_error (raiseIf_true (by rw [hpriv, huser, Bool.not_false, Bool.and_self]))

/-- A ready instruction has the PSW of its bank. -/
theorem ready_psw {i : Issue} {s : State} {b : Bank} {c : Cpu} (h : Ready i s b c) : c.b.psw = b.psw := by
  have hp : (Cpu.start s b i.env.device).pass ≠ .form := by
    show Pass.plain ≠ Pass.form
    decide
  rw [fetchCheck_bank hp h.fetched]
  rfl

/-- R138: SEALF, RETX and SETKEY in user state raise 0x02 before they form an operand. -/
theorem exec_privilegedOps {a : (Issue → Instr) × BitVec 12 × Shape} {i : Issue} {s : State} {b : Bank} {c : Cpu} (ha : a ∈ privilegedOps)
    (h : Ready i s b c) (hfmt : a.2.2.fmts.contains i.word.fmt.toNat = true) (huser : b.psw.sup = false) :
    exec (a.1 i) s = .next (s.after ((c.withImage a.2.1 i.word).takes a.2.1 i.word { code := 0x02 })) := by
  have hsup (op : BitVec 12) : (c.withImage op i.word).b.psw.sup = false := (congrArg Psw.sup (ready_psw h)).trans huser
  simp only [privilegedOps, List.mem_cons, List.not_mem_nil, or_false] at ha
  obtain rfl | rfl | rfl := ha
  · exact (exec_sealf i s).trans (issue_traps h (bind_error (checkShape_privileged rfl hfmt (hsup _))))
  · exact (exec_retx i s).trans (issue_traps h (bind_error (checkShape_privileged rfl hfmt (hsup _))))
  · exact (exec_setkey i s).trans (issue_traps h (bind_error (checkShape_privileged rfl hfmt (hsup _))))

/-- R109: an opcode that the table does not assign raises 0x01. -/
theorem exec_unassigned {i : Issue} {s : State} {b : Bank} {c : Cpu} {op : BitVec 12} (h : Ready i s b c)
    (hop : assignedOps.contains op.toNat = false) :
    exec (.mov ⟨i, some op⟩) s = .next (s.after ((c.withImage op i.word).takes op i.word { code := 0x01 })) := by
  have hbody : (both 0x000 movBody).unlessOther (some op) = unassigned op := if_neg (Bool.eq_false_iff.mp hop)
  have hexec : exec (.mov ⟨i, some op⟩) s = issue (unassigned op) i s := congrArg (issue · i s) hbody
  exact hexec.trans (issue_traps (body := unassigned op) h (bind_error (raiseCode_run 0x01 _)))

/-! ## The statements -/

/-- Settles O1. -/
theorem movesDeliver : Obligations.MovesDeliver := by
  refine ⟨?copies, ?address⟩
  case copies =>
    intro i s t c c1 c2 o y hfmt h hf hw ht
    exact exec_mov_copies hfmt h hf hw ht
  case address =>
    intro i s t c c1 p h hf ht
    exact exec_lea_delivers h hf ht

/-- Settles O2: both kinds of operation deliver through the overflow rule. -/
theorem signedArithmetic : Obligations.SignedArithmetic := by
  refine ⟨?binary, ?unary⟩
  case binary =>
    intro a ha i s t c c1 c2 o x y k e h hf hov hw ht
    exact exec_signedOps ha h hf (deliverArith_run hov hw) ht
  case unary =>
    intro a ha i s t c c1 c2 o y k e h hf hov hw ht
    exact exec_signedUnaryOps ha h hf (deliverArith_run hov hw) ht

/-- Settles O3: an overflow under FOM, a divisor 0, and a packed source that is not valid; each ends the work where it is found. -/
theorem arithmeticTraps : Obligations.ArithmeticTraps := by
  refine ⟨?overflow, ?zero, ?packed⟩
  case overflow =>
    intro a ha i s c c1 o x y k h hf hov hfom
    have hplain := (SamePass.formBoth _ _ _ _ hf).plain (starts_pass h)
    have hpass : c1.pass ≠ .trap := by rw [hplain]; decide
    exact exec_signedOps_traps ha h hf (bind_error (setArith_traps hov hfom hpass))
  case zero =>
    intro i a ha s c c1 o x h hf
    refine exec_divideOps_traps ha h ?_
    unfold divides
    split
    · exact (divide_zero_traps hf).1
    · exact (divide_zero_traps hf).2
  case packed =>
    intro i s c c1 c2 c3 o1 o2 bs hbad
    refine ⟨fun h h1 h2 h3 => ?_, fun h h1 h2 h3 => ?_⟩
    · exact (exec_zapp i s).trans (starts_works_traps h rfl
        ((bind_ok h1).trans ((bind_ok h2).trans (bind_error (readPacked_traps h3 hbad)))))
    · exact (exec_cvbp i s).trans (starts_works_traps h rfl
        ((bind_ok h1).trans ((bind_ok h2).trans (bind_error (readPacked_traps h3 hbad)))))

/-- Settles O4. -/
theorem mulhHighHalf : Obligations.MulhHighHalf := by
  intro i s t c c1 c2 o x y n u r h hf hw ht
  exact exec_mulh_delivers rfl h hf hw ht

/-- Settles O5, by cases on whether the division is signed. -/
theorem divisionDelivers : Obligations.DivisionDelivers := by
  intro i a ha s t c c1 c2 o x y n sgn rem h hf hy hfom hw ht
  refine exec_divideOps ha h ?_ ht
  obtain ⟨ctor, op, sh, _ | _, rem'⟩ := a
  · exact unsignedDivide_run hf hy hw
  · exact signedDivide_run hf hy hfom hw

/-- Settles O8. -/
theorem pswForms : Obligations.PswForms := by
  refine ⟨?reads, ?replaces⟩
  case reads =>
    intro i s t c hfmt h ht
    exact ⟨exec_movPsw_reads h ht, exec_mov_reads hfmt h ht⟩
  case replaces =>
    intro i s t c c1 c2 o v new ctor op hop _ h hf hv hfix hsup ht
    exact exec_pswForm_replaces hop h hf hv (applyControl_run hfix hsup) ht

/-- Settles O49: the encoding checks, the check of the control word, and the opcode each raise before anything is written. -/
theorem privilegeTraps : Obligations.PrivilegeTraps := by
  refine ⟨?supervisor, ?psw, ?opcode⟩
  case supervisor =>
    intro a ha i s b c h hfmt huser
    exact exec_privilegedOps ha h hfmt huser
  case psw =>
    intro i s c c1 c2 o v new ctor op hop _ h hf hv hfix huser hsup
    exact exec_pswForm_traps hop h hf hv (applyControl_traps hfix huser hsup)
  case opcode =>
    intro i s b c op h hop
    exact exec_unassigned h hop

end Sys2Proof.Machine
end

section
/-!
SUPPORT. The packed decimal family (R183 to R201): what each instruction does with its formed operands, and the statements of the
family settled with it.
-/

namespace Sys2Proof.Machine

/-! ## The commands of the family -/

section DecimalArms

variable (i : Issue) (s : State)

theorem exec_addp : exec (.addp i) s = issue (both 0x200 addpBody) i s := rfl
theorem exec_subp : exec (.subp i) s = issue (both 0x201 subpBody) i s := rfl
theorem exec_cmpp : exec (.cmpp i) s = issue (both 0x203 cmppBody) i s := rfl
theorem exec_mulp : exec (.mulp i) s = issue (both 0x204 mulpBody) i s := rfl
theorem exec_divp : exec (.divp i) s = issue (both 0x205 divpBody) i s := rfl
theorem exec_srpp : exec (.srpp i) s = issue (both 0x206 srppBody) i s := rfl
theorem exec_tstp : exec (.tstp i) s = issue (both 0x207 tstpBody) i s := rfl
theorem exec_cvdp : exec (.cvdp i) s = issue (both 0x209 cvdpBody) i s := rfl
theorem exec_pack : exec (.pack i) s = issue (both 0x20A packBody) i s := rfl
theorem exec_unpk : exec (.unpk i) s = issue (both 0x20B unpkBody) i s := rfl
theorem exec_lda : exec (.lda i) s = issue (both 0x20C ldaBody) i s := rfl
theorem exec_sta : exec (.sta i) s = issue (both 0x20D staBody) i s := rfl

end DecimalArms

/-! ## Sources (R177) -/

/-- R177: two valid packed sources pass their check. -/
theorem packedSources_run {b1 b2 : List Byte} (h1 : packedOk b1 = true) (h2 : packedOk b2 = true) (c : Cpu) :
    raiseIf (!(packedOk b1 && packedOk b2)) 0x05 c = .ok () c :=
  raiseIf_not (by rw [h1, h2, Bool.and_self])

section Packed

variable {i : Issue} {s t : State} {c c1 c2 c3 c4 c5 c6 c7 : Cpu} {o o1 o2 o3 : Opnd} {x y v : Int} {b1 b2 b3 bs : List Byte}

/-! ## Addition, subtraction and multiplication (R183, R186, R188) -/

/-- R188, R543: a MULP of operands of more than 16 bytes that holds its leave goes on. -/
theorem longMulp_run {w : Word112} {rest : M Nat} (hl : 16 < lenL1 w.len ∨ 16 < lenL2 w.len → c.b.leave ≠ none) :
    (do if 16 < lenL1 w.len ∨ 16 < lenL2 w.len then takeLeave 40
        rest : M Nat) c = rest c := by
  by_cases hlong : 16 < lenL1 w.len ∨ 16 < lenL2 w.len
  · exact (congrFun (if_pos hlong) c).trans (bind_ok (takeLeave_run (hl hlong)))
  · exact congrFun (if_neg hlong) c

/-- R186, R188: ADDP, SUBP and MULP deliver their exact result. -/
theorem exec_packedOps {a : (Issue → Instr) × BitVec 12 × (Int → Int → Int) × Nat} (ha : a ∈ packedOps i.word)
    (h : Starts a.2.1 shapeTwoP i s c) (hf : formTwoP i.word c = .ok (o, x, y) c1)
    (hl : a.2.1 = 0x204 → (16 < lenL1 i.word.len ∨ 16 < lenL2 i.word.len) → c1.b.leave ≠ none)
    (hd : deliverPacked o (lenL1 i.word.len) (a.2.2.1 x y) c1 = .ok () c2) (ht : c2.Retires a.2.2.2 t) :
    exec (a.1 i) s = .next (s.after t) := by
  simp only [packedOps, List.mem_cons, List.not_mem_nil, or_false] at ha
  obtain rfl | rfl | rfl := ha
  · exact (exec_addp i s).trans (starts_forms h rfl hf (bind_ok hd) ht)
  · exact (exec_subp i s).trans (starts_forms h rfl hf (bind_ok hd) ht)
  · exact (exec_mulp i s).trans (starts_forms h rfl hf ((longMulp_run (hl rfl)).trans (bind_ok hd)) ht)

/-! ## Moves and comparison (R186, R201) -/

/-- R186: ZAPP delivers its source. -/
theorem exec_zapp_delivers (h : Starts 0x202 shapeTwoP i s c) (h1 : formOpnd i.word.opd1 (lenL1 i.word.len) [.store] c = .ok o1 c1)
    (h2 : formOpnd i.word.opd2 (lenL2 i.word.len) [.load] c1 = .ok o2 c2) (hr : readPacked o2 (lenL2 i.word.len) c2 = .ok y c3)
    (hd : deliverPacked o1 (lenL1 i.word.len) y c3 = .ok () c4) (ht : c4.Retires (addpCount i.word) t) :
    exec (.zapp i) s = .next (s.after t) :=
  (exec_zapp i s).trans (starts_forms h rfl h1 ((bind_ok h2).trans ((bind_ok hr).trans (bind_ok hd))) ht)

/-- R186: CMPP writes CC alone. -/
theorem exec_cmpp_setsCc (h : Starts 0x203 shapeTwoP i s c) (h1 : formOpnd i.word.opd1 (lenL1 i.word.len) [.load] c = .ok o1 c1)
    (h2 : formOpnd i.word.opd2 (lenL2 i.word.len) [.load] c1 = .ok o2 c2) (hr1 : readOpnd o1 (lenL1 i.word.len) c2 = .ok b1 c3)
    (hr2 : readOpnd o2 (lenL2 i.word.len) c3 = .ok b2 c4) (hok1 : packedOk b1 = true) (hok2 : packedOk b2 = true)
    (ht : (c4.withCc (cmpCc (packedVal b1) (packedVal b2))).Retires (addpCount i.word) t) : exec (.cmpp i) s = .next (s.after t) :=
  (exec_cmpp i s).trans (starts_forms h rfl h1 ((bind_ok h2).trans <| (bind_ok hr1).trans <| (bind_ok hr2).trans <|
    (bind_ok (packedSources_run hok1 hok2 c4)).trans (bind_ok (setCc_run _ c4))) ht)

/-- R201: LDA loads its bytes below zeros. -/
theorem exec_lda_loads (h : Starts 0x20C shapeLda i s c) (h1 : formOpnd i.word.opd1 32 [] c = .ok o1 c1)
    (h2 : formOpnd i.word.opd2 (lenL2 i.word.len) [.load] c1 = .ok o2 c2) (hr : readOpnd o2 (lenL2 i.word.len) c2 = .ok bs c3)
    (hw : writeOpnd o1 (zeros (32 - lenL2 i.word.len) ++ bs) c3 = .ok () c4) (ht : c4.Retires 2 t) :
    exec (.lda i) s = .next (s.after t) :=
  (exec_lda i s).trans (starts_forms h rfl h1 ((bind_ok h2).trans ((bind_ok hr).trans (bind_ok hw))) ht)

/-- R201: STA stores the low bytes of its accumulator. -/
theorem exec_sta_stores (h : Starts 0x20D shapeSta i s c) (h1 : formOpnd i.word.opd1 (lenL1 i.word.len) [.store] c = .ok o1 c1)
    (h2 : formOpnd i.word.opd2 32 [] c1 = .ok o2 c2) (hr : readOpnd o2 32 c2 = .ok bs c3)
    (hw : writeOpnd o1 (bs.drop (32 - lenL1 i.word.len)) c3 = .ok () c4) (ht : c4.Retires 2 t) :
    exec (.sta i) s = .next (s.after t) :=
  (exec_sta i s).trans (starts_forms h rfl h1 ((bind_ok h2).trans ((bind_ok hr).trans (bind_ok hw))) ht)

/-! ## Division, scaling and testing (R190 to R195) -/

/-- R190, R191: DIVP writes the remainder, then the quotient. -/
theorem exec_divp_divides (h : Starts 0x205 shapeDivp i s c) (h1 : formOpnd i.word.opd1 (lenL1 i.word.len) [.store] c = .ok o1 c1)
    (h2 : formOpnd i.word.opd2 (lenL2 i.word.len) [.load, .store] c1 = .ok o2 c2)
    (h3 : formOpnd i.word.opd3 (lenL3 i.word.len) [.load] c2 = .ok o3 c3) (hr2 : readOpnd o2 (lenL2 i.word.len) c3 = .ok b2 c4)
    (hr3 : readOpnd o3 (lenL3 i.word.len) c4 = .ok b3 c5) (hok2 : packedOk b2 = true) (hok3 : packedOk b3 = true)
    (hnz : packedVal b3 ≠ 0) (hfits : ((packedVal b2).tdiv (packedVal b3)).natAbs < capacity (lenL1 i.word.len)) (hl : c5.b.leave ≠ none)
    (hw2 : writeOpnd o2 (packedBytes (lenL2 i.word.len) ((packedVal b2).tmod (packedVal b3))) c5 = .ok () c6)
    (hw1 : writeOpnd o1 (packedBytes (lenL1 i.word.len) ((packedVal b2).tdiv (packedVal b3))) c6 = .ok () c7)
    (ht : (c7.withCc (signCc ((packedVal b2).tdiv (packedVal b3)))).Retires
      (12 + max 1 (sigDigits (packedVal b2).natAbs + 1 - sigDigits (packedVal b3).natAbs)) t) :
    exec (.divp i) s = .next (s.after t) :=
  (exec_divp i s).trans (starts_forms h rfl h1 ((bind_ok h2).trans <| (bind_ok h3).trans <| (bind_ok hr2).trans <|
    (bind_ok hr3).trans <| (bind_ok (packedSources_run hok2 hok3 c5)).trans <| (bind_ok (raiseIf_false (decide_eq_false hnz))).trans <|
    (bind_ok (raiseIf_false (decide_eq_false (Nat.not_le.mpr hfits)))).trans <| (bind_ok (takeLeave_run hl)).trans <|
    (bind_ok hw2).trans <| (bind_ok hw1).trans (bind_ok (setCc_run _ c7))) ht)

/-- R193, R194: SRPP scales its operand by the power of ten that its control names. -/
theorem exec_srpp_scales {ctl : Nat} (h : Starts 0x206 shapeSrpp i s c)
    (h1 : formOpnd i.word.opd1 (lenL1 i.word.len) [.load, .store] c = .ok o1 c1) (h2 : formOpnd i.word.opd2 8 [.load] c1 = .ok o2 c2)
    (hc : readVal o2 8 c2 = .ok ctl c3) (hhigh : ctl / 2 ^ 11 = 0) (hmode : bitsOf ctl 8 3 ≤ 5) (hscale : (sextInt 8 ctl).natAbs ≤ 63)
    (hr : readPacked o1 (lenL1 i.word.len) c3 = .ok x c4)
    (hd : deliverPacked o1 (lenL1 i.word.len) (srppValue x (sextInt 8 ctl) (bitsOf ctl 8 3)) c4 = .ok () c5) (ht : c5.Retires 4 t) :
    exec (.srpp i) s = .next (s.after t) := by
  have hctl : raiseIf (ctl / 2 ^ 11 != 0 || decide (5 < bitsOf ctl 8 3) || decide (63 < (sextInt 8 ctl).natAbs)) 0x04 c3 = .ok () c3 :=
    raiseIf_false (by rw [hhigh, decide_eq_false (Nat.not_lt.mpr hmode), decide_eq_false (Nat.not_lt.mpr hscale)]; rfl)
  exact (exec_srpp i s).trans (starts_forms h rfl h1 ((bind_ok h2).trans <| (bind_ok hc).trans <| (bind_ok hctl).trans <|
    (bind_ok hr).trans (bind_ok hd)) ht)

/-- R195: TSTP says in CC which check fails. -/
theorem exec_tstp_tests (h : Starts 0x207 shapeTstp i s c) (h1 : formOpnd i.word.opd1 (lenL1 i.word.len) [.load] c = .ok o1 c1)
    (hr : readOpnd o1 (lenL1 i.word.len) c1 = .ok bs c2)
    (ht : (c2.withCc (BitVec.ofNat 2 (b2n ((splitPacked bs).1.any (fun d => decide (9 < d))) * 2 + b2n (!signOk (splitPacked bs).2)))).Retires
      2 t) : exec (.tstp i) s = .next (s.after t) :=
  (exec_tstp i s).trans (starts_forms h rfl h1 ((bind_ok hr).trans (bind_ok (setCc_run _ c2))) ht)

/-! ## Conversions (R196 to R200) -/

/-- R196: CVBP delivers the binary value of its source under the overflow rule. -/
theorem exec_cvbp_converts (h : Starts 0x208 shapeCvbp i s c) (h1 : formOpnd i.word.opd1 8 [.store] c = .ok o1 c1)
    (h2 : formOpnd i.word.opd2 (lenL2 i.word.len) [.load] c1 = .ok o2 c2) (hr : readPacked o2 (lenL2 i.word.len) c2 = .ok v c3)
    (hd : deliverArith o1 8 v c3 = .ok () c4) (ht : c4.Retires 8 t) : exec (.cvbp i) s = .next (s.after t) :=
  (exec_cvbp i s).trans (starts_forms h rfl h1 ((bind_ok h2).trans ((bind_ok hr).trans (bind_ok hd))) ht)

/-- R197: CVDP delivers the packed value of its source. -/
theorem exec_cvdp_converts {u : Nat} (h : Starts 0x209 shapeCvdp i s c)
    (h1 : formOpnd i.word.opd1 (lenL1 i.word.len) [.store] c = .ok o1 c1) (h2 : formOpnd i.word.opd2 8 [.load] c1 = .ok o2 c2)
    (hr : readVal o2 8 c2 = .ok u c3) (hd : deliverPacked o1 (lenL1 i.word.len) (signed 64 u) c3 = .ok () c4) (ht : c4.Retires 10 t) :
    exec (.cvdp i) s = .next (s.after t) :=
  (exec_cvdp i s).trans (starts_forms h rfl h1 ((bind_ok h2).trans ((bind_ok hr).trans (bind_ok hd))) ht)

/-- The digits of a zoned operand (R198). -/
def zonedDigits (bs : List Byte) : List Nat := bs.map (fun b => b.toNat % 16)

/-- The sign of a zoned operand: the high half of its last byte (R198). -/
def zonedSign (bs : List Byte) : Nat := (bs.getLast?.map (fun b => b.toNat / 16)).getD 0

/-- R198: a zoned source whose digits are valid, and whose sign is where it counts, passes its check. -/
theorem zonedSource_run {w : Word112} (hds : (zonedDigits bs).all (fun d => decide (d ≤ 9)) = true)
    (hsg : lenFlag w.len = true ∨ signOk (zonedSign bs) = true) (c : Cpu) :
    raiseIf ((zonedDigits bs).any (fun d => decide (9 < d)) || (!lenFlag w.len && !signOk (zonedSign bs))) 0x05 c = .ok () c := by
  have hdigits : (zonedDigits bs).any (fun d => decide (9 < d)) = false := by
    rw [List.any_eq_false]
    intro d hd
    have hle := List.all_eq_true.mp hds d hd
    simp only [decide_eq_true_eq] at hle ⊢
    exact Nat.not_lt.mpr hle
  exact raiseIf_false (by obtain hs | hs := hsg <;> simp [hdigits, hs])

/-- R198: PACK delivers the number that its zoned source spells. -/
theorem exec_pack_packs (h : Starts 0x20A shapePack i s c) (h1 : formOpnd i.word.opd1 (lenL1 i.word.len) [.store] c = .ok o1 c1)
    (h2 : formOpnd i.word.opd2 (lenL2 i.word.len) [.load] c1 = .ok o2 c2) (hr : readOpnd o2 (lenL2 i.word.len) c2 = .ok bs c3)
    (hds : (zonedDigits bs).all (fun d => decide (d ≤ 9)) = true) (hsg : lenFlag i.word.len = true ∨ signOk (zonedSign bs) = true)
    (hd : deliverPacked o1 (lenL1 i.word.len)
      (if !lenFlag i.word.len && isMinus (zonedSign bs) then -(digitsNat (zonedDigits bs) : Int) else digitsNat (zonedDigits bs)) c3
        = .ok () c4) (ht : c4.Retires (packCount i.word) t) : exec (.pack i) s = .next (s.after t) :=
  (exec_pack i s).trans (starts_forms h rfl h1 ((bind_ok h2).trans <| (bind_ok hr).trans <|
    (bind_ok (zonedSource_run hds hsg c3)).trans (bind_ok hd)) ht)

/-- R199: UNPK delivers the zoned digits of its source, its low ones when they do not all fit and DOM is 0. -/
theorem exec_unpk_unpacks (h : Starts 0x20B shapeUnpk i s c) (h1 : formOpnd i.word.opd1 (lenL1 i.word.len) [.store] c = .ok o1 c1)
    (h2 : formOpnd i.word.opd2 (lenL2 i.word.len) [.load] c1 = .ok o2 c2) (hr : readPacked o2 (lenL2 i.word.len) c2 = .ok v c3)
    (hdom : 10 ^ lenL1 i.word.len ≤ v.natAbs → c3.b.psw.dom = false)
    (hw : writeOpnd o1 (zonedBytes (lenL1 i.word.len) v (lenFlag i.word.len))
      (c3.withCc (if 10 ^ lenL1 i.word.len ≤ v.natAbs then 3 else signCc v)) = .ok () c4) (ht : c4.Retires (packCount i.word) t) :
    exec (.unpk i) s = .next (s.after t) := by
  refine (exec_unpk i s).trans (starts_forms h rfl h1 ((bind_ok h2).trans ((bind_ok hr).trans ?_)) ht)
  by_cases hlong : 10 ^ lenL1 i.word.len ≤ v.natAbs
  · rw [if_pos hlong] at hw
    exact (congrFun (if_pos hlong) c3).trans <| (bind_ok (getPsw_run c3)).trans <|
      (bind_ok (raiseIf_false (hdom hlong))).trans <| (bind_ok (setCc_run _ c3)).trans (bind_ok hw)
  · rw [if_neg hlong] at hw
    exact (congrFun (if_neg hlong) c3).trans ((bind_ok (setCc_run _ c3)).trans (bind_ok hw))

end Packed

/-! ## The statements -/

/-- Settles O10. -/
theorem packedArithmetic : Obligations.PackedArithmetic := by
  intro i a ha s t c c1 c2 o x y n v h hf hdom hl _ hw ht
  exact exec_packedOps ha h hf hl (deliverPacked_run hdom hw) ht

/-- Settles O11: ZAPP and CMPP, then LDA and STA. -/
theorem packedMovesAndCompare : Obligations.PackedMovesAndCompare := by
  refine ⟨?packed, ?accumulator⟩
  case packed =>
    intro i s t c c1 c2 c3 c4 c5 o o2 y b1 b2 n
    refine ⟨?_, exec_cmpp_setsCc⟩
    intro h h1 h2 hr hdom hw ht
    exact exec_zapp_delivers h h1 h2 hr (deliverPacked_run hdom hw) ht
  case accumulator =>
    intro i s t c c1 c2 c3 c4 o1 o2 bs
    exact ⟨exec_lda_loads, exec_sta_stores⟩

/-- Settles O12: DIVP, then SRPP and TSTP. -/
theorem packedDivideScaleTest : Obligations.PackedDivideScaleTest := by
  refine ⟨?divides, ?scales⟩
  case divides =>
    intro i s t c c1 c2 c3 c4 c5 c6 c7 o1 o2 o3 b2 b3 n1 n2 n3 x y h h1 h2 h3 hr2 hr3 hok2 hok3 hnz hfits hl _ hw2 hw1 ht
    exact exec_divp_divides h h1 h2 h3 hr2 hr3 hok2 hok3 hnz hfits hl hw2 hw1 ht
  case scales =>
    intro i s t c c1 c2 c3 c4 c5 o o2 ctl x bs n v
    refine ⟨?_, exec_tstp_tests⟩
    intro h h1 h2 hc hhigh hmode hscale hr hdom hw ht
    exact exec_srpp_scales h h1 h2 hc hhigh hmode hscale hr (deliverPacked_run hdom hw) ht

/-- Settles O13: each conversion delivers under the overflow rule of its result. -/
theorem decimalConversions : Obligations.DecimalConversions := by
  intro i s t c c1 c2 c3 c4 o1 o2 v u bs n1 n2 zoned sg m
  refine ⟨?toBinary, ?toPacked, ?packs, exec_unpk_unpacks⟩
  case toBinary =>
    intro h h1 h2 hr hfom hw ht
    exact exec_cvbp_converts h h1 h2 hr (deliverArith_run (n := 8) hfom hw) ht
  case toPacked =>
    intro h h1 h2 hr hdom hw ht
    exact exec_cvdp_converts h h1 h2 hr (deliverPacked_run hdom hw) ht
  case packs =>
    intro h h1 h2 hr hds hsg hdom hw ht
    exact exec_pack_packs h h1 h2 hr hds hsg (deliverPacked_run hdom hw) ht

end Sys2Proof.Machine
end

section
/-!
SUPPORT. The floating-point family and DOT (R161 to R168): what each instruction does with its formed operands when FPE enables none
of the flags it meets, and the statements of the family settled with it.
-/

namespace Sys2Proof.Machine

/-! ## The commands of the family -/

section FloatArms

variable (i : Issue) (s : State)

theorem exec_fadd : exec (.fadd i) s = issue (both 0x500 faddBody) i s := rfl
theorem exec_fsub : exec (.fsub i) s = issue (both 0x501 fsubBody) i s := rfl
theorem exec_fmul : exec (.fmul i) s = issue (both 0x502 fmulBody) i s := rfl
theorem exec_fma : exec (.fma i) s = issue (both 0x503 fmaBody) i s := rfl
theorem exec_fdiv : exec (.fdiv i) s = issue (both 0x504 fdivBody) i s := rfl
theorem exec_fsqrt : exec (.fsqrt i) s = issue (same 0x505 fsqrtBody) i s := rfl
theorem exec_fcmp : exec (.fcmp i) s = issue (both 0x506 fcmpBody) i s := rfl
theorem exec_fcvt : exec (.fcvt i) s = issue (both 0x507 fcvtBody) i s := rfl
theorem exec_dot : exec (.dot i) s = issue (both 0x508 dotBody) i s := rfl

end FloatArms

/-! ## Flags and rounding (R162) -/

/-- R162: flags of which FPE enables none raise nothing. -/
theorem raiseFp_run {fl : FFlags} {c : Cpu} (h : fl &&& c.b.psw.fpe.toNat = 0) : raiseFp fl c = .ok () c := by
  refine (bind_ok (getPsw_run c)).trans ?_
  rw [h]
  exact (bind_ok (raiseLate_false (by decide))).trans ((bind_ok (raiseLate_false (by decide))).trans (raiseLate_false (by decide)))

theorem stickFp_run (fl : FFlags) (c : Cpu) : stickFp fl c = .ok () (c.withFlags fl) := modPsw_run _ c

theorem brm_run (c : Cpu) : brm c = .ok c.b.psw.brm.toNat c := rfl

section Float

variable {i : Issue} {s t : State} {c c1 c2 c3 c4 c5 c6 c7 : Cpu} {o o1 o2 o3 : Opnd} {x y z n : Nat}

/-- R163: FADD, FSUB, FMUL and FDIV deliver their rounded result; FDIV with its leave. -/
theorem exec_floatOps {a : (Issue → Instr) × BitVec 12 × (FFmt → Nat → FVal → FVal → Nat × FFlags)} {x y : FVal} (ha : a ∈ floatOps)
    (h : Starts a.2.1 shapeFp i s c) (hf : formFp i.word c = .ok (o, x, y) c1) (hl : a.2.1 = 0x504 → c1.b.leave ≠ none)
    (hd : deliverFp o (fmtBytes i.word.fmt) (a.2.2 (ffmt i.word.fmt.toNat) c1.b.psw.brm.toNat x y) c1 = .ok () c2)
    (ht : c2.Retires (if a.2.1 = 0x504 then (if i.word.fmt = 6 then 8 else 12) else 2) t) : exec (a.1 i) s = .next (s.after t) := by
  simp only [floatOps, List.mem_cons, List.not_mem_nil, or_false] at ha
  obtain rfl | rfl | rfl | rfl := ha
  · exact (exec_fadd i s).trans (starts_forms h rfl hf ((bind_ok (brm_run c1)).trans (bind_ok hd)) ht)
  · exact (exec_fsub i s).trans (starts_forms h rfl hf ((bind_ok (brm_run c1)).trans (bind_ok hd)) ht)
  · exact (exec_fmul i s).trans (starts_forms h rfl hf ((bind_ok (brm_run c1)).trans (bind_ok hd)) ht)
  · exact (exec_fdiv i s).trans (starts_forms h rfl hf
      ((bind_ok (takeLeave_run (hl rfl))).trans ((bind_ok (brm_run c1)).trans (bind_ok hd))) ht)

/-- R163: FMA rounds once. -/
theorem exec_fma_delivers (hn : n = fmtBytes i.word.fmt) (h : Starts 0x503 shapeFma i s c)
    (h1 : formOpnd i.word.opd1 n [.load, .store] c = .ok o1 c1) (h2 : formOpnd i.word.opd2 n [.load] c1 = .ok o2 c2)
    (h3 : formOpnd i.word.opd3 n [.load] c2 = .ok o3 c3) (hx : readVal o1 n c3 = .ok x c4) (hy : readVal o2 n c4 = .ok y c5)
    (hz : readVal o3 n c5 = .ok z c6)
    (hd : deliverFp o1 n ((ffmt i.word.fmt.toNat).fma c6.b.psw.brm.toNat ((ffmt i.word.fmt.toNat).decode x)
      ((ffmt i.word.fmt.toNat).decode y) ((ffmt i.word.fmt.toNat).decode z)) c6 = .ok () c7) (ht : c7.Retires 3 t) :
    exec (.fma i) s = .next (s.after t) := by
  subst hn
  exact (exec_fma i s).trans (starts_forms h rfl h1 ((bind_ok h2).trans <| (bind_ok h3).trans <| (bind_ok hx).trans <|
    (bind_ok hy).trans <| (bind_ok hz).trans <| (bind_ok (brm_run c6)).trans (bind_ok hd)) ht)

/-- R163: FSQRT delivers the rounded root, with its leave. -/
theorem exec_fsqrt_delivers (h : Starts 0x505 shapeFsqrt i s c) (h1 : formOpnd i.word.opd1 8 [.store] c = .ok o1 c1)
    (h2 : formOpnd i.word.opd2 8 [.load] c1 = .ok o2 c2) (hy : readVal o2 8 c2 = .ok y c3) (hl : c3.b.leave ≠ none)
    (hd : deliverFp o1 8 ((ffmt 7).sqrt c3.b.psw.brm.toNat ((ffmt 7).decode y)) c3 = .ok () c4) (ht : c4.Retires 14 t) :
    exec (.fsqrt i) s = .next (s.after t) :=
  (exec_fsqrt i s).trans (starts_forms h rfl h1 ((bind_ok h2).trans <| (bind_ok hy).trans <| (bind_ok (takeLeave_run hl)).trans <|
    (bind_ok (brm_run c3)).trans (bind_ok hd)) ht)

/-- R161: the flags of FCMP: invalid for a signalling NaN, and with S = 1 for any NaN. -/
def fcmpFlags (w : Word112) (x y : FVal) : FFlags := if anySnan [x, y] || (lenFlag w.len && anyNan [x, y]) then 1 else 0

/-- R163: FCMP sets CC by the order of its operands. -/
theorem exec_fcmp_compares (hn : n = fmtBytes i.word.fmt) {f : FFmt} (hfm : f = ffmt i.word.fmt.toNat) (h : Starts 0x506 shapeFcmp i s c)
    (h1 : formOpnd i.word.opd1 n [.load] c = .ok o1 c1) (h2 : formOpnd i.word.opd2 n [.load] c1 = .ok o2 c2)
    (hx : readVal o1 n c2 = .ok x c3) (hy : readVal o2 n c3 = .ok y c4)
    (hfl : fcmpFlags i.word (f.decode x) (f.decode y) &&& c4.b.psw.fpe.toNat = 0)
    (ht : ((c4.withFlags (fcmpFlags i.word (f.decode x) (f.decode y))).withCc (fcompareCc (fcompare (f.decode x) (f.decode y)))).Retires
      1 t) : exec (.fcmp i) s = .next (s.after t) := by
  subst hn hfm
  exact (exec_fcmp i s).trans (starts_forms h rfl h1 ((bind_ok h2).trans <| (bind_ok hx).trans <| (bind_ok hy).trans <|
    (bind_ok (raiseFp_run hfl)).trans <| (bind_ok (stickFp_run _ c4)).trans (bind_ok (setCc_run _ _))) ht)

/-- R164: FCVT delivers its source in the other format: an integer, a rounded integer, or a rounded value. -/
theorem exec_fcvt_converts (hn : n = fmtBytes i.word.fmt) {k : Nat} (hk : k = fmtBytes (BitVec.ofNat 4 (bitsOf i.word.len.toNat 0 4)))
    (h : Starts 0x507 (shapeFcvt i.word) i s c) (h1 : formOpnd i.word.opd1 n [.store] c = .ok o1 c1)
    (h2 : formOpnd i.word.opd2 k [.load] c1 = .ok o2 c2) (hy : readVal o2 k c2 = .ok y c3)
    (hd : deliverFp o1 n (convertTo i.word c3.b.psw.brm.toNat y) c3 = .ok () c4) (ht : c4.Retires 2 t) :
    exec (.fcvt i) s = .next (s.after t) := by
  subst hn hk
  refine (exec_fcvt i s).trans (starts_forms h rfl h1 ((bind_ok h2).trans <| (bind_ok hy).trans <| (bind_ok (brm_run c3)).trans ?_) ht)
  unfold convertTo at hd
  by_cases hint : i.word.fmt.toNat < 6
  · rw [if_pos hint] at hd
    exact (congrFun (if_pos hint) c3).trans (bind_ok hd)
  · rw [if_neg hint] at hd
    refine (congrFun (if_neg hint) c3).trans ?_
    by_cases hsrc : bitsOf i.word.len.toNat 0 4 < 6
    · rw [if_pos hsrc] at hd
      exact (congrFun (if_pos hsrc) c3).trans (bind_ok hd)
    · rw [if_neg hsrc] at hd
      exact (congrFun (if_neg hsrc) c3).trans (bind_ok hd)

end Float

/-! ## DOT (R165 to R168) -/

section Dot

variable {i : Issue} {s t : State} {c c1 c2 : Cpu} {len : Nat}

/-- R167: a DOT of no element completes. -/
theorem exec_dot_none (h : Starts 0x508 shapeDot i s c) (hlen : (c.b.getG (BitVec.ofNat 4 i.word.len.toNat)).toNat = 0)
    (ht : Cpu.Retires { c with b := c.b.setPsw { c.b.psw with ip := false } } 4 t) : exec (.dot i) s = .next (s.after t) :=
  (exec_dot i s).trans (starts_works h rfl ((bind_ok (readG_run _ c)).trans <| (bind_ok (readG_run _ c)).trans <|
    (bind_ok (readG_run _ c)).trans <| (congrFun (if_pos hlen) c).trans (bind_ok (clearIp_run c))) ht)

/-- R165: a fresh DOT of more than 256 elements that holds its leave goes on. -/
theorem longDot_run {rest : M Nat} (hl : 256 < len → c.b.cont = false → c.b.leave ≠ none) :
    (do if 256 < len ∧ !c.b.cont then takeLeave 200
        rest : M Nat) c = rest c := by
  by_cases hlong : 256 < len ∧ (!c.b.cont) = true
  · exact (congrFun (if_pos hlong) c).trans (bind_ok (takeLeave_run (hl hlong.1 (by simpa using hlong.2))))
  · exact congrFun (if_neg hlong) c

/-- R166: a unit of DOT accumulates its elements and commits the registers. -/
theorem exec_dot_unit {v : Nat} {fl : FFlags} (hlen : (c.b.getG (BitVec.ofNat 4 i.word.len.toNat)).toNat = len)
    (h : Starts 0x508 shapeDot i s c) (hpos : 0 < len) (hl : 256 < len → c.b.cont = false → c.b.leave ≠ none)
    (hu : dotUnit .straight (ffmt i.word.fmt.toNat) c.b.psw.brm.toNat (fmtBytes i.word.fmt) (min 256 len)
      (c.b.getG (spBase i.word.opd2)).toNat (c.b.getG (spBase i.word.opd3)).toNat
      ((c.b.getF (spBase i.word.opd1)).toNat % 2 ^ (8 * fmtBytes i.word.fmt)) 0 c = .ok (v, fl) c1)
    (hc : dotCommit i.word (min 256 len) len (c.b.getG (spBase i.word.opd2)) (c.b.getG (spBase i.word.opd3)) v fl c1 = .ok () c2)
    (ht : c2.Retires (4 + ceilDiv (min 256 len) 4) t) : exec (.dot i) s = .next (s.after t) := by
  subst hlen
  exact (exec_dot i s).trans (starts_works h rfl ((bind_ok (readG_run _ c)).trans <| (bind_ok (readG_run _ c)).trans <|
    (bind_ok (readG_run _ c)).trans <| (congrFun (if_neg (Nat.ne_of_gt hpos)) c).trans <| (bind_ok (getB_run c)).trans <|
    (longDot_run hl).trans <| (bind_ok (getB_run c)).trans <| (bind_ok (brm_run c)).trans <| (bind_ok hu).trans (bind_ok hc)) ht)

end Dot

/-! ## The statements -/

/-- Settles O14. -/
theorem floatArithmetic : Obligations.FloatArithmetic := by
  intro a ha i s t c c1 c2 o x y f r h hf hfl hl _ hw ht
  exact exec_floatOps ha h hf hl (deliverFp_run hfl hw) ht

/-- Settles O15: FMA and FSQRT, then FCMP and FCVT, then DOT. -/
theorem floatOthers : Obligations.FloatOthers := by
  refine ⟨⟨?fused, ?compares⟩, ?dots⟩
  case fused =>
    intro i s t c c1 c2 c3 c4 c5 c6 c7 o1 o2 o3 x y z n f
    refine ⟨?_, ?_⟩
    · intro r h h1 h2 h3 hx hy hz hfl hw ht
      exact exec_fma_delivers rfl h h1 h2 h3 hx hy hz (deliverFp_run hfl hw) ht
    · intro r h h1 h2 hy hl _ hfl hw ht
      exact exec_fsqrt_delivers h h1 h2 hy hl (deliverFp_run hfl hw) ht
  case compares =>
    intro i s t c c1 c2 c3 c4 o1 o2 x y n f src k
    refine ⟨?_, ?_⟩
    · intro fl h h1 h2 hx hy hfl ht
      exact exec_fcmp_compares rfl rfl h h1 h2 hx hy hfl ht
    · intro r h h1 h2 hy hfl hw ht
      exact exec_fcvt_converts rfl rfl h h1 h2 hy (deliverFp_run hfl hw) ht
  case dots =>
    intro i s t c c1 c2 v fl w n len k a b h _
    refine ⟨exec_dot_none h, ?_⟩
    intro hpos hl hu hc ht
    exact exec_dot_unit rfl h hpos hl hu hc ht

end Sys2Proof.Machine
end

section
/-!
SUPPORT. The long strings and EDIT (R206 to R236): what a unit does once its reach is known, and the statements of the family settled
with it.
-/

namespace Sys2Proof.Machine

/-! ## The commands of the family -/

section StringArms

variable (i : Issue) (s : State)

theorem exec_movl : exec (.movl i) s = issue (both 0x300 movlBody) i s := rfl
theorem exec_cmpl : exec (.cmpl i) s = issue (same 0x301 cmplBody) i s := rfl
theorem exec_trl : exec (.trl i) s = issue (same 0x302 trlBody) i s := rfl
theorem exec_trtl : exec (.trtl i) s = issue (same 0x303 trtlBody) i s := rfl
theorem exec_srch : exec (.srch i) s = issue (same 0x304 srchBody) i s := rfl
theorem exec_edit : exec (.edit i) s = issue (same 0x305 editBody) i s := rfl
theorem exec_edmk : exec (.edmk i) s = issue (same 0x306 edmkBody) i s := rfl

end StringArms

/-! ## Pairs and the end of a unit (R207, R217, R290) -/

theorem advancePair_run (r : BitVec 4) (n : Nat) (c : Cpu) : advancePair r n c = .ok () (c.moved r n) := rfl

theorem advanceScan_run (r : BitVec 4) (n : Nat) (c : Cpu) : advanceScan r n c = .ok () (c.scanned r n) := by
  unfold advanceScan Cpu.scanned
  by_cases hn : n = 0
  · rw [if_pos hn, if_pos hn]
    rfl
  · rw [if_neg hn, if_neg hn]
    exact advancePair_run r n c

theorem noteCrossings_run (n : Nat) (c : Cpu) : noteCrossings n c = .ok () (c.crossed n) := by
  unfold noteCrossings Cpu.crossed
  by_cases hn : n = 0
  · rw [if_pos hn, if_pos hn]
    rfl
  · rw [if_neg hn, if_neg hn]
    rfl

theorem crossed_withCc (c : Cpu) (n : Nat) (v : BitVec 2) : (c.withCc v).crossed n = (c.crossed n).withCc v := by
  unfold Cpu.crossed
  by_cases hn : n = 0
  · rw [if_pos hn, if_pos hn]
  · rw [if_neg hn, if_neg hn]
    rfl

/-- R207: the end of a unit clears IP when the instruction is complete, and stays on it otherwise. -/
theorem unitEnds_run (complete : Bool) (n : Nat) (c : Cpu) :
    (do if complete then clearIp else setNext .stay
        pure n : M Nat) c = .ok n (c.unitEnds complete) := by
  cases complete <;> rfl

/-- R218: a unit that no exception cuts short commits its bytes, notes its crossings and ends. -/
theorem finishUnit_run {ops : List (Nat × Nat)} {j : Nat} {stop complete : Bool} {commit : Nat → Bool → M Bool} {count : Nat → Nat}
    {c c1 : Cpu} (h : commit j stop c = .ok complete c1) :
    finishUnit ops { bytes := j, stop := stop, exc := none } commit count c
      = .ok (count j) ((c1.crossed (crossings ops j)).unitEnds complete) :=
  (bind_ok h).trans ((bind_ok (noteCrossings_run _ c1)).trans (unitEnds_run complete _ _))

/-- The end of a scan: CC is set and the instruction complete when its `j` bytes are all of them. -/
theorem scanEnds_run {ops : List (Nat × Nat)} {j l : Nat} {stop : Bool} {v : BitVec 2} {commit : Nat → Bool → M Bool} {count : Nat → Nat}
    {c c1 : Cpu} (h : commit j stop c = .ok (j == l) (if j = l then c1.withCc v else c1)) :
    finishUnit ops { bytes := j, stop := stop, exc := none } commit count c
      = .ok (count j) (if j = l then ((c1.crossed (crossings ops j)).withCc v).unitEnds true
          else (c1.crossed (crossings ops j)).unitEnds false) := by
  rw [finishUnit_run h]
  by_cases hj : j = l
  · rw [if_pos hj, if_pos hj, crossed_withCc, beq_iff_eq.mpr hj]
  · rw [if_neg hj, if_neg hj, beq_eq_false_iff_ne.mpr hj]

/-- The end of a commit: CC is set when its `j` bytes are all `l` of the operand, and the instruction is then complete. -/
theorem completes_run (j l : Nat) (v : BitVec 2) (c : Cpu) :
    (do if j = l then do
          setCc v
          pure true
        else pure false : M Bool) c = .ok (j == l) (if j = l then c.withCc v else c) := by
  by_cases hj : j = l
  · rw [if_pos hj, if_pos hj, beq_iff_eq.mpr hj]
    rfl
  · rw [if_neg hj, if_neg hj, beq_eq_false_iff_ne.mpr hj]
    rfl

section Strings

variable {i : Issue} {s t : State} {c c1 c2 c3 c4 : Cpu} {x : PairForm} {y : ScanForm} {f : TableForm} {j k : Nat} {stop : Bool}
  {bs : List Byte}

/-! ## MOVL (R223, R224) -/

/-- The pairs of a MOVL after `j` bytes, `k` of them from the source: advanced when its unit has bytes. -/
def PairForm.advanced (x : PairForm) (j k : Nat) (c : Cpu) : Cpu := if 0 < x.moveLen then (c.moved x.d j).moved x.r k else c

theorem PairForm.advanced_run {rest : M Bool} (x : PairForm) (j k : Nat) (c : Cpu) :
    (do if 0 < x.moveLen then do
          advancePair x.d j
          advancePair x.r k
        rest : M Bool) c = rest (x.advanced j k c) := by
  unfold PairForm.advanced
  by_cases hlen : 0 < x.moveLen
  · rw [if_pos hlen, if_pos hlen]
    exact (bind_ok (advancePair_run _ _ c)).trans (bind_ok (advancePair_run _ _ _))
  · rw [if_neg hlen, if_neg hlen]

/-- A MOVL of `j` bytes moved: its pairs advanced, and CC set at the end of the destination. -/
def PairForm.moved (x : PairForm) (j k : Nat) (c : Cpu) : Cpu :=
  if j = x.ld then (x.advanced j k c).withCc (cmpCc x.ld x.ls) else x.advanced j k c

theorem PairForm.moveCommit_run (hk : k = min j (min x.moveLen x.ls)) (hr : longRead x.ss x.gs k c = .ok bs c1)
    (hw : longWrite x.sd x.gd (bs ++ List.replicate (j - k) x.pad) c1 = .ok () c2) :
    x.moveCommit .straight j c = .ok (j == x.ld) (x.moved j k c2) := by
  subst hk
  exact (bind_ok hr).trans <| (bind_ok hw).trans <| (x.advanced_run _ _ c2).trans (completes_run _ _ _ _)

/-- R223: a unit of MOVL. -/
theorem exec_movl_unit (hk : k = min j (min x.moveLen x.ls)) (h : Starts 0x300 shapeMovl i s c) (hf : formPairs i.word c = .ok x c1)
    (hov : x.overlaps = false) (hreach : x.moveReach c1 = .ok { bytes := j, stop := stop, exc := none } c2)
    (hr : longRead x.ss x.gs k c2 = .ok bs c3) (hw : longWrite x.sd x.gd (bs ++ List.replicate (j - k) x.pad) c3 = .ok () c4)
    (ht : (((x.moved j k c4).crossed (crossings x.moveOps j)).unitEnds (j == x.ld)).Retires (countMove j) t) :
    exec (.movl i) s = .next (s.after t) :=
  (exec_movl i s).trans (starts_forms h rfl hf ((congrFun (if_neg (Bool.eq_false_iff.mp hov)) c1).trans <|
    (bind_ok hreach).trans (finishUnit_run (x.moveCommit_run hk hr hw))) ht)

/-- R224: a MOVL whose operands overlap destructively moves nothing. -/
theorem exec_movl_overlaps (h : Starts 0x300 shapeMovl i s c) (hf : formPairs i.word c = .ok x c1) (hov : x.overlaps = true)
    (ht : (c1.withCc 3).Retires 3 t) : exec (.movl i) s = .next (s.after t) :=
  (exec_movl i s).trans (starts_forms h rfl hf ((congrFun (if_pos hov) c1).trans (bind_ok (setCc_run 3 c1))) ht)

/-! ## CMPL and SRCH (R225, R228) -/

/-- R225: a unit of CMPL that stops at two bytes that differ. -/
theorem exec_cmpl_differs {p : List (Byte × Byte)} (h : Starts 0x301 shapeMovl i s c) (hf : formPairs i.word c = .ok x c1)
    (hreach : x.compareReach c1 = .ok { bytes := j, stop := true, exc := none } c2)
    (hp : x.bothAt (j - 1) 1 ((c2.scanned x.d (min (j - 1) x.ld)).scanned x.r (min (j - 1) x.ls)) = .ok p c3)
    (ht : (((c3.withCc (differCc p)).crossed (crossings x.compareOps j)).unitEnds true).Retires (countMove j) t) :
    exec (.cmpl i) s = .next (s.after t) := by
  have hcommit : x.compareCommit j true c2 = .ok true (c3.withCc (differCc p)) :=
    (bind_ok (advanceScan_run _ _ c2)).trans <| (bind_ok (advanceScan_run _ _ _)).trans <| (bind_ok hp).trans (by
      cases p <;> exact bind_ok (setCc_run _ c3))
  exact (exec_cmpl i s).trans (starts_forms h rfl hf ((bind_ok hreach).trans (finishUnit_run hcommit)) ht)

/-- R225: a unit of CMPL whose bytes are all equal. -/
theorem exec_cmpl_equal (h : Starts 0x301 shapeMovl i s c) (hf : formPairs i.word c = .ok x c1)
    (hreach : x.compareReach c1 = .ok { bytes := j, stop := false, exc := none } c2) (hc3 :
      c3 = ((c2.scanned x.d (min j x.ld)).scanned x.r (min j x.ls)).crossed (crossings x.compareOps j))
    (ht : (if j = max x.ld x.ls then (c3.withCc 0).unitEnds true else c3.unitEnds false).Retires (countMove j) t) :
    exec (.cmpl i) s = .next (s.after t) := by
  subst hc3
  have hcommit : x.compareCommit j false c2 = .ok (j == max x.ld x.ls)
      (if j = max x.ld x.ls then ((c2.scanned x.d (min j x.ld)).scanned x.r (min j x.ls)).withCc 0
        else (c2.scanned x.d (min j x.ld)).scanned x.r (min j x.ls)) :=
    (bind_ok (advanceScan_run _ _ c2)).trans ((bind_ok (advanceScan_run _ _ _)).trans (completes_run _ _ _ _))
  exact (exec_cmpl i s).trans (starts_forms h rfl hf ((bind_ok hreach).trans (scanEnds_run hcommit)) ht)

/-- R228: a unit of SRCH that finds its byte. -/
theorem exec_srch_finds (h : Starts 0x304 shapeSrch i s c) (hf : formScan i.word c = .ok y c1)
    (hreach : y.srchReach i.word c1 = .ok { bytes := j, stop := true, exc := none } c2)
    (ht : ((((c2.scanned y.r (j - 1)).withCc 1).crossed (crossings [(y.g, y.len)] j)).unitEnds true).Retires (countMove j) t) :
    exec (.srch i) s = .next (s.after t) := by
  have hcommit : y.srchCommit j true c2 = .ok true ((c2.scanned y.r (j - 1)).withCc 1) :=
    (bind_ok (advanceScan_run _ _ c2)).trans (bind_ok (setCc_run 1 _))
  exact (exec_srch i s).trans (starts_forms h rfl hf ((bind_ok hreach).trans (finishUnit_run hcommit)) ht)

/-- R228: a unit of SRCH that does not. -/
theorem exec_srch_passes (h : Starts 0x304 shapeSrch i s c) (hf : formScan i.word c = .ok y c1)
    (hreach : y.srchReach i.word c1 = .ok { bytes := j, stop := false, exc := none } c2)
    (hc3 : c3 = (c2.scanned y.r j).crossed (crossings [(y.g, y.len)] j))
    (ht : (if j = y.l then (c3.withCc 2).unitEnds true else c3.unitEnds false).Retires (countMove j) t) :
    exec (.srch i) s = .next (s.after t) := by
  subst hc3
  have hcommit : y.srchCommit j false c2 = .ok (j == y.l) (if j = y.l then (c2.scanned y.r j).withCc 2 else c2.scanned y.r j) :=
    (bind_ok (advanceScan_run _ _ c2)).trans (completes_run _ _ _ _)
  exact (exec_srch i s).trans (starts_forms h rfl hf ((bind_ok hreach).trans (scanEnds_run hcommit)) ht)

/-! ## TRL and TRTL (R226, R227) -/

/-- R226: a unit of TRL. -/
theorem exec_trl_unit (h : Starts 0x302 shapeTrl i s c) (hf : formTable i.word c = .ok f c1)
    (hreach : f.trlReach c1 = .ok { bytes := j, stop := stop, exc := none } c2) (hr : f.functions 0 j c2 = .ok bs c3)
    (hw : longWrite f.x.sp f.x.g bs c3 = .ok () c4)
    (ht : (((c4.scanned f.x.r j).crossed (crossings [(f.x.g, f.x.len)] j)).unitEnds (j == f.x.l)).Retires (countTable j) t) :
    exec (.trl i) s = .next (s.after t) := by
  have hcommit : f.trlCommit j c2 = .ok (j == f.x.l) (c4.scanned f.x.r j) :=
    (bind_ok hr).trans ((bind_ok hw).trans (bind_ok (advanceScan_run _ _ c4)))
  exact (exec_trl i s).trans (starts_forms h rfl hf ((bind_ok hreach).trans (finishUnit_run hcommit)) ht)

/-- R227: a unit of TRTL that stops at a function byte. -/
theorem exec_trtl_stops (h : Starts 0x303 shapeTrtl i s c) (hf : formTable i.word c = .ok f c1)
    (hreach : f.trtlReach c1 = .ok { bytes := j, stop := true, exc := none } c2) (hr : f.functions (j - 1) 1 c2 = .ok bs c3)
    (ht : (((((c3.scanned f.x.r (j - 1)).withG (spBase i.word.opd3) (BitVec.ofNat 64 (leNat (bs.take 1)))).withCc
      (if j = f.x.l then 2 else 1)).crossed (crossings [(f.x.g, f.x.len)] j)).unitEnds true).Retires (countTable j) t) :
    exec (.trtl i) s = .next (s.after t) := by
  have hcommit : f.trtlCommit (spBase i.word.opd3) j true c2 = .ok true
      (((c3.scanned f.x.r (j - 1)).withG (spBase i.word.opd3) (BitVec.ofNat 64 (leNat (bs.take 1)))).withCc (if j = f.x.l then 2 else 1)) :=
    (bind_ok hr).trans <| (bind_ok (advanceScan_run _ _ c3)).trans <| (bind_ok (writeG_run _ _ _)).trans (bind_ok (setCc_run _ _))
  exact (exec_trtl i s).trans (starts_forms h rfl hf ((bind_ok hreach).trans (finishUnit_run hcommit)) ht)

/-- R227: a unit of TRTL that passes its bytes. -/
theorem exec_trtl_passes (h : Starts 0x303 shapeTrtl i s c) (hf : formTable i.word c = .ok f c1)
    (hreach : f.trtlReach c1 = .ok { bytes := j, stop := false, exc := none } c2)
    (hc3 : c3 = (c2.scanned f.x.r j).crossed (crossings [(f.x.g, f.x.len)] j))
    (ht : (if j = f.x.l then (c3.withCc 0).unitEnds true else c3.unitEnds false).Retires (countTable j) t) :
    exec (.trtl i) s = .next (s.after t) := by
  subst hc3
  have hcommit : f.trtlCommit (spBase i.word.opd3) j false c2
      = .ok (j == f.x.l) (if j = f.x.l then (c2.scanned f.x.r j).withCc 0 else c2.scanned f.x.r j) := by
    refine (bind_ok (advanceScan_run _ _ c2)).trans ?_
    by_cases hj : j = f.x.l
    · exact (congrFun (if_pos hj) _).trans (by rw [if_pos hj]; rfl)
    · exact (congrFun (if_neg hj) _).trans (by rw [if_neg hj]; rfl)
  exact (exec_trtl i s).trans (starts_forms h rfl hf ((bind_ok hreach).trans (scanEnds_run hcommit)) ht)

end Strings

/-! ## EDIT and EDMK (R230 to R236) -/

section Edit

variable {i : Issue} {s t : State} {c c1 c2 c3 : Cpu} {x : EditOpnds} {isMark : Bool}

/-- The registers of a unit that has advanced over pattern bytes. -/
def EditOpnds.advanced (x : EditOpnds) (w : Word112) (e : EditState) (c : Cpu) : Cpu :=
  if e.gl != x.start.gl then
    (((c.withG (spBase w.opd1) e.gd).withG (succReg (spBase w.opd1)) e.gs).withG (spBase w.opd2) e.gp).withG (succReg (spBase w.opd2)) e.gl
  else c

/-- The companion register of a unit that owns it. -/
def EditOpnds.companioned (x : EditOpnds) (e : EditState) (c : Cpu) : Cpu := if e.own then c.withG x.rc (e.companion x.gc) else c

/-- The mark register of an EDMK that has a mark. -/
def EditOpnds.marked (x : EditOpnds) (e : EditState) (c : Cpu) : Cpu :=
  match x.f.mark, e.mark with
  | true, some m => c.withG x.rm m
  | _, _ => c

/-- ES after a unit (R235). -/
def EditState.status (e : EditState) (c : Cpu) : Cpu :=
  { c with b := c.b.setPsw { c.b.psw with esSig := e.sig && !(e.gl == 0), esV := !(e.gl == 0) } }

/-- R235: the condition code of a pattern that ends. -/
def EditState.coded (e : EditState) (c : Cpu) : Cpu := if e.gl == 0 then c.withCc (if !e.nz then 0 else if e.neg then 1 else 2) else c

theorem EditOpnds.left_eq (x : EditOpnds) (w : Word112) (e : EditState) (c : Cpu) :
    x.left w e c = e.coded (e.status (x.marked e (x.companioned e (x.advanced w e c)))) := rfl

section EditSteps

variable {rest : M Unit} (x : EditOpnds) (w : Word112) (e : EditState) (c : Cpu)

theorem EditOpnds.advanced_run :
    (do if e.gl != x.start.gl then do
          writeG (spBase w.opd1) e.gd
          writeG (succReg (spBase w.opd1)) e.gs
          writeG (spBase w.opd2) e.gp
          writeG (succReg (spBase w.opd2)) e.gl
        rest : M Unit) c = rest (x.advanced w e c) := by
  unfold EditOpnds.advanced
  cases e.gl != x.start.gl <;> rfl

theorem EditOpnds.companioned_run :
    (do if e.own then writeG x.rc (e.companion x.gc)
        rest : M Unit) c = rest (x.companioned e c) := by
  unfold EditOpnds.companioned
  cases e.own <;> rfl

theorem EditOpnds.marked_run :
    (do match x.f.mark, e.mark with
          | true, some m => writeG x.rm m
          | _, _ => pure ()
        rest : M Unit) c = rest (x.marked e c) := by
  unfold EditOpnds.marked
  cases x.f.mark <;> cases e.mark <;> rfl

theorem EditState.coded_run :
    (if e.gl == 0 then setCc (if !e.nz then 0 else if e.neg then 1 else 2) else pure () : M Unit) c = .ok () (e.coded c) := by
  unfold EditState.coded
  cases e.gl == 0 <;> rfl

end EditSteps

/-- R230: the registers, the status and CC that a unit leaves. -/
theorem EditOpnds.commit_run (x : EditOpnds) (w : Word112) (e : EditState) (c : Cpu) : x.commit w e c = .ok () (x.left w e c) := by
  rw [x.left_eq]
  exact (x.advanced_run w e c).trans <| (x.companioned_run e _).trans <| (x.marked_run e _).trans <|
    (bind_ok (modPsw_run _ _)).trans (e.coded_run _)

/-- The two commands with their mark bit and opcode. -/
def EditCommand (isMark : Bool) (ctor : Issue → Instr) (op : BitVec 12) : Prop :=
  (isMark, ctor, op) = (false, Instr.edit, 0x305) ∨ (isMark, ctor, op) = (true, Instr.edmk, 0x306)

variable {ctor : Issue → Instr} {op : BitVec 12}

/-- Both commands complete when their common work does. -/
theorem exec_editCommand {n : Nat} (hop : EditCommand isMark ctor op) (h : Starts op (shapeEdit isMark) i s c)
    (hr : editAny isMark i.word c = .ok n c1) (ht : c1.Retires n t) : exec (ctor i) s = .next (s.after t) := by
  simp only [EditCommand, Prod.mk.injEq] at hop
  obtain ⟨rfl, rfl, rfl⟩ | ⟨rfl, rfl, rfl⟩ := hop
  · exact (exec_edit i s).trans (starts_completes h hr ht)
  · exact (exec_edmk i s).trans (starts_completes h hr ht)

/-- R230: with no pattern there is nothing to edit. -/
theorem editAny_none (h : Starts op (shapeEdit isMark) i s c) (hf : formEdit isMark i.word c = .ok none c1) :
    editAny isMark i.word c = .ok 4 (c1.withCc 0) :=
  (bind_ok (starts_checkShape h)).trans ((bind_ok hf).trans (bind_ok (setCc_run 0 c1)))

/-- R231: a unit edits its pattern bytes, stores them and commits its registers. -/
theorem editAny_unit {at' : EditAt} (h : Starts op (shapeEdit isMark) i s c) (hf : formEdit isMark i.word c = .ok (some x) c1)
    (hu : editUnit x.f (!c1.b.psw.rf) (min 64 x.start.gl.toNat) { done := 0, st := x.start, out := [] } c1 = .ok (at', none) c2)
    (hs : x.store at' (c2.crossed at'.cross) = .ok () c3) :
    editAny isMark i.word c = .ok (4 + at'.done) ((x.left i.word at'.st c3).unitEnds (at'.st.gl == 0)) :=
  (bind_ok (starts_checkShape h)).trans <| (bind_ok hf).trans <| (bind_ok (getPsw_run c1)).trans <| (bind_ok hu).trans <|
    (bind_ok (noteCrossings_run _ c2)).trans <| (bind_ok hs).trans <| (bind_ok (x.commit_run _ _ c3)).trans (unitEnds_run _ _ _)

end Edit

/-! ## The statements -/

/-- Settles O16: MOVL, then CMPL and SRCH, then TRL and TRTL. -/
theorem longStrings : Obligations.LongStrings := by
  refine ⟨?moves, ?compares, ?tables⟩
  case moves =>
    intro i s t c c1 c2 c3 c4 x j stop bs k h hf
    exact ⟨exec_movl_unit rfl h hf, exec_movl_overlaps h hf⟩
  case compares =>
    intro i s t c c1 c2 c3 x y j p
    refine ⟨fun h hf => ⟨exec_cmpl_differs h hf, fun hreach ht => exec_cmpl_equal h hf hreach rfl ht⟩, fun h hf => ?_⟩
    exact ⟨exec_srch_finds h hf, fun hreach ht => exec_srch_passes h hf hreach rfl ht⟩
  case tables =>
    intro i s t c c1 c2 c3 c4 f j stop bs hf
    refine ⟨fun h => exec_trl_unit h hf, fun h => ?_⟩
    exact ⟨exec_trtl_stops h hf, fun hreach ht => exec_trtl_passes h hf hreach rfl ht⟩

/-- Settles O17. -/
theorem editsUnit : Obligations.EditsUnit := by
  intro i s t c c1 c2 c3 x at' isMark ctor op hop h
  refine ⟨fun hf ht => ?_, fun hf hu hs ht => ?_⟩
  · exact exec_editCommand hop h (editAny_none h hf) ht
  · exact exec_editCommand hop h (editAny_unit h hf hu hs) ht

end Sys2Proof.Machine
end

section
/-!
SUPPORT. What SAVEH, RESTH, SEALF, RETX and SVC do with the frames they name (R90 to R105, R336), and the statements of those rules
settled with it.
-/

namespace Sys2Proof.Machine

/-! ## The commands of the family -/

section ContextArms

variable (i : Issue) (s : State)

theorem exec_saveh : exec (.saveh i) s = issue (same 0x600 savehBody) i s := rfl
theorem exec_resth : exec (.resth i) s = issue (same 0x601 resthBody) i s := rfl
theorem exec_svc : exec (.svc i) s = issue (same 0x604 svcBody) i s := rfl

end ContextArms

/-- What succeeds is caught as its result. -/
theorem caught_run {α : Type} {m : M α} {a : α} {c c' : Cpu} (h : m c = .ok a c') : caught m c = .ok (.ok a) c' := by
  unfold caught
  rw [h]

/-- R64, R98: an exception for a frame records whether its address is physical. -/
theorem raiseFrame_run {α : Type} (code f : Nat) (c : Cpu) :
    (raiseFrame code f : M α) c = .error (.exc { code := code, fav := true, phys := !bitAt (c.s.cxa c.b.ctx) 0, faddr := f }) c := rfl

section Frames

variable {i : Issue} {s t : State} {c c1 c2 c3 c4 c5 : Cpu}

/-! ## SAVEH (R92) -/

/-- R92: what a SAVEH does from its header stage on. -/
def saveRest (w : Word112) : M Nat := do
  match ← saveStart w with
  | none => do
    setCc 1
    pure 4
  | some x => do
    let (g, y) ← saveGroups 7 ((maskGroups x.groups).filter (fun k => !bitAt x.done k)) 0 x
    if 7 ≤ g then setNext .stay
    else saveFinish g y
    return framesCount (← getB) g

/-- R92: a SAVEH that continues none begins with its header stage. -/
theorem savehBody_fresh (h : Starts 0x600 shapeFrames i s c) (hip : c.b.psw.ip = false) :
    savehBody i.word c = saveRest i.word c := by
  refine (bind_ok (starts_checkShape h)).trans ((bind_ok (getB_run c)).trans ?_)
  rw [hip]
  rfl

/-- R92: a SAVEH without a group to save starts nothing. -/
theorem saveStart_none {w : Word112} (hg : (if bitAt w.len.toNat 1 then selMask w.len else selMask w.len &&& c.b.dirty.toNat) = 0) :
    saveStart w c = .ok none c :=
  congrFun (if_pos hg) c

/-- R92: a SAVEH without a group to save sets CC 0b01. -/
theorem exec_saveh_nothing (h : Starts 0x600 shapeFrames i s c) (hip : c.b.psw.ip = false)
    (hg : (if bitAt i.word.len.toNat 1 then selMask i.word.len else selMask i.word.len &&& c.b.dirty.toNat) = 0)
    (ht : (c.withCc 1).Retires 4 t) : exec (.saveh i) s = .next (s.after t) :=
  (exec_saveh i s).trans (starts_completes h
    ((savehBody_fresh h hip).trans ((bind_ok (saveStart_none hg)).trans (bind_ok (setCc_run 1 c)))) ht)

/-- R92: a SAVEH whose groups all fit its unit seals its frame and puts it on the saved chain. -/
theorem exec_saveh_saves {x y : Saving} {g : Nat} (h : Starts 0x600 shapeFrames i s c) (hip : c.b.psw.ip = false)
    (hs : saveStart i.word c = .ok (some x) c1)
    (hg : saveGroups 7 ((maskGroups x.groups).filter (fun k => !bitAt x.done k)) 0 x c1 = .ok (g, y) c2) (hlt : g < 7)
    (hf : saveFinish g y c2 = .ok () c3) (ht : c3.Retires (framesCount c3.b g) t) : exec (.saveh i) s = .next (s.after t) :=
  (exec_saveh i s).trans (starts_completes h
    ((savehBody_fresh h hip).trans <| (bind_ok hs).trans <| (bind_ok hg).trans <|
      (congrFun (if_neg (Nat.not_le.mpr hlt)) c2).trans <| (bind_ok hf).trans (bind_ok (getB_run c3))) ht)

/-! ## RESTH (R95) -/

/-- R95: what a RESTH does with the frame that heads the saved chain. -/
def restoreRest (w : Word112) (ctx : BitVec 20) (cb f : Nat) : M Nat := do
  let bs ← frLdBytes f 1024
  if !(← get).s.verifies ctx bs then raiseFrame 0x15 f
  let d := leNat (sliceBytes bs 0x10 8)
  if bitsOf d 17 2 ≠ 0 ∨ bitAt d 19 ≠ bitAt w.len.toNat 0 then raiseFrame 0x04 f
  if bitAt d 16 && bitAt d 6 && bitAt (leNat (sliceBytes bs 0x280 16)) 127 then raiseFrame 0x15 f
  let done := leNat (sliceBytes bs 0x28 8) % 256
  let g ← restoreGroups 7 f bs ((maskGroups (selMask w.len &&& d)).filter (fun k => !bitAt done k)) 0 done
  if 7 ≤ g then do
    setNext .stay
    return framesCount (← getB) g
  else
    match ← caught (restoreFree cb f) with
    | .error e => do
      if 0 < g then chargePart (framesCount (← getB) g)
      raise e
    | .ok free => do
      restoreFinish cb f free bs
      return framesCount (← getB) g

/-- R95: a RESTH whose saved chain has a frame works on it. -/
theorem resthBody_framed {f : Nat} (h : Starts 0x601 shapeFrames i s c) (hf : frLd (c.s.block c.b.ctx + 0xB08) 8 c = .ok f c1)
    (hne : f ≠ 0) : resthBody i.word c = restoreRest i.word c.b.ctx (c.s.block c.b.ctx) f c1 :=
  (bind_ok (starts_checkShape h)).trans <| (bind_ok (getB_run c)).trans <| (bind_ok (show ownBlock c = .ok (c.s.block c.b.ctx) c from rfl)).trans <|
    (bind_ok hf).trans (congrFun (if_neg hne) c1)

/-- R95: a RESTH with no frame saved sets CC 0b01. -/
theorem exec_resth_nothing (h : Starts 0x601 shapeFrames i s c) (hf : frLd (c.s.block c.b.ctx + 0xB08) 8 c = .ok 0 c1)
    (ht : (c1.withCc 1).Retires 4 t) : exec (.resth i) s = .next (s.after t) :=
  (exec_resth i s).trans (starts_completes h
    ((bind_ok (starts_checkShape h)).trans <| (bind_ok (getB_run c)).trans <|
      (bind_ok (show ownBlock c = .ok (c.s.block c.b.ctx) c from rfl)).trans <| (bind_ok hf).trans (bind_ok (setCc_run 1 c1))) ht)

/-- R95: a RESTH whose groups all fit its unit loads those selected and not yet restored, and gives the frame back. -/
theorem exec_resth_restores {f g free : Nat} {bs : List Byte} (h : Starts 0x601 shapeFrames i s c)
    (hf : frLd (c.s.block c.b.ctx + 0xB08) 8 c = .ok f c1) (hne : f ≠ 0) (hbs : frLdBytes f 1024 c1 = .ok bs c2)
    (hv : c2.s.verifies c.b.ctx bs = true) (hkind : bitsOf (leNat (sliceBytes bs 0x10 8)) 17 2 = 0)
    (hhalf : bitAt (leNat (sliceBytes bs 0x10 8)) 19 = bitAt i.word.len.toNat 0)
    (hmsg : (bitAt (leNat (sliceBytes bs 0x10 8)) 16 && bitAt (leNat (sliceBytes bs 0x10 8)) 6
      && bitAt (leNat (sliceBytes bs 0x280 16)) 127) = false)
    (hg : restoreGroups 7 f bs ((maskGroups (selMask i.word.len &&& leNat (sliceBytes bs 0x10 8))).filter
      (fun k => !bitAt (leNat (sliceBytes bs 0x28 8) % 256) k)) 0 (leNat (sliceBytes bs 0x28 8) % 256) c2 = .ok g c3) (hlt : g < 7)
    (hfree : restoreFree (c.s.block c.b.ctx) f c3 = .ok free c4) (hfin : restoreFinish (c.s.block c.b.ctx) f free bs c4 = .ok () c5)
    (ht : c5.Retires (framesCount c5.b g) t) : exec (.resth i) s = .next (s.after t) :=
  (exec_resth i s).trans (starts_completes h
    ((resthBody_framed h hf hne).trans <| (bind_ok hbs).trans <| (bind_ok (get_run c2)).trans <|
      (congrFun (if_neg (by rw [hv]; decide)) c2).trans <|
      (congrFun (if_neg (not_or.mpr ⟨not_not_intro hkind, not_not_intro hhalf⟩)) c2).trans <|
      (congrFun (if_neg (Bool.eq_false_iff.mp hmsg)) c2).trans <| (bind_ok hg).trans <|
      (congrFun (if_neg (Nat.not_le.mpr hlt)) c3).trans <| (bind_ok (caught_run hfree)).trans <|
      (bind_ok hfin).trans (bind_ok (getB_run c5))) ht)

/-- R95: a RESTH whose frame does not verify raises 0x15. -/
theorem exec_resth_traps {f : Nat} {bs : List Byte} (h : Starts 0x601 shapeFrames i s c)
    (hf : frLd (c.s.block c.b.ctx + 0xB08) 8 c = .ok f c1) (hne : f ≠ 0) (hbs : frLdBytes f 1024 c1 = .ok bs c2)
    (hv : c2.s.verifies c.b.ctx bs = false) :
    exec (.resth i) s = .next (s.after (c2.takes 0x601 i.word
      { code := 0x15, fav := true, phys := !bitAt (c2.s.cxa c2.b.ctx) 0, faddr := f })) :=
  (exec_resth i s).trans (starts_traps h
    ((resthBody_framed h hf hne).trans <| (bind_ok hbs).trans <| (bind_ok (get_run c2)).trans <|
      (congrFun (if_pos (by rw [hv]; rfl)) c2).trans (bind_error (raiseFrame_run 0x15 f c2))))

/-! ## SEALF (R90) -/

/-- R90: a SEALF of a frame that stands where its kind needs it, whose reserved fields and claims are right, stores what its seal
changes. -/
theorem exec_sealf_seals {kind n d : Nat} {fr : List Byte} {p : Place} {hd bs : List Byte} {ps : List Piece}
    (hkd : kind = bitsOf (leNat hd) 17 2) (hn : n = kindLen kind) (hd' : d = leNat (sliceBytes bs 0x10 8))
    (hfr : fr = spliceBytes (spliceBytes bs 0x10 (leBytes 8 (putBits (putBits d 16 1 1) 8 8 d))) 0x28 (zeros 8))
    (h : Starts 0x602 shapeFrame i s c) (hf : formAddress i.word.opd1 256 c = .ok p c1)
    (hhd : readFrame p.via (p.addr + 0x10) 8 c1 = .ok hd c2) (hk3 : kind ≠ 3) (hal : p.addr % n = 0)
    (hin : inSpace p.addr n = true) (hscr : p.via = .scratch → p.addr + n ≤ c1.s.block c1.b.ctx + 0x2000)
    (hbs : readFrame p.via p.addr n c2 = .ok bs c3) (hclean : frameClean kind bs = true) (hclaim : frameClaims kind bs = true)
    (hps : checkPieces [.store] p.via 32 none (pieces (p.addr + 0x10) 32) c3 = .ok ps c4) (haw : awaitLines ps c4 = .ok () c4)
    (hw : writePieces ps (sliceBytes (c3.s.sealed (BitVec.ofNat 20 (leNat (sliceBytes bs 0x18 8))) fr) 0x10 32) c4 = .ok () c5)
    (ht : c5.Retires 6 t) : exec (.sealf i) s = .next (s.after t) := by
  subst hkd hn hd' hfr
  have hkind : (bitsOf (leNat hd) 17 2 == 3) = false := beq_eq_false_iff_ne.mpr hk3
  have halign : (p.addr % kindLen (bitsOf (leNat hd) 17 2) != 0) = false := by rw [hal]; rfl
  have hplace : (!inSpace p.addr (kindLen (bitsOf (leNat hd) 17 2)) || (p.via == .scratch
      && decide (c1.s.block c1.b.ctx + 0x2000 < p.addr + kindLen (bitsOf (leNat hd) 17 2)))) = false := by
    rw [hin, Bool.not_true, Bool.false_or, Bool.and_eq_false_imp]
    exact fun hvia => decide_eq_false (Nat.not_lt.mpr (hscr (beq_iff_eq.mp hvia)))
  have hright : (!frameClean (bitsOf (leNat hd) 17 2) bs || !frameClaims (bitsOf (leNat hd) 17 2) bs) = false := by
    rw [hclean, hclaim]; rfl
  exact (exec_sealf i s).trans (starts_forms h rfl hf
    ((bind_ok (show ownBlock c1 = .ok (c1.s.block c1.b.ctx) c1 from rfl)).trans <| (bind_ok hhd).trans <|
      (bind_ok (raiseIf_false hkind)).trans <| (bind_ok (raiseIf_false halign)).trans <| (bind_ok (raiseIf_false hplace)).trans <|
      (bind_ok hbs).trans <| (bind_ok (raiseIf_false hright)).trans <| (bind_ok (get_run c3)).trans <| (bind_ok hps).trans <|
      (bind_ok haw).trans (bind_ok hw)) ht)

/-! ## RETX (R103, R104) -/

/-- The place that an exception of RETX names: a frame that does not verify. -/
def retxBroken (p : Place) (c : Cpu) : Exc :=
  { code := 0x15, fav := true, phys := p.via == .scratch && !bitAt (c.s.cxa c.b.ctx) 0, faddr := p.addr }

/-- R103: a RETX from a frame that does not verify raises 0x15. -/
theorem exec_retx_traps {p : Place} {bs : List Byte} (h : Starts 0x603 shapeFrame i s c) (hf : formAddress i.word.opd1 256 c = .ok p c1)
    (hal : p.addr % 256 = 0) (hbs : readFrame p.via p.addr 256 c1 = .ok bs c2)
    (hkind : bitsOf (leNat (sliceBytes bs 0x10 8)) 17 2 = 2) (hv : c2.s.verifies c2.b.ctx bs = false) :
    exec (.retx i) s = .next (s.after (c2.takes 0x603 i.word (retxBroken p c2))) :=
  (exec_retx i s).trans (starts_works_traps h rfl
    ((bind_ok hf).trans <| (bind_ok (raiseIf_false (by rw [hal]; rfl))).trans <| (bind_ok hbs).trans <|
      (bind_ok (show framePhys c2 = .ok (!bitAt (c2.s.cxa c2.b.ctx) 0) c2 from rfl)).trans <| (bind_ok (getB_run c2)).trans <|
      (bind_ok (get_run c2)).trans <| (bind_ok (raiseIf_false (by rw [hkind]; rfl))).trans <|
      (congrFun (if_pos (by rw [hv]; rfl)) c2).trans (bind_error (raise_run (retxBroken p c2) c2))))

/-- The Cpu of a RETX without ember state, once the ember frame in use is dropped and the long-instruction state taken. -/
def Cpu.unembered (c : Cpu) (bs : List Byte) : Cpu :=
  { c with s := c.s.dropEmber c.b.ctx
           b := { c.b with lis := if bitAt (leNat (sliceBytes bs 0x50 8)) 13 then some (lisOf bs) else none, resume := 0, saved := none } }

/-- R571: the effect of a return into a pair of a context under debug. -/
def Cpu.breaks (c : Cpu) (p : Psw) : List Effect := if c.s.wantsRf c.b.ctx p && p.dbg then [.refireBroken] else []

/-- The last steps of a RETX: the effect, and the PSW that is loaded. -/
theorem retxLoads_run (p : Psw) (c : Cpu) :
    (do if c.s.wantsRf c.b.ctx p && p.dbg then addEffect .refireBroken
        setNext (.load (c.s.loadRf c.b.ctx p))
        pure 6 : M Nat) c = .ok 6 (Cpu.goes { c with after := c.after ++ c.breaks p } (.load (c.s.loadRf c.b.ctx p))) := by
  unfold Cpu.breaks
  cases c.s.wantsRf c.b.ctx p && p.dbg
  · have hnone : c.after ++ (if false = true then [Effect.refireBroken] else []) = c.after := List.append_nil _
    rw [hnone]
    rfl
  · rfl

/-- R103: a RETX from a frame that verifies, holds a legal PSW and no ember state loads that PSW. -/
theorem exec_retx_returns {p : Place} {bs : List Byte} {old code : Nat} (hold : old = leNat (sliceBytes bs 0x40 16))
    (hcode : code = leNat (sliceBytes bs 0x50 8)) (h : Starts 0x603 shapeFrame i s c)
    (hf : formAddress i.word.opd1 256 c = .ok p c1) (hal : p.addr % 256 = 0) (hbs : readFrame p.via p.addr 256 c1 = .ok bs c2)
    (hkind : bitsOf (leNat (sliceBytes bs 0x10 8)) 17 2 = 2) (hv : c2.s.verifies c2.b.ctx bs = true)
    (hclaim : bitAt (leNat (sliceBytes bs 0x10 8)) 16 = true → bitAt old 68 = false ∧ bitAt old 78 = false ∧ bitsOf code 12 2 = 0)
    (hlegal : pswLegal old = true) (hemb : bitAt code 12 = false)
    (ht : (Cpu.goes { c2.unembered bs with after := c2.after ++ (c2.unembered bs).breaks (Psw.ofNat old) }
      (.load ((c2.unembered bs).s.loadRf c2.b.ctx (Psw.ofNat old)))).Retires 6 t) :
    exec (.retx i) s = .next (s.after t) := by
  subst hold hcode
  have hsoft : (bitAt (leNat (sliceBytes bs 0x10 8)) 16 && (bitAt (leNat (sliceBytes bs 0x40 16)) 68
      || bitAt (leNat (sliceBytes bs 0x40 16)) 78 || bitsOf (leNat (sliceBytes bs 0x50 8)) 12 2 != 0)) = false := by
    rw [Bool.and_eq_false_imp]
    intro hsw
    obtain ⟨h68, h78, h12⟩ := hclaim hsw
    rw [h68, h78, h12]
    rfl
  exact (exec_retx i s).trans (starts_works h rfl
    ((bind_ok hf).trans <| (bind_ok (raiseIf_false (by rw [hal]; rfl))).trans <| (bind_ok hbs).trans <|
      (bind_ok (show framePhys c2 = .ok (!bitAt (c2.s.cxa c2.b.ctx) 0) c2 from rfl)).trans <| (bind_ok (getB_run c2)).trans <|
      (bind_ok (get_run c2)).trans <| (bind_ok (raiseIf_false (by rw [hkind]; rfl))).trans <|
      (congrFun (if_neg (by rw [hv]; decide)) c2).trans <| (congrFun (if_neg (Bool.eq_false_iff.mp hsoft)) c2).trans <|
      (bind_ok (raiseIf_false (by rw [hlegal]; rfl))).trans <|
      (bind_ok (show ownBlock c2 = .ok (c2.s.block c2.b.ctx) c2 from rfl)).trans <|
      (congrFun (if_neg (Bool.eq_false_iff.mp hemb)) c2).trans <| (bind_ok (modS_run _ c2)).trans <|
      (bind_ok (modB_run _ { c2 with s := c2.s.dropEmber c2.b.ctx })).trans <|
      (bind_ok (get_run (c2.unembered bs))).trans (retxLoads_run (Psw.ofNat (leNat (sliceBytes bs 0x40 16))) (c2.unembered bs))) ht)

/-! ## SVC (R336) -/

/-- R336: an SVC completes as another instruction does, and then its context enters exception 0x19. -/
theorem complete_svc {b b1 : Bank} {n : Nat} {k : BitVec 16} (hb : b.psw.rf = false ∧ b.psw.dbg = false) (hr : b.resume = 0)
    (hnext : c.next = .svc k) (hp : (c.settle.s.putBank (c.settle.retired n)).performAll c.b.ctx c.after = .ok t)
    (hbank : t.bankOf c.b.ctx = some b1) :
    c.settle.s.complete b c.settle n = .ok (t.enter b1 { code := 0x19, faddr := k.toNat } b1.psw 0 none none 8) := by
  have hp' : (c.settle.s.putBank ({ c.settle.b.setPsw (nextPsw c.settle.b.psw false c.next) with
    charged := c.settle.b.charged + (n + c.sur), slice := c.settle.b.slice + (n + c.sur), leave := c.next.leaves c.settle.b.leave,
    resume := c.next.resumes c.settle.b.resume, wdrawn := none, wait := none, cont := decide (c.next = .stay), spillBad := false })).performAll
      c.b.ctx c.after = .ok t := hp
  have hsur : c.settle.sur = c.sur := rfl
  have hafter : c.settle.after = c.after := rfl
  have hnext' : c.settle.next = c.next := rfl
  have hctx : c.settle.b.ctx = c.b.ctx := rfl
  unfold State.complete
  simp only [chargeOf, hb.1, hb.2, hr, Bool.false_eq_true, if_false, bne_self_eq_false, Bool.false_and, Nat.sub_zero, Nat.add_zero,
    hsur, hafter, hnext']
  erw [hp']
  dsimp only
  erw [hbank]
  rw [hnext]

/-- R336: SVC completes with its code, and its context enters 0x19. -/
theorem exec_svc_enters {b : Bank} (h : Starts 0x604 shapeSvc i s c)
    (hp : ((c.goes (.svc i.word.len)).settle.s.putBank ((c.goes (.svc i.word.len)).settle.retired 6)).performAll
      (c.goes (.svc i.word.len)).b.ctx (c.goes (.svc i.word.len)).after = .ok t)
    (hb : t.bankOf (c.goes (.svc i.word.len)).b.ctx = some b) :
    exec (.svc i) s = .next (s.after (t.enter b { code := 0x19, faddr := i.word.len.toNat } b.psw 0 none none 8)) := by
  have hrun : (same 0x604 svcBody).run i.word c = .ok 6 (c.goes (.svc i.word.len)) :=
    (bind_ok (starts_checkShape h)).trans (bind_ok (setNext_run _ c))
  obtain ⟨b0, c', hready, -, rfl⟩ := h
  rw [exec_svc, issue_ready hready]
  erw [hrun]
  dsimp only
  rw [complete_svc hready.plain hready.awake.2.2 rfl hp hb]
  rfl

end Frames

/-! ## The statements -/

/-- Settles O19. -/
theorem frameInstructions : Obligations.FrameInstructions := by
  unfold Obligations.FrameInstructions
  refine ⟨?saveh, ?resth, ?sealf⟩
  case saveh =>
    exact fun i s t c c1 c2 c3 x y g h hip => ⟨exec_saveh_nothing h hip, exec_saveh_saves h hip⟩
  case resth =>
    intro i s t c c1 c2 c3 c4 c5 f g free bs ctx cb d restored h hf
    refine ⟨?_, fun hne hbs => ⟨exec_resth_restores h hf hne hbs, exec_resth_traps h hf hne hbs⟩⟩
    rintro rfl ht
    exact exec_resth_nothing h hf ht
  case sealf =>
    exact fun i s t c c1 c2 c3 c4 c5 p hd bs ps => exec_sealf_seals rfl rfl rfl rfl

/-- Settles O20. -/
theorem returnsAndCalls : Obligations.ReturnsAndCalls := by
  unfold Obligations.ReturnsAndCalls
  refine ⟨?retx, fun i s t c b => exec_svc_enters⟩
  case retx =>
    intro i s t c c1 c2 p bs d old code s2 b2 broken h hf hal hbs hkind
    exact ⟨exec_retx_returns rfl rfl h hf hal hbs hkind, exec_retx_traps h hf hal hbs hkind⟩

end Sys2Proof.Machine
end

section
/-!
SUPPORT. What WAIT, SIGNAL, FENCE, RECV, SEND, PIN, UNPIN, SAMPLE, SETKEY and TESTKEY do (R316 to R323, R398 to R402, R436, R460 to
R462), and the statements of those rules settled with it.
-/

namespace Sys2Proof.Machine

/-! ## The commands of the two families -/

section SyncArms

variable (i : Issue) (s : State)

theorem exec_wait : exec (.wait i) s = issue (same 0x700 waitBody) i s := rfl
theorem exec_signal : exec (.signal i) s = issue (same 0x701 signalBody) i s := rfl
theorem exec_send : exec (.send i) s = issue (same 0x702 sendBody) i s := rfl
theorem exec_recv : exec (.recv i) s = issue (same 0x703 recvBody) i s := rfl
theorem exec_pin : exec (.pin i) s = issue (same 0x704 pinBody) i s := rfl
theorem exec_unpin : exec (.unpin i) s = issue (same 0x704 pinBody) i s := rfl
theorem exec_sample : exec (.sample i) s = issue (same 0x705 sampleBody) i s := rfl
theorem exec_fence : exec (.fence i) s = issue (same 0x706 fenceBody) i s := rfl
theorem exec_testkey : exec (.testkey i) s = issue (same 0x801 testkeyBody) i s := rfl

end SyncArms

variable {i : Issue} {s t : State} {c c1 c2 c3 c4 c5 c6 c7 c8 c9 : Cpu}

/-! ## WAIT, SIGNAL and FENCE (R316, R318, R436) -/

section Events

variable {m r r' v : Nat} {o : Opnd}

/-- R316: what WAIT does with the classes it has taken. -/
def waitRest (w : Word112) (m r : Nat) : M Nat := do
  let dl ← readG (spBase w.opd2)
  let r := if bitAt m 4 && decide (dl.toNat ≤ (← get).latch) then r + 16 else r
  if r = 0 then throw (.wait (.event (BitVec.ofNat 5 m) dl))
  else do
    writeG (spBase w.opd1) (BitVec.ofNat 64 r)
    setCc 0
  pure 3

/-- R316: a WAIT whose mask names events takes those that are pending. -/
theorem waitBody_takes (h : Starts 0x700 shapeWait i s c) (hm : m = (c.b.getG (spBase i.word.opd1)).toNat) (h0 : m ≠ 0) (h32 : m < 32)
    (ht : takeEvents m [0, 1, 3, 2] 0 c = .ok r c1) : waitBody i.word c = waitRest i.word m r c1 := by
  subst hm
  have hmask : ((c.b.getG (spBase i.word.opd1)).toNat == 0 || decide (32 ≤ (c.b.getG (spBase i.word.opd1)).toNat)) = false := by
    rw [beq_eq_false_iff_ne.mpr h0, decide_eq_false (Nat.not_le.mpr h32)]
    rfl
  exact (bind_ok (starts_checkShape h)).trans <| (bind_ok (readG_run _ c)).trans <| (bind_ok (raiseIf_false hmask)).trans (bind_ok ht)

/-- R316: a WAIT that has taken an event, or whose deadline has passed, delivers what it took. -/
theorem exec_wait_delivers (h : Starts 0x700 shapeWait i s c) (hm : m = (c.b.getG (spBase i.word.opd1)).toNat) (h0 : m ≠ 0)
    (h32 : m < 32) (ht : takeEvents m [0, 1, 3, 2] 0 c = .ok r c1)
    (hr : r' = if bitAt m 4 && decide ((c1.b.getG (spBase i.word.opd2)).toNat ≤ c1.latch) then r + 16 else r) (hne : r' ≠ 0)
    (hret : ((c1.withG (spBase i.word.opd1) (BitVec.ofNat 64 r')).withCc 0).Retires 3 t) : exec (.wait i) s = .next (s.after t) := by
  subst hr
  exact (exec_wait i s).trans (starts_completes h ((waitBody_takes h hm h0 h32 ht).trans <| (bind_ok (readG_run _ c1)).trans <|
    (bind_ok (get_run c1)).trans <| (congrFun (if_neg hne) c1).trans <|
    (bind_ok (writeG_run _ _ c1)).trans (bind_ok (setCc_run 0 _))) hret)

/-- R316: a WAIT that has taken nothing waits. -/
theorem exec_wait_waits (h : Starts 0x700 shapeWait i s c) (hm : m = (c.b.getG (spBase i.word.opd1)).toNat) (h0 : m ≠ 0)
    (h32 : m < 32) (ht : takeEvents m [0, 1, 3, 2] 0 c = .ok r c1)
    (hr : r' = if bitAt m 4 && decide ((c1.b.getG (spBase i.word.opd2)).toNat ≤ c1.latch) then r + 16 else r) (hzero : r' = 0) :
    exec (.wait i) s
      = .next (s.after (c1.s.withdraw c1.ck 0x700 i.word (.event (BitVec.ofNat 5 m) (c1.b.getG (spBase i.word.opd2))))) := by
  subst hr
  have hrun := (waitBody_takes h hm h0 h32 ht).trans <| (bind_ok (readG_run _ c1)).trans <| (bind_ok (get_run c1)).trans <|
    (congrFun (if_pos hzero) c1).trans (bind_error (throw_run (.wait (.event (BitVec.ofNat 5 m) (c1.b.getG (spBase i.word.opd2)))) c1))
  obtain ⟨b, c', hready, -, rfl⟩ := h
  exact (exec_wait i s).trans (issue_waits (body := same 0x700 waitBody) hready hrun)

/-- R318: what SIGNAL does with the target it has read. -/
def signalRest (w : Word112) (t : Nat) : M Nat := do
  let s := (← get).s
  if lenFlag w.len then do
    raiseIf (decide (4096 ≤ t)) 0x04
    if !bitAt (s.ld (s.wgAt t) 8) 0 then setCc 1
    else do
      addEffect (.signalGroup t)
      setCc 0
  else do
    raiseIf (decide (2 ^ 20 ≤ t)) 0x04
    if s.st (BitVec.ofNat 20 t) = St.unused then setCc 1
    else do
      addEffect (.signalCtx (BitVec.ofNat 20 t))
      setCc 0
  pure 2

/-- R318: a SIGNAL makes its stores visible and reads its target. -/
theorem exec_signal_reads (h : Starts 0x701 shapeSignal i s c) (hf : formOpnd i.word.opd1 8 [] c.drained = .ok o c1)
    (hv : readVal o 8 c1 = .ok v c2) (hr : signalRest i.word v c2 = .ok 2 c3) (ht : c3.Retires 2 t) :
    exec (.signal i) s = .next (s.after t) :=
  (exec_signal i s).trans (starts_works h rfl ((bind_ok (drainOwn_run c)).trans <| (bind_ok hf).trans <| (bind_ok hv).trans hr) ht)

/-- R318: a signal to a group that exists. -/
theorem signalRest_group (hl : lenFlag i.word.len = true) (hv : v < 4096) (he : bitAt (c2.s.ld (c2.s.wgAt v) 8) 0 = true) :
    signalRest i.word v c2 = .ok 2 (Cpu.withCc { c2 with after := c2.after ++ [.signalGroup v] } 0) :=
  (bind_ok (get_run c2)).trans <| (congrFun (if_pos hl) c2).trans <| (bind_ok (raiseIf_false (decide_eq_false (Nat.not_le.mpr hv)))).trans <|
    (congrFun (if_neg (by rw [he]; decide)) c2).trans <| (bind_ok (addEffect_run _ c2)).trans (bind_ok (setCc_run 0 _))

/-- R318: a signal to a context that exists. -/
theorem signalRest_ctx (hl : lenFlag i.word.len = false) (hv : v < 2 ^ 20) (he : c2.s.st (BitVec.ofNat 20 v) ≠ St.unused) :
    signalRest i.word v c2 = .ok 2 (Cpu.withCc { c2 with after := c2.after ++ [.signalCtx (BitVec.ofNat 20 v)] } 0) :=
  (bind_ok (get_run c2)).trans <| (congrFun (if_neg (Bool.eq_false_iff.mp hl)) c2).trans <|
    (bind_ok (raiseIf_false (decide_eq_false (Nat.not_le.mpr hv)))).trans <|
    (congrFun (if_neg he) c2).trans <| (bind_ok (addEffect_run _ c2)).trans (bind_ok (setCc_run 0 _))

/-- R318: a signal to a target that does not exist. -/
theorem signalRest_nobody (hv : if lenFlag i.word.len then v < 4096 ∧ bitAt (c2.s.ld (c2.s.wgAt v) 8) 0 = false
      else v < 2 ^ 20 ∧ c2.s.st (BitVec.ofNat 20 v) = St.unused) : signalRest i.word v c2 = .ok 2 (c2.withCc 1) := by
  by_cases hl : lenFlag i.word.len = true
  · rw [if_pos hl] at hv
    exact (bind_ok (get_run c2)).trans <| (congrFun (if_pos hl) c2).trans <|
      (bind_ok (raiseIf_false (decide_eq_false (Nat.not_le.mpr hv.1)))).trans <|
      (congrFun (if_pos (by rw [hv.2]; rfl)) c2).trans (bind_ok (setCc_run 1 c2))
  · rw [if_neg hl] at hv
    exact (bind_ok (get_run c2)).trans <| (congrFun (if_neg hl) c2).trans <|
      (bind_ok (raiseIf_false (decide_eq_false (Nat.not_le.mpr hv.1)))).trans <|
      (congrFun (if_pos hv.2) c2).trans (bind_ok (setCc_run 1 c2))

/-- R436: FENCE makes the stores of its context visible. -/
theorem exec_fence_drains (h : Starts 0x706 shapeFence i s c) (ht : c.drained.Retires 1 t) : exec (.fence i) s = .next (s.after t) :=
  (exec_fence i s).trans (starts_works h rfl (bind_ok (drainOwn_run c)) ht)

end Events

/-! ## RECV (R460) -/

section Recv

variable {q v : Nat} {o : Opnd}

/-- The number of a queue that exists passes its check. -/
theorem queueNumber_run (h : q < 524288) (c : Cpu) : raiseIf (decide (524288 ≤ q)) 0x04 c = .ok () c :=
  raiseIf_false (decide_eq_false (Nat.not_le.mpr h))

/-- R460: whether RECV may not use a queue. -/
def State.recvShut (s : State) (q v : Nat) : Bool := !qActive v || qSizeExp v == 0 || qOwner v || s.mirrorNames q

/-- Reading a queue leaves the bank as it is. -/
theorem readQueue_bank (h : readQueue q c = .ok v c1) : c1.b = c.b := by
  cases h
  rfl

/-- R460: the current message given back. -/
def Cpu.msgGivenBack (c : Cpu) : Cpu := { c with s := if c.b.msg.v then c.s.releaseMsg c.b.ctx c.b.msg else c.s }

/-- R460: what RECV does once it has given its current message back. -/
def recvRest (q : Nat) (b : Bank) : M Nat := do
  let v ← readQueue q
  let none' : Msg := { b.msg with v := false }
  if !qActive v || qSizeExp v == 0 || qOwner v || (← get).s.mirrorNames q then do
    modB (·.setMsg none')
    setCc 2
  else do
    let s := (← get).s
    let n := s.passSkips v (qSlots v) (qRxNext v)
    let v := qPut v 0x18 8 n
    if n = qRxProd v then do
      modS (·.setQueue q v)
      modB (·.setMsg none')
      setCc 1
    else do
      let h := qSlotAt v n
      let v := qPut v 0x18 8 ((n + s.hdrSlots h) % 2 ^ 64)
      let flen := s.ld (h + 0x08) 2
      let doff := s.ld (h + 0x0A) 2
      modS (fun s => (s.devWrite (h + 0x0C) (leBytes 2 (s.hdrFlags h ||| 2))).devWrite (h + 0x20) (leBytes 4 b.ctx.toNat))
      modS (·.setQueue q v)
      modB (·.setMsg { buf := BitVec.ofNat 64 (h + 64 + doff), len := BitVec.ofNat 16 (flen - doff), queue := BitVec.ofNat 19 q,
                       v := true })
      setCc 0
  releaseLines
  pure 4

theorem msgGivenBack_run {rest : M Nat} (c : Cpu) :
    (do if c.b.msg.v then modS (·.releaseMsg c.b.ctx c.b.msg)
        rest : M Nat) c = rest c.msgGivenBack := by
  unfold Cpu.msgGivenBack
  cases c.b.msg.v <;> rfl

/-- R460: the rest of a RECV ends it as its parts do. -/
theorem recvBody_eq {v0 : Nat} (h : Starts 0x703 shapeRecv i s c) (hf : formOpnd i.word.opd1 8 [] c = .ok o c1)
    (hq : readVal o 8 c1 = .ok q c2) (hlt : q < 524288) (hcl : claimQueue q c2 = .ok () c3) (hv0 : readQueue q c3 = .ok v0 c4)
    (hk : checkQueueKey q v0 c4 = .ok () c5) : recvBody i.word c = recvRest q c5.b c5.msgGivenBack := by
  refine (bind_ok (starts_checkShape h)).trans <| (bind_ok hf).trans <| (bind_ok hq).trans <| (bind_ok (queueNumber_run hlt c2)).trans <|
    (bind_ok hcl).trans <| (bind_ok hv0).trans <| (bind_ok hk).trans <| (bind_ok (getB_run c5)).trans ?_
  exact msgGivenBack_run (rest := recvRest q c5.b) c5

/-- An instruction that sets CC, releases what it holds and counts `n`. -/
theorem setsCc_releases (hp : c.pass = .plain) (v : BitVec 2) (n : Nat) :
    (setCc v >>= fun _ => releaseLines >>= fun _ => (pure n : M Nat)) c = .ok n (c.withCc v).released :=
  (bind_ok (setCc_run v c)).trans (bind_ok (releaseLines_run (c := c.withCc v) hp))

/-- R460: a RECV of a queue that it may not use. -/
theorem recvRest_shut {b : Bank} (hp : c.pass = .plain) (hv : readQueue q c = .ok v c1) (hs : c1.s.recvShut q v = true) :
    recvRest q b c = .ok 4 (Cpu.withCc { c1 with b := c1.b.setMsg { b.msg with v := false } } 2).released :=
  (bind_ok hv).trans <| (bind_ok (get_run c1)).trans <| (congrFun (if_pos hs) c1).trans <| (bind_ok (modB_run _ c1)).trans
    (setsCc_releases (by exact (SamePass.readQueue q _ _ _ hv).plain hp) 2 4)

/-- R460: a RECV of a queue without a message. -/
theorem recvRest_empty {b : Bank} (hp : c.pass = .plain) (hv : readQueue q c = .ok v c1) (hs : c1.s.recvShut q v = false) {n w : Nat}
    (hn : n = c1.s.passSkips v (qSlots v) (qRxNext v)) (hw : w = qPut v 0x18 8 n) (he : n = qRxProd w) :
    recvRest q b c = .ok 4 (Cpu.withCc { c1 with s := c1.s.setQueue q w, b := c1.b.setMsg { b.msg with v := false } } 1).released := by
  subst hw hn
  exact (bind_ok hv).trans <| (bind_ok (get_run c1)).trans <| (congrFun (if_neg (Bool.eq_false_iff.mp hs)) c1).trans <|
    (bind_ok (get_run c1)).trans <| (congrFun (if_pos he) c1).trans <| (bind_ok (modS_run _ c1)).trans <| (bind_ok (modB_run _ _)).trans
    (setsCc_releases (by exact (SamePass.readQueue q _ _ _ hv).plain hp) 1 4)

/-- R460: a RECV of a queue with a message takes it. -/
theorem recvRest_takes {b : Bank} (hb : c1.b = b) (hp : c.pass = .plain) (hv : readQueue q c = .ok v c1) (hs : c1.s.recvShut q v = false) {n w h : Nat}
    (hn : n = c1.s.passSkips v (qSlots v) (qRxNext v)) (hw : w = qPut v 0x18 8 n) (hh : h = qSlotAt w n) (he : n ≠ qRxProd w) :
    recvRest q b c = .ok 4 (Cpu.withCc
      { c1 with
        s := ((c1.s.devWrite (h + 0x0C) (leBytes 2 (c1.s.hdrFlags h ||| 2))).devWrite (h + 0x20) (leBytes 4 c1.b.ctx.toNat)).setQueue q
          (qPut w 0x18 8 ((n + c1.s.hdrSlots h) % 2 ^ 64))
        b := c1.b.setMsg { buf := BitVec.ofNat 64 (h + 64 + c1.s.ld (h + 0x0A) 2),
                           len := BitVec.ofNat 16 (c1.s.ld (h + 0x08) 2 - c1.s.ld (h + 0x0A) 2), queue := BitVec.ofNat 19 q, v := true } }
      0).released := by
  subst hb hh hw hn
  exact (bind_ok hv).trans <| (bind_ok (get_run c1)).trans <| (congrFun (if_neg (Bool.eq_false_iff.mp hs)) c1).trans <|
    (bind_ok (get_run c1)).trans <| (congrFun (if_neg he) c1).trans <| (bind_ok (modS_run _ c1)).trans <| (bind_ok (modS_run _ _)).trans <|
    (bind_ok (modB_run _ _)).trans
    (setsCc_releases (by exact (SamePass.readQueue q _ _ _ hv).plain hp) 0 4)

/-- R460: a RECV whose operand and queue pass their checks completes as its rest does. -/
theorem exec_recv_ends {v0 : Nat} (h : Starts 0x703 shapeRecv i s c) (hf : formOpnd i.word.opd1 8 [] c = .ok o c1)
    (hq : readVal o 8 c1 = .ok q c2) (hlt : q < 524288) (hcl : claimQueue q c2 = .ok () c3) (hv0 : readQueue q c3 = .ok v0 c4)
    (hk : checkQueueKey q v0 c4 = .ok () c5)
    (hr : c5.msgGivenBack.pass = .plain → recvRest q c5.b c5.msgGivenBack = .ok 4 c6) (ht : c6.Retires 4 t) :
    exec (.recv i) s = .next (s.after t) := by
  have hp2 := (SamePass.readVal _ _ _ _ _ hq).plain ((SamePass.formOpnd _ _ _ _ _ _ hf).plain (starts_pass h))
  have hp4 := (SamePass.readQueue _ _ _ _ hv0).plain ((SamePass.claimQueue _ _ _ _ hcl).plain hp2)
  have hp5 := (SamePass.checkQueueKey _ _ _ _ _ hk).plain hp4
  exact (exec_recv i s).trans (starts_completes h ((recvBody_eq h hf hq hlt hcl hv0 hk).trans (hr hp5)) ht)

end Recv

/-! ## SEND (R461) -/

section Send

variable {q n v v' mv pa : Nat} {o1 o3 : Opnd} {p : Place}

theorem SamePass.scratchCt : Sure SamePass Machine.scratchCt := bind get fun _ => pure _

theorem SamePass.sendPiece (via : Via) (total : Nat) (second : Bool) (la len : Nat) :
    Sure SamePass (Machine.sendPiece via total second la len) := by
  unfold Machine.sendPiece
  refine bind (keptReach ?_) fun pa => bind get fun _ => pure _
  unfold Machine.scratchCt getPsw
  repeat' first
    | exact OnlyMarks.pure _
    | exact OnlyMarks.get
    | exact translateAccess_frame _ _ _ _
    | exact checkAccess_frame _ _ _ _ _ _
    | exact Sure.raise _
    | refine OnlyMarks.bind ?_ (fun _ => ?_)
    | split

theorem SamePass.sendPieces (via : Via) (total : Nat) (first : Option Nat) (next : Nat) (ok : Bool) (ps : List (Nat × Nat)) :
    Sure SamePass (Machine.sendPieces via total first next ok ps) := by
  induction ps generalizing first next ok with
  | nil => exact pure _
  | cons x l ih => exact bind (sendPiece _ _ _ _ _) fun _ => ih _ _ _

/-- R461: whether SEND may not use a queue. -/
def Cpu.sendShut (c : Cpu) (q v : Nat) : Bool :=
  !qActive v || qDexp v == 0 || qTxOwn v || c.s.mirrorNames q || (qTxMode v == 1 && !c.b.msg.v)

/-- R461: what SEND does with a queue whose key passes. -/
def sendRest (w : Word112) (n q pa v : Nat) : M Nat := do
  let b ← getB
  if !qActive v || qDexp v == 0 || qTxOwn v || (← get).s.mirrorNames q || (qTxMode v == 1 && !b.msg.v) then setCc 2
  else if seqSub (qTxProd v) (qTxCons v) = 2 ^ qDexp v then setCc 1
  else do
    let mv ← if b.msg.v then readQueue b.msg.queue.toNat else pure 0
    let h := msgHeader mv b.msg.buf.toNat
    let r := if b.msg.v && (← get).s.releasable h b.ctx then h else 0
    drainOwn
    modS (·.devWrite (qDescAt v (qTxProd v)) (sendDesc pa n (bitAt w.len.toNat 0) (qTxMode v == 1) r))
    let v ← readQueue q
    modS (·.setQueue q (qPut v 0x30 8 (qTxProd v + 1)))
    modB (·.setMsg { b.msg with v := false })
    setCc 0
  releaseLines
  pure 6

/-- R461: a SEND of a queue that it may not use. -/
theorem sendRest_shut {w : Word112} (hp : c.pass = .plain) (hs : c.sendShut q v = true) :
    sendRest w n q pa v c = .ok 6 (c.withCc 2).released :=
  (bind_ok (getB_run c)).trans <| (bind_ok (get_run c)).trans <| (congrFun (if_pos hs) c).trans (setsCc_releases hp 2 6)

/-- R461: a SEND of a full queue. -/
theorem sendRest_full {w : Word112} (hp : c.pass = .plain) (hs : c.sendShut q v = false)
    (hfull : seqSub (qTxProd v) (qTxCons v) = 2 ^ qDexp v) : sendRest w n q pa v c = .ok 6 (c.withCc 1).released :=
  (bind_ok (getB_run c)).trans <| (bind_ok (get_run c)).trans <| (congrFun (if_neg (Bool.eq_false_iff.mp hs)) c).trans <|
    (congrFun (if_pos hfull) c).trans (setsCc_releases hp 1 6)

/-- The queue of the current message, read when there is one. -/
theorem msgQueue_run {f : Nat → M Nat} (hv : c.b.msg.v = true → readQueue c.b.msg.queue.toNat c = .ok mv c1)
    (hn : c.b.msg.v = false → c1 = c ∧ mv = 0) :
    (if c.b.msg.v then readQueue c.b.msg.queue.toNat >>= f else pure 0 >>= f) c = f mv c1 := by
  by_cases h : c.b.msg.v = true
  · rw [if_pos h, bind_ok (hv h)]
  · obtain ⟨rfl, rfl⟩ := hn (Bool.eq_false_iff.mpr h)
    rw [if_neg h]
    rfl

/-- R461, R462: a SEND of a queue with a free descriptor writes it, and ends the current message. -/
theorem sendRest_queues {w : Word112} {h r : Nat} (hp : c.pass = .plain) (hs : c.sendShut q v = false)
    (hroom : seqSub (qTxProd v) (qTxCons v) ≠ 2 ^ qDexp v)
    (hm : c.b.msg.v = true → readQueue c.b.msg.queue.toNat c = .ok mv c1) (hm' : c.b.msg.v = false → c1 = c ∧ mv = 0)
    (hh : h = msgHeader mv c.b.msg.buf.toNat) (hr : r = if c.b.msg.v && c1.s.releasable h c.b.ctx then h else 0)
    (hv : readQueue q { c1 with s := c1.drained.s.devWrite (qDescAt v (qTxProd v)) (sendDesc pa n (bitAt w.len.toNat 0) (qTxMode v == 1) r) }
      = .ok v' c2) :
    sendRest w n q pa v c = .ok 6 (Cpu.withCc { c2 with s := c2.s.setQueue q (qPut v' 0x30 8 (qTxProd v' + 1))
                                                        b := c2.b.setMsg { c.b.msg with v := false } } 0).released := by
  subst hr hh
  have hp1 : c1.pass = .plain := by
    by_cases h : c.b.msg.v = true
    · exact (SamePass.readQueue _ _ _ _ (hm h)).plain hp
    · rw [(hm' (Bool.eq_false_iff.mpr h)).1, hp]
  exact (bind_ok (getB_run c)).trans <| (bind_ok (get_run c)).trans <| (congrFun (if_neg (Bool.eq_false_iff.mp hs)) c).trans <|
    (congrFun (if_neg hroom) c).trans <| (msgQueue_run hm hm').trans <| (bind_ok (get_run c1)).trans <|
    (bind_ok (drainOwn_run c1)).trans <| (bind_ok (modS_run _ c1.drained)).trans <| (bind_ok hv).trans <|
    (bind_ok (modS_run _ c2)).trans <| (bind_ok (modB_run _ _)).trans
    (setsCc_releases (by exact (SamePass.readQueue _ _ _ _ hv).plain hp1) 0 6)

/-- R461: a SEND whose bytes lie together and whose queue passes its checks completes as its rest does. -/
theorem exec_send_ends (h : Starts 0x702 shapeSend i s c) (h3 : formOpnd i.word.opd3 8 [] c = .ok o3 c1) (hn : readVal o3 8 c1 = .ok n c2)
    (h1 : formOpnd i.word.opd1 8 [] c2 = .ok o1 c3) (hq : readVal o1 8 c3 = .ok q c4) (hlt : q < 524288) (hn0 : n ≠ 0)
    (hn1 : n ≤ 65535) (hp : formAddress i.word.opd2 n c4 = .ok p c5)
    (hs : sendPieces p.via n none 0 true (p.parts.flatMap (fun (a, k) => pieces a k)) c5 = .ok (some pa) c6)
    (hcl : claimQueue q c6 = .ok () c7) (hv : readQueue q c7 = .ok v c8) (hk : checkQueueKey q v c8 = .ok () c8)
    (hr : c8.pass = .plain → sendRest i.word n q pa v c8 = .ok 6 c9) (ht : c9.Retires 6 t) : exec (.send i) s = .next (s.after t) := by
  have hp2 := (SamePass.readVal _ _ _ _ _ hn).plain ((SamePass.formOpnd _ _ _ _ _ _ h3).plain (starts_pass h))
  have hp4 := (SamePass.readVal _ _ _ _ _ hq).plain ((SamePass.formOpnd _ _ _ _ _ _ h1).plain hp2)
  have hp6 := (SamePass.sendPieces _ _ _ _ _ _ _ _ _ hs).plain ((SamePass.formAddress _ _ _ _ _ hp).plain hp4)
  have hp8 := (SamePass.readQueue _ _ _ _ hv).plain ((SamePass.claimQueue _ _ _ _ hcl).plain hp6)
  have hrange : (decide (524288 ≤ q) || n == 0 || decide (65535 < n)) = false := by
    rw [decide_eq_false (Nat.not_le.mpr hlt), beq_eq_false_iff_ne.mpr hn0, decide_eq_false (Nat.not_lt.mpr hn1)]
    rfl
  exact (exec_send i s).trans (starts_forms h rfl h3 ((bind_ok hn).trans <| (bind_ok h1).trans <| (bind_ok hq).trans <|
    (bind_ok (raiseIf_false hrange)).trans <| (bind_ok hp).trans <| (bind_ok hs).trans <| (bind_ok hcl).trans <| (bind_ok hv).trans <|
    (bind_ok hk).trans (hr hp8)) ht)

end Send

/-! ## PIN and UNPIN (R322, R323) -/

section Pins

variable {p : Place} {ls : List Nat}

/-- R322, R323: what PIN and UNPIN do with the lines they name. -/
def pinRest (w : Word112) (n : Nat) (lines : List Nat) : M Nat := do
  let c ← get
  if lenFlag w.len then do
    modB (fun b => { b with pins := b.pins.filter (fun l => !lines.contains l) })
    setCc 0
  else if 64 < c.b.pins.length + n ∨ 512 < c.s.pinsOf c.b.stove.toNat + n then setCc 1
  else do
    modB (fun b => { b with pins := lines.foldl (fun ps l => if ps.contains l then ps else ps ++ [l]) b.pins })
    setCc 0
  pure 3

/-- R323 step 1: PIN and UNPIN check the lines they name. -/
theorem pinBody_eq (h : Starts 0x704 shapePin i s c) (hf : formAddress i.word.opd1 1 c = .ok p c1)
    (hl : pinLines (p.addr / 64 * 64) (bitsOf i.word.len.toNat 0 5 + 1) c1 = .ok ls c2) :
    pinBody i.word c = pinRest i.word (bitsOf i.word.len.toNat 0 5 + 1) ls c2 :=
  (bind_ok (starts_checkShape h)).trans <| (bind_ok hf).trans (bind_ok hl)

/-- R322: UNPIN takes its lines away from those its context pins. -/
theorem exec_unpin_unpins (h : Starts 0x704 shapePin i s c) (hf : formAddress i.word.opd1 1 c = .ok p c1)
    (hl : pinLines (p.addr / 64 * 64) (bitsOf i.word.len.toNat 0 5 + 1) c1 = .ok ls c2) (hflag : lenFlag i.word.len = true)
    (ht : (Cpu.withCc { c2 with b := { c2.b with pins := c2.b.pins.filter (fun l => !ls.contains l) } } 0).Retires 3 t) :
    exec (.unpin i) s = .next (s.after t) :=
  (exec_unpin i s).trans (starts_completes h ((pinBody_eq h hf hl).trans <| (bind_ok (get_run c2)).trans <|
    (congrFun (if_pos hflag) c2).trans <| (bind_ok (modB_run _ c2)).trans (bind_ok (setCc_run 0 _))) ht)

/-- R323: PIN adds its lines when no limit would be passed. -/
theorem exec_pin_pins (h : Starts 0x704 shapePin i s c) (hf : formAddress i.word.opd1 1 c = .ok p c1)
    (hl : pinLines (p.addr / 64 * 64) (bitsOf i.word.len.toNat 0 5 + 1) c1 = .ok ls c2) (hflag : lenFlag i.word.len = false)
    (hroom : decide (64 < c2.b.pins.length + (bitsOf i.word.len.toNat 0 5 + 1)
      ∨ 512 < c2.s.pinsOf c2.b.stove.toNat + (bitsOf i.word.len.toNat 0 5 + 1)) = false)
    (ht : (Cpu.withCc
      { c2 with b := { c2.b with pins := ls.foldl (fun ps l => if ps.contains l then ps else ps ++ [l]) c2.b.pins } } 0).Retires 3 t) :
    exec (.pin i) s = .next (s.after t) :=
  (exec_pin i s).trans (starts_completes h ((pinBody_eq h hf hl).trans <| (bind_ok (get_run c2)).trans <|
    (congrFun (if_neg (Bool.eq_false_iff.mp hflag)) c2).trans <| (congrFun (if_neg (of_decide_eq_false hroom)) c2).trans <|
    (bind_ok (modB_run _ c2)).trans (bind_ok (setCc_run 0 _))) ht)

/-- R323: PIN with a limit that would be passed pins nothing. -/
theorem exec_pin_refused (h : Starts 0x704 shapePin i s c) (hf : formAddress i.word.opd1 1 c = .ok p c1)
    (hl : pinLines (p.addr / 64 * 64) (bitsOf i.word.len.toNat 0 5 + 1) c1 = .ok ls c2) (hflag : lenFlag i.word.len = false)
    (hfull : decide (64 < c2.b.pins.length + (bitsOf i.word.len.toNat 0 5 + 1)
      ∨ 512 < c2.s.pinsOf c2.b.stove.toNat + (bitsOf i.word.len.toNat 0 5 + 1)) = true)
    (ht : (c2.withCc 1).Retires 3 t) : exec (.pin i) s = .next (s.after t) :=
  (exec_pin i s).trans (starts_completes h ((pinBody_eq h hf hl).trans <| (bind_ok (get_run c2)).trans <|
    (congrFun (if_neg (Bool.eq_false_iff.mp hflag)) c2).trans <| (congrFun (if_pos (of_decide_eq_true hfull)) c2).trans
    (bind_ok (setCc_run 1 c2))) ht)

end Pins

/-! ## SAMPLE (R320) -/

section Sample

variable {q src : Nat} {o : Opnd} {x : Option Nat} {e : Ring}

/-- R320: the value of a source, of the queue or ring that its operand numbers. -/
def sampleSource (src arg : Nat) : M (Option Nat) :=
  match src with
  | 0 => do pure (some (← get).s.tod)
  | 5 => do pure (some (← getB).evpend.toNat)
  | 1 => sampleQueue 1 arg
  | 2 => sampleQueue 2 arg
  | _ => do
    ringNumber arg
    checkRingBy (ringRead arg) arg
    let e ← ringRead arg
    pure (some (if src = 3 then e.durable else e.head))

/-- R320: a SAMPLE delivers the value of its source. -/
def sampleDelivers (w : Word112) (r : Option Nat) : M Nat := do
  modify (fun c => { c with vol := c.vol ++ [(none, r.getD 0)] })
  writeG (spBase w.opd1) (BitVec.ofNat 64 (r.getD 0))
  setCc (if r.isSome then 0 else 2)
  pure 2

/-- The Cpu of a SAMPLE that has delivered `r` to register `g`. -/
def Cpu.sampled (c : Cpu) (g : BitVec 4) (r : Option Nat) : Cpu :=
  Cpu.withCc (Cpu.withG { c with vol := c.vol ++ [(none, r.getD 0)] } g (BitVec.ofNat 64 (r.getD 0))) (if r.isSome then 0 else 2)

theorem sampleDelivers_run (w : Word112) (r : Option Nat) (c : Cpu) : sampleDelivers w r c = .ok 2 (c.sampled (spBase w.opd1) r) := rfl

/-- R320: what SAMPLE does with its source and the operand of it. -/
def sampleRest (w : Word112) (src arg : Nat) : M Nat := do
  let r ← match src with
    | 0 => do pure (some (← get).s.tod)
    | 5 => do pure (some (← getB).evpend.toNat)
    | 1 => sampleQueue 1 arg
    | 2 => sampleQueue 2 arg
    | _ => do
      ringNumber arg
      checkRingBy (ringRead arg) arg
      let e ← ringRead arg
      pure (some (if src = 3 then e.durable else e.head))
  modify (fun c => { c with vol := c.vol ++ [(none, r.getD 0)] })
  writeG (spBase w.opd1) (BitVec.ofNat 64 (r.getD 0))
  setCc (if r.isSome then 0 else 2)
  pure 2

/-- R320: SAMPLE delivers what its source gives. -/
theorem sampleRest_run {w : Word112} (hx : sampleSource src q c = .ok x c1) :
    sampleRest w src q c = .ok 2 (c1.sampled (spBase w.opd1) x) := by
  have hrest : sampleRest w src q = (sampleSource src q >>= sampleDelivers w) := by
    unfold sampleRest sampleSource sampleDelivers
    split <;> simp only [bind_assoc, pure_bind]
  rw [hrest, bind_ok hx]
  rfl

/-- R320: a SAMPLE whose source has an operand delivers what the source gives. -/
theorem exec_sample_delivers (h : Starts 0x705 (shapeSample false) i s c) (hs : src = bitsOf i.word.len.toNat 0 4)
    (hplain : (src == 0 || src == 5) = false) (hf : formOpnd i.word.opd2 8 [] c = .ok o c1) (hq : readVal o 8 c1 = .ok q c2)
    (hx : sampleSource src q c2 = .ok x c3) (ht : (c3.sampled (spBase i.word.opd1) x).Retires 2 t) :
    exec (.sample i) s = .next (s.after t) := by
  subst hs
  have hshape : checkShape (shapeSample (bitsOf i.word.len.toNat 0 4 == 0 || bitsOf i.word.len.toNat 0 4 == 5)) i.word c = .ok () c := by
    rw [hplain]
    exact starts_checkShape h
  exact (exec_sample i s).trans (starts_completes h ((bind_ok hshape).trans <| (congrFun (if_neg (Bool.eq_false_iff.mp hplain)) c).trans <|
    (bind_ok ((bind_ok hf).trans hq)).trans (sampleRest_run hx)) ht)

/-- R320: a SAMPLE of the time of day, or of the pending events. -/
theorem exec_sample_plain (h : Starts 0x705 (shapeSample true) i s c) (hs : src = bitsOf i.word.len.toNat 0 4) (hplain : src = 0 ∨ src = 5)
    (ht : (c.sampled (spBase i.word.opd1) (some (if src = 0 then c.s.tod else c.b.evpend.toNat))).Retires 2 t) :
    exec (.sample i) s = .next (s.after t) := by
  have hx : sampleSource src 0 c = .ok (some (if src = 0 then c.s.tod else c.b.evpend.toNat)) c := by obtain rfl | rfl := hplain <;> rfl
  have hp : (src == 0 || src == 5) = true := by obtain rfl | rfl := hplain <;> rfl
  subst hs
  have hshape : checkShape (shapeSample (bitsOf i.word.len.toNat 0 4 == 0 || bitsOf i.word.len.toNat 0 4 == 5)) i.word c = .ok () c := by
    rw [hp]
    exact starts_checkShape h
  exact (exec_sample i s).trans (starts_completes h ((bind_ok hshape).trans <| (congrFun (if_pos hp) c).trans <|
    (bind_ok (pure_run 0 c)).trans (sampleRest_run hx)) ht)

/-- R320: the source of a queue. -/
theorem sampleSource_queue (hs : src = 1 ∨ src = 2) (q : Nat) : sampleSource src q = sampleQueue src q := by
  obtain rfl | rfl := hs <;> rfl

/-- R320: the source of a ring. -/
theorem sampleSource_ring (hs : src = 3 ∨ src = 4) (hq : q < 4096) (hk : checkRingBy (ringRead q) q c = .ok () c1)
    (he : ringRead q c1 = .ok e c2) : sampleSource src q c = .ok (some (if src = 3 then e.durable else e.head)) c2 := by
  have hring : sampleSource src q = (ringNumber q >>= fun _ => checkRingBy (ringRead q) q >>= fun _ => ringRead q >>= fun e =>
      pure (some (if src = 3 then e.durable else e.head))) := by obtain rfl | rfl := hs <;> rfl
  rw [hring, bind_ok (ringNumber_run hq c), bind_ok hk, bind_ok he]
  rfl

/-- R320: a SAMPLE of a ring. -/
theorem exec_sample_ring {v : Nat} (hv : v = if src = 3 then e.durable else e.head) (hs : src = bitsOf i.word.len.toNat 0 4)
    (h : Starts 0x705 (shapeSample false) i s c) (hsrc : src = 3 ∨ src = 4) (hf : formOpnd i.word.opd2 8 [] c = .ok o c1)
    (hq : readVal o 8 c1 = .ok q c2) (hlt : q < 4096) (hk : checkRingBy (ringRead q) q c2 = .ok () c3) (he : ringRead q c3 = .ok e c4)
    (ht : (Cpu.withCc (Cpu.withG { c4 with vol := c4.vol ++ [(none, v)] } (spBase i.word.opd1) (BitVec.ofNat 64 v)) 0).Retires 2 t) :
    exec (.sample i) s = .next (s.after t) := by
  have hplain : (src == 0 || src == 5) = false := by obtain rfl | rfl := hsrc <;> rfl
  have hx := sampleSource_ring hsrc hlt hk he
  rw [← hv] at hx
  exact exec_sample_delivers h hs hplain hf hq hx ht

end Sample

/-! ## SETKEY and TESTKEY (R398 to R402) -/

section StorageKeys

variable {f v pa : Nat} {o : Opnd} {p : Place} {st : Option Nat}

/-- R398 to R401: SETKEY of a frame of ordinary memory outside the vault. -/
theorem exec_setkey_sets (hf : f = (c.b.getG (spBase i.word.opd1)).toNat / 4096 * 4096) (h : Starts 0x800 shapeSetkey i s c)
    (hspace : f / 2 ^ 48 = 0) (hord : c.drained.s.ordinary f = true) (hpop : c.drained.s.populated .load f = true)
    (ho : formOpnd i.word.opd2 1 [] c.drained = .ok o c1) (hv : readVal o 8 c1 = .ok v c2) (hkey : v % 256 / 32 = 0)
    (hvault : c.drained.s.inVault f = false) (hleave : c2.b.leave ≠ none)
    (hres : reserve ((List.range 64).map (lineOf f + ·)) c2 = .ok () c3)
    (ht : (Cpu.released (Cpu.withCc { c3 with s := c3.s.setKey f (v % 256) (bitAt i.word.len.toNat 0) (bitAt i.word.len.toNat 1) }
      (BitVec.ofNat 2 (c3.s.refChg f)))).Retires 16 t) : exec (.setkey i) s = .next (s.after t) := by
  subst hf
  have hp : c.drained.pass = .plain := (starts_pass h : c.pass = .plain)
  have hp1 := (SamePass.formOpnd _ _ _ _ _ _ ho).plain hp
  have hp3 := (SamePass.reserve _ _ _ _ hres).plain ((SamePass.readVal _ _ _ _ _ hv).plain hp1)
  have hbits : (v % 256 / 32 != 0) = false := by rw [hkey]; rfl
  refine (exec_setkey i s).trans (starts_works h rfl ?_ ht)
  refine (bind_ok (drainOwn_run c)).trans <| (bind_ok (readG_run _ c.drained)).trans <| (bind_ok (get_run c.drained)).trans <|
    (congrFun (if_neg ?frame) c.drained).trans <| (bind_ok ho).trans <| (bind_ok hv).trans <| (bind_ok (raiseIf_false hbits)).trans <|
    (congrFun (if_neg (Bool.eq_false_iff.mp hvault)) c2).trans <| (bind_ok (takeLeave_run hleave)).trans <| (bind_ok hres).trans <|
    (bind_ok (get_run c3)).trans <| (bind_ok (modS_run _ c3)).trans (setsCc_releases (by exact hp3) _ 16)
  case frame =>
    rintro (hne | hne | hne)
    · exact hne hspace
    · exact Bool.noConfusion (hne.symm.trans (congrArg not hord))
    · exact Bool.noConfusion (hne.symm.trans (congrArg not hpop))

/-- R402: TESTKEY of an address that a load may not reach. -/
theorem exec_testkey_unreached (h : Starts 0x801 shapeTestkey i s c) (hf : formAddress i.word.opd2 1 c = .ok p c1)
    (hr : testReach .load p.addr c1 = .ok none c2) (ht : ((c2.withG (spBase i.word.opd1) 0).withCc 3).Retires 3 t) :
    exec (.testkey i) s = .next (s.after t) :=
  (exec_testkey i s).trans (starts_forms h rfl hf ((bind_ok (getPsw_run c1)).trans <| (bind_ok hr).trans <|
    (bind_ok (writeG_run _ _ c2)).trans (bind_ok (setCc_run 3 _))) ht)

/-- R402: what TESTKEY does with an address that a load may reach. -/
theorem exec_testkey_tests (h : Starts 0x801 shapeTestkey i s c) (hf : formAddress i.word.opd2 1 c = .ok p c1)
    (hl : testReach .load p.addr c1 = .ok (some pa) c2) (hs : testReach .store p.addr c2 = .ok st c3)
    (hkey : c3.b.psw.key = c1.b.psw.key)
    (ht : ((c3.withG (spBase i.word.opd1) (BitVec.ofNat 64 (if c3.b.psw.sup
        then (if !c3.s.ordinary pa then 0 else c3.s.keyByte pa + c3.s.refChg pa * 2 ^ 8) + b2n (!c3.s.ordinary pa) * 2 ^ 10
        else b2n (!c3.s.ordinary pa) * 2 ^ 10))).withCc
      (if !c3.s.keyPasses pa c3.b.psw.key.toNat false then 2
        else if st.isSome && c3.s.keyPasses pa c3.b.psw.key.toNat true then 0 else 1)).Retires 3 t) :
    exec (.testkey i) s = .next (s.after t) := by
  rw [hkey] at ht
  exact (exec_testkey i s).trans (starts_forms h rfl hf ((bind_ok (getPsw_run c1)).trans <| (bind_ok hl).trans <| (bind_ok hs).trans <|
    (bind_ok (get_run c3)).trans <| (bind_ok (getPsw_run c3)).trans <| (bind_ok (writeG_run _ _ c3)).trans (bind_ok (setCc_run _ _))) ht)

/-- R402: a check made for its answer alone keeps nothing. -/
theorem testReach_frame (k : Acc) (la : Nat) {a : Option Nat} (h : testReach k la c = .ok a c1) : c1 = c := by
  unfold testReach at h
  rw [bind_ok (getPsw_run c)] at h
  have hpeek : ∃ r, peek (translateAccess k c.b.psw.te la { code := 0 }) c = .ok r c := by
    unfold peek
    cases translateAccess k c.b.psw.te la { code := 0 } c
    · exact ⟨_, rfl⟩
    · exact ⟨_, rfl⟩
  obtain ⟨r, hr⟩ := hpeek
  rw [bind_ok hr] at h
  cases r <;> cases h <;> rfl

end StorageKeys

/-! ## The statements -/

/-- Settles O21. -/
theorem eventInstructions : Obligations.EventInstructions := by
  unfold Obligations.EventInstructions
  intro i s t c c1 c2 o r v
  refine ⟨?wait, ?signal, exec_fence_drains⟩
  case wait =>
    exact fun h h0 h32 ht => ⟨exec_wait_delivers h rfl h0 h32 ht rfl, exec_wait_waits h rfl h0 h32 ht rfl⟩
  case signal =>
    exact fun h hf hv =>
      ⟨fun hl hlt he => exec_signal_reads h hf hv (signalRest_group hl hlt he),
        fun hl hlt he => exec_signal_reads h hf hv (signalRest_ctx hl hlt he),
        fun hn => exec_signal_reads h hf hv (signalRest_nobody hn)⟩

/-- Settles O22. -/
theorem queueInstructions : Obligations.QueueInstructions := by
  unfold Obligations.QueueInstructions
  refine ⟨?recv, ?send⟩
  case recv =>
    intro i s t c c1 c2 c2' c3 c4 c5 o q v0 v h hf hq hlt hcl hv0 hk hv n w slot s6 none' got shut
    have hb : c5.b = c4.b := readQueue_bank (c := c4.msgGivenBack) hv
    exact ⟨fun hs => exec_recv_ends h hf hq hlt hcl hv0 hk fun hp => recvRest_shut hp hv hs,
      fun hs he => exec_recv_ends h hf hq hlt hcl hv0 hk fun hp => recvRest_empty (n := n) (w := w) hp hv hs rfl rfl he,
      fun hs he => exec_recv_ends h hf hq hlt hcl hv0 hk fun hp => recvRest_takes (n := n) (w := w) (h := slot) hb hp hv hs rfl rfl rfl he⟩
  case send =>
    intro i s t c c1 c2 c3 c4 c5 c6 c6' c7 c8 c9 o1 o3 p n q pa v mv v' w h h3 hn h1 hq hlt hn0 hn1 hp hs hcl hv hk
    exact ⟨fun hs' => exec_send_ends h h3 hn h1 hq hlt hn0 hn1 hp hs hcl hv hk fun hp => sendRest_shut hp hs',
      fun hs' hf => exec_send_ends h h3 hn h1 hq hlt hn0 hn1 hp hs hcl hv hk fun hp => sendRest_full hp hs' hf,
      fun hs' hr hm hm' hv' => exec_send_ends h h3 hn h1 hq hlt hn0 hn1 hp hs hcl hv hk fun hp =>
        sendRest_queues hp hs' hr hm hm' rfl rfl hv'⟩

/-- Settles O23. -/
theorem pinsSamplesKeys : Obligations.PinsSamplesKeys := by
  unfold Obligations.PinsSamplesKeys
  refine ⟨?pins, ?keys⟩
  case pins =>
    intro i s t c c1 c2 c3 c4 p ls o q x e n src full dest
    refine ⟨?pin, fun h hs => exec_sample_plain h rfl hs, ?sample⟩
    case pin =>
      exact fun h hf hl => ⟨exec_unpin_unpins h hf hl, exec_pin_pins h hf hl, exec_pin_refused h hf hl⟩
    case sample =>
      intro h hf hq
      refine ⟨fun hs hx => ?_, fun hs hlt hk he => ?_⟩
      · have hplain : (src == 0 || src == 5) = false := by obtain hs | hs := hs <;> rw [hs] <;> rfl
        exact exec_sample_delivers (src := src) h rfl hplain hf hq ((congrFun (sampleSource_queue hs q) c2).trans hx)
      · exact exec_sample_ring (src := src) rfl rfl h hs hf hq hlt hk he
  case keys =>
    intro i s t c c1 c2 c3 o v pa p st
    refine ⟨exec_setkey_sets rfl, fun h hf => ⟨exec_testkey_unreached h hf, fun hl hs => ?_⟩⟩
    exact exec_testkey_tests h hf hl hs (by rw [testReach_frame _ _ hs, testReach_frame _ _ hl])

end Sys2Proof.Machine
end

section
/-!
SUPPORT. The round trips of the PSW and of packed numbers (R66, R175, R183), what reset leaves of the page headers (R33, R39), and one
clock of the time of day (R538), with the statements of those rules.
-/

namespace Sys2Proof.Machine

/-! ## The PSW (R66) -/

theorem b2n_lt (b : Bool) : b2n b < 2 := by cases b <;> decide

/-- A bit that is a flag's number is that flag. -/
theorem bitAt_of_digit {v i : Nat} {b : Bool} (h : v / 2 ^ i % 2 = b2n b) : bitAt v i = b := by
  unfold bitAt
  rw [h]
  cases b <;> rfl

/-- A number whose low digits are those of a word stands for that word. -/
theorem ofNat_of_digits {w v : Nat} {x : BitVec w} (h : v % 2 ^ w = x.toNat) : BitVec.ofNat w v = x :=
  BitVec.eq_of_toNat_eq ((BitVec.toNat_ofNat v w).trans h)

/-- R66: the control word spells its fields. -/
theorem Psw.ofControl_control (p : Psw) : Psw.ofControl p.ia p.control = p := by
  obtain ⟨ia, key, sup, rf, te, cc, fom, dom, am, mcm, dbg, ip, fpe, fpf, brm, rcnt, esSig, esV⟩ := p
  have hkey := key.isLt
  have hcc := cc.isLt
  have hfpe := fpe.isLt
  have hfpf := fpf.isLt
  have hbrm := brm.isLt
  have hrcnt := rcnt.isLt
  have hsup := b2n_lt sup
  have hrf := b2n_lt rf
  have hte := b2n_lt te
  have hfom := b2n_lt fom
  have hdom := b2n_lt dom
  have ham := b2n_lt am
  have hmcm := b2n_lt mcm
  have hdbg := b2n_lt dbg
  have hip := b2n_lt ip
  have hes := b2n_lt esSig
  have hesV := b2n_lt esV
  simp only [Psw.ofControl, Psw.control, Psw.mk.injEq]
  refine ⟨trivial, ofNat_of_digits ?_, bitAt_of_digit ?_, bitAt_of_digit ?_, bitAt_of_digit ?_, ofNat_of_digits ?_, bitAt_of_digit ?_,
    bitAt_of_digit ?_, bitAt_of_digit ?_, bitAt_of_digit ?_, bitAt_of_digit ?_, bitAt_of_digit ?_, ofNat_of_digits ?_,
    ofNat_of_digits ?_, ofNat_of_digits ?_, ofNat_of_digits ?_, bitAt_of_digit ?_, bitAt_of_digit ?_⟩ <;> omega

/-- R66: the control word holds no reserved bit. -/
theorem Psw.control_reserved (p : Psw) : p.control < 2 ^ 50 ∧ p.control / 2 ^ 15 % 2 ^ 3 = 0 ∧ p.control / 2 ^ 30 % 2 ^ 2 = 0 := by
  have hkey := p.key.isLt
  have hcc := p.cc.isLt
  have hfpe := p.fpe.isLt
  have hfpf := p.fpf.isLt
  have hbrm := p.brm.isLt
  have hrcnt := p.rcnt.isLt
  have hsup := b2n_lt p.sup
  have hrf := b2n_lt p.rf
  have hte := b2n_lt p.te
  have hfom := b2n_lt p.fom
  have hdom := b2n_lt p.dom
  have ham := b2n_lt p.am
  have hmcm := b2n_lt p.mcm
  have hdbg := b2n_lt p.dbg
  have hip := b2n_lt p.ip
  have hes := b2n_lt p.esSig
  have hesV := b2n_lt p.esV
  unfold Psw.control
  refine ⟨?_, ?_, ?_⟩ <;> omega

/-- R66: a PSW is what its 128 bits spell. -/
theorem Psw.ofNat_toNat (p : Psw) : Psw.ofNat p.toNat = p := by
  have hia := p.ia.isLt
  have hlow : BitVec.ofNat 64 p.toNat = p.ia := ofNat_of_digits (by unfold Psw.toNat; omega)
  have hhigh : p.toNat / 2 ^ 64 = p.control := by unfold Psw.toNat; omega
  unfold Psw.ofNat
  rw [hlow, hhigh, p.ofControl_control]

theorem Psw.toNat_lt (p : Psw) : p.toNat < 2 ^ 128 := by
  have hia := p.ia.isLt
  obtain ⟨hlt, -, -⟩ := p.control_reserved
  unfold Psw.toNat
  omega

/-- R68: a PSW with an aligned IA is legal. -/
theorem Psw.pswLegal_toNat (p : Psw) : pswLegal p.toNat = (p.ia.toNat % 16 == 0) := by
  have hia := p.ia.isLt
  obtain ⟨hlt, h15, h30⟩ := p.control_reserved
  have hlow : p.toNat % 16 = p.ia.toNat % 16 := by unfold Psw.toNat; omega
  have h79 : bitsOf p.toNat 79 3 = 0 := by unfold bitsOf Psw.toNat; omega
  have h94 : bitsOf p.toNat 94 2 = 0 := by unfold bitsOf Psw.toNat; omega
  have h114 : bitsOf p.toNat 114 14 = 0 := by unfold bitsOf Psw.toNat; omega
  unfold pswLegal
  rw [hlow, h79, h94, h114]
  simp only [beq_self_eq_true, Bool.and_true]

/-! ## Packed numbers (R172 to R175, R183) -/

/-- The nibbles of packed nibbles are those nibbles. -/
theorem nibbles_packNibbles : ∀ l : List Nat, l.length % 2 = 0 → (∀ d ∈ l, d < 16) → nibbles (packNibbles l) = l
  | [], _, _ => rfl
  | [_], h, _ => absurd h Nat.one_ne_zero
  | a :: b :: t, h, hd => by
    have ha : a < 16 := hd a (List.mem_cons_self ..)
    have hb : b < 16 := hd b (List.mem_cons_of_mem _ (List.mem_cons_self ..))
    have ht := nibbles_packNibbles t (by simp only [List.length_cons] at h; omega)
      fun d hm => hd d (List.mem_cons_of_mem _ (List.mem_cons_of_mem _ hm))
    have hbyte : (BitVec.ofNat 8 (a * 16 + b)).toNat = a * 16 + b := by rw [BitVec.toNat_ofNat]; omega
    show [(BitVec.ofNat 8 (a * 16 + b)).toNat / 16, (BitVec.ofNat 8 (a * 16 + b)).toNat % 16] ++ nibbles (packNibbles t) = _
    rw [ht, hbyte]
    have hhi : (a * 16 + b) / 16 = a := by omega
    have hlo : (a * 16 + b) % 16 = b := by omega
    rw [hhi, hlo]
    rfl

theorem length_packNibbles : ∀ l : List Nat, (packNibbles l).length = l.length / 2
  | [] => rfl
  | [_] => by simp [packNibbles]
  | a :: b :: t => by
    simp only [packNibbles, List.length_cons, length_packNibbles t]
    omega

theorem length_natDigits (n m : Nat) : (natDigits n m).length = n := by simp [natDigits]

theorem natDigits_le {n m d : Nat} (h : d ∈ natDigits n m) : d ≤ 9 := by
  obtain ⟨i, -, rfl⟩ := List.mem_map.mp h
  exact Nat.lt_succ_iff.mp (Nat.mod_lt _ (by decide))

/-- The digits of a magnitude end in its last digit. -/
theorem natDigits_succ (n m : Nat) : natDigits (n + 1) m = natDigits n (m / 10) ++ [m % 10] := by
  unfold natDigits
  rw [List.range_succ, List.map_append]
  congr 1
  · refine List.map_congr_left fun i hi => ?_
    have hlt := List.mem_range.mp hi
    have he : n + 1 - 1 - i = (n - 1 - i) + 1 := by omega
    rw [he, Nat.pow_succ', Nat.div_div_eq_div_mul]
  · simp

theorem digitsNat_concat (ds : List Nat) (d : Nat) : digitsNat (ds ++ [d]) = digitsNat ds * 10 + d := by
  simp [digitsNat, List.foldl_append]

/-- The digits of a magnitude spell what they hold of it. -/
theorem digitsNat_natDigits (n m : Nat) : digitsNat (natDigits n m) = m % 10 ^ n := by
  induction n generalizing m with
  | zero => simp [natDigits, digitsNat, Nat.mod_one]
  | succ n ih =>
    rw [natDigits_succ, digitsNat_concat, ih, Nat.pow_succ', Nat.mod_mul]
    omega

/-- R183: the preferred sign of a value. -/
def signNibble (v : Int) : Nat := if v < 0 then 0xD else 0xC

/-- R172: the nibbles of a packed value are its digits and its sign. -/
theorem splitPacked_packedBytes {n : Nat} (v : Int) (hn : 0 < n) :
    splitPacked (packedBytes n v) = (natDigits (2 * n - 1) v.natAbs, signNibble v) := by
  have hlen : (natDigits (2 * n - 1) v.natAbs ++ [signNibble v]).length % 2 = 0 := by
    rw [List.length_append, length_natDigits, List.length_singleton]
    omega
  have hnib : ∀ d ∈ natDigits (2 * n - 1) v.natAbs ++ [signNibble v], d < 16 := by
    intro d hd
    rcases List.mem_append.mp hd with h | h
    · exact Nat.lt_of_le_of_lt (natDigits_le h) (by decide)
    · rw [List.mem_singleton.mp h]
      unfold signNibble
      split <;> decide
  have hns : nibbles (packedBytes n v) = natDigits (2 * n - 1) v.natAbs ++ [signNibble v] := nibbles_packNibbles _ hlen hnib
  have hsplit : splitPacked (packedBytes n v) = ((nibbles (packedBytes n v)).dropLast, (nibbles (packedBytes n v)).getLast?.getD 0) := rfl
  rw [hsplit, hns, List.dropLast_concat, List.getLast?_concat]
  rfl

theorem length_packedBytes {n : Nat} (v : Int) (hn : 0 < n) : (packedBytes n v).length = n := by
  unfold packedBytes
  rw [length_packNibbles, List.length_append, length_natDigits, List.length_singleton]
  omega

/-- R175: every packed instruction accepts packed bytes. -/
theorem packedOk_packedBytes {n : Nat} (v : Int) (hn : 0 < n) : packedOk (packedBytes n v) = true := by
  unfold packedOk
  rw [splitPacked_packedBytes v hn]
  have hdigits : (natDigits (2 * n - 1) v.natAbs).all (fun d => decide (d ≤ 9)) = true :=
    List.all_eq_true.mpr fun d hd => decide_eq_true (natDigits_le hd)
  have hsign : signOk (signNibble v) = true := by unfold signNibble; split <;> rfl
  simp only [hdigits, hsign, Bool.and_self]

/-- R183: packed bytes hold a value that fits. -/
theorem packedVal_packedBytes {n : Nat} {v : Int} (hn : 0 < n) (h : v.natAbs < capacity n) : packedVal (packedBytes n v) = v := by
  have hval : digitsNat (natDigits (2 * n - 1) v.natAbs) = v.natAbs := (digitsNat_natDigits _ _).trans (Nat.mod_eq_of_lt h)
  unfold packedVal
  rw [splitPacked_packedBytes v hn]
  simp only [hval]
  unfold signNibble
  by_cases hneg : v < 0
  · rw [if_pos hneg]
    have hminus : isMinus 0xD = true := rfl
    rw [if_pos hminus]
    omega
  · rw [if_neg hneg]
    have hplus : ¬isMinus 0xC = true := by decide
    rw [if_neg hplus]
    omega

/-! ## Reset and the clock -/

/-- R33, R39: the headers of the pages stand at their reset values right after reset. -/
theorem reset_header {slot off : Nat} {k : PageKind} (hk : pageKind slot = some k) (hoff : off < 0x40) :
    State.reset.reg slot off = headerReset slot off k % 2 ^ 64 := by
  have hslot : (slot * 4096 + off) / 4096 = slot := by omega
  have hrest : (slot * 4096 + off) % 4096 = off := by omega
  have hne : ¬0x4100 = slot * 4096 + off := by omega
  have hget : SMap.get regReset State.reset.regs (regKey slot off) = BitVec.ofNat 64 (headerReset slot off k) := by
    show (SMap.find? [(0x4100, 0xC)] (slot * 4096 + off)).getD (regReset (slot * 4096 + off)) = _
    rw [show SMap.find? [(0x4100, (0xC : Word))] (slot * 4096 + off) = none from if_neg hne]
    show regReset (slot * 4096 + off) = _
    unfold regReset
    simp only [hslot, hrest, hk, hoff, if_true]
  unfold State.reg
  rw [hget, BitVec.toNat_ofNat]

/-- R538: with no rate and no step left the counter advances by its nominal units. -/
theorem todClock_nominal {s : State} (hrate : s.todRate = 0) (hrem : s.stepRem = 0) (hlt : s.tod + 32 < 2 ^ 64) :
    s.todClock.tod = s.tod + 32 := by
  have hfrac := s.mantel.todFrac.isLt
  have hunits : ((s.mantel.todFrac.toNat : Int) + 32 * 2 ^ 32 + 0) / 2 ^ 32 = 32 := by omega
  have hkey : regKey Slot.clk Off.CLK.TOD ≠ regKey Slot.clk Off.CLK.STEPREM := regKey_ne (by decide) (by decide) (Or.inr (by decide))
  have htake : (if (0 : Int) ≥ 0 then (0 : Int) else max 0 (-16)) = 0 := rfl
  have hwrap : wrapInt 64 ((s.tod : Int) + 32 + 0) = s.tod + 32 := by unfold wrapInt; omega
  have htod : s.todClock.tod = wrapInt 64 ((s.tod : Int) + ((s.mantel.todFrac.toNat : Int) + 32 * 2 ^ 32 + s.todRate) / 2 ^ 32
      + (if s.stepRem ≥ 0 then s.stepRem else max s.stepRem (-16))) % 2 ^ 64 := by
    unfold State.todClock State.setStepRem
    exact (State.reg_setReg_ne _ _ _ _ _ _ hkey).trans (State.reg_setReg _ _ _ _)
  rw [htod, hrate, hrem, hunits, htake, hwrap]
  exact Nat.mod_eq_of_lt hlt

/-! ## The statements -/

/-- Settles O53. -/
theorem encodingsRoundTrip : Obligations.EncodingsRoundTrip :=
  ⟨fun p => ⟨p.ofNat_toNat, p.toNat_lt, p.pswLegal_toNat⟩,
    fun _ v hn h => ⟨length_packedBytes v hn, packedOk_packedBytes v hn, packedVal_packedBytes hn h⟩⟩

/-- Settles O54. -/
theorem resetLeaves : Obligations.ResetLeaves := by
  unfold Obligations.ResetLeaves
  refine ⟨rfl, rfl, rfl, rfl, rfl, rfl, rfl, rfl, fun slot _ k hk _ => ⟨?_, ?_⟩⟩
  · rw [reset_header hk (by decide)]
    show (if k.held then 2 else 1) % 2 ^ 64 = _
    cases k.held <;> rfl
  · rw [reset_header hk (by decide)]
    show (if k.held then 1 else 0) % 2 ^ 64 = _
    cases k.held <;> rfl

/-- Settles O56. -/
theorem emptyQueueIsOneClock : Obligations.EmptyQueueIsOneClock :=
  fun _ h => ⟨step_of_nil h, fun _ _ => todClock_nominal⟩

end Sys2Proof.Machine
end

section
/-!
SUPPORT. What the store buffer shows (R295, R435, R436): draining makes memory what its context saw, and an instruction that stores
leaves every other byte as it was seen; with the statements of the drain and of MOV to memory.
-/

namespace Sys2Proof.Machine

/-! ## Drained stores (R436) -/

/-- A store written into its line gives its bytes to memory. -/
theorem drainOne_byte (s : State) (b : BufStore) (a : Nat) : (s.drainOne b).byte a = (b.byteAt a).getD (s.byte a) := by
  have hmem : (s.drainOne b).byte a = (s.poke b.addr b.bytes).byte a := by
    unfold State.byte
    rw [(drainOne_frame s b).2.2]
  rw [hmem, State.byte_poke]
  unfold BufStore.byteAt
  split <;> rfl

theorem drainOne_stores (s : State) (b : BufStore) : (s.drainOne b).stores = s.stores := by
  unfold State.drainOne
  rw [(noteRings_frame _ _ _).2.2.2.1]
  unfold State.noteModified State.coverStore
  dsimp only
  (repeat' split) <;> rfl

/-- Stores drained one after another show what a reader of them saw. -/
theorem drainAll_byte (bs : List BufStore) (s : State) (a : Nat) : (bs.foldl State.drainOne s).byte a = s.viewByte bs a := by
  induction bs generalizing s with
  | nil => rfl
  | cons b t ih =>
    rw [List.foldl_cons, ih]
    unfold State.viewByte
    rw [List.foldl_cons, drainOne_byte]

theorem drainAll_stores (bs : List BufStore) (s : State) : (bs.foldl State.drainOne s).stores = s.stores := by
  induction bs generalizing s with
  | nil => rfl
  | cons b t ih => exact (ih _).trans (drainOne_stores s b)

/-- No store of a context is left when its stores are taken out. -/
theorem ownStores_taken (l : List BufStore) (ctx : BitVec 20) : (l.filter (·.ctx != ctx)).filter (·.ctx == ctx) = [] := by
  rw [List.filter_filter, List.filter_eq_nil_iff]
  intro b _
  cases hb : b.ctx == ctx
  · exact Bool.noConfusion
  · rw [bne, hb]
    exact Bool.noConfusion

/-! ## A reader's view of memory -/

/-- A view depends on memory and on the stores looked through alone. -/
theorem viewByte_congr {s t : State} (h : s.mem = t.mem) (bs : List BufStore) (a : Nat) : s.viewByte bs a = t.viewByte bs a := by
  unfold State.viewByte State.byte
  rw [h]

theorem viewByte_append (s : State) (xs ys : List BufStore) (a : Nat) :
    s.viewByte (xs ++ ys) a = ys.foldl (fun v b => (b.byteAt a).getD v) (s.viewByte xs a) := List.foldl_append ..

/-- Stores that do not cover an address do not show there. -/
theorem viewByte_append_none (s : State) (xs : List BufStore) {ys : List BufStore} {a : Nat} (h : ∀ b ∈ ys, b.byteAt a = none) :
    s.viewByte (xs ++ ys) a = s.viewByte xs a := by
  rw [viewByte_append]
  generalize s.viewByte xs a = v
  induction ys with
  | nil => rfl
  | cons b t ih =>
    rw [List.foldl_cons, h b (List.mem_cons_self ..)]
    exact ih fun x hx => h x (List.mem_cons_of_mem _ hx)

/-- The mark that open timing leaves on a store of a context. -/
def BufStore.aged (ctx : BitVec 20) (b : BufStore) : BufStore := if b.ctx == ctx then { b with old := true } else b

theorem BufStore.aged_ctx (ctx : BitVec 20) (b : BufStore) : (b.aged ctx).ctx = b.ctx := by
  unfold BufStore.aged
  split <;> rfl

theorem BufStore.aged_byteAt (ctx : BitVec 20) (b : BufStore) (a : Nat) : (b.aged ctx).byteAt a = b.byteAt a := by
  unfold BufStore.aged
  split <;> rfl

/-- A view does not see the mark. -/
theorem viewByte_aged (s : State) (ctx : BitVec 20) (bs : List BufStore) (a : Nat) :
    s.viewByte (bs.map (BufStore.aged ctx)) a = s.viewByte bs a := by
  unfold State.viewByte
  rw [List.foldl_map]
  simp only [BufStore.aged_byteAt]

theorem filter_aged (ctx c : BitVec 20) (bs : List BufStore) :
    (bs.map (BufStore.aged ctx)).filter (·.ctx == c) = (bs.filter (·.ctx == c)).map (BufStore.aged ctx) := by
  rw [List.filter_map]
  congr 2
  funext b
  exact congrArg (· == c) (b.aged_ctx ctx)

/-! ## Draining the first stores of a context (R295) -/

theorem filter_dropOwn_self (ctx : BitVec 20) (n : Nat) (l : List BufStore) :
    (dropOwn ctx n l).filter (·.ctx == ctx) = (l.filter (·.ctx == ctx)).drop n := by
  induction l generalizing n with
  | nil => cases n <;> rfl
  | cons b t ih =>
    cases n with
    | zero => rfl
    | succ n =>
      unfold dropOwn
      by_cases hb : (b.ctx == ctx) = true
      · rw [if_pos hb, ih, List.filter_cons_of_pos (p := fun x : BufStore => x.ctx == ctx) hb, List.drop_succ_cons]
      · rw [if_neg hb, List.filter_cons_of_neg (p := fun x : BufStore => x.ctx == ctx) hb, List.filter_cons_of_neg (p := fun x : BufStore => x.ctx == ctx) hb, ih]

theorem filter_dropOwn_ne {ctx c : BitVec 20} (h : c ≠ ctx) (n : Nat) (l : List BufStore) :
    (dropOwn ctx n l).filter (·.ctx == c) = l.filter (·.ctx == c) := by
  induction l generalizing n with
  | nil => cases n <;> rfl
  | cons b t ih =>
    cases n with
    | zero => rfl
    | succ n =>
      unfold dropOwn
      by_cases hb : (b.ctx == ctx) = true
      · have hc : ¬(b.ctx == c) = true := by rw [beq_iff_eq.mp hb, beq_iff_eq]; exact Ne.symm h
        rw [if_pos hb, ih, List.filter_cons_of_neg (p := fun x : BufStore => x.ctx == c) hc]
      · rw [if_neg hb, List.filter_cons, List.filter_cons, ih]

/-- Draining the first stores of a context changes nothing that the context sees. -/
theorem drainThese_view {s : State} {ctx : BitVec 20} {bs rest : List BufStore} (h : s.ownStores ctx = bs ++ rest) (a : Nat) :
    (s.drainThese ctx bs).viewByte ((s.drainThese ctx bs).ownStores ctx) a = s.viewByte (s.ownStores ctx) a := by
  have hstores : (s.drainThese ctx bs).ownStores ctx = rest := by
    unfold State.drainThese State.ownStores
    rw [drainAll_stores, filter_dropOwn_self]
    show (s.ownStores ctx).drop bs.length = rest
    rw [h, List.drop_left]
  have hbyte : (s.drainThese ctx bs).byte a = s.viewByte bs a := drainAll_byte _ _ _
  rw [hstores, h, viewByte_append]
  unfold State.viewByte at hbyte ⊢
  rw [hbyte]

/-- R295: the end of an instruction changes nothing that its context sees. -/
theorem endInstr_view (s : State) (ctx : BitVec 20) (a : Nat) :
    (s.endInstr ctx).viewByte ((s.endInstr ctx).ownStores ctx) a = s.viewByte (s.ownStores ctx) a := by
  let p := fun b : BufStore => b.old && !(s.blockedStores ctx).contains b
  have hown : (s.endInstr ctx).ownStores ctx = ((s.drainThese ctx ((s.ownStores ctx).takeWhile p)).ownStores ctx).map (BufStore.aged ctx) :=
    filter_aged ctx ctx _
  have hmem : (s.endInstr ctx).mem = (s.drainThese ctx ((s.ownStores ctx).takeWhile p)).mem := rfl
  rw [hown, viewByte_congr hmem, viewByte_aged]
  exact drainThese_view List.takeWhile_append_dropWhile.symm a

/-- R295: the end of an instruction that finds no older store of its context writes none. -/
theorem endInstr_fresh {s : State} {ctx : BitVec 20} (h : ∀ b ∈ s.ownStores ctx, b.old = false) : (s.endInstr ctx).mem = s.mem
    ∧ (s.endInstr ctx).stores = s.stores.map (BufStore.aged ctx) := by
  have hdue : (s.ownStores ctx).takeWhile (fun b => b.old && !(s.blockedStores ctx).contains b) = [] := by
    cases hown : s.ownStores ctx with
    | nil => rfl
    | cons b t =>
      refine List.takeWhile_cons_of_neg ?_
      rw [h b (by rw [hown]; exact List.mem_cons_self ..)]
      exact Bool.noConfusion
  have hnone : dropOwn ctx 0 s.stores = s.stores := by cases s.stores <;> rfl
  unfold State.endInstr
  simp only [hdue]
  exact ⟨rfl, congrArg (List.map (BufStore.aged ctx)) hnone⟩

/-! ## What an instruction's accesses leave (R290) -/

/-- Serving an access moves lines between caches, and changes no byte and no buffered store. -/
theorem serveOne_frame (s : State) (stove : BitVec 6) (x : Access) :
    (s.serveOne stove x).1.mem = s.mem ∧ (s.serveOne stove x).1.stores = s.stores := by
  unfold State.serveOne State.fillMasks
  dsimp only
  (repeat' split) <;> exact ⟨rfl, rfl⟩

theorem serve_frame (s : State) (stove : BitVec 6) (xs : List Access) :
    (s.serve stove xs).1.mem = s.mem ∧ (s.serve stove xs).1.stores = s.stores := by
  induction xs generalizing s with
  | nil => exact ⟨rfl, rfl⟩
  | cons x t ih =>
    obtain ⟨hmem, hstores⟩ := serveOne_frame s stove x
    obtain ⟨hmem', hstores'⟩ := ih (s.serveOne stove x).1
    exact ⟨hmem'.trans hmem, hstores'.trans hstores⟩

/-- R290, R295: what is left of a Cpu whose IA just moves on. -/
theorem settle_cases {c : Cpu} (h : c.next = .advance) : ∃ s : State, s.mem = c.s.mem ∧ s.stores = c.s.stores
    ∧ c.settle.s = if c.s.openTiming c.b.stove then s.endInstr c.b.ctx else s := by
  obtain ⟨hmem, hstores⟩ := serve_frame c.s c.b.stove c.acc
  refine ⟨(c.s.serve c.b.stove c.acc).1, hmem, hstores, ?_⟩
  unfold Cpu.settle
  rw [h]
  rfl

/-- R295: completion changes nothing that the context of an instruction sees. -/
theorem settle_view {c : Cpu} (h : c.next = .advance) (a : Nat) :
    c.settle.s.viewByte (c.settle.s.ownStores c.b.ctx) a = c.s.viewByte (c.s.ownStores c.b.ctx) a := by
  obtain ⟨s, hmem, hstores, hs⟩ := settle_cases h
  have hview : s.viewByte (s.ownStores c.b.ctx) a = c.s.viewByte (c.s.ownStores c.b.ctx) a := by
    unfold State.ownStores
    rw [viewByte_congr hmem, hstores]
  rw [hs]
  split
  · exact (endInstr_view s c.b.ctx a).trans hview
  · exact hview

/-- R295: completion changes no memory and no other context's view, unless open timing writes an older store of its context. -/
theorem settle_mem {c : Cpu} (h : c.next = .advance) (hopen : c.s.openTiming c.b.stove = false ∨ ∀ b ∈ c.s.ownStores c.b.ctx, b.old = false) :
    c.settle.s.mem = c.s.mem ∧ ∀ ctx, ctx ≠ c.b.ctx → ∀ a,
      c.settle.s.viewByte (c.settle.s.ownStores ctx) a = c.s.viewByte (c.s.ownStores ctx) a := by
  obtain ⟨s, hmem, hstores, hs⟩ := settle_cases h
  rw [hs]
  by_cases ho : c.s.openTiming c.b.stove = true
  · have hold : ∀ b ∈ s.ownStores c.b.ctx, b.old = false := by
      unfold State.ownStores
      rw [hstores]
      exact hopen.resolve_left (by rw [ho]; exact Bool.noConfusion)
    obtain ⟨hmem', hstores'⟩ := endInstr_fresh hold
    rw [if_pos ho]
    refine ⟨hmem'.trans hmem, fun ctx _ a => ?_⟩
    have hown : (s.endInstr c.b.ctx).ownStores ctx = (c.s.ownStores ctx).map (BufStore.aged c.b.ctx) := by
      unfold State.ownStores
      rw [hstores', hstores, filter_aged]
    rw [hown, viewByte_aged, viewByte_congr (hmem'.trans hmem)]
  · rw [if_neg ho]
    refine ⟨hmem, fun ctx _ a => ?_⟩
    unfold State.ownStores
    rw [viewByte_congr hmem, hstores]

/-! ## Pieces put into the store buffer (R435) -/

/-- The buffered store of a piece. -/
def Cpu.bufStore (c : Cpu) (x : Piece × List Byte) : BufStore :=
  { ctx := c.b.ctx, stove := c.b.stove, addr := x.1.pa, bytes := x.2, old := false }

/-- A Cpu that has put a piece into the store buffer. -/
def Cpu.buffered (c : Cpu) (x : Piece × List Byte) : Cpu :=
  { c with s := { c.s with stores := c.s.stores ++ [c.bufStore x] }
           acc := c.acc ++ [{ kind := .store, pa := x.1.pa, len := x.1.len, own := x.1.own, align := x.1.align }]
           wrote := c.wrote ++ [(x.1.pa, x.2)] }

theorem writePiece_run {c : Cpu} {p : Piece} {bs : List Byte} (hp : c.pass = .plain) (ho : p.own = false) (ha : c.s.ordinary p.pa = true) :
    writePiece p bs c = .ok () (c.buffered (p, bs)) := by
  have htrap : ¬c.pass = .trap := by rw [hp]; exact Pass.noConfusion
  have hord : (!p.own && c.s.ordinary p.pa) = true := by rw [ho, ha]; rfl
  exact (bind_ok (get_run c)).trans <| (congrFun (if_neg htrap) c).trans <| (bind_ok (modify_run _ c)).trans <|
    (bind_ok (modify_run _ _)).trans (congrFun (if_pos hord) _)

/-- R435: pieces of ordinary memory are put into the store buffer one after another. -/
theorem writeDealt_buffers {c : Cpu} {xs : List (Piece × List Byte)} (hp : c.pass = .plain)
    (h : ∀ x ∈ xs, x.1.own = false ∧ c.s.ordinary x.1.pa = true) : writeDealt xs c = .ok () (xs.foldl Cpu.buffered c) := by
  induction xs generalizing c with
  | nil => rfl
  | cons x t ih =>
    obtain ⟨ho, ha⟩ := h x (List.mem_cons_self ..)
    exact (bind_ok (writePiece_run hp ho ha)).trans
      (ih (c := c.buffered x) hp fun y hy => (h y (List.mem_cons_of_mem _ hy) : y.1.own = false ∧ c.s.ordinary y.1.pa = true))

/-- What putting pieces into the store buffer changes. -/
theorem buffered_frame (xs : List (Piece × List Byte)) (c : Cpu) :
    (xs.foldl Cpu.buffered c).s = { c.s with stores := c.s.stores ++ xs.map c.bufStore } ∧ (xs.foldl Cpu.buffered c).b = c.b
      ∧ (xs.foldl Cpu.buffered c).after = c.after ∧ (xs.foldl Cpu.buffered c).next = c.next := by
  induction xs generalizing c with
  | nil => exact ⟨by rw [List.foldl_nil, List.map_nil, List.append_nil], rfl, rfl, rfl⟩
  | cons x t ih =>
    obtain ⟨hs, hb, hafter, hnext⟩ := ih (c.buffered x)
    refine ⟨hs.trans ?_, hb, hafter, hnext⟩
    show ({ c.s with stores := (c.s.stores ++ [c.bufStore x]) ++ t.map c.bufStore } : State) = _
    rw [List.append_assoc]
    rfl

theorem mem_insertPiece {x y : Piece × List Byte} {l : List (Piece × List Byte)} (h : x ∈ insertPiece y l) : x = y ∨ x ∈ l := by
  induction l with
  | nil => exact Or.inl (List.mem_singleton.mp h)
  | cons z t ih =>
    unfold insertPiece at h
    split at h
    · rcases List.mem_cons.mp h with rfl | h
      · exact Or.inr (List.mem_cons_self ..)
      · exact (ih h).imp_right (List.mem_cons_of_mem _)
    · exact List.mem_cons.mp h

theorem mem_sortPieces {x : Piece × List Byte} {l : List (Piece × List Byte)} (h : x ∈ l.foldr insertPiece []) : x ∈ l := by
  induction l with
  | nil => exact h
  | cons y t ih =>
    rcases mem_insertPiece h with rfl | h
    · exact List.mem_cons_self ..
    · exact List.mem_cons_of_mem _ (ih h)

/-- A piece is dealt no more bytes than it holds. -/
theorem mem_dealBytes {x : Piece × List Byte} {ps : List Piece} {bs : List Byte} (h : x ∈ dealBytes ps bs) :
    x.1 ∈ ps ∧ x.2.length ≤ x.1.len := by
  induction ps generalizing bs with
  | nil => exact absurd h (List.not_mem_nil)
  | cons p t ih =>
    rcases List.mem_cons.mp h with rfl | h
    · exact ⟨List.mem_cons_self .., List.length_take_le ..⟩
    · exact (ih h).imp_left (List.mem_cons_of_mem _)

/-- The bytes of a piece are stored nowhere else. -/
theorem bufStore_byteAt (c : Cpu) {x : Piece × List Byte} {a : Nat} (hlen : x.2.length ≤ x.1.len) (h : a < x.1.pa ∨ x.1.pa + x.1.len ≤ a) :
    (c.bufStore x).byteAt a = none := by
  show (if x.1.pa ≤ a then x.2[a - x.1.pa]? else none) = none
  by_cases hle : x.1.pa ≤ a
  · rw [if_pos hle, List.getElem?_eq_none (by omega)]
  · rw [if_neg hle]

/-! ## Forming operands leaves an instruction to end as it would -/

/-- A Cpu whose instruction will move its IA in the same way, with the same effects to perform. -/
def SameEnd (c c' : Cpu) : Prop := c'.after = c.after ∧ c'.next = c.next

namespace SameEnd

theorem refl (c : Cpu) : SameEnd c c := ⟨rfl, rfl⟩
theorem trans {x y z : Cpu} (h : SameEnd x y) (k : SameEnd y z) : SameEnd x z := ⟨k.1.trans h.1, k.2.trans h.2⟩
theorem pure {α : Type} (a : α) : Sure SameEnd (Pure.pure a : M α) := Sure.pure refl a
theorem bind {α β : Type} {m : M α} {f : α → M β} (hm : Sure SameEnd m) (hf : ∀ a, Sure SameEnd (f a)) : Sure SameEnd (m >>= f) :=
  Sure.bind trans hm hf
theorem get : Sure SameEnd (MonadState.get : M Cpu) := Sure.get refl
theorem modify {f : Cpu → Cpu} (h : ∀ c, SameEnd c (f c)) : Sure SameEnd (modify f) := Sure.modify h
theorem of_marks {α : Type} {m : M α} (h : Sure OnlyMarks m) : Sure SameEnd m := fun c a c' hc => by
  obtain ⟨hframe, -⟩ := h c a c' hc
  rw [hframe]
  exact ⟨rfl, rfl⟩
theorem raise {α : Type} (e : Exc) : Sure SameEnd (Machine.raise e : M α) := Sure.raise e
theorem modB (f : Bank → Bank) : Sure SameEnd (Machine.modB f) := modify fun _ => ⟨rfl, rfl⟩
theorem modS (f : State → State) : Sure SameEnd (Machine.modS f) := modify fun _ => ⟨rfl, rfl⟩
theorem getB : Sure SameEnd Machine.getB := bind get fun _ => pure _
theorem drainOwn : Sure SameEnd Machine.drainOwn := bind getB fun _ => modS _

theorem raiseIf (b : Bool) (code : Nat) : Sure SameEnd (Machine.raiseIf b code) := by
  unfold Machine.raiseIf raiseCode
  split
  · exact raise _
  · exact pure _

theorem raiseWhen (p : Prop) [Decidable p] (e : Exc) : Sure SameEnd (Machine.raiseWhen p e) := by
  unfold Machine.raiseWhen
  split
  · exact raise _
  · exact pure _

theorem keptRead {m : M (List Byte)} (h : Sure SameEnd m) : Sure SameEnd (Machine.keptRead m) := by
  refine bind get fun c => ?_
  have hk : Sure SameEnd (keepingRead m) := by
    intro c a c' hc
    unfold keepingRead at hc
    split at hc
    · rename_i bs c1 hm
      cases hc
      exact ⟨(h _ _ _ hm).1, (h _ _ _ hm).2⟩
    all_goals cases hc
  split
  · exact bind (modify fun _ => ⟨rfl, rfl⟩) fun _ => pure _
  · exact bind (modify fun _ => ⟨rfl, rfl⟩) fun _ => raise _
  all_goals exact hk

theorem takeCompletion (pa len : Nat) (e : Exc) : Sure SameEnd (Machine.takeCompletion pa len e) := by
  intro c a c' h
  rw [show Machine.takeCompletion pa len e = (MonadState.get >>= _) from rfl, bind_ok (get_run c)] at h
  cases hd : c.dev with
  | nil => simp only [hd] at h; cases h
  | cons x t =>
    simp only [hd] at h
    split at h
    · cases h
    · cases x <;> cases h
      exact ⟨rfl, rfl⟩

theorem loadDevice (p : Piece) (second : Bool) : Sure SameEnd (Machine.loadDevice p second) := by
  unfold Machine.loadDevice
  repeat' first
    | exact pure _
    | exact get
    | exact drainOwn
    | exact modS _
    | exact takeCompletion _ _ _
    | refine bind ?_ (fun _ => ?_)
    | split

theorem loadPiece (p : Piece) (second : Bool) : Sure SameEnd (Machine.loadPiece p second) := by
  unfold Machine.loadPiece loadOrdinary noteAccess
  repeat' first
    | exact pure _
    | exact get
    | exact modS _
    | exact modify (fun _ => ⟨rfl, rfl⟩)
    | exact loadDevice _ _
    | refine bind ?_ (fun _ => ?_)
    | split

theorem readPieces (ps : List Piece) (second : Bool) : Sure SameEnd (Machine.readPieces ps second) := by
  induction ps generalizing second with
  | nil => exact pure _
  | cons p t ih =>
    unfold Machine.readPieces noteVolatile
    repeat' first
      | exact pure _
      | exact get
      | exact modify (fun _ => ⟨rfl, rfl⟩)
      | exact keptRead (loadPiece _ _)
      | exact ih _
      | refine bind ?_ (fun _ => ?_)
      | split

theorem readVal (o : Opnd) (n : Nat) : Sure SameEnd (Machine.readVal o n) := by
  refine bind ?_ fun _ => pure _
  unfold Machine.readOpnd
  split
  · exact pure _
  · exact pure _
  · exact bind getB fun _ => pure _
  · exact bind getB fun _ => pure _
  · exact readPieces _ _

theorem awaitLines (ps : List Piece) : Sure SameEnd (Machine.awaitLines ps) := by
  unfold Machine.awaitLines
  refine bind get fun c => ?_
  repeat' first
    | exact pure _
    | exact Sure.throw _
    | exact modify (fun _ => ⟨rfl, rfl⟩)
    | split

theorem awaitNeeded (ps : List Piece) : Sure SameEnd (Machine.awaitNeeded ps) := by
  intro c a c' h
  rw [show Machine.awaitNeeded ps = (MonadState.get >>= _) from rfl, bind_ok (get_run c)] at h
  split at h
  · rcases ht : c.s.takeUnits c.b.ctx (setUnits c.s ps) with ⟨s, _ | _⟩ <;> simp only [ht] at h <;> cases h
    exact ⟨rfl, rfl⟩
  · exact awaitLines ps _ _ _ h

theorem checkPlace (p : Place) (ks : List Acc) (n : Nat) : Sure SameEnd (Machine.checkPlace p ks n) := by
  have hown : ∀ (ps : List (Nat × Nat)) (second : Bool), Sure SameEnd (Machine.checkOwn ks second ps) := by
    intro ps
    induction ps with
    | nil => exact fun _ => pure _
    | cons p t ih => exact fun _ => bind get fun _ => bind (raiseWhen _ _) fun _ => bind (ih _) fun _ => pure _
  unfold Machine.checkPlace
  dsimp only
  split
  · exact bind (hown _ _) fun _ => bind (awaitLines _) fun _ => pure _
  · exact bind (of_marks (checkPieces_frame _ _ _ _ _)) fun _ => bind (awaitLines _) fun _ => pure _

theorem loadPointer (a : Nat) : Sure SameEnd (Machine.loadPointer a) := by
  unfold Machine.loadPointer
  have rest : Sure SameEnd (do
      let ps ← Machine.checkPieces [.load] .logical 8 none (pieces a 8)
      Machine.awaitNeeded ps
      return leNat (← Machine.readPieces ps false) : M Nat) :=
    bind (of_marks (checkPieces_frame _ _ _ _ _)) fun _ => bind (awaitNeeded _) fun _ => bind (readPieces _ _) fun _ => pure _
  dsimp only
  split
  · exact bind (raise _) fun _ => rest
  · exact rest

theorem moduloParts (mk o n : Nat) : Sure SameEnd (Machine.moduloParts mk o n) := by
  unfold Machine.moduloParts
  dsimp only
  split
  · exact bind (raise _) fun _ => pure _
  · exact pure _

theorem areaOffset (sp : BitVec 32) : Sure SameEnd (Machine.areaOffset sp) := by
  unfold Machine.areaOffset
  refine bind getB fun _ => ?_
  split <;> exact pure _

theorem formPlace (sp : BitVec 32) (n : Nat) : Sure SameEnd (Machine.formPlace sp n) := by
  unfold Machine.formPlace writeG
  repeat' first
    | exact pure _
    | exact get
    | exact getB
    | exact modB _
    | exact raiseIf _ _
    | exact loadPointer _
    | exact moduloParts _ _ _
    | exact areaOffset _
    | refine bind ?_ (fun _ => ?_)
    | split

theorem formOpnd (sp : BitVec 32) (n : Nat) (ks : List Acc) : Sure SameEnd (Machine.formOpnd sp n ks) := by
  unfold Machine.formOpnd readG surcharge
  repeat' first
    | exact pure _
    | exact get
    | exact modify (fun _ => ⟨rfl, rfl⟩)
    | exact formPlace _ _
    | exact checkPlace _ _ _
    | refine bind ?_ (fun _ => ?_)
    | split

theorem formMove (w : Word112) : Sure SameEnd (Machine.formMove w) :=
  bind (formOpnd _ _ _) fun _ => bind (formOpnd _ _ _) fun _ => bind (readVal _ _) fun _ => pure _

end SameEnd

/-- An instruction that starts has no effect to perform, and moves IA on. -/
theorem starts_end {op : BitVec 12} {sh : Shape} {i : Issue} {s : State} {c : Cpu} (h : Starts op sh i s c) :
    c.after = [] ∧ c.next = .advance := by
  obtain ⟨b, c', hready, hacc, hc⟩ := h
  rw [starts_cpu ⟨b, c', hready, hacc, hc⟩ hready.bound]
  exact ⟨rfl, rfl⟩

/-! ## MOV to memory (R117, R134) -/

/-- What an instruction that moves IA on and has no effect to perform leaves. -/
theorem retires_plain {c : Cpu} (n : Nat) (hafter : c.after = []) (hnext : c.next = .advance) :
    c.Retires n (c.settle.s.putBank (c.settle.retired n)) := by
  refine ⟨fun k => by rw [hnext]; exact NextIa.noConfusion, ?_⟩
  rw [hafter]
  rfl

/-- R134, R435: MOV to memory puts its bytes into the store buffer at the places of its operand, and completes. -/
theorem exec_mov_buffers {i : Issue} {s : State} {c c1 : Cpu} {ps : List Piece} {y : Nat} (hfmt : i.word.fmt ≠ 0)
    (h : Starts 0x000 shapeMov i s c) (hf : formMove i.word c = .ok (.mem ps, y) c1)
    (hps : ∀ p ∈ ps, p.own = false ∧ c1.s.ordinary p.pa = true) :
    ∃ (c2 : Cpu) (xs : List (Piece × List Byte)), exec (.mov ⟨i, none⟩) s = .next (s.after (c2.settle.s.putBank (c2.settle.retired 1)))
      ∧ (∀ x ∈ xs, x.1 ∈ ps ∧ x.2.length ≤ x.1.len) ∧ c2.s = { c1.s with stores := c1.s.stores ++ xs.map c1.bufStore }
      ∧ c2.b = c1.b ∧ c2.next = .advance := by
  let xs := (dealBytes ps (leBytes (fmtBytes i.word.fmt) y)).foldr insertPiece []
  have hxs : ∀ x ∈ xs, x.1 ∈ ps ∧ x.2.length ≤ x.1.len := fun x hx => mem_dealBytes (mem_sortPieces hx)
  have hp : c1.pass = .plain := (SamePass.formMove _ _ _ _ hf).plain (starts_pass h)
  obtain ⟨hafter, hnext⟩ := starts_end h
  obtain ⟨hafter1, hnext1⟩ := SameEnd.formMove _ _ _ _ hf
  have hw : writeVal (.mem ps) (fmtBytes i.word.fmt) y c1 = .ok () (xs.foldl Cpu.buffered c1) :=
    writeDealt_buffers hp fun x hx => hps x.1 (hxs x hx).1
  obtain ⟨hs2, hb2, hafter2, hnext2⟩ := buffered_frame xs c1
  refine ⟨xs.foldl Cpu.buffered c1, xs, ?_, hxs, hs2, hb2, hnext2.trans (hnext1.trans hnext)⟩
  exact exec_mov_copies hfmt h hf hw (retires_plain 1 (hafter2.trans (hafter1.trans hafter)) (hnext2.trans (hnext1.trans hnext)))

/-- Stores of a context appended to the buffer are its own alone. -/
theorem ownStores_bufStore (l : List BufStore) (c : Cpu) (xs : List (Piece × List Byte)) (ctx : BitVec 20) :
    (l ++ xs.map c.bufStore).filter (·.ctx == ctx)
      = l.filter (·.ctx == ctx) ++ if c.b.ctx = ctx then xs.map c.bufStore else [] := by
  rw [List.filter_append]
  congr 1
  by_cases hc : c.b.ctx = ctx
  · rw [if_pos hc, List.filter_eq_self]
    intro b hb
    obtain ⟨x, -, rfl⟩ := List.mem_map.mp hb
    exact beq_iff_eq.mpr hc
  · rw [if_neg hc, List.filter_eq_nil_iff]
    intro b hb
    obtain ⟨x, -, rfl⟩ := List.mem_map.mp hb
    exact fun heq => hc (beq_iff_eq.mp heq)

/-! ## The statements -/

/-- Settles O52. -/
theorem drainShowsOwnView : Obligations.DrainShowsOwnView := by
  intro s ctx
  refine ⟨?_, fun a => drainAll_byte _ _ a⟩
  unfold State.drain State.ownStores
  rw [drainAll_stores]
  exact ownStores_taken s.stores ctx

/-- Settles O51: the new stores cover no byte outside the pieces, and completion changes no view. -/
theorem storeFormFrame : Obligations.StoreFormFrame := by
  intro i s c c1 ps y hfmt h hf hps
  obtain ⟨c2, xs, hexec, hxs, hs2, hb2, hnext⟩ := exec_mov_buffers hfmt h hf hps
  have hown (ctx : BitVec 20) : c2.s.ownStores ctx = c1.s.ownStores ctx ++ if c1.b.ctx = ctx then xs.map c1.bufStore else [] := by
    rw [hs2]
    exact ownStores_bufStore _ _ _ _
  have hmem : c2.s.mem = c1.s.mem := by rw [hs2]
  refine ⟨_, hexec, fun a ha => ?_, fun hopen => ?_⟩
  · have hnone : ∀ b ∈ xs.map c1.bufStore, b.byteAt a = none := by
      intro b hb
      obtain ⟨x, hx, rfl⟩ := List.mem_map.mp hb
      exact bufStore_byteAt c1 (hxs x hx).2 (ha x.1 (hxs x hx).1)
    have hview := settle_view hnext a
    rw [hb2, hown, if_pos rfl, viewByte_append_none _ _ hnone, viewByte_congr hmem] at hview
    exact hview
  · have hopen2 : c2.s.openTiming c2.b.stove = false ∨ ∀ b ∈ c2.s.ownStores c2.b.ctx, b.old = false := by
      rw [hb2, hown, if_pos rfl]
      refine hopen.imp (fun ho => by rw [hs2]; exact ho) fun hnil b hb => ?_
      rw [hnil, List.nil_append] at hb
      obtain ⟨x, -, rfl⟩ := List.mem_map.mp hb
      rfl
    obtain ⟨hmem', hviews⟩ := settle_mem hnext hopen2
    refine ⟨hmem'.trans hmem, fun ctx hne a => ?_⟩
    have hview := hviews ctx (by rw [hb2]; exact hne) a
    rw [hown, if_neg (Ne.symm hne), List.append_nil, viewByte_congr hmem] at hview
    exact hview

end Sys2Proof.Machine
end

section
/-!
SUPPORT. The laws of the command registers (R34, R52, R248, R302, R531): what a command that its sender may give does at once, when it
is held, and when it is ignored; and the command registers of the pages.
-/

namespace Sys2Proof.Machine

/-! ## A command register -/

/-- A register whose fields a write leaves as they are: a write of it is a command. -/
structure CommandRegister (k : PageKind) (slot off : Nat) : Prop where
  page  : pageKind slot = some k
  other : ¬(slot = Slot.man ∧ off = Off.MAN.CLAIM)
  block : 0x40 ≤ off
  inert : (((findRow k off).map (·.fields)).getD []).all Field.inert = true

section Commands

variable {k : PageKind} {src : Src} {slot off v : Nat} {s : State} {x : Outside}

/-- A command that an admitted sender gives to a page that is not in reset is performed, held or ignored. -/
theorem CommandRegister.acts (h : CommandRegister k slot off) (ha : s.admits src = true) (hr : s.inRst slot = false) :
    s.regWriteWith src slot off v x = .ok (s.actOrPark k slot off v x) :=
  regWriteWith_acts ha hr h.page h.other h.block rfl h.inert

/-- A command to a block that operates is performed at once while no reservation set is held. -/
theorem CommandRegister.obeyed (h : CommandRegister k slot off) (ho : s.obeys src slot) (hb : s.cmdBusy slot off = false) :
    s.regWriteWith src slot off v x = .ok (s.act slot off v x) := by
  obtain ⟨ha, hr, hon, hresv⟩ := ho
  rw [h.acts ha hr, actOrPark_works hb hon (writesHeld_none hresv)]

/-- A command that is not work of a block is performed at once. -/
theorem CommandRegister.performed (h : CommandRegister k slot off) (ht : s.takesWrite src slot) (hb : s.cmdBusy slot off = false)
    (hk : actsForBlock k off = false) : s.regWriteWith src slot off v x = .ok (s.act slot off v x) := by
  obtain ⟨ha, hr⟩ := ht
  rw [h.acts ha hr, actOrPark_acts hb hk]

/-- R52: a command to a block that does not operate is held. -/
theorem CommandRegister.parked (h : CommandRegister k slot off) (ht : s.takesWrite src slot) (hb : s.cmdBusy slot off = false)
    (hk : actsForBlock k off = true) (hon : s.blockOn slot = false) :
    s.regWriteWith src slot off v x = .ok (s.parkWrite slot off v) := by
  obtain ⟨ha, hr⟩ := ht
  rw [h.acts ha hr, actOrPark_parks hb hk hon]

/-- R302: a command to a register that is BUSY is ignored. -/
theorem CommandRegister.ignored (h : CommandRegister k slot off) (ht : s.takesWrite src slot) (hb : s.cmdBusy slot off = true) :
    s.regWriteWith src slot off v x = .ok (s.ignoreWrite slot off) := by
  obtain ⟨ha, hr⟩ := ht
  rw [h.acts ha hr]
  unfold State.actOrPark
  rw [if_pos hb]

end Commands

/-! ## The registers -/

theorem commandRegister_ctxcmd : CommandRegister .grt Slot.grt Off.GRT.CTXCMD := ⟨rfl, by decide, by decide, by decide⟩
theorem commandRegister_wgcmd : CommandRegister .grt Slot.grt Off.GRT.WGCMD := ⟨rfl, by decide, by decide, by decide⟩
theorem commandRegister_qcmd : CommandRegister .chm1 Slot.chm1 Off.CHM1.QCMD := ⟨rfl, by decide, by decide, by decide⟩
theorem commandRegister_rulecmd : CommandRegister .chm1 Slot.chm1 Off.CHM1.RULECMD := ⟨rfl, by decide, by decide, by decide⟩
theorem commandRegister_belDoorbell : CommandRegister .bel Slot.bel Off.BEL.DOORBELL := ⟨rfl, by decide, by decide, by decide⟩
theorem commandRegister_chcmd : CommandRegister .bel Slot.bel Off.BEL.CHCMD := ⟨rfl, by decide, by decide, by decide⟩
theorem commandRegister_tpcCmd : CommandRegister .tpc Slot.tpc Off.TPC.CMD := ⟨rfl, by decide, by decide, by decide⟩
theorem commandRegister_dbgcmd : CommandRegister .dbg Slot.dbg Off.DBG.DBGCMD := ⟨rfl, by decide, by decide, by decide⟩
theorem commandRegister_failcmd : CommandRegister .nmc Slot.nmc Off.NMC.FAILCMD := ⟨rfl, by decide, by decide, by decide⟩
theorem commandRegister_msixcmd : CommandRegister .fxp (Slot.fxp 0) Off.FXP.MSIXCMD := ⟨rfl, by decide, by decide, by decide⟩
theorem commandRegister_dumpcmd : CommandRegister .man Slot.man Off.MAN.DUMPCMD := ⟨rfl, by decide, by decide, by decide⟩
theorem commandRegister_rekcmd : CommandRegister .emb Slot.emb Off.EMB.REKCMD := ⟨rfl, by decide, by decide, by decide⟩
theorem commandRegister_todstep : CommandRegister .clk Slot.clk Off.CLK.TODSTEP := ⟨rfl, by decide, by decide, by decide⟩
theorem commandRegister_pwrcmd : CommandRegister .pwr Slot.pwr Off.PWR.PWRCMD := ⟨rfl, by decide, by decide, by decide⟩
theorem commandRegister_ashcmd : CommandRegister .ash Slot.ash Off.ASH.ASHCMD := ⟨rfl, by decide, by decide, by decide⟩
theorem commandRegister_rstcmd : CommandRegister .rst Slot.rst Off.RST.RSTCMD := ⟨rfl, by decide, by decide, by decide⟩
theorem commandRegister_bootctl : CommandRegister .rst Slot.rst Off.RST.BOOTCTL := ⟨rfl, by decide, by decide, by decide⟩

/-! ## The fields of a command word -/

/-- The field above a number that stands below it. -/
theorem bitsOf_above {x lo : Nat} (hx : x < 2 ^ lo) (n w : Nat) : bitsOf (x + n * 2 ^ lo) lo w = n % 2 ^ w := by
  unfold bitsOf
  rw [Nat.add_mul_div_right _ _ (Nat.two_pow_pos lo), Nat.div_eq_of_lt hx, Nat.zero_add]

/-- The word at the bottom of a command. -/
theorem ofNat_below {w lo : Nat} (x : BitVec w) (n : Nat) (h : w ≤ lo) : BitVec.ofNat w (x.toNat + n * 2 ^ lo) = x := by
  refine ofNat_of_digits ?_
  obtain ⟨d, rfl⟩ := Nat.exists_eq_add_of_le h
  rw [Nat.pow_add, Nat.mul_comm (2 ^ w), ← Nat.mul_assoc, Nat.add_mul_mod_self_right]
  exact Nat.mod_eq_of_lt x.isLt

end Sys2Proof.Machine
end

section
/-!
SUPPORT. What CTXCMD and WGCMD do (R302, R313), and the statement of those rules settled with it.
-/

namespace Sys2Proof.Machine

section Arms

variable (src : Src) (ctx : BitVec 20) (wg : BitVec 12) (s : State)

theorem exec_wgcmdEnable : exec (.wgcmdEnable src wg) s = outcome s (s.regWrite src Slot.grt Off.GRT.WGCMD (wg.toNat + 1 * 2 ^ 12)) := rfl
theorem exec_wgcmdDisable : exec (.wgcmdDisable src wg) s = outcome s (s.regWrite src Slot.grt Off.GRT.WGCMD (wg.toNat + 2 * 2 ^ 12)) := rfl
theorem exec_wgcmdClearCounts :
    exec (.wgcmdClearCounts src wg) s = outcome s (s.regWrite src Slot.grt Off.GRT.WGCMD (wg.toNat + 3 * 2 ^ 12)) := rfl

end Arms

/-! ## CTXCMD (R302) -/

section ContextCommand

variable {src : Src} {ctx : BitVec 20} {s : State} {b : Bank} {a : (Src → BitVec 20 → Instr) × Nat}

/-- R302: a context command is a write of CTXCMD with its code. -/
theorem exec_contextCommands (ha : a ∈ contextCommands) (src : Src) (ctx : BitVec 20) (s : State) :
    exec (a.1 src ctx) s = outcome s (s.regWrite src Slot.grt Off.GRT.CTXCMD (ctx.toNat + a.2 * 2 ^ 24)) := by
  simp only [contextCommands, List.mem_cons, List.not_mem_nil, or_false] at ha
  obtain rfl | rfl | rfl | rfl | rfl | rfl | rfl := ha <;> rfl

/-- R302: CTXCMD is BUSY as CTXSTS shows it. -/
theorem cmdBusy_ctxcmd (s : State) : s.cmdBusy Slot.grt Off.GRT.CTXCMD = s.flag Slot.grt Off.GRT.CTXSTS 0 := by
  unfold State.cmdBusy
  rw [show busyBit Slot.grt Off.GRT.CTXCMD = some (Off.GRT.CTXSTS, 0, some 2) from rfl]

/-- R302: CTXSTS tells that a command was ignored. -/
theorem ignoreWrite_ctxcmd (s : State) : s.ignoreWrite Slot.grt Off.GRT.CTXCMD = s.setFlag Slot.grt Off.GRT.CTXSTS 2 true := by
  unfold State.ignoreWrite
  rw [show busyBit Slot.grt Off.GRT.CTXCMD = some (Off.GRT.CTXSTS, 0, some 2) from rfl]

/-- R302: the action of CTXCMD. -/
theorem act_ctxcmd (s : State) (v : Nat) (x : Outside) :
    s.act Slot.grt Off.GRT.CTXCMD v x = s.ctxCommand (bitsOf v 24 4) (BitVec.ofNat 20 v) := by
  unfold State.act
  rw [show pageKind Slot.grt = some PageKind.grt from rfl]
  exact if_pos rfl

/-- R302: a context command given while one is BUSY is ignored. -/
theorem exec_contextCommand_ignored (ha : a ∈ contextCommands) (ht : s.takesWrite src Slot.grt)
    (hb : s.flag Slot.grt Off.GRT.CTXSTS 0 = true) :
    exec (a.1 src ctx) s = .next (s.after (s.setFlag Slot.grt Off.GRT.CTXSTS 2 true)) := by
  have hwrite := commandRegister_ctxcmd.ignored (v := ctx.toNat + a.2 * 2 ^ 24) (x := {}) ht ((cmdBusy_ctxcmd s).trans hb)
  rw [ignoreWrite_ctxcmd] at hwrite
  exact (exec_contextCommands ha src ctx s).trans (congrArg (outcome s) hwrite)

/-- R52: a context command given while the Grate does not operate is held. -/
theorem exec_contextCommand_parked (ha : a ∈ contextCommands) (ht : s.takesWrite src Slot.grt)
    (hb : s.flag Slot.grt Off.GRT.CTXSTS 0 = false) (hon : s.blockOn Slot.grt = false) :
    exec (a.1 src ctx) s = .next (s.after (s.parkWrite Slot.grt Off.GRT.CTXCMD (ctx.toNat + a.2 * 2 ^ 24))) :=
  (exec_contextCommands ha src ctx s).trans (congrArg (outcome s) (commandRegister_ctxcmd.parked ht ((cmdBusy_ctxcmd s).trans hb) rfl hon))

/-- R302: a context command that the Grate obeys. -/
theorem exec_contextCommand {t : State} (ha : a ∈ contextCommands) (hcode : a.2 < 2 ^ 4) (ho : s.obeys src Slot.grt)
    (hb : s.flag Slot.grt Off.GRT.CTXSTS 0 = false) (ht : s.ctxCommand a.2 ctx = t) : exec (a.1 src ctx) s = .next (s.after t) := by
  have hwrite := commandRegister_ctxcmd.obeyed (v := ctx.toNat + a.2 * 2 ^ 24) (x := {}) ho ((cmdBusy_ctxcmd s).trans hb)
  rw [act_ctxcmd, bitsOf_above (Nat.lt_of_lt_of_le ctx.isLt (by decide)), Nat.mod_eq_of_lt hcode, ofNat_below ctx a.2 (by decide), ht]
    at hwrite
  exact (exec_contextCommands ha src ctx s).trans (congrArg (outcome s) hwrite)

/-- The bank of a context is that context's. -/
theorem bankOf_ctx (h : s.bankOf ctx = some b) : b.ctx = ctx := beq_iff_eq.mp (List.find?_some (p := fun x : Bank => x.ctx == ctx) h)

/-- R302: STOP of a ready or waiting context. -/
theorem ctxStop_idle (h : s.st ctx = St.ready ∨ s.st ctx = St.waiting) :
    s.ctxStop ctx = ((s.standing ctx St.stopped).toNone ctx).ctxSts false := by
  unfold State.ctxStop State.standing
  exact if_pos h

/-- R302: STOP of a resident context acts at its boundary point. -/
theorem ctxStop_resident (h : s.st ctx = St.resident) (hb : s.bankOf ctx = some b) :
    s.ctxStop ctx = s.atBoundary 2 b (·.stopResident b) := by
  have hidle : ¬(s.st ctx = St.ready ∨ s.st ctx = St.waiting) := by rw [h]; decide
  unfold State.ctxStop
  rw [if_neg hidle, if_pos h, hb]

/-- R302: STOP, which no HALT waits for, spills as stopped. -/
theorem stopResident_spills (h : s.halting.contains b.ctx = false) (hb : s.bankOf b.ctx = some b) (hst : s.st b.ctx = St.resident) :
    s.stopResident b = (s.spillQuar b (some (St.stopped, 0))).1.ctxSts (!(s.spillQuar b (some (St.stopped, 0))).2) := by
  have hbreak : s.haltBreak b.ctx = s := if_pos (by rw [h]; rfl)
  have hkeep : s.halting.filter (· != b.ctx) = s.halting := by
    refine List.filter_eq_self.mpr fun x hx => bne_iff_ne.mpr ?_
    rintro rfl
    exact absurd (List.contains_iff_mem.mpr hx) (by rw [h]; decide)
  unfold State.stopResident
  simp only [hbreak, hb]
  rw [if_neg (not_not_intro hst), hkeep]
  rcases hs : s.spillQuar b (some (St.stopped, 0)) with ⟨t, _ | _⟩
  · show s.spillCommand b _ = _
    unfold State.spillCommand
    rw [hs]
  · rfl

/-- R302: a command on a resident context that may leave its bank acts at once. -/
theorem atBoundary_now {op : Nat} {f : State → State} (h : s.mayLeave b = true) : s.atBoundary op b f = f s := if_pos h

/-- R302: a command on a resident context that may not leave its bank yet is BUSY. -/
theorem atBoundary_busy {op : Nat} {f : State → State} (h : s.mayLeave b = false) : s.atBoundary op b f
    = (({ s with ctxBusy := some (op, b.ctx) } : State).setFlag Slot.grt Off.GRT.CTXSTS 0 true).ctxSts false :=
  if_neg (by rw [h]; decide)

theorem ctxEvict_resident (h : s.st ctx = St.resident) (hb : s.bankOf ctx = some b) :
    s.ctxEvict ctx = s.atBoundary 3 b (·.spillCommand b none) := by
  unfold State.ctxEvict
  rw [hb]
  exact if_pos h

theorem ctxPreempt_resident (h : s.st ctx = St.resident) (hb : s.bankOf ctx = some b) :
    s.ctxPreempt ctx = s.atBoundary 4 b (fun s => (if b.flue.isSome then s.unbind b else s).ctxSts false) := by
  unfold State.ctxPreempt
  rw [hb]
  exact if_pos h

/-- R302: EVICT of a context that holds no bank is refused. -/
theorem ctxEvict_absent (h : s.bankOf ctx = none ∨ s.st ctx ≠ St.resident) : s.ctxEvict ctx = s.ctxSts true := by
  unfold State.ctxEvict
  cases hb : s.bankOf ctx with
  | none => rfl
  | some b => exact if_neg (h.resolve_left (by rw [hb]; exact Option.some_ne_none b))

/-- R302: PREEMPT of a context that holds no bank is refused. -/
theorem ctxPreempt_absent (h : s.bankOf ctx = none ∨ s.st ctx ≠ St.resident) : s.ctxPreempt ctx = s.ctxSts true := by
  unfold State.ctxPreempt
  cases hb : s.bankOf ctx with
  | none => rfl
  | some b => exact if_neg (h.resolve_left (by rw [hb]; exact Option.some_ne_none b))

/-- R302: what the commands that need a context do with one that does not exist. -/
theorem ctxCommands_unused (h : s.st ctx = St.unused) : s.ctxStart ctx = s.ctxSts true ∧ s.ctxStop ctx = s.ctxSts true
    ∧ s.ctxAlarm ctx = s.ctxSts true ∧ s.ctxAttn ctx = s.ctxSts true ∧ s.ctxReset ctx = s.ctxSts true := by
  have hstart : ¬(s.st ctx = St.stopped ∨ s.st ctx = St.held) := by rw [h]; decide
  have hidle : ¬(s.st ctx = St.ready ∨ s.st ctx = St.waiting) := by rw [h]; decide
  have hres : ¬s.st ctx = St.resident := by rw [h]; decide
  refine ⟨?_, ?_, ?_, ?_, ?_⟩
  · unfold State.ctxStart
    exact if_neg hstart
  · unfold State.ctxStop
    rw [if_neg hidle, if_neg hres]
  · unfold State.ctxAlarm
    exact if_pos h
  · unfold State.ctxAttn
    exact if_pos (Or.inl h)
  · unfold State.ctxReset
    exact if_pos (Or.inl h)

/-! ### The seven commands -/

section Codes

variable {t : State} (ho : s.obeys src Slot.grt) (hb : s.flag Slot.grt Off.GRT.CTXSTS 0 = false)

include ho hb

theorem exec_ctxcmdStart (ht : s.ctxStart ctx = t) : exec (.ctxcmdStart src ctx) s = .next (s.after t) :=
  exec_contextCommand (a := (.ctxcmdStart, 1)) (by simp [contextCommands]) (by decide) ho hb ht

theorem exec_ctxcmdStop (ht : s.ctxStop ctx = t) : exec (.ctxcmdStop src ctx) s = .next (s.after t) :=
  exec_contextCommand (a := (.ctxcmdStop, 2)) (by simp [contextCommands]) (by decide) ho hb ht

theorem exec_ctxcmdEvict (ht : s.ctxEvict ctx = t) : exec (.ctxcmdEvict src ctx) s = .next (s.after t) :=
  exec_contextCommand (a := (.ctxcmdEvict, 3)) (by simp [contextCommands]) (by decide) ho hb ht

theorem exec_ctxcmdPreempt (ht : s.ctxPreempt ctx = t) : exec (.ctxcmdPreempt src ctx) s = .next (s.after t) :=
  exec_contextCommand (a := (.ctxcmdPreempt, 4)) (by simp [contextCommands]) (by decide) ho hb ht

theorem exec_ctxcmdAlarm (ht : s.ctxAlarm ctx = t) : exec (.ctxcmdAlarm src ctx) s = .next (s.after t) :=
  exec_contextCommand (a := (.ctxcmdAlarm, 5)) (by simp [contextCommands]) (by decide) ho hb ht

theorem exec_ctxcmdAttn (ht : s.ctxAttn ctx = t) : exec (.ctxcmdAttn src ctx) s = .next (s.after t) :=
  exec_contextCommand (a := (.ctxcmdAttn, 6)) (by simp [contextCommands]) (by decide) ho hb ht

theorem exec_ctxcmdReset (ht : s.ctxReset ctx = t) : exec (.ctxcmdReset src ctx) s = .next (s.after t) :=
  exec_contextCommand (a := (.ctxcmdReset, 7)) (by simp [contextCommands]) (by decide) ho hb ht

/-- R302: the commands that need a context that exists are refused on one that does not. -/
theorem exec_ctxcmd_unused (h : s.st ctx = St.unused) {f : Src → BitVec 20 → Instr}
    (hf : f ∈ [Instr.ctxcmdStart, Instr.ctxcmdStop, Instr.ctxcmdAlarm, Instr.ctxcmdAttn, Instr.ctxcmdReset]) :
    exec (f src ctx) s = .next (s.after (s.ctxSts true)) := by
  simp only [List.mem_cons, List.not_mem_nil, or_false] at hf
  obtain ⟨hstart, hstop, halarm, hattn, hreset⟩ := ctxCommands_unused h
  obtain rfl | rfl | rfl | rfl | rfl := hf
  · exact exec_ctxcmdStart ho hb hstart
  · exact exec_ctxcmdStop ho hb hstop
  · exact exec_ctxcmdAlarm ho hb halarm
  · exact exec_ctxcmdAttn ho hb hattn
  · exact exec_ctxcmdReset ho hb hreset

end Codes
end ContextCommand

/-! ## WGCMD (R313) -/

section WakeGroups

variable {src : Src} {wg : BitVec 12} {s t : State}

/-- R313: the action of WGCMD. -/
theorem act_wgcmd (s : State) (v : Nat) (x : Outside) :
    s.act Slot.grt Off.GRT.WGCMD v x = s.wgCommand (bitsOf v 12 4) (bitsOf v 0 12) := by
  unfold State.act
  rw [show pageKind Slot.grt = some PageKind.grt from rfl]
  rw [if_neg (by decide : ¬Off.GRT.WGCMD = Off.GRT.CTXCMD), if_pos rfl]

/-- R313: a wake-group command that the Grate obeys. -/
theorem regWrite_wgcmd (ho : s.obeys src Slot.grt) {op : Nat} (hop : op < 2 ^ 4) :
    s.regWrite src Slot.grt Off.GRT.WGCMD (wg.toNat + op * 2 ^ 12) = .ok (s.wgCommand op wg.toNat) := by
  have hwrite := commandRegister_wgcmd.obeyed (v := wg.toNat + op * 2 ^ 12) (x := {}) ho (cmdBusy_none (by decide))
  have hlow : bitsOf (wg.toNat + op * 2 ^ 12) 0 12 = wg.toNat := by
    have hlt := wg.isLt
    unfold bitsOf
    omega
  rw [act_wgcmd, bitsOf_above wg.isLt, Nat.mod_eq_of_lt hop, hlow] at hwrite
  exact hwrite

/-- R437: a write by another party outside a far key table in use writes its bytes. -/
theorem devWrite_pokes {a : Nat} {bs : List Byte} (hmark : s.flag Slot.key Off.KEY.KEYCTL 0 = false)
    (hfkt : s.flag Slot.key Off.KEY.KEYCTL 1 = false) : (s.devWrite a bs).mem = (s.poke a bs).mem := by
  have hout : (linesTouched a bs.length).any (fun l => s.fktLine (l * 64)) = false := by
    refine List.any_eq_false.mpr fun l _ => ?_
    unfold State.fktLine
    simp only [hfkt, Bool.false_and]
    exact Bool.noConfusion
  unfold State.devWrite
  rw [if_neg (Bool.eq_false_iff.mp hout)]
  dsimp only
  rw [(noteRings_frame _ _ _).1, setEpochs_frame, (unpoison_foldl _ _).1, (markRange_frame s a bs.length true).2 hmark]
  rfl

/-- Bytes cleared by another party, and the others as they were. -/
theorem devWrite_zeros_bytes (a n : Nat) (hmark : s.flag Slot.key Off.KEY.KEYCTL 0 = false)
    (hfkt : s.flag Slot.key Off.KEY.KEYCTL 1 = false) : (s.devWrite a (zeros n)).bytes a n = zeros n
      ∧ ∀ x, (x < a ∨ a + n ≤ x) → (s.devWrite a (zeros n)).byte x = s.byte x := by
  have hmem := devWrite_pokes (a := a) (bs := zeros n) hmark hfkt
  have hlen : (zeros n).length = n := List.length_replicate ..
  refine ⟨?_, fun x hx => ?_⟩
  · have hread := State.bytes_poke s a (zeros n)
    rw [hlen] at hread
    unfold State.bytes at hread ⊢
    rw [hmem]
    exact hread
  · have hread := State.byte_poke_ne s a (zeros n) (x := x) (by rw [hlen]; exact hx)
    unfold State.byte at hread ⊢
    rw [hmem]
    exact hread

end WakeGroups

/-! ## The statement -/

/-- Settles O24. -/
theorem contextCommands_obeyed : Obligations.ContextCommands := by
  unfold Obligations.ContextCommands
  refine ⟨fun src ctx s ha hr hb a hmem => exec_contextCommand_ignored hmem ⟨ha, hr⟩ hb, ?commands, ?groups⟩
  case commands =>
    intro src ctx s b ha hr hb
    refine ⟨fun hon a hmem => exec_contextCommand_parked hmem ⟨ha, hr⟩ hb hon, fun hon hresv => ?_⟩
    have ho : s.obeys src Slot.grt := ⟨ha, hr, hon, hresv⟩
    refine ⟨fun h => ?start, fun h1 h2 => ?noStart, fun h => ?stop, fun h hbank hleave => ?leaves, fun h hbank hleave => ?busy,
      fun h => ?absent, fun h => ?alarm, fun h hl => ?known, fun h f hf => exec_ctxcmd_unused ho hb h hf⟩
    case start =>
      refine exec_ctxcmdStart ho hb ?_
      unfold State.ctxStart State.standing
      exact if_pos h
    case noStart =>
      refine exec_ctxcmdStart ho hb ?_
      unfold State.ctxStart
      exact if_neg (not_or.mpr ⟨h1, h2⟩)
    case stop => exact exec_ctxcmdStop ho hb (ctxStop_idle h)
    case leaves =>
      obtain rfl : b.ctx = ctx := bankOf_ctx hbank
      refine ⟨fun hhalt => ?_, ?_, ?_⟩
      · exact exec_ctxcmdStop ho hb ((ctxStop_resident h hbank).trans ((atBoundary_now hleave).trans (stopResident_spills hhalt hbank h)))
      · refine exec_ctxcmdEvict ho hb ((ctxEvict_resident h hbank).trans ((atBoundary_now hleave).trans ?_))
        unfold State.spillCommand
        rfl
      · refine exec_ctxcmdPreempt ho hb ((ctxPreempt_resident h hbank).trans ((atBoundary_now hleave).trans ?_))
        unfold State.unbind
        rfl
    case busy =>
      exact ⟨exec_ctxcmdStop ho hb ((ctxStop_resident h hbank).trans (atBoundary_busy hleave)),
        exec_ctxcmdEvict ho hb ((ctxEvict_resident h hbank).trans (atBoundary_busy hleave)),
        exec_ctxcmdPreempt ho hb ((ctxPreempt_resident h hbank).trans (atBoundary_busy hleave))⟩
    case absent => exact ⟨exec_ctxcmdEvict ho hb (ctxEvict_absent h), exec_ctxcmdPreempt ho hb (ctxPreempt_absent h)⟩
    case alarm =>
      refine exec_ctxcmdAlarm ho hb ?_
      unfold State.ctxAlarm
      exact if_neg h
    case known =>
      refine ⟨exec_ctxcmdAttn ho hb ?_, exec_ctxcmdReset ho hb ?_⟩
      · unfold State.ctxAttn
        exact if_neg (not_or.mpr ⟨h, hl⟩)
      · unfold State.ctxReset
        exact if_neg (not_or.mpr ⟨h, hl⟩)
  case groups =>
    intro src wg s ho
    refine ⟨?enable, ?disable, ?clear, fun hmark hfkt => ?_⟩
    case enable =>
      exact (exec_wgcmdEnable src wg s).trans (congrArg (outcome s) (regWrite_wgcmd ho (by decide)))
    case disable =>
      exact (exec_wgcmdDisable src wg s).trans (congrArg (outcome s) (regWrite_wgcmd ho (by decide)))
    case clear =>
      exact (exec_wgcmdClearCounts src wg s).trans (congrArg (outcome s) (regWrite_wgcmd ho (by decide)))
    exact devWrite_zeros_bytes _ _ hmark hfkt

end Sys2Proof.Machine
end

section
/-!
SUPPORT. What the scheduler's events, spills, refills and reissues do (R273, R306 to R311, R316, R325, R326, R340, R430, R605), and the
statements of those rules settled with it.
-/

namespace Sys2Proof.Machine

section SchedulerArms

variable (stove : BitVec 6) (flue : BitVec 2) (ctx : BitVec 20) (env : Env) (s : State)

theorem exec_flueBind : exec (.flueBind stove flue) s = .next (s.after (s.bindFlue stove flue)) := rfl
theorem exec_timeSliceDue : exec (.timeSliceDue stove flue) s = .next (s.after (s.sliceDue stove flue)) := rfl
theorem exec_preemption : exec (.preemption ctx) s = .next (s.after (s.preempt ctx)) := rfl
theorem exec_timerAlarm : exec (.timerAlarm ctx) s = .next (s.after (s.timerAlarm ctx)) := rfl
theorem exec_waitDeadline : exec (.waitDeadline ctx) s = .next (s.after (s.waitDeadline ctx)) := rfl
theorem exec_alarmTaken (micro : Option MicroTrap) :
    exec (.alarmTaken ctx micro env) s = .next (s.after (s.takeAlarm ctx micro env)) := rfl
theorem exec_spill : exec (.spill ctx) s = .next (s.after (s.spillOne ctx)) := rfl
theorem exec_refill : exec (.refill ctx) s = .next (s.after (s.refill ctx)) := rfl
theorem exec_microwordReissue : exec (.microwordReissue stove flue env) s = outcome s (s.reissue stove flue env) := rfl
theorem exec_completionTimeout : exec (.completionTimeout ctx env) s = outcome s (s.completionTimeout ctx env) := rfl

end SchedulerArms

section Scheduler

variable {stove : BitVec 6} {flue : BitVec 2} {ctx : BitVec 20} {env : Env} {s s1 : State} {b : Bank}

/-! ## Binding, slices and preemption (R308 to R311) -/

/-- R308: an empty flue of a stove that runs takes the context chosen. -/
theorem bindFlue_binds (hr : s.stoveRuns stove = true) (ha : s.stoveAsked stove = false) (he : s.boundTo stove flue = none)
    (ho : s.openTiming stove = true → flue = 0) (hb : s.toBind stove = some b) :
    s.bindFlue stove flue = (s.putBank { b with flue := some flue, slice := 0, due := false }).toBound b.ctx := by
  have hshut : s.flueShut stove flue = false := by
    unfold State.flueShut
    cases hopen : s.openTiming stove
    · rfl
    · rw [ho hopen]
      rfl
  unfold State.bindFlue
  rw [hr, ha, he, hshut, hb]
  rfl

/-- R309: a bound context whose slice has retired is due. -/
theorem sliceDue_marks (hb : s.boundTo stove flue = some b) (ht : s.fld (Slot.hrtB (hearthOf stove)) Off.HRTB.SCHEDCTL 0 16 ≠ 0)
    (hs : bitAt (s.sched b.ctx) 3 = true) (hr : s.fld (Slot.hrtB (hearthOf stove)) Off.HRTB.SCHEDCTL 0 16 * 64 ≤ b.slice) :
    s.sliceDue stove flue = s.putBank { b with due := true } := by
  unfold State.sliceDue
  rw [hb]
  exact if_pos ⟨ht, hs, hr⟩

/-- R309 to R311: a bound context at a boundary point that is due and has a rival, or is outranked, leaves its flue. -/
theorem preempt_unbinds (hb : s.bankOf ctx = some b) (hf : b.flue.isSome = true) (hl : s.mayLeave b = true) (hr : s.stoveRuns b.stove = true)
    (h : (b.due = true ∧ s.rival b (fun p => decide (s.prio ctx ≤ p)) = true)
      ∨ (s.flag (Slot.hrtB (hearthOf b.stove)) Off.HRTB.SCHEDCTL 16 = true ∧ (s.ppreVictim b.stove).map (·.ctx) = some ctx)) :
    s.preempt ctx = s.unbind b := by
  have hstays : (b.flue.isNone || !s.mayLeave b || !s.stoveRuns b.stove) = false := by
    rw [hl, hr, ← Option.not_isSome, hf]
    rfl
  have htaken : ((b.due && s.rival b (fun p => decide (s.prio ctx ≤ p))) || (s.flag (Slot.hrtB (hearthOf b.stove)) Off.HRTB.SCHEDCTL 16
      && (s.ppreVictim b.stove).map (·.ctx) == some ctx)) = true := by
    obtain ⟨hdue, hrival⟩ | ⟨hflag, hvictim⟩ := h
    · rw [hdue, hrival]
      rfl
    · rw [hflag, hvictim, beq_self_eq_true]
      exact Bool.or_true _
  unfold State.preempt
  rw [hb]
  dsimp only
  rw [if_neg (Bool.eq_false_iff.mp hstays), if_pos htaken]

/-! ## Timers and alarms (R316, R325, R326, R340) -/

/-- R326: the time of day at ALARM clears it and queues alarm 0x22. -/
theorem timerAlarm_queues (h0 : s.alarm ctx ≠ 0) (ht : s.alarm ctx ≤ s.tod) (hq : s.routerQuiet = false) :
    s.timerAlarm ctx = ((s.devWriteN (s.dirAt ctx + 16) 8 0).queueAlarm ctx 0x22 0 0 0).1 := by
  unfold State.timerAlarm
  refine if_neg ?_
  rintro (h | h | h)
  · exact h0 h
  · exact absurd ht (Nat.not_le.mpr h)
  · exact Bool.noConfusion (hq.symm.trans h)

/-- R316: the deadline of a WAIT makes its context ready. -/
theorem waitDeadline_wakes {m : BitVec 5} {d : Word} (hb : s.bankOf ctx = some b) (hw : b.wait = some (.event m d))
    (hm : bitAt m.toNat 4 = true) (hd : d.toNat ≤ s.tod) : s.waitDeadline ctx = s.wakeBank b := by
  unfold State.waitDeadline
  simp only [hb, hw]
  exact if_pos (by rw [hm, decide_eq_true hd]; rfl)

/-- R340: a pending alarm of a resident context at a boundary point. -/
theorem takeAlarm_boundary {r : Record} (hb : s.bankOf ctx = some b) (hst : s.st ctx = St.resident) (hr : s.stoveRuns b.stove = true)
    (ha : s.alarmOf b = some r) (hm : env.mem = []) (he : env.evicted = []) (hx : env.excess = []) :
    s.takeAlarm ctx none env = s.boundaryAlarm b r := by
  have hcond : ¬(s.st ctx ≠ St.resident ∨ (!s.stoveRuns b.stove) = true) := by
    rw [hr]
    exact fun h => h.elim (fun hne => hne hst) (fun hf => Bool.noConfusion hf)
  unfold State.takeAlarm
  simp only [hb, before_nothing ⟨hm, he, hx⟩]
  rw [if_neg hcond, ha]

/-- R325: the record of an alarm that is taken is cleared. -/
theorem takeRecord_clears {r : Record}
    (hr : fSt b.ctx (s.block b.ctx + 0x900 + 64 * r.slot) 8 (putBits r.hdr 8 1 0) s = .ok () s1) : s.takeRecord b r = (s1, true) := by
  unfold State.takeRecord
  rw [hr]

/-- R327, R340: an alarm taken at a boundary point ends the wait there and enters its handler. -/
theorem boundaryAlarm_enters {r : Record} {cost : Nat} (hbl : s.blockedStores b.ctx = []) (hc : b.boundaryCost = some cost)
    (hr : fSt b.ctx (s.block b.ctx + 0x900 + 64 * r.slot) 8 (putBits r.hdr 8 1 0) s = .ok () s1) :
    s.boundaryAlarm b r = ((match b.leave with
        | some n => (s1.abandon b.ctx).returnLeave (hearthOf b.stove) n
        | none => s1.abandon b.ctx).enter { b with leave := none, wait := none, wdrawn := none } r.exc b.psw (b.imageAt b.psw.ia) b.lis none
          (cost + 8)).readyUnlessBound b.ctx := by
  unfold State.boundaryAlarm
  simp only [hbl, List.isEmpty_nil, if_true, hc, takeRecord_clears hr]
  cases b.leave <;> rfl

/-! ## Spills and refills (R304 to R307, R605) -/

/-- R306: a resident context that may leave its bank is spilled. -/
theorem spillOne_spills (hb : s.bankOf ctx = some b) (hst : s.st ctx = St.resident) (hr : s.stoveRuns b.stove = true)
    (hl : s.mayLeave b = true) (hq : s.routerQuiet = false) : s.spillOne ctx = (s.spillOut b none).1 := by
  unfold State.spillOne
  rw [hb]
  exact if_pos ⟨hst, hr, hl, by rw [hq]; rfl⟩

/-- R306, R605: what is left once the frames of a spill are written. -/
theorem spillOut_stores (hf : spillFrames b ((s.putBank b).drain b.ctx) = .ok true s1) :
    s.spillOut b none = (let x := (s1.bankOf b.ctx).getD b
      let s2 := s1.setCtxState x.ctx (stateWord x.spillSt.1 x.evpend.toNat 0 + x.spillSt.2)
      let s3 := s2.devWriteN (s2.dirAt x.ctx + 8) 8 (putBits (s2.sched x.ctx) 28 36 (x.ttr.toNat / 4096))
      let s4 := (s3.releaseBank x).orderFor x.spillSt.1 x.ctx
      ((s4.incSat (Slot.hrtB (hearthOf x.stove)) Off.HRTB.SPILLS 0 32 1).chargeAway b.ctx b.waitCost, true)) := by
  unfold State.spillOut State.spill
  simp only [hf]

/-- R304, R307: a ready context is loaded into the bank chosen. -/
theorem refill_places {h n : Nat} (hst : s.st ctx = St.ready) (hb : s.bankOf ctx = none) (hq : s.routerQuiet = false)
    (hh : s.chooseHearth ctx = some h) (hs : s.chooseStove h = some n) :
    s.refill ctx = s.refillAt ctx (BitVec.ofNat 6 n) (BitVec.ofNat 5 (s.freeSlot n)) := by
  have hcond : ¬(s.st ctx ≠ St.ready ∨ (s.bankOf ctx).isSome = true ∨ s.routerQuiet = true) := by
    rw [hb, hq]
    rintro (h | h | h)
    · exact h hst
    · exact Bool.noConfusion h
    · exact Bool.noConfusion h
  unfold State.refill
  rw [if_neg hcond]
  simp only [hh, hs]

/-- R307: what is left once the frames of a refill are read. -/
theorem refillAt_loads {slot : BitVec 5} {q : Psw}
    (hf : refillFrames ctx stove slot (bitsOf (s.ctxState ctx) 15 4) s = .ok (.ok (b, false, q)) s1) :
    s.refillAt ctx stove slot = (let s2 := s1.setCtxState ctx (St.resident + stove.toNat * 2 ^ 4 + slot.toNat * 2 ^ 10)
      let s3 : State := { s2 with banks := s2.banks ++ [b], stepping := s2.stepping.filter (· != ctx), fresh := s2.fresh + 1,
                                  charges := SMap.set (fun _ => 0) s2.charges ctx.toNat 0 }
      ((s3.incSat (Slot.hrtB (hearthOf stove)) Off.HRTB.REFILLS 0 32 1).breakLoaded ctx q).haltBreak ctx) := by
  unfold State.refillAt
  simp only [hf]
  exact if_neg Bool.false_ne_true

end Scheduler

/-! ## Microwords (R273, R430) -/

section Microwords

variable {stove : BitVec 6} {flue : BitVec 2} {ctx : BitVec 20} {env : Env} {s t : State} {b : Bank} {x : Withdrawn} {body : Body}
  {w : Word112} {c c1 : Cpu} {n : Nat} {e : Exc}

/-- The body of an opcode is of that opcode. -/
theorem bodyOf_op (op : BitVec 12) (w : Word112) : (bodyOf op w).op = op := by
  have hop (n : Nat) (h : op.toNat = n) : BitVec.ofNat 12 n = op := by rw [← h, BitVec.ofNat_toNat, BitVec.setWidth_eq]
  unfold bodyOf
  split
  case h_74 => rfl
  all_goals
    simp only [apply_ite Body.op, both, same, ite_self]
    exact hop _ ‹_›

/-- R273: a withdrawn microword is reissued once its context holds a flue and its wait has ended. -/
theorem reissue_issues (hx : b.wdrawn = some x) (hb : s.boundTo stove flue = some b) (hr : s.stoveRuns stove = true)
    (hs : s.flueShut stove flue = false) (hw : b.wait = none) :
    s.reissue stove flue env = s.issueBank b (bodyOf x.op x.word) x.word env := by
  unfold State.reissue
  simp only [hb, hr, hs, hw, hx, Bool.not_true, Option.isSome_none, Bool.or_self, Bool.false_eq_true, if_false]

/-- R430: a load that waits for its completion is reissued with the answer that it timed out. -/
theorem completionTimeout_issues (hx : b.wdrawn = some x) (hb : s.bankOf ctx = some b) (hr : s.stoveRuns b.stove = true)
    (ha : s.awaitsCompletion b x = true) : s.completionTimeout ctx env
      = s.issueBank b (bodyOf x.op x.word) x.word { env with wait := none, device := .timeout :: env.device } := by
  unfold State.completionTimeout
  simp only [hb, hx, hr, ha, Bool.not_true, Bool.or_self, Bool.false_eq_true, if_false]

/-- Nothing of the physical world comes in between the parts of a microword (the findings that `Env` holds). -/
def isCalm (env : Env) : Prop := env.wait = none ∧ env.mem = [] ∧ env.evicted = [] ∧ env.excess = [] ∧ env.bare = []

/-- R273: a microword that nothing refires or steps goes on from what it had read. -/
theorem issueBank_plain (hx : b.wdrawn = some x) (hb : s.bankOf b.ctx = some b) (hr : s.stoveRuns b.stove = true)
    (hrf : b.psw.rf = false) (hsaved : b.saved = none) (henv : isCalm env)
    (hf : fetchCheck { Cpu.start s b env.device with replay := x.trace, latch := x.latch.getD s.tod } = .ok () c)
    (hbl : c.s.blockedStores c.b.ctx = []) : s.issueBank b body w env = (match body.fetched w c with
      | .error (.wait x) c => .ok (c.withdraws body.op w x)
      | .error (.fault f) _ => .error f
      | .error (.exc e) c => .ok (c.places.takeException c.ck e (insWord body.op w).toNat)
      | .ok n c => c.settle.s.complete b c.settle n) := by
  obtain ⟨hwait, hmem, hevicted, hexcess, hbare⟩ := henv
  have hid : ∀ r : Except Fault State, r.map (fun t => t) = r := fun r => by cases r <;> rfl
  have hstart : { Cpu.start s b env.device with replay := x.trace, latch := x.latch.getD s.tod, block := none }
      = ({ Cpu.start s b env.device with replay := x.trace, latch := x.latch.getD s.tod } : Cpu) := rfl
  unfold State.issueBank
  simp only [before_nothing ⟨hmem, hevicted, hexcess⟩, hb, hr, if_true, hbare, grantBare_nothing]
  rw [hid]
  unfold State.work
  simp only [hwait, hx, Option.map_some, Option.getD_some, Option.bind_some, Option.filter_none, hstart, hf, hrf, Bool.false_eq_true, if_false]
  unfold State.runPlain
  simp only [hsaved, unlessBlocked_free hbl] <;> rcases body.fetched w c with _ | ⟨_ | _ | _, _⟩ <;> rfl

/-- R273: a microword that goes on and completes. -/
theorem issueBank_completes (hx : b.wdrawn = some x) (hb : s.bankOf b.ctx = some b) (hr : s.stoveRuns b.stove = true)
    (hrf : b.psw.rf = false) (hdbg : b.psw.dbg = false) (hres : b.resume = 0) (hsaved : b.saved = none) (henv : isCalm env)
    (hf : fetchCheck { Cpu.start s b env.device with replay := x.trace, latch := x.latch.getD s.tod } = .ok () c)
    (hbl : c.s.blockedStores c.b.ctx = []) (hrun : body.fetched w c = .ok n c1) (ht : c1.Retires n t) :
    s.issueBank b body w env = .ok t := by
  rw [issueBank_plain hx hb hr hrf hsaved henv hf hbl, hrun]
  exact complete_retires ⟨hrf, hdbg⟩ hres ht

/-- R273: a microword that goes on and raises an exception. -/
theorem issueBank_traps (hx : b.wdrawn = some x) (hb : s.bankOf b.ctx = some b) (hr : s.stoveRuns b.stove = true)
    (hrf : b.psw.rf = false) (hsaved : b.saved = none) (henv : isCalm env)
    (hf : fetchCheck { Cpu.start s b env.device with replay := x.trace, latch := x.latch.getD s.tod } = .ok () c)
    (hbl : c.s.blockedStores c.b.ctx = []) (hrun : body.fetched w c = .error (.exc e) c1) :
    s.issueBank b body w env = .ok (c1.places.takeException c1.ck e (insWord body.op w).toNat) := by
  rw [issueBank_plain hx hb hr hrf hsaved henv hf hbl, hrun]

end Microwords

/-! ## The statements -/

/-- Settles O25. -/
theorem schedulerEvents : Obligations.SchedulerEvents := by
  unfold Obligations.SchedulerEvents
  refine ⟨fun stove flue ctx s b => ⟨?bind, ?slice, ?preempt⟩, fun ctx s s1 b r cost m d env => ⟨?timer, ?deadline, ?alarm⟩⟩
  case bind => exact fun hr ha he ho hb => (exec_flueBind stove flue s).trans (by rw [bindFlue_binds hr ha he ho hb])
  case slice => exact fun hb ht hs hr => (exec_timeSliceDue stove flue s).trans (by rw [sliceDue_marks hb ht hs hr])
  case preempt =>
    intro hb hf hl hr h
    rw [exec_preemption, preempt_unbinds hb hf hl hr h]
    unfold State.unbind
    rfl
  case timer => exact fun h0 ht hq => (exec_timerAlarm ctx s).trans (by rw [timerAlarm_queues h0 ht hq])
  case deadline => exact fun hb hw hm hd => (exec_waitDeadline ctx s).trans (by rw [waitDeadline_wakes hb hw hm hd])
  case alarm =>
    intro hb hst hr ha hm he hx hbl hc hf b1 s2
    have htaken := (takeAlarm_boundary hb hst hr ha hm he hx).trans (boundaryAlarm_enters hbl hc hf)
    exact (exec_alarmTaken ctx env s none).trans (congrArg (fun t : State => Host.Outcome.next (s.after t)) htaken)

/-- Settles O26. -/
theorem spillsAndRefills : Obligations.SpillsAndRefills := by
  unfold Obligations.SpillsAndRefills
  refine fun ctx s s1 b => ⟨fun hb hst hr hl hq hf => ?spill, ?refill⟩
  case spill => rw [exec_spill, spillOne_spills hb hst hr hl hq, spillOut_stores hf]
  case refill =>
    rintro h n stove slot q hst hb hq hh hs rfl rfl hf
    rw [exec_refill, refill_places hst hb hq hh hs, refillAt_loads hf]

/-- Settles O27. -/
theorem microwordsReissue : Obligations.MicrowordsReissue := by
  unfold Obligations.MicrowordsReissue
  intro stove flue env ctx s t b x c c1 n e body start hx hb
  refine ⟨fun hbound hr hs hw => ?reissue, fun hctx hr ha => ?timeout⟩
  case reissue =>
    have hstove := boundTo_stove hbound
    have hissue := reissue_issues (env := env) hx hbound hr hs hw
    refine ⟨fun ht => ?_, fun hrf hdbg hres hsaved hwait hmem hev hex hbare hf hbl hrun ht => ?_⟩
    · rw [exec_microwordReissue, hissue, ht]
      rfl
    · rw [exec_microwordReissue, hissue, issueBank_completes hx hb (by rw [hstove]; exact hr) hrf hdbg hres hsaved
        ⟨hwait, hmem, hev, hex, hbare⟩ hf hbl hrun ht]
      rfl
  case timeout =>
    have hissue := completionTimeout_issues (env := env) hx hctx hr ha
    refine ⟨fun ht => ?_, fun hrf hdbg hres hsaved hmem hev hex hbare hf hbl hrun => ?_⟩
    · rw [exec_completionTimeout, hissue, ht]
      rfl
    · rw [exec_completionTimeout, hissue, issueBank_traps (env := { env with wait := none, device := .timeout :: env.device }) hx hb hr hrf
        hsaved ⟨rfl, hmem, hev, hex, hbare⟩ hf hbl hrun, bodyOf_op]
      rfl

end Sys2Proof.Machine
end

section
/-!
SUPPORT. What drains, write-backs, grants, dumps, quarantines and re-kindles do (R249, R345, R370, R372, R438, R440, R512, R513, R543,
R565), and the statements of those rules settled with it.
-/

namespace Sys2Proof.Machine

/-! ## The fields of a register write -/

/-- A write of an admitted sender sets the fields of its register, and then acts. -/
theorem regWriteWith_fields {s t : State} {src : Src} {slot off v : Nat} {k : PageKind} {x : Outside} (ha : s.admits src = true)
    (hr : s.inRst slot = false) (hk : pageKind slot = some k) (hc : ¬(slot = Slot.man ∧ off = Off.MAN.CLAIM)) (ho : 0x40 ≤ off)
    (hw : writeFields slot off v (((findRow k off).map (·.fields)).getD []) { s := s, late := false, dual := false }
      = .ok { s := t, late := false, dual := false }) :
    s.regWriteWith src slot off v x = .ok (t.actOrPark k slot off v x) := by
  have hctl : ¬off = Off.PAGE.CTL := by
    show ¬off = 8
    omega
  have hhead : ¬off < 0x40 := by omega
  rw [regWriteWith_admits x ha hk hc]
  unfold State.applyWrite
  rw [if_neg hctl]
  simp only [hhead, if_false, hr, Bool.false_eq_true, and_false, hw]

/-- A field of another register reads as before. -/
theorem fld_setFld_other (s : State) (slot off lo w x slot' off' lo' w' : Nat) (h : regKey slot' off' ≠ regKey slot off) :
    (s.setFld slot off lo w x).fld slot' off' lo' w' = s.fld slot' off' lo' w' := by
  unfold State.fld
  rw [State.reg_setFld_ne _ _ _ _ _ _ _ _ h]

/-! ## Drains and write-backs (R438, R440) -/

section Lines

variable {ctx : BitVec 20} {line : BitVec 42} {found : WriteBack} {s : State} {x : BufStore} {m : ModLine}

theorem exec_storeBufferDrain (ctx : BitVec 20) (s : State) : exec (.storeBufferDrain ctx) s = .next (s.after (s.drainOldest ctx)) := rfl
theorem exec_lineWriteBack (line : BitVec 42) (found : WriteBack) (s : State) :
    exec (.lineWriteBack line found) s = .next (s.after (s.writeBackLine line.toNat found)) := rfl

/-- R438: the oldest store, into a line that no other set holds, is written into it. -/
theorem drainOldest_drains (hx : s.stores.find? (·.ctx == ctx) = some x)
    (hfree : (linesTouched x.addr x.bytes.length).any (s.heldByOther ctx) = false) :
    s.drainOldest ctx = ({ s with stores := s.stores.erase x } : State).drainOne x := by
  unfold State.drainOldest
  rw [hx]
  exact if_neg (by rw [hfree]; decide)

/-- R438: a store written into its line reads back. -/
theorem drainOne_bytes (s : State) (x : BufStore) : (s.drainOne x).bytes x.addr x.bytes.length = x.bytes := by
  have hread := State.bytes_poke s x.addr x.bytes
  unfold State.bytes at hread ⊢
  rw [(drainOne_frame s x).2.2]
  exact hread

/-- R438: a byte outside a store reads as before. -/
theorem drainOne_byte_ne (s : State) (x : BufStore) {a : Nat} (h : a < x.addr ∨ x.addr + x.bytes.length ≤ a) :
    (s.drainOne x).byte a = s.byte a := by
  have hread := State.byte_poke_ne s x.addr x.bytes h
  unfold State.byte at hread ⊢
  rw [(drainOne_frame s x).2.2]
  exact hread

/-- R439: the line of a store written is the one last modified. -/
theorem drainOne_dirty (s : State) (x : BufStore) :
    (s.drainOne x).dirty.head?.map (fun d => (d.line, d.stove, d.ctx, d.addr)) = some (lineOf x.addr, x.stove, x.ctx, x.addr) := by
  unfold State.drainOne
  obtain ⟨-, -, -, -, hdirty⟩ := noteRings_frame
    (((s.poke x.addr x.bytes).coverStore x.stove x.addr x.bytes.length).noteModified x (s.beneath (lineOf x.addr))) x.addr x.bytes.length
  rw [hdirty]
  unfold State.noteModified
  rfl

/-- R440: a modified line that may be written back is. -/
theorem writeBackLine_writes {l : Nat} (hm : s.dirty.find? (·.line == l) = some m) (hheld : s.lineHeld (l * 64) 1 = false)
    (hnear : s.nearStops (l * 64) 64 = false) : s.writeBackLine l found = s.writeBack m found := by
  unfold State.writeBackLine
  rw [hm]
  exact if_neg (by rw [hheld, hnear]; decide)

end Lines

/-! ## Grants (R249, R543) -/

section Grants

variable {ctx : BitVec 20} {s : State} {r : Resv} {l : Nat} {rest : List Nat} {b : Bank} {i : BitVec 4} {k : Bucket} {q : LeaveReq}
  {qs : List LeaveReq}

/-- R249: the state in which the next line of a set is granted. -/
def State.lineGranted (s : State) (ctx : BitVec 20) (l : Nat) (rest : List Nat) : State :=
  { s with resv := s.resv.map (fun (x : Resv) => if x.ctx == ctx then { x with want := rest, held := x.held ++ [l] } else x) }

theorem exec_lineReservationGrant (ctx : BitVec 20) (s : State) :
    exec (.lineReservationGrant ctx) s = .next (s.after (s.grantLine ctx)) := rfl
theorem exec_damperLeaveGrant (i : BitVec 4) (s : State) : exec (.damperLeaveGrant i) s = .next (s.after (s.damperGrant i.toNat)) := rfl

/-- R249: a line that is not the last of its set is granted, and its context waits on. -/
theorem grantLine_more (hr : s.resv.find? (·.ctx == ctx) = some r) (hw : r.want = l :: rest) (hfree : s.heldByOther ctx l = false)
    (hrest : rest ≠ []) : s.grantLine ctx = s.lineGranted ctx l rest := by
  obtain ⟨next, more, rfl⟩ := List.exists_cons_of_ne_nil hrest
  unfold State.grantLine
  simp only [hr, hw, hfree]
  rfl

/-- R249: the last line of a set wakes its context. -/
theorem grantLine_last (hr : s.resv.find? (·.ctx == ctx) = some r) (hw : r.want = [l]) (hfree : s.heldByOther ctx l = false)
    (hb : s.bankOf ctx = some b) (hwait : b.wait = some .reserved) : s.grantLine ctx = (s.lineGranted ctx l []).wakeBank b := by
  have hbank : (s.lineGranted ctx l []).bankOf ctx = some b := hb
  unfold State.lineGranted at hbank ⊢
  unfold State.grantLine
  simp only [hr, hw, hfree, hbank]
  exact if_pos hwait

/-- R543: the head of a damper queue has its leave when the bucket allows. -/
theorem damperGrant_grants {n : Nat} (hk : s.damper[n]? = some k) (hq : k.queue = q :: qs) (hg : s.mantel.granting = true)
    (hlevel : (q.cost : Int) ≤ k.level ∨ (k.cap < q.cost ∧ (k.cap : Int) ≤ k.level)) :
    s.damperGrant n
      = ({ s with damper := s.damper.setIfInBounds n { k with level := k.level - q.cost, queue := qs } } : State).leaveGranted q := by
  have hallows : k.allows q.cost = true := by
    unfold Bucket.allows
    simpa only [Bool.or_eq_true, Bool.and_eq_true, decide_eq_true_eq] using hlevel
  unfold State.damperGrant
  simp only [hk, hq, hg, hallows]
  rfl

end Grants

/-- Settles O28. -/
theorem storesAndGrants : Obligations.StoresAndGrants := by
  unfold Obligations.StoresAndGrants
  refine ⟨fun ctx line found s x m => ⟨fun hx hfree => ?drain, fun hm hheld hnear => ?back⟩,
    fun ctx s r l rest b i k q qs => ⟨fun hr hw hfree => ⟨fun hrest => ?more, ?last⟩, fun hk hq hg hlevel => ?leave⟩⟩
  case drain =>
    refine ⟨?_, ?_, drainOne_bytes _ x, fun a ha => ?_, drainOne_dirty _ x⟩
    · rw [exec_storeBufferDrain, drainOldest_drains hx hfree]
    · rw [drainOne_stores]
    · exact drainOne_byte_ne _ x ha
  case back => rw [exec_lineWriteBack, writeBackLine_writes hm hheld hnear]
  case more =>
    rw [exec_lineReservationGrant, grantLine_more hr hw hfree hrest]
    rfl
  case last =>
    rintro rfl hb hwait
    rw [exec_lineReservationGrant, grantLine_last hr hw hfree hb hwait]
    rfl
  case leave => rw [exec_damperLeaveGrant, damperGrant_grants hk hq hg hlevel]

/-! ## The care of stoves (R345, R372, R512) -/

section Stoves

variable {src : Src} {stove : BitVec 6} {s : State}

theorem exec_manDumpcmd (src : Src) (stove : BitVec 6) (s : State) :
    exec (.manDumpcmd src stove) s = outcome s (s.regWrite src Slot.man Off.MAN.DUMPCMD (stove.toNat + 2 ^ 8)) := rfl
theorem exec_rfcmdQuar (src : Src) (stove : BitVec 6) (s : State) :
    exec (.rfcmdQuar src stove) s = outcome s (s.regWrite src (Slot.stv stove.toNat) Off.STV.RFCMD 1) := rfl
theorem exec_emberParityError (stove : BitVec 6) (upc : BitVec 14) (reload : Reload) (s : State) :
    exec (.emberParityError stove upc reload) s
      = .next (s.after (if s.stoveRuns stove then s.parityError { stove := stove, upc := upc, reload := reload } else s)) := rfl
theorem exec_rekcmd (src : Src) (stove : BitVec 6) (reload : Reload) (s : State) :
    exec (.rekcmd src stove reload) s
      = outcome s (s.regWriteWith src Slot.emb Off.EMB.REKCMD (stove.toNat + 2 ^ 8) { reload := reload }) := rfl

/-- The GO bit of a command that names a stove, a channel or a vector. -/
theorem bitAt_go (stove : BitVec 6) : bitAt (stove.toNat + 2 ^ 8) 8 = true := by
  have hlt := stove.isLt
  unfold bitAt
  simp only [beq_iff_eq]
  omega

/-- The number below the GO bit. -/
theorem ofNat_go (stove : BitVec 6) : BitVec.ofNat 6 (stove.toNat + 2 ^ 8) = stove := by
  have hbelow := ofNat_below (lo := 8) stove 1 (by decide)
  rwa [Nat.one_mul] at hbelow

/-- R565: the action of DUMPCMD. -/
theorem act_dumpcmd (s : State) (stove : BitVec 6) (x : Outside) :
    s.act Slot.man Off.MAN.DUMPCMD (stove.toNat + 2 ^ 8) x = s.dumpRegister stove := by
  unfold State.act
  rw [show pageKind Slot.man = some PageKind.man from rfl]
  refine (if_pos ⟨rfl, bitAt_go stove⟩).trans ?_
  rw [ofNat_go]

/-- R565: a dump of a stove is obeyed. -/
theorem exec_manDumpcmd_does (ht : s.takesWrite src Slot.man) :
    exec (.manDumpcmd src stove) s = .next (s.after (s.dumpRegister stove)) := by
  have hwrite := commandRegister_dumpcmd.performed (v := stove.toNat + 2 ^ 8) (x := {}) ht (cmdBusy_none (by decide)) rfl
  rw [act_dumpcmd] at hwrite
  exact (exec_manDumpcmd src stove s).trans (congrArg (outcome s) hwrite)

/-- R565: a dump is made of a locked stove alone. -/
theorem dumpRegister_eq (s : State) (stove : BitVec 6) :
    s.dumpRegister stove = if s.flag (Slot.stv stove.toNat) Off.STV.STATUS 0 = true
      then (s.dump stove).setFlag Slot.man Off.MAN.DUMPCMD 33 false else s.setFlag Slot.man Off.MAN.DUMPCMD 33 true := by
  unfold State.dumpRegister State.dumpCommand
  by_cases h : s.flag (Slot.stv stove.toNat) Off.STV.STATUS 0 = true
  · rw [if_pos h, if_pos h]
  · rw [if_neg h, if_neg h]

/-- The pages of the stoves. -/
theorem pageKind_stv (stove : BitVec 6) : pageKind (Slot.stv stove.toNat) = some .stv := by
  have hlt := stove.isLt
  unfold pageKind
  exact if_pos (by simp only [Slot.stv]; omega)

/-- The stove of a page. -/
theorem stove_of_page (stove : BitVec 6) : BitVec.ofNat 6 (Slot.stv stove.toNat - 0x40) = stove := by
  show BitVec.ofNat 6 (0x40 + stove.toNat - 0x40) = stove
  rw [Nat.add_sub_cancel_left, BitVec.ofNat_toNat, BitVec.setWidth_eq]

/-- R372: RFCMD sets its bit. -/
theorem writeFields_rfcmd (s : State) (stove : BitVec 6) :
    writeFields (Slot.stv stove.toNat) Off.STV.RFCMD 1 (((findRow .stv Off.STV.RFCMD).map (·.fields)).getD [])
        { s := s, late := false, dual := false }
      = .ok { s := s.setFld (Slot.stv stove.toNat) Off.STV.RFCMD 0 1 1, late := false, dual := false } := by
  have hset : s.setW1s (Slot.stv stove.toNat) Off.STV.RFCMD ⟨"QUAR", 0, 0, .l, .w1s, 0⟩
      = s.setFld (Slot.stv stove.toNat) Off.STV.RFCMD 0 1 1 := by
    unfold State.setW1s
    rw [if_neg (by rw [pageKind_stv]; decide)]
    rfl
  rw [show ((findRow .stv Off.STV.RFCMD).map (·.fields)).getD [] = [⟨"QUAR", 0, 0, .l, .w1s, 0⟩] from by decide, ← hset]
  rfl

/-- R372: QUAR quarantines a healthy stove. -/
theorem exec_rfcmdQuar_does (ht : s.takesWrite src (Slot.stv stove.toNat)) :
    exec (.rfcmdQuar src stove) s
      = .next (s.after ((s.setFld (Slot.stv stove.toNat) Off.STV.RFCMD 0 1 1).quarCommand stove)) := by
  obtain ⟨ha, hr⟩ := ht
  have hact (t : State) : t.actOrPark .stv (Slot.stv stove.toNat) Off.STV.RFCMD 1 {} = t.quarCommand stove := by
    have hbusy : busyBit (Slot.stv stove.toNat) Off.STV.RFCMD = none := by
      unfold busyBit
      simp only [Slot.stv, Slot.grt, Slot.chm1, Slot.bel, Slot.dbg]
      rw [if_neg (by omega), if_neg (by omega), if_neg (by omega), if_neg (by omega)]
    rw [actOrPark_acts (cmdBusy_none hbusy) rfl]
    unfold State.act
    rw [pageKind_stv]
    refine (if_pos ⟨rfl, by decide⟩).trans ?_
    rw [stove_of_page]
  have hwrite := regWriteWith_fields (x := {}) ha hr (pageKind_stv stove) (by simp only [Slot.stv, Slot.man]; omega) (by decide)
    (writeFields_rfcmd s stove)
  rw [hact] at hwrite
  exact (exec_rfcmdQuar src stove s).trans (congrArg (outcome s) hwrite)

/-- R512: the state of a stove whose microword failed, its work discarded. -/
def State.parityStopped (s : State) (stove : BitVec 6) (upc : Nat) : State :=
  let page := Slot.stv stove.toNat
  let t := (s.incSat page Off.STV.EMBPAR 0 16 1).setFld page Off.STV.EMBPAR 16 14 upc
  (t.banks.filter (·.stove == stove)).foldl State.discardWork t

/-- R513: a stove is re-kindled at once when EMB operates and no other waits. -/
theorem parityError_rekindles {r : Rekindle} (hon : (s.parityStopped r.stove r.upc.toNat).blockOn Slot.emb = true)
    (hnone : (s.parityStopped r.stove r.upc.toNat).rekindles = []) :
    s.parityError r = (s.parityStopped r.stove r.upc.toNat).rekindle r := by
  unfold State.parityStopped at hon hnone ⊢
  unfold State.parityError
  exact if_pos (by rw [hon, hnone]; rfl)

/-- R512: REKCMD is a parity error of its stove. -/
theorem exec_rekcmd_does {reload : Reload} (ht : s.takesWrite src Slot.emb) :
    exec (.rekcmd src stove reload) s = .next (s.after (s.parityError { stove := stove, upc := 0, reload := reload })) := by
  have hwrite := commandRegister_rekcmd.performed (v := stove.toNat + 2 ^ 8) (x := { reload := reload }) ht (cmdBusy_none (by decide)) rfl
  have hact : s.act Slot.emb Off.EMB.REKCMD (stove.toNat + 2 ^ 8) { reload := reload }
      = s.parityError { stove := stove, upc := 0, reload := reload } := by
    unfold State.act
    rw [show pageKind Slot.emb = some PageKind.emb from rfl]
    refine (if_pos ⟨rfl, bitAt_go stove⟩).trans ?_
    rw [ofNat_go]
  rw [hact] at hwrite
  exact (exec_rekcmd src stove reload s).trans (congrArg (outcome s) hwrite)

end Stoves

/-- Settles O29. -/
theorem stoveCare : Obligations.StoveCare := by
  unfold Obligations.StoveCare
  intro src stove upc reload s
  refine ⟨fun ht => ⟨fun hl => ?locked, fun hl => ?refused⟩, fun ht hf => ?quarantine, fun hr hon hnone => ?parity,
    fun ht hon hnone => ?rekcmd⟩
  case locked => rw [exec_manDumpcmd_does ht, dumpRegister_eq, if_pos hl]
  case refused => rw [exec_manDumpcmd_does ht, dumpRegister_eq, if_neg (by rw [hl]; decide)]
  case quarantine =>
    have hhealthy : ¬(s.setFld (Slot.stv stove.toNat) Off.STV.RFCMD 0 1 1).fld (Slot.stv stove.toNat) Off.STV.STATUS 0 2 ≠ 0 := by
      rw [fld_setFld_other _ _ _ _ _ _ _ _ _ _ (regKey_ne (by decide) (by decide) (Or.inr (by decide)))]
      exact not_not_intro hf
    rw [exec_rfcmdQuar_does ht]
    unfold State.quarCommand
    rw [if_neg hhealthy]
  case parity =>
    rw [exec_emberParityError, if_pos hr]
    exact congrArg (fun t => Host.Outcome.next (s.after t)) (parityError_rekindles (r := { stove := stove, upc := upc, reload := reload }) hon hnone)
  case rekcmd =>
    rw [exec_rekcmd_does ht]
    exact congrArg (fun t => Host.Outcome.next (s.after t)) (parityError_rekindles (r := { stove := stove, upc := 0, reload := reload }) hon hnone)

end Sys2Proof.Machine
end

section
/-!
SUPPORT. What the quiesce handshake, register accesses, WBINV and FKTEN do (R34, R39, R45, R50, R52 to R55, R390, R440, R531), and the
statements of those rules settled with it.
-/

namespace Sys2Proof.Machine

/-! ## The quiesce handshake (R52 to R55) -/

section Quiesce

variable {src : Src} {slot : BitVec 8} {n : Nat} {s : State}

theorem exec_quiesceRequest (src : Src) (slot : BitVec 8) (s : State) : exec (.quiesceRequest src slot) s
    = outcome s (s.regWrite src slot.toNat Off.PAGE.CTL (bitsOf (s.withQ slot.toNat Off.PAGE.CTL) 0 1 + 2)) := rfl
theorem exec_quiesceRelease (src : Src) (slot : BitVec 8) (s : State) : exec (.quiesceRelease src slot) s
    = outcome s (s.regWrite src slot.toNat Off.PAGE.CTL (bitsOf (s.withQ slot.toNat Off.PAGE.CTL) 0 1)) := rfl
theorem exec_quiesceAck (slot : BitVec 8) (s : State) : exec (.quiesceAck slot) s = .next (s.after (s.quiesceAck slot.toNat)) := rfl
theorem exec_quiesceTimeout (slot : BitVec 8) (s : State) :
    exec (.quiesceTimeout slot) s = .next (s.after (s.quiesceTimeout slot.toNat)) := rfl

/-- A page with a quiesce control has a kind. -/
theorem quiesces_page (h : quiescesSlot n = true) : ∃ k, pageKind n = some k := by
  unfold quiescesSlot at h
  cases hk : pageKind n with
  | none =>
    rw [hk] at h
    exact Bool.noConfusion h
  | some k => exact ⟨k, rfl⟩

/-- A write of PAGE_CTL by an admitted sender. -/
theorem regWrite_ctl {v : Nat} (h : quiescesSlot n = true) (ha : s.admits src = true) : s.regWrite src n Off.PAGE.CTL v = s.writeCtl n v := by
  obtain ⟨k, hk⟩ := quiesces_page h
  unfold State.regWrite
  rw [regWriteWith_admits {} ha hk (by rintro ⟨-, h⟩; exact absurd h (by decide))]
  unfold State.applyWrite
  exact if_pos rfl

/-- A write of PAGE_CTL that leaves EN as it reads. -/
theorem writeCtl_keepsEn {v : Nat} (h : quiescesSlot n = true) (hen : bitsOf v 0 1 = bitsOf (s.withQ n Off.PAGE.CTL) 0 1) :
    s.writeCtl n v = if bitAt v 1 then .ok (s.quiesceRequest n) else if s.qreq n then .ok (s.quiesceRelease n) else .ok s := by
  have hfield : State.writeField { s := s, late := false, dual := false } n Off.PAGE.CTL v ⟨"EN", 0, 0, .q, .rw, 0⟩
      = .ok { s := s, late := false, dual := false } := by
    unfold State.writeField
    exact if_pos hen
  unfold State.writeCtl
  rw [h, hfield]
  rfl

/-- R52: a quiesce request sets QREQ. -/
theorem exec_quiesceRequest_sets (h : quiescesSlot slot.toNat = true) (ha : s.admits src = true) :
    exec (.quiesceRequest src slot) s = .next (s.after (s.setFlag slot.toNat Off.PAGE.CTL 1 true)) := by
  have hlt := bitsOf_lt (s.withQ slot.toNat Off.PAGE.CTL) 0 1
  have hen : bitsOf (bitsOf (s.withQ slot.toNat Off.PAGE.CTL) 0 1 + 2) 0 1 = bitsOf (s.withQ slot.toNat Off.PAGE.CTL) 0 1 := by
    generalize bitsOf (s.withQ slot.toNat Off.PAGE.CTL) 0 1 = e at hlt ⊢
    unfold bitsOf
    omega
  have hreq : bitAt (bitsOf (s.withQ slot.toNat Off.PAGE.CTL) 0 1 + 2) 1 = true := by
    generalize bitsOf (s.withQ slot.toNat Off.PAGE.CTL) 0 1 = e at hlt ⊢
    unfold bitAt
    simp only [beq_iff_eq]
    omega
  have hsets : s.quiesceRequest slot.toNat = s.setFlag slot.toNat Off.PAGE.CTL 1 true := by
    unfold State.quiesceRequest
    exact if_pos h
  rw [exec_quiesceRequest, regWrite_ctl h ha, writeCtl_keepsEn h hen, if_pos hreq, hsets]
  rfl

/-- R52: a release of a page that is asked to be Quiesced. -/
theorem exec_quiesceRelease_does (h : quiescesSlot slot.toNat = true) (ha : s.admits src = true) (hq : s.qreq slot.toNat = true) :
    exec (.quiesceRelease src slot) s = .next (s.after (s.quiesceRelease slot.toNat)) := by
  have hlt := bitsOf_lt (s.withQ slot.toNat Off.PAGE.CTL) 0 1
  have hen : bitsOf (bitsOf (s.withQ slot.toNat Off.PAGE.CTL) 0 1) 0 1 = bitsOf (s.withQ slot.toNat Off.PAGE.CTL) 0 1 := by
    generalize bitsOf (s.withQ slot.toNat Off.PAGE.CTL) 0 1 = e at hlt ⊢
    unfold bitsOf
    omega
  have hreq : ¬bitAt (bitsOf (s.withQ slot.toNat Off.PAGE.CTL) 0 1) 1 = true := by
    generalize bitsOf (s.withQ slot.toNat Off.PAGE.CTL) 0 1 = e at hlt ⊢
    unfold bitAt
    simp only [beq_iff_eq]
    omega
  rw [exec_quiesceRelease, regWrite_ctl h ha, writeCtl_keepsEn h hen, if_neg hreq, if_pos hq]
  rfl

/-- R52: a release before the acknowledgement withdraws the request. -/
theorem quiesceRelease_withdraws (h : quiescesSlot n = true) (hack : s.flag n Off.PAGE.STS 0 = false) :
    s.quiesceRelease n = s.setFlag n Off.PAGE.CTL 1 false := by
  unfold State.quiesceRelease
  rw [h, hack]
  rfl

/-- R53: what a page does as its Q fields take effect, by its kind. -/
def State.goesOnBy (was s : State) (slot : Nat) : State :=
  match pageKind slot with
  | some .fxp => State.modeChanged was s slot
  | some .emb => s.runRekindles
  | some .hrtA => State.hearthGoesOn was s slot
  | _ => s

/-- R53: mirroring goes on when CHM1 operates again. -/
def State.mirrorsOn (s t : State) : State := if s.blockOn Slot.chm1 = false ∧ t.blockOn Slot.chm1 = true then t.mirrorResume else t

/-- R53: a release after the acknowledgement lets the block go on. -/
theorem quiesceRelease_goesOn (h : quiescesSlot n = true) (hack : s.flag n Off.PAGE.STS 0 = true) (hrst : s.flag n Off.PAGE.STS 4 = false)
    {s0 : State} (hs0 : s0 = (s.setFlag n Off.PAGE.CTL 1 false).setFlag n Off.PAGE.STS 0 false) :
    s.quiesceRelease n = s.mirrorsOn (State.goesOnBy s0 (s0.mergeQ (s0.releases n)) n) := by
  have hreset : (s.setFlag n Off.PAGE.CTL 1 false).flag n Off.PAGE.STS 4 = false := by
    unfold State.flag at hrst ⊢
    unfold State.setFlag
    rw [State.reg_setFld_ne _ _ _ _ _ _ _ _ (regKey_ne (by decide) (by decide) (Or.inr (by decide)))]
    exact hrst
  unfold State.quiesceRelease
  simp only [h, hack, hreset, Bool.not_true, Bool.or_self, Bool.false_eq_true, if_false, ← hs0]
  unfold State.mirrorsOn
  have hcond : ∀ t : State, ((!s.blockOn Slot.chm1 && t.blockOn Slot.chm1) = true)
      ↔ (s.blockOn Slot.chm1 = false ∧ t.blockOn Slot.chm1 = true) := by
    intro t
    rw [Bool.and_eq_true, Bool.not_eq_true']
  unfold State.goesOnBy
  exact ite_congr (propext (hcond _)) (fun _ => rfl) (fun _ => rfl)

end Quiesce

/-- Settles O30. -/
theorem quiesceHandshake : Obligations.QuiesceHandshake := by
  unfold Obligations.QuiesceHandshake
  intro src slot s n s0 s1 goesOn hq
  refine ⟨fun ha => exec_quiesceRequest_sets hq ha, fun hreq => ⟨?ack, fun hack => ⟨?timeout, fun ha => ?withdraw⟩,
    fun ha hack hrst => ?release⟩⟩
  case ack =>
    rw [exec_quiesceAck]
    unfold State.quiesceAck
    rw [if_pos (by rw [hq, hreq]; rfl)]
  case timeout =>
    rw [exec_quiesceTimeout]
    unfold State.quiesceTimeout
    rw [if_pos (by rw [hq, hreq, hack]; rfl)]
  case withdraw => rw [exec_quiesceRelease_does hq ha hreq, quiesceRelease_withdraws hq hack]
  case release =>
    have hgoes (t : State) (ht : State.goesOnBy s0 s1 n = t) : exec (.quiesceRelease src slot) s = .next (s.after (goesOn t)) := by
      rw [exec_quiesceRelease_does hq ha hreq, quiesceRelease_goesOn hq hack hrst (s0 := s0) rfl]
      exact congrArg (fun x => Host.Outcome.next (s.after (s.mirrorsOn x))) ht
    unfold State.goesOnBy at hgoes
    refine ⟨fun hk => hgoes _ (by rw [hk]), fun hk => hgoes _ (by rw [hk]), fun hk => hgoes _ (by rw [hk]), fun hk => hgoes _ ?_⟩
    simp only [List.mem_cons, List.not_mem_nil, or_false] at hk
    obtain hk | hk | hk | hk | hk | hk | hk := hk <;> rw [hk]

/-! ## Register accesses (R34, R45, R50, R531) -/

section Accesses

variable {src : Src} {addr : BitVec 20} {v : Word} {s : State}

theorem exec_registerWrite (src : Src) (addr : BitVec 20) (v : Word) (s : State) : exec (.registerWrite src addr v) s
    = if addr.toNat % 8 = 0 then outcome s (s.regWrite src (addr.toNat / 4096) (addr.toNat % 4096) v.toNat)
      else .fault .registerAccess := rfl
theorem exec_rcRead (addr : BitVec 20) (s : State) :
    exec (.rcRead addr) s = if addr.toNat % 8 = 0 then .next (s.after (s.contextLoad addr)) else .fault .registerAccess := rfl

/-- An aligned register write. -/
theorem exec_registerWrite_does {t : State} (hal : addr.toNat % 8 = 0)
    (hw : s.regWrite src (addr.toNat / 4096) (addr.toNat % 4096) v.toNat = .ok t) :
    exec (.registerWrite src addr v) s = .next (s.after t) := by
  rw [exec_registerWrite, if_pos hal, hw]
  rfl

/-- R34: a write to a slot without a page has no effect. -/
theorem regWrite_noPage {n o w : Nat} (hk : pageKind n = none) : s.regWrite src n o w = .ok s := by
  unfold State.regWrite State.regWriteWith
  rw [hk]

/-- R531: a write by the core that does not hold mastership is refused. -/
theorem regWrite_refused {n o w : Nat} (hk : pageKind n ≠ none) (hr : s.reachesRegs src = true) (hc : coreOf src ≠ 0)
    (hh : s.holder ≠ coreOf src) (hclaim : ¬(n = Slot.man ∧ o = Off.MAN.CLAIM)) :
    s.regWrite src n o w = .ok (s.refuseWrite (coreOf src) n o) := by
  obtain ⟨k, hk⟩ := Option.ne_none_iff_exists'.mp hk
  unfold State.regWrite State.regWriteWith
  rw [hk]
  simp only [hr, Bool.not_true, Bool.false_eq_true, if_false]
  rw [if_neg hclaim, if_pos ⟨hc, hh⟩]

/-- R39: SCRATCH takes what is written. -/
theorem regWrite_scratch {n : Nat} (hk : pageKind n ≠ none) (ha : s.admits src = true) :
    s.regWrite src n Off.PAGE.SCRATCH v.toNat = .ok (s.setFld n Off.PAGE.SCRATCH 0 64 v.toNat) := by
  obtain ⟨k, hk⟩ := Option.ne_none_iff_exists'.mp hk
  have hword : bitsOf v.toNat 0 64 = v.toNat := by
    have hlt := v.isLt
    unfold bitsOf
    omega
  have hfields : writeFields n Off.PAGE.SCRATCH v.toNat (headerFields Off.PAGE.SCRATCH) { s := s, late := false, dual := false }
      = .ok { s := s.setFld n Off.PAGE.SCRATCH 0 64 v.toNat, late := false, dual := false } := by
    conv => rhs; rw [← hword]
    rfl
  unfold State.regWrite
  rw [regWriteWith_admits {} ha hk (by rintro ⟨-, h⟩; exact absurd h (by decide))]
  unfold State.applyWrite
  rw [if_neg (by decide)]
  simp only [show ((Off.PAGE.SCRATCH : Nat) < 0x40) = True from by decide, if_true]
  rw [if_neg (by rintro ⟨h, -⟩; exact absurd h (by decide)), hfields]
  rfl

end Accesses

/-! ## WBINV and FKTEN (R390, R440) -/

section Caches

variable {src : Src} {hearth : BitVec 3} {found : List (BitVec 42 × WriteBack)} {on : Bool} {s : State}

theorem exec_cachectlWbinv (src : Src) (hearth : BitVec 3) (found : List (BitVec 42 × WriteBack)) (s : State) :
    exec (.cachectlWbinv src ⟨hearth, found⟩) s
      = outcome s (s.regWriteWith src (Slot.hrtA hearth.toNat) Off.HRTA.CACHECTL 1 { found := found }) := rfl
theorem exec_fktenChange (src : Src) (on : Bool) (s : State) : exec (.fktenChange src on) s
    = outcome s (s.regWrite src Slot.key Off.KEY.KEYCTL (putBits (s.withQ Slot.key Off.KEY.KEYCTL) 1 1 (b2n on))) := rfl

/-- The pages of the hearths. -/
theorem pageKind_hrtA (hearth : BitVec 3) : pageKind (Slot.hrtA hearth.toNat) = some .hrtA := by
  have hlt := hearth.isLt
  unfold pageKind
  rw [if_neg (by simp only [Slot.hrtA]; omega), if_pos (by simp only [Slot.hrtA]; omega), if_pos (by simp only [Slot.hrtA]; omega)]

/-- The fields of CACHECTL. -/
theorem fields_cachectl : ((findRow .hrtA Off.HRTA.CACHECTL).map (·.fields)).getD [] = [⟨"WBINV", 0, 0, .q, .w1s, 0⟩] := by decide

/-- R440: the field WBINV of a Quiesced hearth reads 0. -/
theorem writeFields_wbinv (hq : s.quiesced (Slot.hrtA hearth.toNat) = true) :
    writeFields (Slot.hrtA hearth.toNat) Off.HRTA.CACHECTL 1 [⟨"WBINV", 0, 0, .q, .w1s, 0⟩] { s := s, late := false, dual := false }
      = .ok { s := s, late := false, dual := false } := by
  have hset : s.setW1s (Slot.hrtA hearth.toNat) Off.HRTA.CACHECTL ⟨"WBINV", 0, 0, .q, .w1s, 0⟩ = s := by
    unfold State.setW1s
    exact if_pos ⟨rfl, pageKind_hrtA hearth⟩
  have hfield : State.writeField { s := s, late := false, dual := false } (Slot.hrtA hearth.toNat) Off.HRTA.CACHECTL 1
      ⟨"WBINV", 0, 0, .q, .w1s, 0⟩ = .ok { s := s, late := false, dual := false } := by
    unfold State.writeField
    refine (if_neg (by decide)).trans ((if_neg (by rw [hq]; decide)).trans ?_)
    exact congrArg (fun t => Except.ok ({ s := t, late := false, dual := false } : FieldsOut)) hset
  unfold writeFields
  rw [hfield]
  rfl

/-- R52: the field WBINV of a hearth that is not Quiesced faults. -/
theorem writeFields_wbinv_fault (hq : s.quiesced (Slot.hrtA hearth.toNat) = false) :
    writeFields (Slot.hrtA hearth.toNat) Off.HRTA.CACHECTL 1 [⟨"WBINV", 0, 0, .q, .w1s, 0⟩] { s := s, late := false, dual := false }
      = .error .quiesceField := by
  have hfield : State.writeField { s := s, late := false, dual := false } (Slot.hrtA hearth.toNat) Off.HRTA.CACHECTL 1
      ⟨"WBINV", 0, 0, .q, .w1s, 0⟩ = .error .quiesceField := by
    unfold State.writeField
    exact (if_neg (by decide)).trans (if_pos (by rw [hq]; decide))
  unfold writeFields
  rw [hfield]

/-- R440: WBINV of a Quiesced hearth. -/
theorem exec_cachectlWbinv_does (ht : s.takesWrite src (Slot.hrtA hearth.toNat)) (hq : s.quiesced (Slot.hrtA hearth.toNat) = true) :
    exec (.cachectlWbinv src ⟨hearth, found⟩) s = .next (s.after (s.wbinv hearth.toNat found)) := by
  obtain ⟨ha, hr⟩ := ht
  have hlt := hearth.isLt
  have hbusy : busyBit (Slot.hrtA hearth.toNat) Off.HRTA.CACHECTL = none := by
    unfold busyBit
    simp only [Slot.hrtA, Slot.grt, Slot.chm1, Slot.bel, Slot.dbg]
    rw [if_neg (by omega), if_neg (by omega), if_neg (by omega), if_neg (by omega)]
  have hact : s.actOrPark .hrtA (Slot.hrtA hearth.toNat) Off.HRTA.CACHECTL 1 { found := found } = s.wbinv hearth.toNat found := by
    rw [actOrPark_acts (cmdBusy_none hbusy) rfl]
    unfold State.act
    rw [pageKind_hrtA]
    refine (if_pos ⟨rfl, by decide⟩).trans ?_
    rw [show (Slot.hrtA hearth.toNat - 0x20) / 2 = hearth.toNat from by simp only [Slot.hrtA]; omega]
  have hwrite := regWriteWith_fields (off := Off.HRTA.CACHECTL) (x := { found := found }) ha hr (pageKind_hrtA hearth) (by simp only [Slot.hrtA, Slot.man]; omega)
    (by decide) (by rw [fields_cachectl]; exact writeFields_wbinv hq)
  rw [hact] at hwrite
  exact (exec_cachectlWbinv src hearth found s).trans (congrArg (outcome s) hwrite)

/-- R52: WBINV of a hearth that is not Quiesced. -/
theorem exec_cachectlWbinv_faults (ht : s.takesWrite src (Slot.hrtA hearth.toNat)) (hq : s.quiesced (Slot.hrtA hearth.toNat) = false) :
    exec (.cachectlWbinv src ⟨hearth, found⟩) s = .fault .quiesceField := by
  obtain ⟨ha, hr⟩ := ht
  have hwrite : s.regWriteWith src (Slot.hrtA hearth.toNat) Off.HRTA.CACHECTL 1 { found := found } = .error .quiesceField := by
    rw [regWriteWith_admits _ ha (pageKind_hrtA hearth) (by simp only [Slot.hrtA, Slot.man]; omega)]
    unfold State.applyWrite
    rw [if_neg (by decide)]
    simp only [show ((Off.HRTA.CACHECTL : Nat) < 0x40) = False from by decide, if_false, fields_cachectl, hr, Bool.false_eq_true,
      and_false, writeFields_wbinv_fault hq]
  exact (exec_cachectlWbinv src hearth found s).trans (congrArg (outcome s) hwrite)

/-- KEYCTL has no Q field. -/
theorem withQ_keyctl (s : State) : s.withQ Slot.key Off.KEY.KEYCTL = s.reg Slot.key Off.KEY.KEYCTL := by
  unfold State.withQ
  split
  · rfl
  · rw [show clsMask .q Slot.key Off.KEY.KEYCTL = 0 from by decide]
    simp only [Nat.and_zero, Nat.sub_zero, Nat.add_zero]

/-- The fields of KEYCTL. -/
theorem fields_keyctl :
    ((findRow .key Off.KEY.KEYCTL).map (·.fields)).getD [] = [⟨"FSTEN", 0, 0, .b, .rw, 0⟩, ⟨"FKTEN", 1, 1, .b, .rw, 0⟩] := by decide

/-- R390: the fields of KEYCTL in a change of FKTEN, in the boot window and after it. -/
theorem writeFields_fkten (hne : s.flag Slot.key Off.KEY.KEYCTL 1 ≠ on) :
    writeFields Slot.key Off.KEY.KEYCTL (putBits (s.reg Slot.key Off.KEY.KEYCTL) 1 1 (b2n on))
        [⟨"FSTEN", 0, 0, .b, .rw, 0⟩, ⟨"FKTEN", 1, 1, .b, .rw, 0⟩] { s := s, late := false, dual := false }
      = .ok (if s.boot then { s := s.fktChange on, late := false, dual := false } else { s := s, late := true, dual := false }) := by
  have hlow : bitsOf (putBits (s.reg Slot.key Off.KEY.KEYCTL) 1 1 (b2n on)) 0 1 = bitsOf (s.withQ Slot.key Off.KEY.KEYCTL) 0 1 := by
    rw [bitsOf_putBits_ne _ _ _ _ _ _ (Or.inl (by decide)), withQ_keyctl]
  have hnew : bitsOf (putBits (s.reg Slot.key Off.KEY.KEYCTL) 1 1 (b2n on)) 1 1 = b2n on := by
    rw [bitsOf_putBits_self]
    cases on <;> rfl
  have hold : ¬b2n on = bitsOf (s.withQ Slot.key Off.KEY.KEYCTL) 1 1 := by
    rw [withQ_keyctl]
    rintro hon
    refine hne ?_
    unfold State.flag
    rw [bitAt_eq, ← hon]
    cases on <;> rfl
  have hfsten : State.writeField { s := s, late := false, dual := false } Slot.key Off.KEY.KEYCTL
      (putBits (s.reg Slot.key Off.KEY.KEYCTL) 1 1 (b2n on)) ⟨"FSTEN", 0, 0, .b, .rw, 0⟩ = .ok { s := s, late := false, dual := false } := by
    unfold State.writeField
    exact if_pos hlow
  have hfkten : State.writeField { s := s, late := false, dual := false } Slot.key Off.KEY.KEYCTL
      (putBits (s.reg Slot.key Off.KEY.KEYCTL) 1 1 (b2n on)) ⟨"FKTEN", 1, 1, .b, .rw, 0⟩
      = .ok (if s.boot then { s := s.fktChange on, late := false, dual := false } else { s := s, late := true, dual := false }) := by
    unfold State.writeField
    simp only [show (⟨"FKTEN", 1, 1, .b, .rw, 0⟩ : Field).width = 1 from rfl, hnew]
    rw [if_neg hold]
    cases hb : s.boot with
    | false => rfl
    | true =>
      refine (if_neg (by decide)).trans ((if_pos (by decide)).trans ?_)
      rw [show decide (b2n on = 1) = on from by cases on <;> rfl]
      rfl
  unfold writeFields
  rw [hfsten]
  simp only
  unfold writeFields
  rw [hfkten]
  rfl

/-- KEYCTL starts no action. -/
theorem actOrPark_keyctl (s : State) (v : Nat) (x : Outside) : s.actOrPark .key Slot.key Off.KEY.KEYCTL v x = s := by
  rw [actOrPark_acts (cmdBusy_none (by decide)) rfl]
  unfold State.act
  rw [show pageKind Slot.key = some PageKind.key from rfl]

/-- R390: FKTEN changes in the boot window; later its write is LATE. -/
theorem exec_fktenChange_does (ht : s.takesWrite src Slot.key) (hne : s.flag Slot.key Off.KEY.KEYCTL 1 ≠ on) :
    exec (.fktenChange src on) s = .next (s.after (if s.boot then s.fktChange on
      else s.badWrite Slot.key Off.KEY.KEYCTL (putBits (s.reg Slot.key Off.KEY.KEYCTL) 1 1 (b2n on)) 0 0x02)) := by
  obtain ⟨ha, hr⟩ := ht
  have hwrite : s.regWrite src Slot.key Off.KEY.KEYCTL (putBits (s.withQ Slot.key Off.KEY.KEYCTL) 1 1 (b2n on))
      = .ok (if s.boot then s.fktChange on
        else s.badWrite Slot.key Off.KEY.KEYCTL (putBits (s.reg Slot.key Off.KEY.KEYCTL) 1 1 (b2n on)) 0 0x02) := by
    unfold State.regWrite
    rw [regWriteWith_admits _ ha (show pageKind Slot.key = some PageKind.key from rfl) (by decide), withQ_keyctl]
    unfold State.applyWrite
    rw [if_neg (by decide)]
    simp only [show ((Off.KEY.KEYCTL : Nat) < 0x40) = False from by decide, if_false, fields_keyctl, hr, Bool.false_eq_true,
      and_false, writeFields_fkten hne, actOrPark_keyctl]
    cases s.boot <;> rfl
  exact (exec_fktenChange src on s).trans (congrArg (outcome s) hwrite)

/-- R390: a change of FKTEN. -/
theorem fktChange_eq (hne : s.flag Slot.key Off.KEY.KEYCTL 1 ≠ on) : s.fktChange on
    = ((s.dropCopies (fun l => isFar (l * 64))).setFlag Slot.key Off.KEY.KEYCTL 1 on).farKeysLost := by
  unfold State.fktChange
  exact if_neg hne

end Caches

/-! ## Commands of the blocks (R52, R248) -/

/-- R52, R248: a command that its block cannot do now is held. -/
theorem CommandRegister.waits {k : PageKind} {src : Src} {slot off v : Nat} {s : State} {x : Outside} (h : CommandRegister k slot off)
    (ht : s.takesWrite src slot) (hb : s.cmdBusy slot off = false) (hk : actsForBlock k off = true)
    (hwait : s.blockOn slot = false ∨ s.writesHeld (s.act slot off v x) = true) :
    s.regWriteWith src slot off v x = .ok (s.parkWrite slot off v) := by
  obtain ⟨ha, hr⟩ := ht
  rw [h.acts ha hr]
  unfold State.actOrPark
  rw [if_neg (by rw [hb]; decide), if_pos]
  rw [hk]
  obtain hon | hheld := hwait
  · rw [hon]
    rfl
  · rw [hheld, Bool.or_true]
    rfl

/-- R52: a block's command is a write of a command register of that block. -/
theorem blockCommands_write {src : Src} {queue : BitVec 19} {first last : BitVec 10} {chan : BitVec 6} {wg : BitVec 12} {index : BitVec 32}
    {a : Instr × Nat × Nat × Nat} (ha : a ∈ blockCommands src queue first last chan wg index) (s : State) :
    ∃ k, CommandRegister k a.2.1 a.2.2.1 ∧ actsForBlock k a.2.2.1 = true
      ∧ exec a.1 s = outcome s (s.regWrite src a.2.1 a.2.2.1 a.2.2.2) := by
  simp only [blockCommands, List.mem_cons, List.not_mem_nil, or_false] at ha
  obtain rfl | rfl | rfl | rfl | rfl | rfl | rfl | rfl | rfl | rfl | rfl | rfl | rfl | rfl | rfl := ha
  · exact ⟨.chm1, commandRegister_qcmd, rfl, rfl⟩
  · exact ⟨.chm1, commandRegister_qcmd, rfl, rfl⟩
  · exact ⟨.chm1, commandRegister_qcmd, rfl, rfl⟩
  · exact ⟨.chm1, commandRegister_qcmd, rfl, rfl⟩
  · exact ⟨.chm1, commandRegister_qcmd, rfl, rfl⟩
  · exact ⟨.chm1, commandRegister_rulecmd, rfl, rfl⟩
  · exact ⟨.chm1, commandRegister_rulecmd, rfl, rfl⟩
  · exact ⟨.bel, commandRegister_chcmd, rfl, rfl⟩
  · exact ⟨.bel, commandRegister_chcmd, rfl, rfl⟩
  · exact ⟨.bel, commandRegister_belDoorbell, rfl, rfl⟩
  · exact ⟨.grt, commandRegister_wgcmd, rfl, rfl⟩
  · exact ⟨.grt, commandRegister_wgcmd, rfl, rfl⟩
  · exact ⟨.grt, commandRegister_wgcmd, rfl, rfl⟩
  · exact ⟨.nmc, commandRegister_failcmd, rfl, rfl⟩
  · exact ⟨.fxp, commandRegister_msixcmd, rfl, rfl⟩

/-- Settles O31. -/
theorem registerAccesses : Obligations.RegisterAccesses := by
  unfold Obligations.RegisterAccesses
  refine ⟨fun src addr v s => ⟨fun hal => ?unaligned, fun hal => ⟨?read, fun hk => ?noPage, fun hk hr hc hh hclaim => ?refused,
    fun hk ha ho => ?scratch⟩⟩, fun src hearth on s => ⟨fun ht found => ⟨fun hq => exec_cachectlWbinv_does ht hq,
      fun hq => exec_cachectlWbinv_faults ht hq⟩, fun ht hne => ⟨fun hb => ?boot, fun hb => ?late⟩⟩,
    fun src queue first last chan wg index s a ha => ?commands⟩
  case unaligned => exact ⟨(exec_registerWrite src addr v s).trans (if_neg hal), (exec_rcRead addr s).trans (if_neg hal)⟩
  case read =>
    rw [exec_rcRead, if_pos hal]
    unfold State.contextLoad
    rfl
  case noPage => exact exec_registerWrite_does hal (regWrite_noPage hk)
  case refused => exact exec_registerWrite_does hal (regWrite_refused hk hr hc hh hclaim)
  case scratch => exact exec_registerWrite_does hal ((congrArg (s.regWrite src _ · _) ho).trans (regWrite_scratch hk ha))
  case boot => rw [exec_fktenChange_does ht hne, if_pos hb, fktChange_eq hne]
  case late => rw [exec_fktenChange_does ht hne, if_neg (by rw [hb]; decide)]
  case commands =>
    intro slot off v ht
    obtain ⟨k, hreg, hacts, hexec⟩ := blockCommands_write ha s
    exact ⟨fun hb => hexec.trans (congrArg (outcome s) (hreg.ignored ht hb)),
      fun hb hwait => hexec.trans (congrArg (outcome s) (hreg.waits ht hb hacts hwait))⟩

end Sys2Proof.Machine
end

section
/-!
SUPPORT. What frames, rule commands, statistics, ports and PPS do (R442 to R448, R469), and the statement of those rules settled with it.
-/

namespace Sys2Proof.Machine

/-! ## Frames (R442 to R446) -/

section Frames

variable {port : BitVec 3} {bytes : List Byte} {s t : State}

theorem exec_frameReceive (port : BitVec 3) (fcsOk : Bool) (bytes : List Byte) (s : State) :
    exec (.frameReceive port fcsOk bytes) s = .next (s.after (s.unlessHeld (s.receiveFrame port fcsOk bytes))) := rfl

/-- A frame whose reception writes nothing into memory is received at once. -/
theorem exec_frameReceive_counts {fcsOk : Bool} (h : s.receiveFrame port fcsOk bytes = t) (hmem : t.mem = s.mem) :
    exec (.frameReceive port fcsOk bytes) s = .next (s.after t) := by
  rw [exec_frameReceive, h, unlessHeld_mem hmem]

section Intact

variable {s1 : State} (hp : s.portMade port.toNat = true) (hon : s.blockOn Slot.chm0 = true) (hmin : 64 ≤ bytes.length + 4)
  (hmax : bytes.length + 4 ≤ 9216) (hs1 : s1 = (s.countPort port.toNat 0 1).countPort port.toNat 1 (bytes.length + 4))

include hp hon hmin hmax hs1

/-- R443: a PAUSE or PFC frame that PFCCTL heeds. -/
theorem receiveFrame_pause (ht : s1.pauseFrame port.toNat bytes = some t) : s.receiveFrame port true bytes = t.countPort port.toNat 5 1 := by
  have hlegal : ¬(bytes.length + 4 < 64 ∨ 9216 < bytes.length + 4) := by omega
  unfold State.receiveFrame
  simp only [hp, hon, hlegal, ← hs1, ht, Bool.not_true, Bool.false_eq_true, if_false]

/-- R444: an intact frame for another address. -/
theorem receiveFrame_otherMac (hnone : s1.pauseFrame port.toNat bytes = none) (hmac : s1.macAccepts port.toNat bytes = false) :
    s.receiveFrame port true bytes = s1.countPort port.toNat 3 1 := by
  have hlegal : ¬(bytes.length + 4 < 64 ∨ 9216 < bytes.length + 4) := by omega
  unfold State.receiveFrame
  simp only [hp, hon, hlegal, ← hs1, hnone, hmac, Bool.not_true, Bool.not_false, Bool.false_eq_true, if_false, if_true]

/-- R445, R446: an intact frame that is for the port is steered, or held while CHM1 is Quiesced. -/
theorem receiveFrame_accepted (hnone : s1.pauseFrame port.toNat bytes = none) (hmac : s1.macAccepts port.toNat bytes = true) :
    s.receiveFrame port true bytes
      = if s1.blockOn Slot.chm1 then s1.steer { port := port, tod := BitVec.ofNat 64 s1.rxStamp, bytes := bytes }
        else s1.holdFrame { port := port, tod := BitVec.ofNat 64 s1.rxStamp, bytes := bytes } := by
  have hlegal : ¬(bytes.length + 4 < 64 ∨ 9216 < bytes.length + 4) := by omega
  unfold State.receiveFrame
  simp only [hp, hon, hlegal, ← hs1, hnone, hmac, Bool.not_true, Bool.false_eq_true, if_false]

end Intact

/-- R444: a frame that is dropped before it is counted as received. -/
theorem receiveFrame_noPort {fcsOk : Bool} (hp : s.portMade port.toNat = false) : s.receiveFrame port fcsOk bytes = s := by
  unfold State.receiveFrame
  exact if_pos (by rw [hp]; rfl)

theorem receiveFrame_quiesced {fcsOk : Bool} (hp : s.portMade port.toNat = true) (hon : s.blockOn Slot.chm0 = false) :
    s.receiveFrame port fcsOk bytes = s.countPort port.toNat 4 1 := by
  unfold State.receiveFrame
  exact (if_neg (by rw [hp]; decide)).trans (if_pos (by rw [hon]; rfl))

theorem receiveFrame_length {fcsOk : Bool} (hp : s.portMade port.toNat = true) (hon : s.blockOn Slot.chm0 = true)
    (hlen : bytes.length + 4 < 64 ∨ 9216 < bytes.length + 4) : s.receiveFrame port fcsOk bytes = s.countPort port.toNat 0xD 1 := by
  unfold State.receiveFrame
  exact (if_neg (by rw [hp]; decide)).trans ((if_neg (by rw [hon]; decide)).trans (if_pos hlen))

theorem receiveFrame_badFcs (hp : s.portMade port.toNat = true) (hon : s.blockOn Slot.chm0 = true) (hmin : 64 ≤ bytes.length + 4)
    (hmax : bytes.length + 4 ≤ 9216) : s.receiveFrame port false bytes = s.countPort port.toNat 2 1 := by
  have hlegal : ¬(bytes.length + 4 < 64 ∨ 9216 < bytes.length + 4) := by omega
  unfold State.receiveFrame
  exact (if_neg (by rw [hp]; decide)).trans ((if_neg (by rw [hon]; decide)).trans ((if_neg hlegal).trans (if_pos rfl)))

end Frames

/-! ## Fields of a register write -/

/-- The first field of a write, and the others after it. -/
theorem writeFields_cons {slot off v : Nat} {f : Field} {fs : List Field} {o o' : FieldsOut} (h : State.writeField o slot off v f = .ok o') :
    writeFields slot off v (f :: fs) o = writeFields slot off v fs o' := by
  conv => lhs; unfold writeFields
  rw [h]

/-- A field without a rule takes what is written. -/
theorem writeField_free {slot off v : Nat} {f : Field} {o : FieldsOut} (hacc : f.acc = .rw) (hcls : f.cls = .l) :
    State.writeField o slot off v f = .ok { o with s := o.s.setFld slot off f.lo f.width (bitsOf v f.lo f.width) } := by
  unfold State.writeField
  rw [hacc, hcls]

/-! ## RULECMD and STATSEL (R442, R448) -/

section Commands

variable {src : Src} {s : State}

theorem exec_rulecmdLoad (src : Src) (first last : BitVec 10) (s : State) : exec (.rulecmdLoad src first last) s
    = outcome s (s.regWrite src Slot.chm1 Off.CHM1.RULECMD (first.toNat + last.toNat * 2 ^ 16 + 1 * 2 ^ 28)) := rfl
theorem exec_rulecmdDump (src : Src) (first last : BitVec 10) (s : State) : exec (.rulecmdDump src first last) s
    = outcome s (s.regWrite src Slot.chm1 Off.CHM1.RULECMD (first.toNat + last.toNat * 2 ^ 16 + 2 * 2 ^ 28)) := rfl
theorem exec_statselClr (src : Src) (port : BitVec 3) (cnt : BitVec 4) (s : State) : exec (.statselClr src port cnt) s
    = outcome s (s.regWrite src Slot.chm0 Off.CHM0.STATSEL (port.toNat + cnt.toNat * 2 ^ 8 + 2 ^ 16)) := rfl

/-- R448: RULECMD is BUSY as it shows itself. -/
theorem cmdBusy_rulecmd (s : State) : s.cmdBusy Slot.chm1 Off.CHM1.RULECMD = s.flag Slot.chm1 Off.CHM1.RULECMD 32 := by
  unfold State.cmdBusy
  rw [show busyBit Slot.chm1 Off.CHM1.RULECMD = some (Off.CHM1.RULECMD, 32, none) from rfl]

/-- R448: the action of RULECMD. -/
theorem act_rulecmd (s : State) (v : Nat) (x : Outside) :
    s.act Slot.chm1 Off.CHM1.RULECMD v x = s.ruleCommand (bitsOf v 28 2) (bitsOf v 0 10) (bitsOf v 16 10) := by
  unfold State.act
  rw [show pageKind Slot.chm1 = some PageKind.chm1 from rfl]
  exact (if_neg (by decide)).trans (if_pos rfl)

/-- R448: a rule command that CHM1 obeys. -/
theorem regWrite_rulecmd (ho : s.obeys src Slot.chm1) (hb : s.flag Slot.chm1 Off.CHM1.RULECMD 32 = false) (first last : BitVec 10)
    {op : Nat} (hop : op < 4) : s.regWrite src Slot.chm1 Off.CHM1.RULECMD (first.toNat + last.toNat * 2 ^ 16 + op * 2 ^ 28)
      = .ok (s.ruleCommand op first.toNat last.toNat) := by
  have hwrite := commandRegister_rulecmd.obeyed (v := first.toNat + last.toNat * 2 ^ 16 + op * 2 ^ 28) (x := {}) ho
    ((cmdBusy_rulecmd s).trans hb)
  have hfirst := first.isLt
  have hlast := last.isLt
  have hfields : bitsOf (first.toNat + last.toNat * 2 ^ 16 + op * 2 ^ 28) 28 2 = op
      ∧ bitsOf (first.toNat + last.toNat * 2 ^ 16 + op * 2 ^ 28) 0 10 = first.toNat
      ∧ bitsOf (first.toNat + last.toNat * 2 ^ 16 + op * 2 ^ 28) 16 10 = last.toNat := by
    unfold bitsOf
    omega
  obtain ⟨hcode, hlow, hhigh⟩ := hfields
  rw [act_rulecmd, hcode, hlow, hhigh] at hwrite
  exact hwrite

/-- R448: LOAD and DUMP go over their rules. -/
theorem ruleCommand_loops {first last : Nat} (h : first ≤ last) :
    s.ruleCommand 1 first last = (s.setFlag Slot.chm1 Off.CHM1.RULECMD 33 false).ruleLoop State.loadRule
        ((List.range (last + 1 - first)).map (first + ·))
      ∧ s.ruleCommand 2 first last = (s.setFlag Slot.chm1 Off.CHM1.RULECMD 33 false).ruleLoop State.dumpRule
        ((List.range (last + 1 - first)).map (first + ·)) := by
  unfold State.ruleCommand
  exact ⟨(if_neg (Nat.not_lt.mpr h)).trans (if_pos rfl), (if_neg (Nat.not_lt.mpr h)).trans ((if_neg (by decide)).trans (if_pos rfl))⟩

/-- R442: the selection that STATSEL leaves. -/
def State.statSelected (s : State) (port : BitVec 3) (cnt : BitVec 4) : State :=
  (s.setFld Slot.chm0 Off.CHM0.STATSEL 0 3 port.toNat).setFld Slot.chm0 Off.CHM0.STATSEL 8 4 cnt.toNat

/-- R442: the fields of STATSEL. -/
theorem fields_statsel : ((findRow .chm0 Off.CHM0.STATSEL).map (·.fields)).getD []
    = [⟨"PORT", 2, 0, .l, .rw, 0⟩, ⟨"CNT", 11, 8, .l, .rw, 0⟩, ⟨"CLR", 16, 16, .l, .wo, 0⟩] := by decide

/-- R442: STATSEL.CLR selects a counter and clears it. -/
theorem exec_statselClr_does (ht : s.takesWrite src Slot.chm0) (port : BitVec 3) (cnt : BitVec 4) :
    exec (.statselClr src port cnt) s = .next (s.after ((s.statSelected port cnt).clearStat port.toNat cnt.toNat)) := by
  obtain ⟨ha, hr⟩ := ht
  have hport := port.isLt
  have hcnt := cnt.isLt
  have hfields : bitsOf (port.toNat + cnt.toNat * 2 ^ 8 + 2 ^ 16) 0 3 = port.toNat
      ∧ bitsOf (port.toNat + cnt.toNat * 2 ^ 8 + 2 ^ 16) 8 4 = cnt.toNat := by
    unfold bitsOf
    omega
  have hclr : bitAt (port.toNat + cnt.toNat * 2 ^ 8 + 2 ^ 16) 16 = true := by
    unfold bitAt
    simp only [beq_iff_eq]
    omega
  obtain ⟨hlow, hhigh⟩ := hfields
  have hwritten : writeFields Slot.chm0 Off.CHM0.STATSEL (port.toNat + cnt.toNat * 2 ^ 8 + 2 ^ 16)
      [⟨"PORT", 2, 0, .l, .rw, 0⟩, ⟨"CNT", 11, 8, .l, .rw, 0⟩, ⟨"CLR", 16, 16, .l, .wo, 0⟩] { s := s, late := false, dual := false }
      = .ok { s := s.statSelected port cnt, late := false, dual := false } := by
    rw [writeFields_cons (writeField_free rfl rfl), writeFields_cons (writeField_free rfl rfl),
      writeFields_cons (writeField_inert (by decide) _ _ _ _)]
    unfold writeFields State.statSelected
    rw [show (⟨"PORT", 2, 0, .l, .rw, 0⟩ : Field).width = 3 from rfl, show (⟨"CNT", 11, 8, .l, .rw, 0⟩ : Field).width = 4 from rfl,
      hlow, hhigh]
  have hact (t : State) : t.actOrPark .chm0 Slot.chm0 Off.CHM0.STATSEL (port.toNat + cnt.toNat * 2 ^ 8 + 2 ^ 16) {}
      = t.clearStat port.toNat cnt.toNat := by
    rw [actOrPark_acts (cmdBusy_none (by decide)) rfl]
    unfold State.act
    rw [show pageKind Slot.chm0 = some PageKind.chm0 from rfl]
    refine (if_pos ⟨rfl, hclr⟩).trans ?_
    rw [hlow, hhigh]
  have hwrite := regWriteWith_fields (off := Off.CHM0.STATSEL) (x := {}) ha hr (show pageKind Slot.chm0 = some PageKind.chm0 from rfl)
    (by decide) (by decide) (by rw [fields_statsel]; exact hwritten)
  rw [hact] at hwrite
  exact (exec_statselClr src port cnt s).trans (congrArg (outcome s) hwrite)

/-- R442: the counter that was cleared reads 0. -/
theorem statVal_cleared (s : State) (port : BitVec 3) (cnt : BitVec 4) :
    ((s.statSelected port cnt).clearStat port.toNat cnt.toNat).statVal = 0 := by
  have hcnt : ((s.statSelected port cnt).clearStat port.toNat cnt.toNat).fld Slot.chm0 Off.CHM0.STATSEL 8 4 = cnt.toNat := by
    show (s.statSelected port cnt).fld Slot.chm0 Off.CHM0.STATSEL 8 4 = cnt.toNat
    unfold State.statSelected
    rw [State.fld_setFld _ _ _ _ _ _ (by decide)]
    exact Nat.mod_eq_of_lt cnt.isLt
  have hport : ((s.statSelected port cnt).clearStat port.toNat cnt.toNat).fld Slot.chm0 Off.CHM0.STATSEL 0 3 = port.toNat := by
    show (s.statSelected port cnt).fld Slot.chm0 Off.CHM0.STATSEL 0 3 = port.toNat
    unfold State.statSelected
    rw [State.fld_setFld_ne _ _ _ _ _ _ _ _ (by decide) (by decide), State.fld_setFld _ _ _ _ _ _ (by decide)]
    exact Nat.mod_eq_of_lt port.isLt
  unfold State.statVal
  simp only [hcnt, hport]
  split
  · unfold State.clearStat
    simp only [SMap.get_set_self]
    rfl
  · rfl

end Commands

/-! ## Ports and PPS (R442, R469) -/

section Ports

theorem exec_portLinkUp (port : BitVec 3) (s : State) : exec (.portLinkUp port) s = .next (s.after (s.portUpEvent port.toNat)) := rfl
theorem exec_portLinkDown (port : BitVec 3) (s : State) : exec (.portLinkDown port) s = .next (s.after (s.portDownEvent port.toNat)) := rfl
theorem exec_ptpPpsIn (s : State) : exec .ptpPpsIn s = .next (s.after s.ppsIn) := rfl
theorem exec_ptpPpsOut (s : State) : exec .ptpPpsOut s = .next (s.after s.ppsOut) := rfl

/-- A fold whose every step leaves the state. -/
theorem foldl_stays {α β : Type} {f : β → α → β} {l : List α} {b : β} (h : ∀ a ∈ l, f b a = b) : l.foldl f b = b := by
  induction l with
  | nil => rfl
  | cons a l ih =>
    rw [List.foldl_cons, h a List.mem_cons_self]
    exact ih fun x hx => h x (List.mem_cons_of_mem _ hx)

/-- R442: a port's link that goes down drops what waited to leave, and sessions of no enabled set end. -/
theorem portDownEvent_drops {p : Nat} {s down : State} (hp : s.portMade p = true)
    (hdown : down = (s.setFlag Slot.chm0 Off.CHM0.PORTSTS p false).setErr Slot.chm0 Off.CHM0.CHM0ERR p)
    (hsets : ∀ i < 8, down.msetOn i = false) : s.portDownEvent p
      = { down with outbuf := down.outbuf.filter (·.port.toNat != p), pauses := down.pauses.filter (·.port.toNat != p) } := by
  unfold State.portDownEvent
  simp only [hp, ← hdown, Bool.not_true, Bool.false_eq_true, if_false]
  refine foldl_stays fun i hi => foldl_stays fun peer _ => ?_
  have hoff : ({ down with outbuf := down.outbuf.filter (·.port.toNat != p), pauses := down.pauses.filter (·.port.toNat != p) } : State).setNames
      i peer = false := by
    have hset := hsets i (List.mem_range.mp hi)
    unfold State.msetOn State.msetReg at hset
    unfold State.setNames State.msetOn State.msetReg
    rw [Bool.and_eq_false_iff]
    exact Or.inl hset
  rw [hoff]
  rfl

end Ports

/-- Settles O32. -/
theorem framesRulesAndPorts : Obligations.FramesRulesAndPorts := by
  unfold Obligations.FramesRulesAndPorts
  refine ⟨fun port fcsOk bytes s => ⟨fun hp => ?noPort, fun hp hon => ?quiesced, fun hp hon => ⟨fun hlen => ?length,
    fun hmin hmax => ⟨?badFcs, fun t ht => ?pause, fun hnone => ⟨fun hmac => ?otherMac, fun hmac => ?accepted⟩⟩⟩⟩,
    fun src first last port cnt s => ⟨fun ho hb hle => ⟨?load, ?dump⟩, fun ht => ⟨exec_statselClr_does ht port cnt, statVal_cleared s port cnt⟩,
      fun hp => ?linkUp, fun hp hsets => ?linkDown, ?ppsIn, ?ppsOut⟩⟩
  case noPort => exact exec_frameReceive_counts (receiveFrame_noPort hp) rfl
  case quiesced => exact exec_frameReceive_counts (receiveFrame_quiesced hp hon) (State.countPort_mem _ _ _ _)
  case length => exact exec_frameReceive_counts (receiveFrame_length hp hon hlen) (State.countPort_mem _ _ _ _)
  case badFcs => exact exec_frameReceive_counts (receiveFrame_badFcs hp hon hmin hmax) (State.countPort_mem _ _ _ _)
  case pause =>
    rw [exec_frameReceive, receiveFrame_pause hp hon hmin hmax rfl ht]
  case otherMac =>
    exact exec_frameReceive_counts (receiveFrame_otherMac hp hon hmin hmax rfl hnone hmac) (State.countPort_mem _ _ _ _)
  case accepted =>
    rw [exec_frameReceive, receiveFrame_accepted hp hon hmin hmax rfl hnone hmac]
  case load =>
    rw [exec_rulecmdLoad, regWrite_rulecmd ho hb first last (op := 1) (by decide), (ruleCommand_loops hle).1]
    rfl
  case dump =>
    rw [exec_rulecmdDump, regWrite_rulecmd ho hb first last (op := 2) (by decide), (ruleCommand_loops hle).2]
    rfl
  case linkUp =>
    rw [exec_portLinkUp]
    unfold State.portUpEvent
    rw [hp]
    rfl
  case linkDown => rw [exec_portLinkDown, portDownEvent_drops hp rfl hsets]
  case ppsIn =>
    rw [exec_ptpPpsIn]
    unfold State.ppsIn
    rfl
  case ppsOut =>
    rw [exec_ptpPpsOut]
    unfold State.ppsOut
    rfl

end Sys2Proof.Machine
end

section
/-!
SUPPORT. What QCMD, the queue doorbells and the next send descriptor do (R453, R462 to R464), and the statement of those rules settled
with it.
-/

namespace Sys2Proof.Machine

/-! ## QCMD (R453) -/

section QueueCommand

variable {src : Src} {queue : BitVec 19} {s s1 t : State} {v : Nat}

theorem exec_qcmdEnable (src : Src) (queue : BitVec 19) (s : State) :
    exec (.qcmdEnable src queue) s = outcome s (s.regWrite src Slot.chm1 Off.CHM1.QCMD (queue.toNat + 1 * 2 ^ 24)) := rfl
theorem exec_qcmdDisable (src : Src) (queue : BitVec 19) (s : State) :
    exec (.qcmdDisable src queue) s = outcome s (s.regWrite src Slot.chm1 Off.CHM1.QCMD (queue.toNat + 2 * 2 ^ 24)) := rfl
theorem exec_qcmdFlush (src : Src) (queue : BitVec 19) (s : State) :
    exec (.qcmdFlush src queue) s = outcome s (s.regWrite src Slot.chm1 Off.CHM1.QCMD (queue.toNat + 3 * 2 ^ 24)) := rfl
theorem exec_qcmdRelease (src : Src) (queue : BitVec 19) (s : State) :
    exec (.qcmdRelease src queue) s = outcome s (s.regWrite src Slot.chm1 Off.CHM1.QCMD (queue.toNat + 4 * 2 ^ 24)) := rfl
theorem exec_qcmdRestart (src : Src) (queue : BitVec 19) (s : State) :
    exec (.qcmdRestart src queue) s = outcome s (s.regWrite src Slot.chm1 Off.CHM1.QCMD (queue.toNat + 5 * 2 ^ 24)) := rfl

/-- R453: QCMD is BUSY as it shows itself. -/
theorem cmdBusy_qcmd (s : State) : s.cmdBusy Slot.chm1 Off.CHM1.QCMD = s.flag Slot.chm1 Off.CHM1.QCMD 32 := by
  unfold State.cmdBusy
  rw [show busyBit Slot.chm1 Off.CHM1.QCMD = some (Off.CHM1.QCMD, 32, none) from rfl]

/-- R453: the action of QCMD. -/
theorem act_qcmd (s : State) (w : Nat) (x : Outside) :
    s.act Slot.chm1 Off.CHM1.QCMD w x = s.queueCommand (bitsOf w 24 4) (bitsOf w 0 19) := by
  unfold State.act
  rw [show pageKind Slot.chm1 = some PageKind.chm1 from rfl]
  exact if_pos rfl

/-- R453: a queue command that CHM1 obeys. -/
theorem regWrite_qcmd (ho : s.obeys src Slot.chm1) (hb : s.flag Slot.chm1 Off.CHM1.QCMD 32 = false) {op : Nat} (hop : op < 2 ^ 4) :
    s.regWrite src Slot.chm1 Off.CHM1.QCMD (queue.toNat + op * 2 ^ 24) = .ok (s.queueCommand op queue.toNat) := by
  have hwrite := commandRegister_qcmd.obeyed (v := queue.toNat + op * 2 ^ 24) (x := {}) ho ((cmdBusy_qcmd s).trans hb)
  have hlt := queue.isLt
  have hlow : bitsOf (queue.toNat + op * 2 ^ 24) 0 19 = queue.toNat := by
    unfold bitsOf
    omega
  rw [act_qcmd, bitsOf_above (Nat.lt_of_lt_of_le hlt (by decide)), Nat.mod_eq_of_lt hop, hlow] at hwrite
  exact hwrite

section Codes

variable (ho : s.obeys src Slot.chm1) (hb : s.flag Slot.chm1 Off.CHM1.QCMD 32 = false)

include ho hb

theorem exec_qcmdEnable_does (ht : s.queueEnable queue.toNat = t) : exec (.qcmdEnable src queue) s = .next (s.after t) := by
  rw [exec_qcmdEnable, regWrite_qcmd ho hb (by decide)]
  unfold State.queueCommand
  exact congrArg (fun x => outcome s (.ok x)) ((if_neg (by rw [hb]; decide)).trans ht)

theorem exec_qcmdDisable_does (ht : s.queueDisable queue.toNat = t) : exec (.qcmdDisable src queue) s = .next (s.after t) := by
  rw [exec_qcmdDisable, regWrite_qcmd ho hb (by decide)]
  unfold State.queueCommand
  exact congrArg (fun x => outcome s (.ok x)) ((if_neg (by rw [hb]; decide)).trans ht)

theorem exec_qcmdFlush_does (ht : s.queueFlush queue.toNat = t) : exec (.qcmdFlush src queue) s = .next (s.after t) := by
  rw [exec_qcmdFlush, regWrite_qcmd ho hb (by decide)]
  unfold State.queueCommand
  exact congrArg (fun x => outcome s (.ok x)) ((if_neg (by rw [hb]; decide)).trans ht)

theorem exec_qcmdRelease_does (ht : s.queueRelease queue.toNat = t) : exec (.qcmdRelease src queue) s = .next (s.after t) := by
  rw [exec_qcmdRelease, regWrite_qcmd ho hb (by decide)]
  unfold State.queueCommand
  exact congrArg (fun x => outcome s (.ok x)) ((if_neg (by rw [hb]; decide)).trans ht)

theorem exec_qcmdRestart_does (ht : s.queueRestart queue.toNat = t) : exec (.qcmdRestart src queue) s = .next (s.after t) := by
  rw [exec_qcmdRestart, regWrite_qcmd ho hb (by decide)]
  unfold State.queueCommand
  exact congrArg (fun x => outcome s (.ok x)) ((if_neg (by rw [hb]; decide)).trans ht)

end Codes

variable {q : Nat}

/-- R453: ENABLE of a queue that is not on chip, whose state can be read, is inactive and passes its checks. -/
theorem queueEnable_caches {a m : Nat} (ha : s.queueAt q = a) (hm : leNat (s.bytes a 128) = m) (hchip : s.queues.any (·.1 == q) = false)
    (hnear : s.nearPop a = true) (hpoison : s.anyPoison a 128 = false) (hkey : s.keyLost a = false) (hidle : qActive m = false)
    (hok : (s.devRead a 128).queueOk q m = true) :
    s.queueEnable q = ((s.devRead a 128).cacheQueue q (putBits m 127 1 1)).qcmdSts false := by
  unfold State.queueEnable
  simp only [hchip, ha, hnear, hpoison, hkey, hm, hidle, hok, Bool.not_true, Bool.or_self, Bool.false_eq_true, if_false]

section InUse

variable (hu : s.useQueue q = (s1, v))

include hu

/-- R453: FLUSH of an active queue. -/
theorem queueFlush_stores (ha : qActive v = true) : s.queueFlush q = (s1.storeQueue q v).qcmdSts false := by
  unfold State.queueFlush
  rw [hu]
  exact if_neg (by rw [ha]; decide)

/-- R453: DISABLE of an active queue sends what is posted first. -/
theorem queueDisable_closes (ha : qActive v = true) : s.queueDisable q
    = (((((({ s1 with closing := some q } : State).setQueue q (putBits v 127 1 0)).setFlag Slot.chm1 Off.CHM1.QCMD 32 true).qcmdSts
        false).sendMany q (if qDexp v = 0 then 0 else seqSub (qTxProd v) (qTxCons v)))).finishClose q := by
  unfold State.queueDisable
  rw [hu]
  exact if_neg (by rw [ha]; decide)

/-- R453: RELEASE of a message that software holds. -/
theorem queueRelease_frees {a : Nat} (haddr : s.reg Slot.chm1 Off.CHM1.QARG = a) (hsize : qSizeExp v ≠ 0)
    (hhead : s1.isHeader v a (qSlots v) (qRxTail v) = true) (hheld : s1.hdrFlags a &&& 6 = 2) :
    s.queueRelease q = (s1.freeMessage q a).qcmdSts false := by
  have hfree : ¬(qSizeExp v = 0 ∨ (!s1.isHeader v a (qSlots v) (qRxTail v)) = true ∨ s1.hdrFlags a &&& 6 ≠ 2) := by
    rw [hhead]
    exact not_or.mpr ⟨hsize, not_or.mpr ⟨by decide, not_not_intro hheld⟩⟩
  unfold State.queueRelease
  rw [haddr, hu]
  exact if_neg hfree

/-- R453: RESTART of an active RC queue that no mirror uses. -/
theorem queueRestart_clears (ha : qActive v = true) (hmode : qRMode v = 1)
    (hside : ((s1.setQueue q (putBits v 580 1 0)).qcmdSts false).sideOf q = none) :
    s.queueRestart q = (s1.setQueue q (putBits v 580 1 0)).qcmdSts false := by
  unfold State.queueRestart
  rw [hu]
  refine (if_neg (by rw [ha, hmode]; decide)).trans ?_
  simp only [hside]

end InUse
end QueueCommand

/-! ## Doorbells (R464) -/

section Doorbells

variable {queue : BitVec 19} {index : BitVec 32} {s s1 : State} {v x : Nat}

theorem exec_doorbellSendProducer (queue : BitVec 19) (index : BitVec 32) (s : State) :
    exec (.doorbellSendProducer queue index) s
      = .next (s.after (s.ringDoorbell (0xF30000000000 + 8 * queue.toNat) index.toNat)) := rfl
theorem exec_doorbellReceiveTail (queue : BitVec 19) (index : BitVec 32) (s : State) :
    exec (.doorbellReceiveTail queue index) s
      = .next (s.after (s.ringDoorbell (0xF30000000000 + 8 * queue.toNat) (index.toNat + 2 ^ 32))) := rfl

/-- R52: a doorbell of a queue is held while CHM1 is Quiesced. -/
theorem ringDoorbell_parks {a w : Nat} (hon : s.blockOn Slot.chm1 = false) : s.ringDoorbell a w = s.park (.door a (BitVec.ofNat 64 w)) := by
  unfold State.ringDoorbell
  exact if_neg (by rw [hon]; exact Bool.noConfusion)

/-- R248: a doorbell of an operating queue rings unless it would write a line that a reservation holds. -/
theorem ringDoorbell_rings {a w : Nat} {t : State} (hon : s.blockOn Slot.chm1 = true) (ht : s.doorbellAt a w = t) :
    s.ringDoorbell a w = if s.writesHeld t then s.park (.door a (BitVec.ofNat 64 w)) else t := by
  unfold State.ringDoorbell
  rw [hon, ht]
  cases s.writesHeld t <;> rfl

/-- R464: the doorbell of a queue by its address. -/
theorem doorbellAt_queue (s : State) (q w : Nat) : s.doorbellAt (0xF30000000000 + 8 * q) w = s.doorbell q w := by
  unfold State.doorbellAt
  rw [Nat.add_sub_cancel_left, Nat.mul_div_cancel_left _ (by decide)]

/-- R464: a doorbell of an active ring that software owns moves an index, or is counted when the index would pass the ring. The kernel is
kept from evaluating `extendIndex`, whose numerals are too large for it: the proof is about any function in its place. -/
theorem doorbell_moves {q w cur : Nat} {rx : Bool} (hu : s.useQueue q = (s1, v)) (ha : qActive v = true) (hhigh : w / 2 ^ 33 = 0)
    (hrx : bitAt w 32 = rx) (hcur : (if rx = true then qRxTail v else qTxProd v) = cur)
    (hown : (if rx = true then qSizeExp v != 0 && qOwner v else qDexp v != 0 && qTxOwn v) = true)
    (hx : extendIndex cur (w % 2 ^ 32) = some x) :
    s.doorbell q w = if rx = true then
        if seqSub (qRxProd v) cur < seqSub x cur then s1.countDberr else s1.setQueue q (qPut v 0x20 8 x)
      else if 2 ^ qDexp v < seqSub x (qTxCons v) then s1.countDberr else s1.setQueue q (qPut v 0x30 8 x) := by
  have hdef : State.doorbell = State.doorbell := rfl
  revert hdef
  conv in State.doorbell = _ => rhs; delta State.doorbell
  generalize extendIndex = extended at hx ⊢
  generalize State.doorbell = rung
  revert rung hx extended
  refine id ?_
  rintro extended hx _ rfl
  simp only [hu, hrx, hcur, hown, hhigh, hx, ha, Bool.not_true, Bool.or_self, bne_self_eq_false, Bool.false_eq_true, if_false]

/-- R464: a doorbell moves the producer of a send ring that software owns. -/
theorem doorbell_sends {q : Nat} (hu : s.useQueue q = (s1, v)) (ha : qActive v = true) (hd : qDexp v ≠ 0) (hown : qTxOwn v = true)
    (hx : extendIndex (qTxProd v) index.toNat = some x) (hroom : seqSub x (qTxCons v) ≤ 2 ^ qDexp v) :
    s.doorbell q index.toNat = s1.setQueue q (qPut v 0x30 8 x) := by
  have hlt := index.isLt
  have hrx : bitAt index.toNat 32 = false := by
    unfold bitAt
    simp only [beq_eq_false_iff_ne]
    omega
  have hlow : extendIndex (qTxProd v) (index.toNat % 2 ^ 32) = some x := by rw [Nat.mod_eq_of_lt hlt, hx]
  have hhigh : index.toNat / 2 ^ 33 = 0 := by omega
  have hring : (if false = true then qSizeExp v != 0 && qOwner v else qDexp v != 0 && qTxOwn v) = true := by
    rw [if_neg Bool.false_ne_true, hown, bne_iff_ne.mpr hd]
    rfl
  rw [doorbell_moves hu ha hhigh hrx (if_neg Bool.false_ne_true) hring hlow, if_neg Bool.false_ne_true, if_neg (Nat.not_lt.mpr hroom)]

/-- R464: a doorbell moves the tail of a receive ring that software owns. -/
theorem doorbell_frees {q : Nat} (hu : s.useQueue q = (s1, v)) (ha : qActive v = true) (hsize : qSizeExp v ≠ 0) (hown : qOwner v = true)
    (hx : extendIndex (qRxTail v) index.toNat = some x) (hroom : seqSub x (qRxTail v) ≤ seqSub (qRxProd v) (qRxTail v)) :
    s.doorbell q (index.toNat + 2 ^ 32) = s1.setQueue q (qPut v 0x20 8 x) := by
  have hlt := index.isLt
  have hrx : bitAt (index.toNat + 2 ^ 32) 32 = true := by
    unfold bitAt
    simp only [beq_iff_eq]
    omega
  have hlow : extendIndex (qRxTail v) ((index.toNat + 2 ^ 32) % 2 ^ 32) = some x := by
    rw [show (index.toNat + 2 ^ 32) % 2 ^ 32 = index.toNat from by omega, hx]
  have hhigh : (index.toNat + 2 ^ 32) / 2 ^ 33 = 0 := by omega
  have hring : (if true = true then qSizeExp v != 0 && qOwner v else qDexp v != 0 && qTxOwn v) = true := by
    rw [if_pos rfl, hown, bne_iff_ne.mpr hsize]
    rfl
  rw [doorbell_moves hu ha hhigh hrx (if_pos rfl) hring hlow, if_pos rfl, if_neg (Nat.not_lt.mpr hroom)]

end Doorbells

/-! ## The next send descriptor (R462, R463) -/

section Sending

variable {s s1 s2 : State} {q v n i : Nat} {d : Desc} {x : Sending}

theorem exec_sendDescriptor (queue : BitVec 19) (s : State) :
    exec (.sendDescriptor queue) s = .next (s.after (s.unlessHeld (if s.chimneyOn then s.sendNext queue.toNat else s))) := rfl

/-- R463: what sending leaves, once the descriptor and its parts are read; `n` descriptors await acknowledgement, and `i` is sent. -/
def State.sends (s : State) (q v n i : Nat) : Sending → State
  | .rc bs => s.rcSend q (.desc (BitVec.ofNat 64 i)) bs
  | .frame port f => ((s.transmit port f).completeDesc q i 0 s.txStamp).finishClose q
  | .ud port f => (((s.transmit port f).setQueue q (putBits v 640 24 (qPsnSend v + 1))).completeDesc q i 0 s.txStamp).finishClose q
  | .refused status => if n = 0 then (s.completeDesc q i status 0).finishClose q else s

/-- R463: the next descriptor of an active queue is read and what it asks for is sent. -/
theorem sendNext_sends (hu : s.useQueue q = (s1, v)) (hn : n = (s1.rcOf q).waiting) (hi : i = (qTxCons v + n) % 2 ^ 64)
    (hd : d = s1.descFound v (qDescAt v i))
    (hs2 : s2 = (s1.sourceRead (txKey v) (qDescAt v i) 32).readParts ((s1.sourceRead (txKey v) (qDescAt v i) 32).descParts v d))
    (ha : qActive v = true) (hdexp : qDexp v ≠ 0) (hmore : i ≠ qTxProd v)
    (hread : s1.lineStatus (txKey v) (lineOf (qDescAt v i)) = 0) (hgo : s1.mayGo v (s1.formSending q v d) = true)
    (hx : s1.formSending q v d = x) : s.sendNext q = s2.sends q v n i x := by
  have hnext : ¬((!(qActive v || s1.closing == some q) || qDexp v == 0 || i == qTxProd v) = true) := by
    rw [ha, beq_false_of_ne hdexp, beq_false_of_ne hmore]
    exact Bool.false_ne_true
  unfold State.sendNext
  rw [hx] at hgo
  simp only [hu, ← hn, ← hi, ← hd, hread, hx, hgo, if_true, Bool.not_true, Bool.false_eq_true, if_false, ← hs2]
  rw [if_neg hnext]
  cases x <;> rfl

end Sending

/-- Settles O33. -/
theorem queueCommands : Obligations.QueueCommands := by
  unfold Obligations.QueueCommands
  intro src queue index s q at' m s1 v a
  have hu : s.useQueue q = (s1, v) := rfl
  refine ⟨fun ho hb => ⟨fun hchip hnear hpoison hkey hidle hok => ?enable, fun ha => ⟨?flush, ?disable⟩, fun hsize hhead hheld => ?release,
    fun ha hmode => ?restart⟩, ⟨fun hon => ?parked, fun hon ha x => ⟨fun hd hown hx hroom => ?send, fun hsize hown hx hroom => ?tail⟩⟩, ?next⟩
  case enable => exact exec_qcmdEnable_does ho hb (queueEnable_caches rfl rfl hchip hnear hpoison hkey hidle hok)
  case flush => exact exec_qcmdFlush_does ho hb (queueFlush_stores hu ha)
  case disable => exact exec_qcmdDisable_does ho hb (queueDisable_closes hu ha)
  case release => exact exec_qcmdRelease_does ho hb (queueRelease_frees hu rfl hsize hhead hheld)
  case restart => exact fun hside => exec_qcmdRestart_does ho hb (queueRestart_clears hu ha hmode hside)
  case parked =>
    rw [exec_doorbellSendProducer, exec_doorbellReceiveTail, ringDoorbell_parks hon, ringDoorbell_parks hon]
    exact ⟨rfl, rfl⟩
  case send =>
    rw [exec_doorbellSendProducer, ringDoorbell_rings hon ((doorbellAt_queue s _ _).trans (doorbell_sends hu ha hd hown hx hroom))]
  case tail =>
    rw [exec_doorbellReceiveTail, ringDoorbell_rings hon ((doorbellAt_queue s _ _).trans (doorbell_frees hu ha hsize hown hx hroom))]
  case next =>
    intro n i d read s2 hon ha hdexp hmore hread hgo
    have hsends (x : Sending) (hx : s1.formSending q v d = x) :
        exec (.sendDescriptor queue) s = .next (s.after (s.unlessHeld (s2.sends q v n i x))) := by
      rw [exec_sendDescriptor, if_pos hon, sendNext_sends hu rfl rfl rfl rfl ha hdexp hmore hread hgo hx]
    refine ⟨fun port f hx => hsends (.frame port f) hx, fun port f hx => hsends (.ud port f) hx, fun bs hx => hsends (.rc bs) hx,
      fun st hx hn => ?_⟩
    have hstatus : s2.sends q v n i (.refused st) = (s2.completeDesc q i st 0).finishClose q := if_pos hn
    rw [hsends (.refused st) hx, hstatus]

end Sys2Proof.Machine
end

section
/-!
SUPPORT. What RoCE packets and the acknowledgement timeout do (R445, R466, R467), and the statement of those rules settled with it.
-/

namespace Sys2Proof.Machine

/-! ## Packets that arrive (R445, R466) -/

section Arrival

variable {h : RoceHead} {x : RoceSend} {w : RoceWrite} {va : Word} {rkey len : BitVec 32} {y : BitVec 8} {s : State}

/-- The packets of a queue pair, each with its command. -/
def pairPackets (h : RoceHead) (x : RoceSend) (w : RoceWrite) (va : Word) (rkey len : BitVec 32) (y : BitVec 8) :
    List (Instr × RoceKind) :=
  [(.roceSendReceive h x, .send x), (.rdmaWriteReceive h w, .write w), (.rdmaReadReceive h va rkey len, .read va rkey len),
    (.roceAckReceive h y, .ack y)]

/-- R445: a packet arrives, and what it would write into a line that is held waits. -/
theorem exec_pairPackets {k : Instr × RoceKind} (hk : k ∈ pairPackets h x w va rkey len y) (s : State) :
    exec k.1 s = .next (s.after (s.unlessHeld (s.roceArrive ⟨h, k.2⟩))) := by
  simp only [pairPackets, List.mem_cons, List.not_mem_nil, or_false] at hk
  obtain rfl | rfl | rfl | rfl := hk <;> rfl

/-- R445: while CHM0 is Quiesced a packet is counted and dropped. -/
theorem roceArrive_dropped {p : RocePacket} (h0 : s.blockOn Slot.chm0 = false) : s.roceArrive p = s.countPort p.head.port.toNat 4 1 := by
  unfold State.roceArrive
  exact if_pos (by rw [h0]; rfl)

/-- R445: while CHM1 is Quiesced a packet waits in the input buffer of its port. -/
theorem roceArrive_waits {p : RocePacket} (h0 : s.blockOn Slot.chm0 = true) (h1 : s.blockOn Slot.chm1 = false) :
    s.roceArrive p = s.holdWork p.head.port.toNat (.packet p) := by
  unfold State.roceArrive State.rocePacket
  exact (if_neg (by rw [h0]; decide)).trans (if_pos (by rw [h1]; rfl))

/-- R466: a packet reaches its queue pair. -/
theorem roceArrive_runs {p : RocePacket} (hon : s.chimneyOn = true) : s.roceArrive p = match p.kind with
    | .send x => s.roceSend p.head x
    | .write x => s.roceWrite p.head x
    | .read va rkey len => s.roceRead p.head va rkey len
    | .ack y => s.roceAck p.head y.toNat := by
  unfold State.chimneyOn at hon
  obtain ⟨h0, h1⟩ := Bool.and_eq_true_iff.mp hon
  unfold State.roceArrive State.rocePacket
  refine (if_neg (by rw [h0]; decide)).trans ((if_neg (by rw [h1]; decide)).trans ?_)
  cases p.kind <;> rfl

/-- R466: a packet of no queue pair leaves what looking for it left. -/
theorem roceArrive_noPair {k : RoceKind} {s1 : State} (hon : s.chimneyOn = true) (hq : s.roceQp h = (s1, none)) :
    s.roceArrive ⟨h, k⟩ = s1 := by
  rw [roceArrive_runs hon]
  cases k with
  | send x =>
    show s.roceSend h x = s1
    unfold State.roceSend
    rw [hq]
  | write w =>
    show s.roceWrite h w = s1
    unfold State.roceWrite
    rw [hq]
  | read va rkey len =>
    show s.roceRead h va rkey len = s1
    unfold State.roceRead
    rw [hq]
  | ack y =>
    show s.roceAck h y.toNat = s1
    unfold State.roceAck
    rw [hq]

end Arrival

/-! ## Packets of a queue pair (R466, R467) -/

section Pairs

variable {h : RoceHead} {s s1 : State} {v : Nat}

/-- R467: a whole SEND of the expected PSN that is placed is acknowledged. -/
theorem roceSend_placed {x : RoceSend} {s2 : State} (hq : s.roceQp h = (s1, some v)) (hmode : qRMode v = 1) (herr : qErr v = false)
    (horder : psnOrder v h.psn.toNat = .expected) (hfirst : x.first = true) (hlast : x.last = true) (hlen : x.payload.length ≤ 65535)
    (hroom : qSizeExp v ≠ 0 → s1.mirrorNames h.qp.toNat = false → 64 + x.payload.length ≤ 2 ^ qSizeExp v)
    (hplace : s1.placeSend h x x.payload = (s2, .placed)) : s.roceSend h x
      = ((s2.putRc { s2.rcOf h.qp.toNat with part := none }).psnAdvance h.qp.toNat 1).respond v h.psn.toNat 0 := by
  have hfits : ¬(65535 < x.payload.length
      ∨ ((qSizeExp v != 0 && !s1.mirrorNames h.qp.toNat) = true ∧ 2 ^ qSizeExp v < 64 + x.payload.length)) := by
    rintro (hlong | ⟨hring, hsize⟩)
    · omega
    · rw [Bool.and_eq_true, bne_iff_ne, Bool.not_eq_true'] at hring
      exact absurd (hroom hring.1 hring.2) (Nat.not_le.mpr hsize)
  unfold State.roceSend
  rw [hq]
  refine (if_pos hmode).trans ?_
  unfold State.rcSendIn
  simp only [herr, horder, hfirst, hlast, Bool.not_true, Bool.false_and, Bool.and_false, Bool.false_eq_true, if_false, if_true, ne_eq,
    not_true_eq_false, List.nil_append, hfits, hplace]

/-- R466: a UD SEND with its Q_Key is placed. -/
theorem roceSend_datagram {x : RoceSend} {u : UdInfo} (hq : s.roceQp h = (s1, some v)) (hmode : qRMode v ≠ 1) (hu : x.ud = some u)
    (hkey : u.qkey.toNat = qQKey v) : s.roceSend h x = (s1.place h.qp.toNat
      { stored := u.frame, doff := u.doff.toNat, flags := 16 + b2n x.imm.isSome * 32, port := h.port.toNat, tod := s1.rxStamp,
        imm := (x.imm.map (·.toNat)).getD 0, srcQp := u.srcQp.toNat }).1 := by
  unfold State.roceSend
  rw [hq]
  refine (if_neg hmode).trans ?_
  simp only [hu, hkey, ne_eq, not_true_eq_false, if_false]

/-- R467: a WRITE of one packet into an allowed region is written and acknowledged. -/
theorem roceWrite_writes {w : RoceWrite} (hq : s.roceQp h = (s1, some v)) (hmode : qRMode v = 1) (herr : qErr v = false)
    (horder : psnOrder v h.psn.toNat = .expected) (hfirst : w.first = true) (hlast : w.last = true) (hlen : w.payload.length ≤ w.len.toNat)
    (hok : s1.regionOk v w.va.toNat w.len.toNat w.rkey.toNat true = true) : s.roceWrite h w
      = (((s1.devWrite w.va.toNat w.payload).putRc { s1.rcOf h.qp.toNat with write := none }).psnAdvance h.qp.toNat 1).respond v
        h.psn.toNat 0 := by
  unfold State.roceWrite
  rw [hq]
  simp only [hmode, herr, horder, hfirst, hlast, hok, Nat.not_lt.mpr hlen, ne_eq, not_true_eq_false, Bool.false_eq_true, or_self, if_false,
    if_true, Bool.not_true, Bool.and_false, Bool.true_or]

/-- R467: a READ of an allowed region is answered in packets. -/
theorem roceRead_answers {va : Word} {rkey len : BitVec 32} (hq : s.roceQp h = (s1, some v)) (hmode : qRMode v = 1) (herr : qErr v = false)
    (horder : psnOrder v h.psn.toNat = .expected) (hok : s1.regionOk v va.toNat len.toNat rkey.toNat false = true)
    (hclean : len ≠ 0 → s1.anyPoison va.toNat len.toNat = false) {ps : List (List Byte)}
    (hps : ps = mtuPieces len.toNat (qPmtu v) (s1.bytes va.toNat len.toNat)) : s.roceRead h va rkey len
      = ((s1.devRead va.toNat len.toNat).emitAll v 0x0D 0x10 h.psn.toNat true ps 0).psnAdvance h.qp.toNat ps.length := by
  have hread : ¬((decide (len.toNat ≠ 0) && s1.anyPoison va.toNat len.toNat) = true) := by
    intro hbad
    obtain ⟨hlen, hpoison⟩ := Bool.and_eq_true_iff.mp hbad
    rw [hclean fun h0 => of_decide_eq_true hlen (by rw [h0]; rfl)] at hpoison
    exact Bool.noConfusion hpoison
  unfold State.roceRead
  rw [hq]
  simp only [hmode, herr, horder, hok, ← hps, ne_eq, not_true_eq_false, Bool.false_eq_true, or_self, if_false, if_true, Bool.not_true,
    reduceCtorEq]
  exact if_neg hread

/-- R467: an acknowledgement of a queue pair that is not in error. -/
theorem roceAck_acks {y : BitVec 8} (hq : s.roceQp h = (s1, some v)) (hmode : qRMode v = 1) (herr : qErr v = false) (hy : y.toNat < 32) :
    s.roceAck h y.toNat = s1.rcAcked h.qp.toNat h.psn.toNat := by
  unfold State.roceAck
  rw [hq]
  simp only [hmode, herr, ne_eq, not_true_eq_false, Bool.false_eq_true, or_self, if_false, Nat.div_eq_of_lt hy]

/-- R467: a sequence-error NAK sends the outstanding messages again. -/
theorem roceAck_resends (hq : s.roceQp h = (s1, some v)) (hmode : qRMode v = 1) (herr : qErr v = false) :
    s.roceAck h (0x60 : BitVec 8).toNat = (s1.rcAcked h.qp.toNat ((h.psn.toNat + 2 ^ 24 - 1) % 2 ^ 24)).rcResend h.qp.toNat := by
  unfold State.roceAck
  rw [hq]
  simp only [hmode, herr, ne_eq, not_true_eq_false, Bool.false_eq_true, or_self, if_false, show (0x60 : BitVec 8).toNat / 32 = 3 from rfl]
  exact if_pos rfl

theorem exec_rcAckTimeout (p : BitVec 16) (s : State) : exec (.rcAckTimeout p) s = .next (s.after (s.unlessHeld (s.rcTimeout p.toNat))) := rfl

/-- R467: a timeout sends everything again until RETRY is reached. -/
theorem rcTimeout_retries {qp : Nat} (hsent : (s.rcOf qp).sent ≠ []) (hon : s.blockOn Slot.chm1 = true) : s.rcTimeout qp
    = if s.fld Slot.chm1 Off.CHM1.RCCTL 16 3 ≤ (s.rcOf qp).tries + 1 then s.rcFail qp
      else (s.putRc { s.rcOf qp with tries := (s.rcOf qp).tries + 1 }).rcResend qp := by
  have hwaits : ¬(((s.rcOf qp).sent.isEmpty || !s.blockOn Slot.chm1) = true) := by
    rw [hon, Bool.not_true, Bool.or_false, List.isEmpty_iff]
    exact hsent
  unfold State.rcTimeout
  exact if_neg hwaits

end Pairs

/-- Settles O34. -/
theorem rocePackets : Obligations.RocePackets := by
  unfold Obligations.RocePackets
  intro h x w va rkey len y p s qp psn s1 kinds
  refine ⟨fun h0 k hk => ?dropped, fun h0 h1 k hk => ?waits, fun hon hnone k hk => ?noPair, fun hon v hv herr => ?pair,
    fun hsent hon => ?timeout⟩
  case dropped => rw [exec_pairPackets hk, roceArrive_dropped h0, unlessHeld_mem (State.countPort_mem _ _ _ _)]
  case waits => rw [exec_pairPackets hk, roceArrive_waits h0 h1, unlessHeld_mem (State.holdWork_mem _ _ _)]
  case noPair => rw [exec_pairPackets hk, roceArrive_noPair (s1 := s1) hon (Prod.ext rfl hnone)]
  case pair =>
    have hq : s.roceQp h = (s1, some v) := Prod.ext rfl hv
    have hruns (k : Instr × RoceKind) (hk : k ∈ pairPackets h x w va rkey len y) (t : State) (ht : s.roceArrive ⟨h, k.2⟩ = t) :
        exec k.1 s = .next (s.after (s.unlessHeld t)) := by rw [exec_pairPackets hk, ht]
    refine ⟨fun hmode horder hfirst hlast hlen hroom s2 hplace => ?send, fun u hmode hu hkey => ?datagram,
      fun hmode horder hfirst hlast hlen hok => ?write, fun hmode horder hok hclean => ?read, fun hmode => ⟨fun hy => ?ack, ?nak⟩⟩
    case send =>
      exact hruns (.roceSendReceive h x, .send x) (by simp [pairPackets]) _
        ((roceArrive_runs hon).trans (roceSend_placed hq hmode herr horder hfirst hlast hlen hroom hplace))
    case datagram =>
      exact hruns (.roceSendReceive h x, .send x) (by simp [pairPackets]) _
        ((roceArrive_runs hon).trans (roceSend_datagram hq hmode hu hkey))
    case write =>
      exact hruns (.rdmaWriteReceive h w, .write w) (by simp [pairPackets]) _
        ((roceArrive_runs hon).trans (roceWrite_writes hq hmode herr horder hfirst hlast hlen hok))
    case read =>
      exact hruns (.rdmaReadReceive h va rkey len, .read va rkey len) (by simp [pairPackets]) _
        ((roceArrive_runs hon).trans (roceRead_answers hq hmode herr horder hok hclean rfl))
    case ack =>
      exact hruns (.roceAckReceive h y, .ack y) (by simp [pairPackets]) _ ((roceArrive_runs hon).trans (roceAck_acks hq hmode herr hy))
    case nak =>
      rintro rfl
      exact hruns (.roceAckReceive h 0x60, .ack 0x60) (by simp [pairPackets]) _
        ((roceArrive_runs hon).trans (roceAck_resends hq hmode herr))
  case timeout => rw [exec_rcAckTimeout, rcTimeout_retries hsent hon]

end Sys2Proof.Machine
end

section
/-!
SUPPORT. What mirror messages, session starts, sent records and losses do (R264, R471 to R476), and the statement of those rules settled
with it.
-/

namespace Sys2Proof.Machine

/-! ## Messages that arrive (R445, R471) -/

section Arrival

variable {m : MirrorHead} {msg : MirrorMsg} {a : Instr × MirrorMsg} {s t : State}

/-- A command that brings a mirror message. -/
def BringsMirror (m : MirrorHead) (a : Instr × MirrorMsg) : Prop :=
  ∀ s, exec a.1 s = .next (s.after (s.unlessHeld (s.mirrorArrive m a.2)))

/-- R445: while CHM0 is Quiesced a message is counted and dropped. -/
theorem mirror_dropped (ha : BringsMirror m a) (h0 : s.blockOn Slot.chm0 = false) :
    exec a.1 s = .next (s.after (s.countPort (qPort (s.queue m.qp.toNat)) 4 1)) := by
  have hdrop : s.mirrorArrive m a.2 = s.countPort (qPort (s.queue m.qp.toNat)) 4 1 := by
    unfold State.mirrorArrive
    exact if_pos (by rw [h0]; rfl)
  rw [ha s, hdrop, unlessHeld_mem (State.countPort_mem _ _ _ _)]

/-- R445: while CHM1 is Quiesced a message waits in the input buffer of its port. -/
theorem mirror_waits (ha : BringsMirror m a) (h0 : s.blockOn Slot.chm0 = true) (h1 : s.blockOn Slot.chm1 = false) :
    exec a.1 s = .next (s.after (s.holdWork (qPort (s.queue m.qp.toNat)) (.mirror m a.2))) := by
  have hwait : s.mirrorArrive m a.2 = s.holdWork (qPort (s.queue m.qp.toNat)) (.mirror m a.2) := by
    unfold State.mirrorArrive
    exact (if_neg (by rw [h0]; decide)).trans (if_pos (by rw [h1]; rfl))
  rw [ha s, hwait, unlessHeld_mem (State.holdWork_mem _ _ _)]

/-- R471: a message reaches this side. -/
theorem mirror_reaches (ha : BringsMirror m a) (hon : s.chimneyOn = true) (ht : s.mirrorIn m a.2 = t) :
    exec a.1 s = .next (s.after (s.unlessHeld t)) := by
  unfold State.chimneyOn at hon
  obtain ⟨h0, h1⟩ := Bool.and_eq_true_iff.mp hon
  have hin : s.mirrorArrive m a.2 = s.mirrorIn m a.2 := by
    unfold State.mirrorArrive
    exact (if_neg (by rw [h0]; decide)).trans (if_neg (by rw [h1]; decide))
  rw [ha s, hin, ht]

theorem bringsMirror_hello (m : MirrorHead) (na : BitVec 256) (pub eph : BitVec 512) :
    BringsMirror m (.hello m na pub eph, .hello na pub eph) := fun _ => rfl
theorem bringsMirror_helloReply (m : MirrorHead) (nb : BitVec 256) (pub eph sig : BitVec 512) :
    BringsMirror m (.helloReply m nb pub eph sig, .helloReply nb pub eph sig) := fun _ => rfl
theorem bringsMirror_confirm (m : MirrorHead) (sig : BitVec 512) : BringsMirror m (.confirm m sig, .confirm sig) := fun _ => rfl
theorem bringsMirror_close (m : MirrorHead) (reason : BitVec 32) : BringsMirror m (.close m reason, .close reason) := fun _ => rfl
theorem bringsMirror_resume (m : MirrorHead) (ring : BitVec 12) (seq : Word) (chain : BitVec 256) :
    BringsMirror m (.resume m ring seq chain, .resume ring seq chain) := fun _ => rfl
theorem bringsMirror_ack (m : MirrorHead) (ring : BitVec 12) (seq : Word) (chain : BitVec 256) :
    BringsMirror m (.ack m ring seq chain, .ack ring seq chain) := fun _ => rfl
theorem bringsMirror_records (m : MirrorHead) (ring : BitVec 12) (seq : Word) (recs : List (BitVec 1024)) :
    BringsMirror m (.records m ring seq recs, .records ring seq recs) := fun _ => rfl

theorem exec_mirrorSessionStart (set : BitVec 3) (peer : Bool) (s : State) :
    exec (.mirrorSessionStart set peer) s = .next (s.after (s.mirrorStart set.toNat peer)) := rfl
theorem exec_mirrorRecordsSend (set : BitVec 3) (peer : Bool) (ring : BitVec 12) (s : State) :
    exec (.mirrorRecordsSend set peer ring) s = .next (s.after (s.unlessHeld (s.recordsSend set.toNat peer ring))) := rfl
theorem exec_mirrorLossTimeout (set : BitVec 3) (peer : Bool) (s : State) :
    exec (.mirrorLossTimeout set peer) s = .next (s.after (s.unlessHeld (s.mirrorTimeout set.toNat peer))) := rfl

end Arrival

/-! ## The handshake (R472) -/

section Handshake

variable {s s1 : State} {i q k : Nat} {peer : Bool} {x : Session}

/-- R472: a session starts when its queue pair is ready. -/
theorem mirrorStart_asks (hon : s.blockOn Slot.chm1 = true) (hname : s.setNames i peer = true) (hrole : s.setShadow i = false)
    (hready : s.qpReady (s.setQp i peer) = true) (hnone : s.session? i peer = none) (hlost : s.lost.contains (2 * i + b2n peer) = false) :
    s.mirrorStart i peer = (s.putSession (Session.new i peer .wantHello)).askLeave (.handshake (BitVec.ofNat 3 i) peer) := by
  unfold State.mirrorStart
  refine if_neg ?_
  rw [hon, hname, hrole, hready, hnone, hlost]
  decide

/-- R543: asking for leave leaves memory. -/
theorem askLeave_mem (s : State) (r : LeaveReq) : (s.askLeave r).mem = s.mem := by
  unfold State.askLeave
  split
  · split <;> rfl
  · rfl

/-- R472: HELLO with the enrolled key makes the shadow ask for leave. -/
theorem onHello_asks {na : BitVec 256} {pub eph : BitVec 512} (hside : s.sideOf q = some (i, peer)) (hrole : s.setShadow i = true)
    (hlive : s.peerLive i peer = false) (hctr : bitAt k 63 = false)
    (hx : x = { Session.new i peer .wantReply with na := na, ea := eph, pub := pub, rx := k % 2 ^ 63 + 1 })
    (hs1 : s1 = { s.putSession x with lost := s.lost.filter (· != 2 * i + b2n peer) }) (hkey : s1.peerKeyOk i peer pub = true) :
    s.onHello q k na pub eph = s1.askLeave (.handshake (BitVec.ofNat 3 i) peer) := by
  unfold State.onHello
  simp only [hside, hrole, hlive, hctr, ← hx, ← hs1, hkey, Bool.not_true, Bool.or_self, Bool.false_eq_true, if_false]

/-- R472: HELLO-REPLY with the enrolled key and a signature that holds establishes the session. -/
theorem onHelloReply_establishes {nb : BitVec 256} {pub eph sig : BitVec 512} {x' z : Session} {s2 : State}
    (hr : s.receiveMsg q k true = (s1, some x)) (hphase : x.phase = .helloSent) (hx' : x' = { x with nb := nb, eb := eph, pub := pub })
    (hs2 : s2 = (s1.sign x'.confirmDigest).1.mirrorSend x' 3 0 0 0 (s1.sign x'.confirmDigest).2 false)
    (hkey : s1.peerKeyOk x.set.toNat x.peer pub = true) (hsig : sm2Verify (vecBytes 64 pub) x'.replyDigest (vecBytes 64 sig) = true)
    (hz : s2.session? x.set.toNat x.peer = some z) :
    s.onHelloReply q k nb pub eph sig = s2.establish { z with phase := .confirmed } eph := by
  unfold State.onHelloReply
  rw [hr]
  refine (if_neg (not_not_intro hphase)).trans ?_
  simp only [← hx', hkey, hsig, ← hs2, hz, Bool.not_true, Bool.or_self, Bool.false_eq_true, if_false]

/-- R472: CONFIRM whose signature holds establishes the session, and another closes it. -/
theorem onConfirm_ends {sig : BitVec 512} (hr : s.receiveMsg q k true = (s1, some x)) (hphase : x.phase = .replySent) :
    s.onConfirm q k sig = if sm2Verify (vecBytes 64 x.pub) x.confirmDigest (vecBytes 64 sig)
      then (s1.establish x x.ea).sendResumes x.set.toNat else s1.failSession x := by
  unfold State.onConfirm
  rw [hr]
  dsimp only
  rw [if_neg (not_not_intro hphase)]
  by_cases hsig : sm2Verify (vecBytes 64 x.pub) x.confirmDigest (vecBytes 64 sig) = true
  · rw [if_pos hsig, if_neg (by rw [hsig]; decide)]
  · rw [if_neg hsig, if_pos (by rw [Bool.eq_false_iff.mpr hsig]; rfl)]

/-- R474: CLOSE loses the peer. -/
theorem onClose_loses {tagOk : Bool} (hr : s.receiveMsg q k tagOk = (s1, some x)) :
    s.onClose q k tagOk = s1.peerLost x.set.toNat x.peer 5 := by
  unfold State.onClose
  rw [hr]

/-- R474: a time without progress loses the peer. -/
theorem mirrorTimeout_loses (hx : s.session? i peer = some x) (hphase : x.phase = .live) (hon : s.blockOn Slot.chm1 = true)
    (hout : x.marks.any (fun n => decide (0 < seqDiff n.sent.toNat (s.ackOf n.ring.toNat peer))) = true) :
    s.mirrorTimeout i peer = s.peerLost i peer 3 := by
  unfold State.mirrorTimeout
  rw [hx]
  exact if_pos ⟨hphase, hout, hon⟩

end Handshake

/-! ## Records (R264, R473, R474, R476) -/

section Records

variable {s s1 s2 : State} {x : Session} {n : RingMark} {q k i r : Nat} {tagOk : Bool} {ring : BitVec 12} {seq : Nat} {c : List Byte}
  {e : Ring}

/-- R243: reading a ring table entry. -/
theorem readRing_eq (s : State) (r : Nat) : s.readRing r = (s.devRead (s.ringAt r) 128, s.ring r) := rfl

/-- R473: RESUME marks the ring when its chain confirms the place, and breaks the chain otherwise. -/
theorem onResume_confirms (hr : s.receiveMsg q k tagOk = (s1, some x)) (hphase : x.phase = .live) (hrole : s1.setShadow x.set.toNat = false)
    (he : e = s1.ring ring.toNat) (hs2 : s2 = s1.devRead (s1.ringAt ring.toNat) 128) {ok : Bool}
    (hok : ok = (e.mirrors x.set.toNat x.peer && ((seq == e.head && c == e.chain)
      || (decide (seqSub (seqSub seq 1) e.tail < seqSub e.head e.tail) && c == s2.chainAt e (seqSub seq 1))))) :
    s.onResume q k tagOk ring seq c = if ok then (s2.putSession (x.setMark ring seq)).noteAck ring.toNat x.peer seq
      else s2.chainBreak x ring.toNat (e.slot (seqSub seq 1)) := by
  unfold State.onResume
  rw [hr]
  refine (if_neg (by rw [hphase, hrole]; decide)).trans ?_
  rw [readRing_eq, ← he, ← hs2, hok]

/-- R474: ACK of a sent record whose chain agrees moves the peer's acknowledgement on. -/
theorem onAck_advances (hr : s.receiveMsg q k tagOk = (s1, some x)) (hphase : x.phase = .live) (hrole : s2.setShadow x.set.toNat = false)
    (he : e = s1.ring ring.toNat) (hs2 : s2 = s1.devRead (s1.ringAt ring.toNat) 128) (hmirrors : e.mirrors x.set.toNat x.peer = true)
    (hmark : x.mark ring = some n) (hsent : seqDiff seq n.sent.toNat < 0) (hheld : 0 ≤ seqDiff seq e.tail) (hchain : s2.chainAt e seq = c)
    {s3 : State} (hs3 : s3 = s2.devRead (e.slot seq + 96) 32) (hnew : 0 < seqDiff (seq + 1) (s3.ackOf ring.toNat x.peer)) :
    s.onAck q k tagOk ring seq c = s3.noteAck ring.toNat x.peer (seq + 1) := by
  unfold State.onAck
  rw [hr]
  simp only [readRing_eq, ← he, ← hs2]
  refine (if_neg (by rw [hphase, hrole, hmirrors]; decide)).trans ?_
  rw [hmark]
  refine (if_neg (Int.not_le.mpr hsent)).trans ((if_neg (Int.not_lt.mpr hheld)).trans ((if_neg (not_not_intro hchain)).trans ?_))
  rw [← hs3]
  exact if_neg (Int.not_le.mpr hnew)

section Shadow

variable {side : Bool} {rs : List (List Byte)} (hside : s.sideOf q = some (i, side)) (hrole : s.setShadow i = true)
  (he : e = s.ring ring.toNat) (hen : e.en = true) (hpeers : e.npeer = 0) (hset : e.mset = i) (hseq : seqDiff seq e.head ≤ 0)
  (hroom : s.shadowFull ring.toNat seq rs.length = false) (hr : s.receiveMsg q k tagOk = (s1, some x)) (hphase : x.phase = .live)

include hside hrole he hen hpeers hset hseq hroom hr hphase

/-- R476: RECORDS of a shadow ring with room, whose chain holds, are appended and acknowledged. -/
theorem onRecords_appends (hshadow : s1.shadowRecords ring.toNat seq rs = (s2, none)) : (s.onRecords q k tagOk ring seq rs).1
    = s2.mirrorSend x 0x11 ring.toNat 0 (seqSub (s2.ring ring.toNat).head 1) (s2.ring ring.toNat).chain false := by
  have hmine : (e.en && e.npeer == 0 && e.mset == i && s.setShadow i) = true := by
    rw [hen, hpeers, hset, hrole, beq_self_eq_true, beq_self_eq_true]
    rfl
  unfold State.onRecords
  simp only [← he, hside, hmine, hroom, hr, hphase, Int.not_lt.mpr hseq, hshadow, Bool.and_false, Bool.false_eq_true, if_false, ne_eq,
    not_true_eq_false, Bool.not_true, or_self]

/-- R476: RECORDS of a shadow ring with room whose chain fails break the chain. -/
theorem onRecords_breaks {a : Nat} (hshadow : s1.shadowRecords ring.toNat seq rs = (s2, some a)) :
    (s.onRecords q k tagOk ring seq rs).1 = s2.chainBreak x ring.toNat a := by
  have hmine : (e.en && e.npeer == 0 && e.mset == i && s.setShadow i) = true := by
    rw [hen, hpeers, hset, hrole, beq_self_eq_true, beq_self_eq_true]
    rfl
  unfold State.onRecords
  simp only [← he, hside, hmine, hroom, hr, hphase, Int.not_lt.mpr hseq, hshadow, Bool.and_false, Bool.false_eq_true, if_false, ne_eq,
    not_true_eq_false, Bool.not_true, or_self]

end Shadow

/-- R474: the primary sends the next records of a ring to a live peer for which none waits. -/
theorem recordsSend_sends {peer : Bool} {g : Nat} {slots : List Nat} {looked : State} (hon : s.chimneyOn = true)
    (he : e = s.ring ring.toNat) (hg : g = min 32 (seqSub e.head n.sent.toNat))
    (hslots : slots = (List.range g).map (fun j => e.slot (n.sent.toNat + j))) (hlooked : looked = s.devRead (s.ringAt ring.toNat) 128)
    (hx : s.session? i peer = some x) (hmark : x.mark ring = some n) (hphase : x.phase = .live) (hrole : s.setShadow i = false)
    (hmirrors : e.mirrors i peer = true) (hrun : s.halted.contains ring = false) (hsome : g ≠ 0)
    (hwaiting : s.recordsWaiting (s.setQp i peer) ring = false)
    (hclean : slots.any (fun a => looked.anyPoison a 128 || looked.keyLost a) = false) : s.recordsSend i peer ring
      = (slots.foldl (fun s a => s.devRead a 128) looked).mirrorSend (x.setMark ring (n.sent.toNat + g)) 0x10 ring.toNat g n.sent.toNat
        (slots.flatMap (fun a => looked.bytes a 128)) true := by
  have hgo : ¬(x.phase ≠ .live ∨ s.setShadow i = true ∨ (!e.mirrors i peer) = true ∨ s.halted.contains ring = true ∨ g = 0
      ∨ (!s.chimneyOn) = true ∨ s.recordsWaiting (s.setQp i peer) ring = true) := by
    rw [hphase, hrole, hmirrors, hrun, hon, hwaiting]
    simp only [ne_eq, not_true_eq_false, Bool.false_eq_true, Bool.not_true, hsome, or_self, not_false_eq_true]
  unfold State.recordsSend
  rw [← he, hx]
  simp only [hmark, ← hg]
  refine (if_neg hgo).trans ?_
  rw [← hslots, ← hlooked]
  exact if_neg (by rw [hclean]; decide)

end Records

/-- Settles O35. -/
theorem mirrorMessages : Obligations.MirrorMessages := by
  unfold Obligations.MirrorMessages
  refine ⟨fun set peer m na nb pub eph sig reason s => ?handshake, fun set peer m ring seq chain recs s s1 x n hon => ?records⟩
  case handshake =>
    intro i q k kinds
    have hbrings (a : Instr × MirrorMsg) (ha : a ∈ kinds) : BringsMirror m a := by
      simp only [kinds, List.mem_cons, List.not_mem_nil, or_false] at ha
      obtain rfl | rfl | rfl | rfl := ha
      · exact bringsMirror_hello m na pub eph
      · exact bringsMirror_helloReply m nb pub eph sig
      · exact bringsMirror_confirm m sig
      · exact bringsMirror_close m reason
    refine ⟨fun h0 a ha => mirror_dropped (hbrings a ha) h0, fun h0 h1 a ha => mirror_waits (hbrings a ha) h0 h1,
      fun hon hname hrole hready hnone hlost => ?start, fun hon j side hside hrole hlive hctr => ?hello,
      fun hon s1 x hr => ⟨fun hphase => ?reply, fun hphase => ?confirm⟩, fun hon s1 x hr => ?close, fun x hx hphase hon hout => ?timeout⟩
    case start => rw [exec_mirrorSessionStart, mirrorStart_asks hon hname hrole hready hnone hlost]
    case hello =>
      intro x s1 hkey
      exact (mirror_reaches (bringsMirror_hello m na pub eph) hon (onHello_asks hside hrole hlive hctr rfl rfl hkey)).trans
        (congrArg (fun t => Host.Outcome.next (s.after t)) (unlessHeld_mem (askLeave_mem s1 _)))
    case reply =>
      intro x' s2 hkey hsig z hz
      exact mirror_reaches (bringsMirror_helloReply m nb pub eph sig) hon (onHelloReply_establishes hr hphase rfl rfl hkey hsig hz)
    case confirm => exact mirror_reaches (bringsMirror_confirm m sig) hon (onConfirm_ends hr hphase)
    case close => exact mirror_reaches (bringsMirror_close m reason) hon (onClose_loses hr)
    case timeout => rw [exec_mirrorLossTimeout, mirrorTimeout_loses hx hphase hon hout]
  case records =>
    intro i r c e s2
    refine ⟨fun hr hphase hrole2 hrole1 => ⟨?resume, fun hmirrors hmark hsent hheld hchain => ?ack⟩, fun j side hside hrole => ?shadow, ?send⟩
    case resume => exact mirror_reaches (bringsMirror_resume m ring seq chain) hon (onResume_confirms hr hphase hrole1 rfl rfl rfl)
    case ack =>
      intro s3 hnew
      exact mirror_reaches (bringsMirror_ack m ring seq chain) hon
        (onAck_advances hr hphase hrole2 rfl rfl hmirrors hmark hsent hheld hchain rfl hnew)
    case shadow =>
      intro b rs hen hpeers hset hseq hroom hr hphase
      exact ⟨fun hnone => mirror_reaches (bringsMirror_records m ring seq recs) hon
          (onRecords_appends hside hrole rfl hen hpeers hset hseq hroom hr hphase (Prod.ext rfl hnone)),
        fun a hsome => mirror_reaches (bringsMirror_records m ring seq recs) hon
          (onRecords_breaks hside hrole rfl hen hpeers hset hseq hroom hr hphase (Prod.ext rfl hsome))⟩
    case send =>
      intro b g slots looked hx hmark hphase hrole hmirrors hrun hsome hwaiting hclean
      rw [exec_mirrorRecordsSend, recordsSend_sends hon rfl rfl rfl rfl hx hmark hphase hrole hmirrors hrun hsome hwaiting hclean]

end Sys2Proof.Machine
end

section
/-!
SUPPORT. What Bellows' commands do (R480 to R482, R484, R489, R491, R492), and the statement of those rules settled with it.
-/

namespace Sys2Proof.Machine

/-! ## CHCMD and the doorbell (R480 to R482) -/

section Channels

variable {src : Src} {chan : BitVec 6} {index : BitVec 32} {s t : State} {k : Chan}

theorem exec_chcmdEnable (src : Src) (chan : BitVec 6) (s : State) :
    exec (.chcmdEnable src chan) s = outcome s (s.regWrite src Slot.bel Off.BEL.CHCMD (chan.toNat + 1 * 2 ^ 8)) := rfl
theorem exec_chcmdDisable (src : Src) (chan : BitVec 6) (s : State) :
    exec (.chcmdDisable src chan) s = outcome s (s.regWrite src Slot.bel Off.BEL.CHCMD (chan.toNat + 2 * 2 ^ 8)) := rfl
theorem exec_belDoorbell (src : Src) (chan : BitVec 6) (index : BitVec 32) (s : State) : exec (.belDoorbell src chan index) s
    = outcome s (s.regWrite src Slot.bel Off.BEL.DOORBELL (chan.toNat + index.toNat * 2 ^ 32)) := rfl

/-- R480: CHCMD is BUSY as it shows itself. -/
theorem cmdBusy_chcmd (s : State) : s.cmdBusy Slot.bel Off.BEL.CHCMD = s.flag Slot.bel Off.BEL.CHCMD 32 := by
  unfold State.cmdBusy
  rw [show busyBit Slot.bel Off.BEL.CHCMD = some (Off.BEL.CHCMD, 32, none) from rfl]

/-- R480: the action of CHCMD. -/
theorem act_chcmd (s : State) (v : Nat) (x : Outside) :
    s.act Slot.bel Off.BEL.CHCMD v x = s.chanCommand (bitsOf v 8 4) (BitVec.ofNat 6 v) := by
  unfold State.act
  rw [show pageKind Slot.bel = some PageKind.bel from rfl]
  exact if_pos rfl

/-- R482: the action of the doorbell. -/
theorem act_belDoorbell (s : State) (v : Nat) (x : Outside) :
    s.act Slot.bel Off.BEL.DOORBELL v x = s.belDoorbell (BitVec.ofNat 6 v) (bitsOf v 32 32) := by
  unfold State.act
  rw [show pageKind Slot.bel = some PageKind.bel from rfl]
  exact (if_neg (by decide)).trans (if_pos rfl)

/-- R480: a channel command that Bellows obeys. -/
theorem regWrite_chcmd (ho : s.obeys src Slot.bel) (hb : s.flag Slot.bel Off.BEL.CHCMD 32 = false) {op : Nat} (hop : op < 2 ^ 4) :
    s.regWrite src Slot.bel Off.BEL.CHCMD (chan.toNat + op * 2 ^ 8) = .ok (s.chanCommand op chan) := by
  have hwrite := commandRegister_chcmd.obeyed (v := chan.toNat + op * 2 ^ 8) (x := {}) ho ((cmdBusy_chcmd s).trans hb)
  rw [act_chcmd, bitsOf_above (Nat.lt_of_lt_of_le chan.isLt (by decide)), Nat.mod_eq_of_lt hop, ofNat_below chan op (by decide)] at hwrite
  exact hwrite

theorem exec_chcmdEnable_does (ho : s.obeys src Slot.bel) (hb : s.flag Slot.bel Off.BEL.CHCMD 32 = false) (ht : s.chanEnable chan = t) :
    exec (.chcmdEnable src chan) s = .next (s.after t) := by
  rw [exec_chcmdEnable, regWrite_chcmd ho hb (by decide)]
  exact congrArg (fun x => outcome s (.ok x)) ht

theorem exec_chcmdDisable_does (ho : s.obeys src Slot.bel) (hb : s.flag Slot.bel Off.BEL.CHCMD 32 = false) (ht : s.chanDisable chan = t) :
    exec (.chcmdDisable src chan) s = .next (s.after t) := by
  rw [exec_chcmdDisable, regWrite_chcmd ho hb (by decide)]
  exact congrArg (fun x => outcome s (.ok x)) ht

/-- R482: a doorbell that Bellows obeys. -/
theorem exec_belDoorbell_does (ho : s.obeys src Slot.bel) (ht : s.belDoorbell chan index.toNat = t) :
    exec (.belDoorbell src chan index) s = .next (s.after t) := by
  have hwrite := commandRegister_belDoorbell.obeyed (v := chan.toNat + index.toNat * 2 ^ 32) (x := {}) ho (cmdBusy_none (by decide))
  rw [act_belDoorbell, bitsOf_above (Nat.lt_of_lt_of_le chan.isLt (by decide)), Nat.mod_eq_of_lt index.isLt,
    ofNat_below chan index.toNat (by decide), ht] at hwrite
  exact (exec_belDoorbell src chan index s).trans (congrArg (outcome s) hwrite)

/-- R481: a channel as its table entry at `a` describes it. -/
def State.chanFound (s : State) (chan : BitVec 6) (a : Nat) : Chan :=
  { chan := chan, rbase := BitVec.ofNat 64 (s.ld a 8), dexp := bitsOf (s.ld (a + 8) 8) 0 5,
    key := BitVec.ofNat 4 (bitsOf (s.ld (a + 8) 8) 5 4), prod := BitVec.ofNat 64 (s.ld (a + 0x10) 8),
    cons := BitVec.ofNat 64 (s.ld (a + 0x18) 8), work := none }

/-- R481: ENABLE of a channel whose entry passes its checks. -/
theorem chanEnable_enables {a rbase ctl prod cons dexp : Nat} (ha : s.chanAt chan.toNat = a) (hnear : s.nearPop a = true)
    (hpoison : s.poisoned a = false) (hrbase : s.ld a 8 = rbase) (hctl : s.ld (a + 8) 8 = ctl) (hprod : s.ld (a + 0x10) 8 = prod)
    (hcons : s.ld (a + 0x18) 8 = cons) (hdexp : bitsOf ctl 0 5 = dexp) (hzero : bitsOf ctl 9 54 = 0) (hrest : s.ld (a + 0x20) 32 = 0)
    (hmin : 4 ≤ dexp) (hmax : dexp ≤ 16) (halign : rbase % (2 ^ dexp * 64) = 0) (hrange : s.nearRange rbase (2 ^ dexp * 64) = true)
    (hlow : cons ≤ prod) (hhigh : prod ≤ cons + 2 ^ dexp) : s.chanEnable chan
      = ((({ s with chans := s.chans.filter (·.chan != chan) ++ [s.chanFound chan a] } : State).devRead a 64).devWrite (a + 8)
          (leBytes 8 (putBits ctl 63 1 1))).chcmdSts false := by
  have hok : (bitsOf ctl 9 54 == 0 && s.ld (a + 0x20) 32 == 0 && decide (4 ≤ dexp ∧ dexp ≤ 16) && rbase % (2 ^ dexp * 64) == 0
      && s.nearRange rbase (2 ^ dexp * 64) && decide (cons ≤ prod ∧ prod ≤ cons + 2 ^ dexp)) = true := by
    rw [hzero, hrest, halign, hrange, decide_eq_true ⟨hmin, hmax⟩, decide_eq_true ⟨hlow, hhigh⟩]
    rfl
  unfold State.chanEnable State.chanFound
  simp only [ha, hnear, hpoison, hrbase, hctl, hprod, hcons, hdexp, hok, Bool.not_true, Bool.or_self, Bool.false_eq_true, if_false]

/-- R543: a channel withdraws its request for leave from every queue of the damper. -/
theorem dropBellowsLeave_eq (s : State) (chan : BitVec 6) : s.dropBellowsLeave chan = s.leaveDropped (.bellows chan) := by
  unfold State.dropBellowsLeave State.leaveDropped
  congr 1
  exact Vector.ext fun i hi => by simp

/-- R480: DISABLE of an active channel without work. -/
theorem chanDisable_idle (hk : s.chan chan = some k) (hw : k.work = none) :
    s.chanDisable chan = ((s.leaveDropped (.bellows chan)).chanOff k).chcmdSts false := by
  have hstays : (s.leaveDropped (.bellows chan)).chan chan = some k := hk
  unfold State.chanDisable
  simp only [hk, hw, dropBellowsLeave_eq, hstays]

/-- R480: DISABLE of a channel that is not active. -/
theorem chanDisable_refused (hk : s.chan chan = none) : s.chanDisable chan = s.chcmdSts true := by
  unfold State.chanDisable
  rw [hk]

/-- R482: a doorbell of a channel that is not active. -/
theorem belDoorbell_refused {i : Nat} (hk : s.chan chan = none) : s.belDoorbell chan i = s.belDbErr := by
  unfold State.belDoorbell
  rw [hk]

/-- R482: a doorbell that keeps within the ring. The kernel is kept from evaluating `extendIndex`, as in `doorbell_moves`. -/
theorem belDoorbell_moves {i v : Nat} (hk : s.chan chan = some k) (hv : extendIndex k.prod.toNat i = some v)
    (hroom : seqSub v k.cons.toNat ≤ 2 ^ k.dexp) : s.belDoorbell chan i = s.putChan { k with prod := BitVec.ofNat 64 v } := by
  have hdef : State.belDoorbell = State.belDoorbell := rfl
  revert hdef
  conv in State.belDoorbell = _ => rhs; delta State.belDoorbell
  generalize extendIndex = extended at hv ⊢
  generalize State.belDoorbell = rung
  revert rung hv extended
  refine id ?_
  rintro extended hv _ rfl
  simp only [hk, hv, Nat.not_lt.mpr hroom, if_false]

end Channels

/-! ## Descriptors (R484, R489, R491, R492) -/

section Descriptors

variable {chan : BitVec 6} {limit : Option Nat} {s s1 : State} {k : Chan} {w : BelWork}

/-- R484: an operation works on the descriptor of its channel. -/
theorem exec_bellowsOps {a : (BitVec 6 → Option Nat → Instr) × Nat} (ha : a ∈ bellowsOps) (chan : BitVec 6) (limit : Option Nat) (s : State) :
    exec (a.1 chan limit) s = .next (s.after (s.unlessHeld (s.belOperate a.2 chan limit))) := by
  simp only [bellowsOps, List.mem_cons, List.not_mem_nil, or_false] at ha
  obtain rfl | rfl | rfl | rfl | rfl | rfl | rfl := ha <;> rfl

theorem exec_belDescriptorComplete (chan : BitVec 6) (s : State) :
    exec (.belDescriptorComplete chan) s = .next (s.after (s.unlessHeld (s.belComplete chan))) := rfl

section Started

variable (hs : s.belStart chan = (s1, some (k, w)))

include hs

/-- R491: a long descriptor asks for leave first. -/
theorem belOperate_asks {op : Nat} (hop : w.op = op) (hl : w.needsLeave = true) :
    s.belOperate op chan limit = (s1.putChan { k with work := some w }).askLeave (.bellows chan) := by
  unfold State.belOperate
  rw [hs]
  exact (if_neg (not_not_intro hop)).trans (if_pos hl)

/-- R489: otherwise up to the given lines are done. -/
theorem belOperate_works {op : Nat} (hop : w.op = op) (hl : w.needsLeave = false) : s.belOperate op chan limit
    = (s1.belRun k.key w (limit.getD (w.total + 1))).1.putChan
      { k with work := some (s1.belRun k.key w (limit.getD (w.total + 1))).2 } := by
  unfold State.belOperate
  rw [hs]
  exact (if_neg (not_not_intro hop)).trans (if_neg (by rw [hl]; decide))

/-- R492: the descriptor that has ended well, completed but for its event. -/
def State.belDone (s : State) (k : Chan) (w : BelWork) : State :=
  let a := k.descAt k.cons.toNat
  ((s.devWrite (a + 0x20) w.result).devWrite a (leBytes 8 (putBits (putBits (s.ld a 8) 5 1 1) 16 8 0))).putChan
    { k with cons := k.cons + 1, work := none }

/-- R492: the completion event of a descriptor is sent. -/
def State.completionSent (s : State) : Option (BitVec 20) → State
  | some ctx => s.deliverCtx 2 ctx
  | none => s

/-- R492: a descriptor that has ended well is completed. -/
theorem belComplete_completes (hstop : w.stop = some 0) (hnear : s1.nearPop (k.descAt k.cons.toNat) = true)
    (hkey : s1.keyLost (k.descAt k.cons.toNat) = false)
    (hallow : keyAllows (s1.keyByte (k.descAt k.cons.toNat)) k.key.toNat true = true) :
    s.belComplete chan = (s1.belDone k w).completionSent w.event := by
  have hstatus : (0 : BitVec 8).toNat = 0 := rfl
  have hfinish : s1.belFinish k w 0 = (s1.belDone k w).completionSent w.event := by
    unfold State.belFinish State.belDone
    simp only [hnear, hkey, hallow, hstatus, Bool.not_true, Bool.or_self, Bool.false_eq_true, if_false, if_true]
    rfl
  unfold State.belComplete
  rw [hs]
  dsimp only
  rw [hstop]
  exact hfinish

end Started
end Descriptors

/-- Settles O36. -/
theorem bellowsCommands : Obligations.BellowsCommands := by
  unfold Obligations.BellowsCommands
  refine ⟨fun src chan index s k ho => ?channels, fun chan limit s s1 k w hs => ⟨fun a ha hop => ⟨fun hl => ?asks, fun hl => ?works⟩, ?done⟩⟩
  case channels =>
    intro a ctl rbase prod cons dexp new idle
    refine ⟨fun hb hnear hpoison hzero hrest hmin hmax halign hrange hlow hhigh => ?enable, fun hb hk hw => ?disable,
      fun hk => ⟨fun hb => ?inactive, ?ignored⟩, fun v hk hv hroom => ?moves⟩
    case enable =>
      exact exec_chcmdEnable_does ho hb
        (chanEnable_enables rfl hnear hpoison rfl rfl rfl rfl rfl hzero hrest hmin hmax halign hrange hlow hhigh)
    case disable => exact exec_chcmdDisable_does ho hb (chanDisable_idle hk hw)
    case inactive => exact exec_chcmdDisable_does ho hb (chanDisable_refused hk)
    case ignored => exact exec_belDoorbell_does ho (belDoorbell_refused hk)
    case moves => exact exec_belDoorbell_does ho (belDoorbell_moves hk hv hroom)
  case asks => rw [exec_bellowsOps ha, belOperate_asks hs hop hl]
  case works => rw [exec_bellowsOps ha, belOperate_works hs hop hl]
  case done =>
    intro a hstop hnear hkey hallow s2
    rw [exec_belDescriptorComplete, belComplete_completes hs hstop hnear hkey hallow]
    cases w.event <;> rfl

end Sys2Proof.Machine
end

section
/-!
SUPPORT. What the security engine and the two-party commit do (R498, R500 to R502, R521 to R525), and the statements of those rules
settled with it.
-/

namespace Sys2Proof.Machine

/-! ## The operations of the engine (R500 to R502) -/

section Engine

variable {s : State} {x : SecOp}

/-- R501: an operation is a step of the engine with its code. -/
theorem exec_engineOps {a : Instr × Nat} (ha : a ∈ engineOps) (s : State) : exec a.1 s = .next (s.after (s.secStep a.2)) := by
  simp only [engineOps, List.mem_cons, List.not_mem_nil, or_false] at ha
  obtain rfl | rfl | rfl | rfl | rfl | rfl := ha <;> rfl

theorem exec_secOpComplete (s : State) : exec .secOpComplete s = .next (s.after (s.unlessHeld s.secComplete)) := rfl
theorem exec_rngHealthFail (s : State) : exec .rngHealthFail s = .next (s.after s.rngFail) := rfl
theorem exec_rngHealthPass (s : State) : exec .rngHealthPass s = .next (s.after s.rngPass) := rfl

section Step

variable {op : Nat} (hx : s.secOp = some x) (hon : s.blockOn Slot.sec = true) (hdone : x.done = none)
  (hop : s.secOpcode x.block.toNat = op)

include hx hon hdone hop

/-- R500: an operation whose block is refused ends with the STATUS that refuses it. -/
theorem secStep_refuses (href : s.secRefusal x.block.toNat ≠ 0) : s.secStep op
    = { (if s.secRefusal x.block.toNat = 3 then s.secLost x.block.toNat else s) with
        secOp := some { x with done := some (BitVec.ofNat 8 (s.secRefusal x.block.toNat)) } } := by
  unfold State.secStep
  simp only [hx, hon, hdone, hop, Bool.not_true, Option.isSome_none, bne_self_eq_false, Bool.or_self, Bool.false_eq_true, if_false]
  exact if_pos href

/-- R501: VERIFY and QUOTE ask for leave. -/
theorem secStep_asks (href : s.secRefusal x.block.toNat = 0) (hkind : op = 2 ∨ op = 3) (hleave : x.leave = false) :
    s.secStep op = s.askLeave .engine := by
  unfold State.secStep
  simp only [hx, hon, hdone, hop, href, hleave, Bool.not_true, Option.isSome_none, bne_self_eq_false, Bool.or_self, Bool.false_eq_true,
    if_false, ne_eq, not_true_eq_false]
  exact if_pos ⟨hkind, rfl⟩

/-- R501, R248: another operation, or one with leave, is performed unless a reservation holds a line that it would write. -/
theorem secStep_performs (href : s.secRefusal x.block.toNat = 0) (hleave : op = 2 ∨ op = 3 → x.leave = true) : s.secStep op
    = s.unlessHeld { (s.secPerform x.block.toNat).1 with
        secOp := some { x with done := some (BitVec.ofNat 8 (s.secPerform x.block.toNat).2) } } := by
  have hready : ¬((op = 2 ∨ op = 3) ∧ (!x.leave) = true) := by
    rintro ⟨hkind, hno⟩
    rw [hleave hkind] at hno
    exact absurd hno (by decide)
  unfold State.secStep
  simp only [hx, hon, hdone, hop, href, Bool.not_true, Option.isSome_none, bne_self_eq_false, Bool.or_self, Bool.false_eq_true, if_false,
    ne_eq, not_true_eq_false]
  exact if_neg hready

end Step

/-- R502: what completion of an operation leaves, but for SECERR: its STATUS and DONE written, no operation in progress, BUSY cleared. -/
def State.secWritten (s : State) (blk st : Nat) : State :=
  ({ s.devWrite blk (leBytes 8 (putBits (putBits (s.ld blk 8) 8 8 st) 16 1 1)) with secOp := none } : State).setFlag Slot.sec
    Off.SEC.OPSTS 0 false

/-- R502: completion of an operation whose block can be written. -/
theorem secComplete_writes {st : BitVec 8} (hx : s.secOp = some x) (hon : s.blockOn Slot.sec = true) (hdone : x.done = some st)
    (halign : x.block.toNat % 64 = 0) (hnear : s.nearBuf x.block.toNat 64 = true) : s.secComplete
    = if st = 0 ∨ st = 0x10 then s.secWritten x.block.toNat st.toNat
      else (s.secWritten x.block.toNat st.toNat).setErr Slot.sec Off.SEC.SECERR 1 := by
  have hstatus : (st = 0 ∨ st = 0x10) = (st.toNat = 0 ∨ st.toNat = 0x10) :=
    propext (or_congr BitVec.toNat_eq BitVec.toNat_eq)
  simp only [hstatus]
  unfold State.secComplete State.secWritten
  simp only [hx, hon, hdone, halign, hnear, Bool.not_true, Bool.false_eq_true, beq_self_eq_true, Bool.and_self, if_true, if_false]

end Engine

/-- Settles O37. -/
theorem engineOperations : Obligations.EngineOperations := by
  unfold Obligations.EngineOperations
  intro s x blk
  refine ⟨fun hx hon => ⟨fun hdone a ha hop => ⟨fun href => ?refused, fun href hkind hleave => ?asks, fun href hleave => ?performs⟩,
    fun st hdone halign hnear => ?completes⟩, ?fails, exec_rngHealthPass s⟩
  case refused => rw [exec_engineOps ha, secStep_refuses hx hon hdone hop href]
  case asks => rw [exec_engineOps ha, secStep_asks hx hon hdone hop href hkind hleave]
  case performs => rw [exec_engineOps ha, secStep_performs hx hon hdone hop href hleave]
  case completes =>
    intro s1 s2
    rw [exec_secOpComplete, secComplete_writes hx hon hdone halign hnear]
    rfl
  case fails =>
    intro s1
    exact exec_rngHealthFail s

/-! ## The two-party commit (R521 to R525) -/

section Commit

variable {src : Src} {fault : StoreFault} {s s0 : State} {x : Staged} {items : List Item} {a : Nat}

theorem exec_stage (src : Src) (s : State) : exec (.stage src) s = outcome s (s.regWrite src Slot.tpc Off.TPC.CMD 1) := rfl
theorem exec_sign (src : Src) (s : State) : exec (.sign src) s = outcome s (s.regWrite src Slot.tpc Off.TPC.CMD 2) := rfl
theorem exec_commit (src : Src) (fault : StoreFault) (s : State) :
    exec (.commit src fault) s = outcome s (s.regWriteWith src Slot.tpc Off.TPC.CMD 3 { fault := fault }) := rfl
theorem exec_clear (src : Src) (s : State) : exec (.clear src) s = outcome s (s.regWrite src Slot.tpc Off.TPC.CMD 4) := rfl
theorem exec_tpcExpiry (s : State) : exec .tpcExpiry s = .next (s.after s.tpcExpire) := rfl

/-- R521: the action of TPC.CMD. -/
theorem act_tpcCmd (s : State) (v : Nat) (x : Outside) : s.act Slot.tpc Off.TPC.CMD v x = s.tpcCommand (bitsOf v 0 4) x.fault := by
  unfold State.act
  rw [show pageKind Slot.tpc = some PageKind.tpc from rfl]
  exact if_pos rfl

/-- R521: a command of the two-party commit that its sender may give. -/
theorem regWrite_tpcCmd (ht : s.takesWrite src Slot.tpc) (v : Nat) (x : Outside) :
    s.regWriteWith src Slot.tpc Off.TPC.CMD v x = .ok (s.tpcCommand (bitsOf v 0 4) x.fault) := by
  rw [← act_tpcCmd]
  exact commandRegister_tpcCmd.performed ht (cmdBusy_none (by decide)) (by decide)

theorem exec_stage_does (ht : s.takesWrite src Slot.tpc) : exec (.stage src) s = .next (s.after s.tpcStage) :=
  (exec_stage src s).trans (congrArg (outcome s) (regWrite_tpcCmd ht 1 {}))
theorem exec_sign_does (ht : s.takesWrite src Slot.tpc) : exec (.sign src) s = .next (s.after s.tpcSign) :=
  (exec_sign src s).trans (congrArg (outcome s) (regWrite_tpcCmd ht 2 {}))
theorem exec_commit_does (ht : s.takesWrite src Slot.tpc) : exec (.commit src fault) s = .next (s.after (s.tpcCommit fault)) :=
  (exec_commit src fault s).trans (congrArg (outcome s) (regWrite_tpcCmd ht 3 { fault := fault }))
theorem exec_clear_does (ht : s.takesWrite src Slot.tpc) : exec (.clear src) s = .next (s.after s.tpcClear) :=
  (exec_clear src s).trans (congrArg (outcome s) (regWrite_tpcCmd ht 4 {}))

/-- STS.ERR is not part of another register. -/
theorem reg_tpcErr (s : State) (e off : Nat) (h : regKey Slot.tpc off ≠ regKey Slot.tpc Off.TPC.STS) :
    (s.tpcErr e).reg Slot.tpc off = s.reg Slot.tpc off := State.reg_setFld_ne _ _ _ _ _ _ _ _ h

/-- R521: what STAGE keeps of a block of `bs` at `a`: nonce and digest. -/
def State.stageDrawn (s : State) (bs : List Byte) : State :=
  ((s.randomBytes 32).1.setDigestRegs Slot.tpc Off.TPC.NONCE0 (s.randomBytes 32).2).setDigestRegs Slot.tpc Off.TPC.DIGEST0 (sm3 bs)

/-- R521, R525: the same with EXPIRY. -/
def State.stageTimed (s : State) (bs : List Byte) : State :=
  (s.stageDrawn bs).setReg Slot.tpc Off.TPC.EXPIRY
    ((s.stageDrawn bs).tod + windowSecs ((s.stageDrawn bs).fld Slot.tpc Off.TPC.WINDOW 0 10) * 10 ^ 10)

/-- R521: STAGED with the block kept. -/
def State.stageEntered (s : State) (bs : List Byte) (a : Nat) (items : List Item) : State :=
  (({ s.stageTimed bs with staged := some { block := bs, addr := BitVec.ofNat 64 a, sign := none, leave := false } } : State).markStaged
    (itemPages items) true).setFld Slot.tpc Off.TPC.STS 0 3 1

/-- R521: STAGE of a well-formed block whose result is allowed. -/
theorem tpcStage_enters {h1 h : State} {n : Nat} {bs : List Byte} (hs0 : s.tpcErr 0 = s0) (ha : s0.reg Slot.tpc Off.TPC.ARG = a)
    (hbusy : s0.tpcBusy = false) (hidle : s0.tpcState = 0) (halign : a % 64 = 0) (hread : s0.readable a 64 = true)
    (hh1 : s0.devRead a 64 = h1) (hn : h1.ld a 8 = n) (hmin : 1 ≤ n) (hmax : n ≤ 255) (hwhole : h1.readable a (64 + 64 * n) = true)
    (hh : h1.devRead a (64 + 64 * n) = h) (hbs : h.bytes a (64 + 64 * n) = bs) (hitems : blockItems bs = some items)
    (hseq : leNat (sliceBytes bs 8 8) = h.cseq) (hok : (h.changed items).resultOk items = true) (hrng : h.rngOk = true) :
    s.tpcStage = h.stageEntered bs a items := by
  have harg : s.reg Slot.tpc Off.TPC.ARG = a := by rw [← ha, ← hs0, reg_tpcErr s 0 _ (by decide)]
  have hcount : ¬(n = 0 ∨ 255 < n) := by omega
  unfold State.tpcStage State.stageEntered State.stageTimed State.stageDrawn
  simp only [harg, hs0, hbusy, hidle, halign, hread, hh1, hn, hcount, hwhole, hh, hbs, hitems, hseq, hok, hrng, Bool.not_true,
    bne_self_eq_false, Bool.or_self, Bool.false_eq_true, ne_eq, not_true_eq_false, if_false]

/-- R523: the command that has its leave, taken up. -/
def State.signTaken (s : State) (x : Staged) : State :=
  ({ s with staged := some { x with sign := none, leave := false } } : State).setFlag Slot.tpc Off.TPC.STS 3 false

/-- R523: SIGN with leave whose signature block passes its checks verifies it. -/
theorem tpcSign_verifies {g : Word} (hx : s.staged = some x) (hg : x.sign = some g) (hleave : x.leave = true)
    (hok : (s.signTaken x).signRefusal ((blockItems x.block).getD []) g.toNat = 0) :
    s.tpcSign = ((s.signTaken x).signRead g.toNat).tpcVerify g.toNat := by
  unfold State.signTaken at *
  unfold State.tpcSign
  simp only [hx, hg, hleave, Bool.not_true, Bool.false_eq_true, if_false]
  exact if_pos hok

/-- R523: a signature that verifies moves on to ONE or TWO. -/
theorem tpcVerify_moves (hv : sm2Verify (s.bytes (a + 0x10) 64) s.signMessage (s.bytes (a + 0x50) 64) = true) :
    s.tpcVerify a = if s.tpcState = 1 then (s.setFld Slot.tpc Off.TPC.STS 16 4 (s.ld a 1)).setFld Slot.tpc Off.TPC.STS 0 3 2
      else (s.setFld Slot.tpc Off.TPC.STS 20 4 (s.ld a 1)).setFld Slot.tpc Off.TPC.STS 0 3 3 := by
  unfold State.tpcVerify
  simp only [hv, Bool.not_true, Bool.false_eq_true, if_false]

/-- R521: the first SIGN of a block that passes its checks asks for leave. -/
theorem tpcSign_asks (hs0 : s.tpcErr 0 = s0) (ha : s0.reg Slot.tpc Off.TPC.ARG = a) (hx : s.staged = some x) (hsign : x.sign = none)
    (hstate : s0.tpcState ≠ 3) (hok : s0.signRefusal ((blockItems x.block).getD []) a = 0) : s.tpcSign
    = (({ s0.signRead a with staged := some { x with sign := some (BitVec.ofNat 64 a) } } : State).setFlag Slot.tpc Off.TPC.STS 3
        true).askLeave .sign := by
  unfold State.tpcSign
  simp only [hx, hsign, hs0, ha, hok, hstate, ne_eq, not_true_eq_false, if_false]

/-- R524: COMMIT in TWO of a change whose record is stored puts it in force. -/
theorem tpcCommit_applies {s1 : State} {fs : List (Nat × Nat)} (hs0 : s.tpcErr 0 = s0) (hx : s.staged = some x)
    (hitems : (blockItems x.block).getD [] = items) (hbusy : s0.tpcBusy = false) (hstate : s0.tpcState = 3) (hfs : vkeyFrames items = fs)
    (hfree : fs.any (fun f => s0.lineHeld f.1 4096) = false) (htime : s0.tod < s0.reg Slot.tpc Off.TPC.EXPIRY)
    (hkeys : (s0.changed items).vkeysOk fs = true) (hrng : s0.rngOk = true)
    (hstore : s0.storeRecord ((s0.changed items).cfgRecord (s0.cseq + 1)) fault = (s1, true)) :
    s.tpcCommit fault = s1.tpcApply x items := by
  have hstaged : s0.staged = some x := by rw [← hs0]; exact hx
  unfold State.tpcCommit
  simp only [hs0, hstaged, hitems, hbusy, hstate, hfs, hfree, Nat.not_le.mpr htime, hkeys, hrng, hstore, Bool.not_true, bne_self_eq_false,
    Bool.or_self, Bool.false_eq_true, if_false]

/-- R521: CLEAR of a change that is not BUSY discards it. -/
theorem tpcClear_discards (hbusy : (s.tpcErr 0).tpcBusy = false) (hstate : (s.tpcErr 0).tpcState ≠ 0) :
    s.tpcClear = (s.tpcErr 0).tpcDiscard := by
  unfold State.tpcClear
  simp only [hbusy, beq_eq_false_iff_ne.mpr hstate, Bool.or_self, Bool.false_eq_true, if_false]

/-- R525: a change that has expired is discarded. -/
theorem tpcExpire_discards (hstate : s.tpcState ≠ 0) (htime : s.reg Slot.tpc Off.TPC.EXPIRY ≤ s.tod) :
    s.tpcExpire = s.tpcDiscard.setErr Slot.tpc Off.TPC.TPCERR 1 := by
  unfold State.tpcExpire
  exact if_neg (by omega)

end Commit

/-- Settles O38. -/
theorem twoPartyCommit : Obligations.TwoPartyCommit := by
  unfold Obligations.TwoPartyCommit
  intro src fault s x items s0 a h1 n h bs
  refine ⟨fun ht => ⟨?stage, ?sign, ?first, ?commit, fun hbusy hstate => ?clear⟩, fun hstate htime => ?expiry⟩
  case stage =>
    intro hbusy hidle halign hread hmin hmax hwhole hitems hseq hok hrng s1 s2
    rw [exec_stage_does ht, tpcStage_enters rfl rfl hbusy hidle halign hread rfl rfl hmin hmax hwhole rfl rfl hitems hseq hok hrng]
    rfl
  case sign =>
    intro hx g hg hleave s' s1 slot hok hv
    rw [exec_sign_does ht, tpcSign_verifies hx hg hleave hok]
    exact congrArg (fun t => Host.Outcome.next (s.after t)) (tpcVerify_moves hv)
  case first =>
    intro hx hsign hstate hok
    rw [exec_sign_does ht, tpcSign_asks rfl rfl hx hsign hstate hok]
  case commit =>
    intro hx hbusy hstate fs hfree htime hkeys hrng s1 hstore
    rw [exec_commit_does ht, tpcCommit_applies rfl hx rfl hbusy hstate rfl hfree htime hkeys hrng hstore]
  case clear => rw [exec_clear_does ht, tpcClear_discards hbusy hstate]
  case expiry => rw [exec_tpcExpiry, tpcExpire_discards hstate htime]

end Sys2Proof.Machine
end

section
/-!
SUPPORT. What the debug path and the care of near memory do (R416, R417, R419, R424, R528, R529), and the statements of those rules
settled with it.
-/

namespace Sys2Proof.Machine

/-! ## DBGCMD (R528, R529) -/

/-- A bit of another register reads as before. -/
theorem flag_setFld_other (s : State) (slot off lo w x slot' off' i : Nat) (h : regKey slot' off' ≠ regKey slot off) :
    (s.setFld slot off lo w x).flag slot' off' i = s.flag slot' off' i := by
  unfold State.flag
  rw [State.reg_setFld_ne _ _ _ _ _ _ _ _ h]

section Commands

variable {src : Src} {ctx : BitVec 20} {s : State}

theorem exec_dbgcmdHalt (src : Src) (ctx : BitVec 20) (s : State) :
    exec (.dbgcmdHalt src ctx) s = outcome s (s.regWrite src Slot.dbg Off.DBG.DBGCMD (ctx.toNat + 1 * 2 ^ 24)) := rfl
theorem exec_dbgcmdResume (src : Src) (ctx : BitVec 20) (s : State) :
    exec (.dbgcmdResume src ctx) s = outcome s (s.regWrite src Slot.dbg Off.DBG.DBGCMD (ctx.toNat + 2 * 2 ^ 24)) := rfl
theorem exec_dbgcmdStep (src : Src) (ctx : BitVec 20) (s : State) :
    exec (.dbgcmdStep src ctx) s = outcome s (s.regWrite src Slot.dbg Off.DBG.DBGCMD (ctx.toNat + 3 * 2 ^ 24)) := rfl
theorem exec_debugSessionOpen (s : State) : exec .debugSessionOpen s = .next (s.after s.debugOpen) := rfl
theorem exec_debugSessionClose (s : State) : exec .debugSessionClose s = .next (s.after s.debugClose) := rfl

/-- R529: DBGCMD is BUSY as it shows itself. -/
theorem cmdBusy_dbgcmd (s : State) : s.cmdBusy Slot.dbg Off.DBG.DBGCMD = s.flag Slot.dbg Off.DBG.DBGCMD 32 := by
  unfold State.cmdBusy
  rw [show busyBit Slot.dbg Off.DBG.DBGCMD = some (Off.DBG.DBGCMD, 32, none) from rfl]

/-- R529: the action of DBGCMD. -/
theorem act_dbgcmd (s : State) (v : Nat) (x : Outside) :
    s.act Slot.dbg Off.DBG.DBGCMD v x = s.dbgCommand (bitsOf v 24 4) (BitVec.ofNat 20 v) := by
  unfold State.act
  rw [show pageKind Slot.dbg = some PageKind.dbg from rfl]
  exact if_pos rfl

section Given

variable (ht : s.takesWrite src Slot.dbg) (hb : s.flag Slot.dbg Off.DBG.DBGCMD 32 = false)

include ht hb

/-- R529: a debug command that its sender may give. -/
theorem regWrite_dbgcmd {op : Nat} (hop : op < 2 ^ 4) :
    s.regWrite src Slot.dbg Off.DBG.DBGCMD (ctx.toNat + op * 2 ^ 24) = .ok (s.dbgCommand op ctx) := by
  have hwrite := commandRegister_dbgcmd.performed (v := ctx.toNat + op * 2 ^ 24) (x := {}) ht ((cmdBusy_dbgcmd s).trans hb) (by decide)
  rw [act_dbgcmd, bitsOf_above (Nat.lt_of_lt_of_le ctx.isLt (by decide)), Nat.mod_eq_of_lt hop, ofNat_below ctx op (by decide)] at hwrite
  exact hwrite

theorem exec_dbgcmdHalt_does : exec (.dbgcmdHalt src ctx) s = .next (s.after (s.dbgCommand 1 ctx)) := by
  rw [exec_dbgcmdHalt, regWrite_dbgcmd ht hb (by decide)]
  rfl

theorem exec_dbgcmdResume_does : exec (.dbgcmdResume src ctx) s = .next (s.after (s.dbgCommand 2 ctx)) := by
  rw [exec_dbgcmdResume, regWrite_dbgcmd ht hb (by decide)]
  rfl

theorem exec_dbgcmdStep_does : exec (.dbgcmdStep src ctx) s = .next (s.after (s.dbgCommand 3 ctx)) := by
  rw [exec_dbgcmdStep, regWrite_dbgcmd ht hb (by decide)]
  rfl

end Given

/-- R528: DBGCMD at a level that does not accept the context is refused. -/
theorem dbgCommand_refused {op : Nat} (h : s.dbgAccepts ctx = false) : s.dbgCommand op ctx = s.setFlag Slot.dbg Off.DBG.DBGCMD 33 true := by
  unfold State.dbgCommand
  exact if_pos (by rw [h]; rfl)

section Accepted

variable (h : s.dbgAccepts ctx = true)

include h

/-- R529: HALT of a context at a boundary point. -/
theorem dbgCommand_halts (hw : s.haltWaits ctx = false) : s.dbgCommand 1 ctx = s.haltNow ctx := by
  unfold State.dbgCommand
  simp only [h, hw, Bool.not_true, Bool.false_eq_true, if_false]

/-- R529: HALT of a context that must come to its boundary point first. -/
theorem dbgCommand_waits (hw : s.haltWaits ctx = true) : s.dbgCommand 1 ctx
    = (({ s with haltBusy := some ctx } : State).setFlag Slot.dbg Off.DBG.DBGCMD 32 true).setFlag Slot.dbg Off.DBG.DBGCMD 33 false := by
  unfold State.dbgCommand
  simp only [h, hw, Bool.not_true, Bool.false_eq_true, if_false, if_true]

/-- R529: RESUME. -/
theorem dbgCommand_resumes : s.dbgCommand 2 ctx = s.dbgOutcome (s.ctxStart ctx) := by
  unfold State.dbgCommand
  simp only [h, Bool.not_true, Bool.false_eq_true, if_false]

/-- R529: STEP of a context that START accepts. -/
theorem dbgCommand_steps (hok : (s.ctxStart ctx).flag Slot.grt Off.GRT.CTXSTS 1 = false) :
    s.dbgCommand 3 ctx = s.dbgOutcome { s.ctxStart ctx with stepping := ctx :: (s.ctxStart ctx).stepping } := by
  unfold State.dbgCommand
  simp only [h, hok, Bool.not_true, Bool.false_eq_true, if_false]

end Accepted

/-- R529: a session that opens is logged with the level in force. -/
theorem debugOpen_eq {s1 : State} (hs1 : (s.setFlag Slot.dbg Off.DBG.DBGSTS 0 true).setFlag Slot.dbg Off.DBG.DBGSTS 1 true = s1) :
    s.debugOpen = s1.ashLog 0x72 Slot.dbg none none 0 (s1.fld Slot.dbg Off.DBG.DBGEN 0 2) := by
  have hlevel : s1.fld Slot.dbg Off.DBG.DBGEN 0 2 = s.fld Slot.dbg Off.DBG.DBGEN 0 2 := by
    rw [← hs1]
    unfold State.setFlag
    rw [fld_setFld_other _ _ _ _ _ _ _ _ _ _ (by decide), fld_setFld_other _ _ _ _ _ _ _ _ _ _ (by decide)]
  unfold State.debugOpen
  rw [hs1, hlevel]

end Commands

/-! ## Debug accesses (R528) -/

section Accesses

variable {s t : State} {x : DebugAccess} {a : BitVec 20} {v m : Word} {n : BitVec 13} {bs : List Byte}

theorem exec_debugAccess (x : DebugAccess) (s : State) : exec (.debugAccess x) s = outcome s (s.debugAccess x) := rfl

/-- An access of the debug path that does not fault. -/
theorem exec_debugAccess_does (h : s.debugAccess x = .ok t) : exec (.debugAccess x) s = .next (s.after t) := by
  rw [exec_debugAccess, h]
  rfl

/-- R528: at level 0 an access is refused. -/
theorem debugAccess_refused (h : s.dbgLevel = 0) : s.debugAccess x = .ok (s.debugAnswer none) := by
  unfold State.debugAccess
  exact if_pos (by rw [h]; exact Bool.or_true _)

section Allowed

variable (hvsb : s.mantel.vsb = true) (hlevel : s.dbgLevel ≠ 0)

include hvsb hlevel

/-- R528: the guard of an access passes. -/
theorem debugAccess_allowed : ¬(!s.mantel.vsb || s.dbgLevel == 0) = true := by
  rw [hvsb, beq_eq_false_iff_ne.mpr hlevel]
  decide

theorem debugAccess_readReg (hal : a.toNat % 8 = 0) : s.debugAccess (.readReg a)
    = .ok (s.debugAnswer (some (leBytes 8 (s.regRead (a.toNat / 4096) (a.toNat % 4096))))) := by
  unfold State.debugAccess
  exact (if_neg (debugAccess_allowed hvsb hlevel)).trans (if_pos hal)

theorem debugAccess_writeReg (hal : a.toNat % 8 = 0) (hw : s.regWrite .debug (a.toNat / 4096) (a.toNat % 4096) v.toNat = .ok t) :
    s.debugAccess (.writeReg a v) = .ok (t.debugAnswer (some [])) := by
  unfold State.debugAccess
  refine (if_neg (debugAccess_allowed hvsb hlevel)).trans ((if_pos hal).trans ?_)
  rw [hw]

variable (hcore : s.mantel.core = true) (hord : s.ordinary m.toNat = true)

include hcore hord

/-- R528: a read of ordinary memory that lies in populated lines of one row. -/
theorem debugAccess_readMem (hn : n.toNat ≠ 0)
    (hpop : (linesTouched m.toNat n.toNat).all (fun l => s.populated .load (max m.toNat (l * 64))) = true)
    (hrow : s.oneRow m.toNat n.toNat = true) : s.debugAccess (.readMem m n) = .ok (s.debugMemory (.readMem m n)) := by
  have hread : s.debugRead m.toNat n.toNat = .ok (s.debugMemory (.readMem m n)) := by
    unfold State.debugRead
    simp only [hpop, hrow, hord, hn, Bool.not_true, Bool.or_self, Bool.false_eq_true, if_false, if_true, BitVec.ofNat_toNat,
      BitVec.setWidth_eq]
  unfold State.debugAccess
  exact (if_neg (debugAccess_allowed hvsb hlevel)).trans ((if_pos hcore).trans hread)

/-- R528: a write of ordinary memory that lies in populated lines of one row. -/
theorem debugAccess_writeMem (hn : bs ≠ [])
    (hpop : (linesTouched m.toNat bs.length).all (fun l => s.populated .store (max m.toNat (l * 64))) = true)
    (hrow : s.oneRow m.toNat bs.length = true) : s.debugAccess (.writeMem m bs) = .ok (s.debugMemory (.writeMem m bs)) := by
  have hlen : ¬bs.length = 0 := fun h => hn (List.eq_nil_of_length_eq_zero h)
  have hwrite : s.debugWrite m.toNat bs = .ok (s.debugMemory (.writeMem m bs)) := by
    unfold State.debugWrite
    simp only [hpop, hrow, hord, hlen, Bool.not_true, Bool.or_self, Bool.false_eq_true, if_false, if_true, BitVec.ofNat_toNat,
      BitVec.setWidth_eq]
  unfold State.debugAccess
  exact (if_neg (debugAccess_allowed hvsb hlevel)).trans ((if_pos hcore).trans hwrite)

end Allowed

/-- R528, R248: an access that must wait is held. -/
theorem debugMemory_parks (hw : s.debugWaits x = true) : s.debugMemory x = s.park (.debug x) := by
  unfold State.debugMemory
  exact if_pos hw

/-- R528: another access is made at once. -/
theorem debugMemory_now (hw : s.debugWaits x = false) : s.debugMemory x = s.debugNow x := by
  unfold State.debugMemory
  exact if_neg (by rw [hw]; decide)

/-- R528: a read returns the bytes that are neither poisoned nor of a lost key. -/
theorem debugNow_read (h : (s.anyPoison m.toNat n.toNat || s.anyKeyLost m.toNat n.toNat) = false) :
    s.debugNow (.readMem m n) = (s.devRead m.toNat n.toNat).debugAnswer (some (s.bytes m.toNat n.toNat)) := by
  unfold State.debugNow
  exact if_neg (by rw [h]; decide)

theorem debugNow_readLost (h : (s.anyPoison m.toNat n.toNat || s.anyKeyLost m.toNat n.toNat) = true) :
    s.debugNow (.readMem m n) = (s.countLost m.toNat n.toNat).debugAnswer none := by
  unfold State.debugNow
  exact if_pos h

/-- R528: a write stores its bytes but in frames of a lost key and in the far key table. -/
theorem debugNow_write
    (h : (s.anyKeyLost m.toNat bs.length || (linesTouched m.toNat bs.length).any (fun l => s.fktLine (l * 64))) = false) :
    s.debugNow (.writeMem m bs) = (s.devWrite m.toNat bs).debugAnswer (some []) := by
  unfold State.debugNow
  exact if_neg (by rw [h]; decide)

theorem debugNow_writeLost
    (h : (s.anyKeyLost m.toNat bs.length || (linesTouched m.toNat bs.length).any (fun l => s.fktLine (l * 64))) = true) :
    s.debugNow (.writeMem m bs) = (s.countLost m.toNat bs.length).debugAnswer none := by
  unfold State.debugNow
  exact if_pos h

end Accesses

/-- Settles O39. -/
theorem debugPath : Obligations.DebugPath := by
  unfold Obligations.DebugPath
  intro src ctx a v m n bs s
  refine ⟨fun ht hb => ⟨fun hok => ⟨fun hw => ?halt, fun hw => ?wait, ?resume, fun hstart => ?step⟩, fun hno f hf => ?refused⟩,
    ?opened, exec_debugSessionClose s, fun hlevel x => exec_debugAccess_does (debugAccess_refused hlevel),
    fun hvsb hlevel => ⟨fun hal => ⟨?readReg, fun t hw => ?writeReg⟩, fun hcore hord => ⟨fun hn hpop hrow => ?readMem,
      fun hn hpop hrow => ?writeMem⟩⟩⟩
  case halt => rw [exec_dbgcmdHalt_does ht hb, dbgCommand_halts hok hw]
  case wait => rw [exec_dbgcmdHalt_does ht hb, dbgCommand_waits hok hw]
  case resume => rw [exec_dbgcmdResume_does ht hb, dbgCommand_resumes hok]
  case step => rw [exec_dbgcmdStep_does ht hb, dbgCommand_steps hok hstart]
  case refused =>
    simp only [List.mem_cons, List.not_mem_nil, or_false] at hf
    obtain rfl | rfl | rfl := hf
    · rw [exec_dbgcmdHalt_does ht hb, dbgCommand_refused hno]
    · rw [exec_dbgcmdResume_does ht hb, dbgCommand_refused hno]
    · rw [exec_dbgcmdStep_does ht hb, dbgCommand_refused hno]
  case opened =>
    intro s1
    rw [exec_debugSessionOpen, debugOpen_eq rfl]
  case readReg => exact exec_debugAccess_does (debugAccess_readReg hvsb hlevel hal)
  case writeReg => exact exec_debugAccess_does (debugAccess_writeReg hvsb hlevel hal hw)
  case readMem =>
    have hexec := exec_debugAccess_does (debugAccess_readMem hvsb hlevel hcore hord hn hpop hrow)
    refine ⟨fun hw => ?held, fun hw => ⟨fun hfine => ?read, fun hlost => ?lost⟩⟩
    case held => rw [hexec, debugMemory_parks hw]
    case read => rw [hexec, debugMemory_now hw, debugNow_read hfine]
    case lost => rw [hexec, debugMemory_now hw, debugNow_readLost hlost]
  case writeMem =>
    have hexec := exec_debugAccess_does (debugAccess_writeMem hvsb hlevel hcore hord hn hpop hrow)
    refine ⟨fun hw => ?stays, fun hw => ⟨fun hfine => ?written, fun hlost => ?unwritten⟩⟩
    case stays => rw [hexec, debugMemory_parks hw]
    case written => rw [hexec, debugMemory_now hw, debugNow_write hfine]
    case unwritten => rw [hexec, debugMemory_now hw, debugNow_writeLost hlost]

/-! ## The scrubber (R419) -/

section Scrubber

variable {pair : Nat} {lo hi : Misread} {s s1 : State}

theorem exec_scrubLine (pair : BitVec 29) (lo hi : Misread) (s : State) :
    exec (.scrubLine pair lo hi) s = .next (s.after (s.scrub pair.toNat lo hi)) := rfl
theorem exec_memRetrain (channel : BitVec 6) (ok : Bool) (s : State) :
    exec (.memRetrain channel ok) s = .next (s.after (if ok then s else s.failChannel channel.toNat)) := rfl

/-- R419: a pair that is not next is not visited. -/
theorem scrub_skips (h : s.nextPair 8 s.scrubAt ≠ pair) : s.scrub pair lo hi = s := by
  unfold State.scrub
  exact if_pos (by rw [bne_iff_ne.mpr h]; exact Bool.or_true _)

/-- R419: the next pair is visited, both of its lines. -/
theorem scrub_visits (hon : s.blockOn Slot.nmc = true) (hen : s.flag Slot.nmc Off.NMC.SCRUBCTL 0 = true)
    (h : s.nextPair 8 s.scrubAt = pair) (hpop : s.nearPop (pair * 128) = true)
    (hs1 : (s.scrubOne (2 * pair) lo).scrubOne (2 * pair + 1) hi = s1) : s.scrub pair lo hi = s1.scrubOn pair := by
  unfold State.scrub
  rw [hon, hen, h, bne_self_eq_false, hpop, hs1]
  rfl

/-- R419: after a pair the scrubber goes on to the next one. -/
theorem scrubOn_next {next : Nat} (hnext : s.nextPair 8 (pair + 1) = next) (h : next < s.pairCount) :
    s.scrubOn pair = ({ s with scrubAt := next } : State).setFld Slot.nmc Off.NMC.SCRUBSTS 32 10 (next * 1000 / s.pairCount) := by
  unfold State.scrubOn
  rw [hnext]
  exact if_neg (Nat.not_le.mpr h)

/-- R419: after the last pair the pass ends. -/
theorem scrubOn_ends {next : Nat} (hnext : s.nextPair 8 (pair + 1) = next) (h : s.pairCount ≤ next) : s.scrubOn pair
    = (({ s with scrubAt := 0 } : State).incWrap Slot.nmc Off.NMC.SCRUBSTS 0 32 1).setFld Slot.nmc Off.NMC.SCRUBSTS 32 10 0 := by
  unfold State.scrubOn
  rw [hnext]
  exact if_pos h

end Scrubber

/-! ## PINCTL and FAILCMD (R416, R417, R424) -/

section Pins

variable {src : Src} {s s1 : State}

theorem exec_pinctlClr (src : Src) (s : State) : exec (.pinctlClr src) s
    = outcome s (s.regWrite src Slot.nmc Off.NMC.PINCTL (s.fld Slot.nmc Off.NMC.PINCTL 0 16 + 2 ^ 16)) := rfl
theorem exec_pinctlErase (src : Src) (s : State) : exec (.pinctlErase src) s
    = outcome s (s.regWrite src Slot.nmc Off.NMC.PINCTL (s.fld Slot.nmc Off.NMC.PINCTL 0 16 + 2 ^ 17)) := rfl
theorem exec_pinctlUnerase (src : Src) (s : State) : exec (.pinctlUnerase src) s
    = outcome s (s.regWrite src Slot.nmc Off.NMC.PINCTL (s.fld Slot.nmc Off.NMC.PINCTL 0 16 + 2 ^ 18)) := rfl
theorem exec_failcmd (src : Src) (channel : BitVec 6) (s : State) :
    exec (.failcmd src channel) s = outcome s (s.regWrite src Slot.nmc Off.NMC.FAILCMD (channel.toNat + 2 ^ 8)) := rfl

/-- R52: a block operates as before when a register outside the page heads is set. -/
theorem blockOn_setFld (s : State) (slot off lo w x k : Nat) (hhead : 0x40 ≤ off) (hoff : off < 4096) :
    (s.setFld slot off lo w x).blockOn k = s.blockOn k := by
  have hopen (n : Nat) : (s.setFld slot off lo w x).pageOpen n = s.pageOpen n := by
    have hflag (o i : Nat) (ho : o < 0x40) : (s.setFld slot off lo w x).flag n o i = s.flag n o i :=
      flag_setFld_other _ _ _ _ _ _ _ _ _ (regKey_ne (by omega) hoff (Or.inr (by omega)))
    unfold State.pageOpen State.pageRuns
    rw [hflag _ _ (by decide), hflag _ _ (by decide), hflag _ _ (by decide), hflag _ _ (by decide)]
  unfold State.blockOn State.nearServes
  rw [hopen, hopen]

/-- R416: the fields of PINCTL. -/
theorem fields_pinctl : ((findRow .nmc Off.NMC.PINCTL).map (·.fields)).getD []
    = [⟨"THRESH", 15, 0, .l, .rw, 0x1000⟩, ⟨"CLR", 16, 16, .l, .wo, 0⟩, ⟨"ERASE", 17, 17, .l, .wo, 0⟩,
       ⟨"UNERASE", 18, 18, .l, .wo, 0⟩] := by
  decide

/-- R416: the state whose THRESH a command of PINCTL has written. -/
def State.threshKept (s : State) : State := s.setFld Slot.nmc Off.NMC.PINCTL 0 16 (s.fld Slot.nmc Off.NMC.PINCTL 0 16)

/-- R416, R417: a write of PINCTL with the bits of a command above THRESH. -/
theorem regWrite_pinctl (ho : s.obeys src Slot.nmc) (bits : Nat) : s.regWrite src Slot.nmc Off.NMC.PINCTL
      (s.fld Slot.nmc Off.NMC.PINCTL 0 16 + bits * 2 ^ 16)
    = .ok (s.threshKept.pinCommand (bitAt bits 0) (bitAt bits 1) (bitAt bits 2)) := by
  obtain ⟨ha, hr, hon, hresv⟩ := ho
  have hlt : s.fld Slot.nmc Off.NMC.PINCTL 0 16 < 2 ^ 16 := bitsOf_lt _ _ _
  have hthresh : bitsOf (s.fld Slot.nmc Off.NMC.PINCTL 0 16 + bits * 2 ^ 16) 0 16 = s.fld Slot.nmc Off.NMC.PINCTL 0 16 := by
    generalize s.fld Slot.nmc Off.NMC.PINCTL 0 16 = t at hlt ⊢
    unfold bitsOf
    omega
  have hbits : bitAt (s.fld Slot.nmc Off.NMC.PINCTL 0 16 + bits * 2 ^ 16) 16 = bitAt bits 0
      ∧ bitAt (s.fld Slot.nmc Off.NMC.PINCTL 0 16 + bits * 2 ^ 16) 17 = bitAt bits 1
      ∧ bitAt (s.fld Slot.nmc Off.NMC.PINCTL 0 16 + bits * 2 ^ 16) 18 = bitAt bits 2 := by
    generalize s.fld Slot.nmc Off.NMC.PINCTL 0 16 = t at hlt ⊢
    have hshift (i : Nat) : (t + bits * 2 ^ 16) / 2 ^ (16 + i) = bits / 2 ^ i := by
      rw [Nat.pow_add, ← Nat.div_div_eq_div_mul, Nat.add_mul_div_right _ _ (by decide), Nat.div_eq_of_lt hlt, Nat.zero_add]
    unfold bitAt
    rw [hshift 0, hshift 1, hshift 2]
    exact ⟨rfl, rfl, rfl⟩
  obtain ⟨hclr, herase, hunerase⟩ := hbits
  have hwritten : writeFields Slot.nmc Off.NMC.PINCTL (s.fld Slot.nmc Off.NMC.PINCTL 0 16 + bits * 2 ^ 16)
      [⟨"THRESH", 15, 0, .l, .rw, 0x1000⟩, ⟨"CLR", 16, 16, .l, .wo, 0⟩, ⟨"ERASE", 17, 17, .l, .wo, 0⟩,
        ⟨"UNERASE", 18, 18, .l, .wo, 0⟩] { s := s, late := false, dual := false } = .ok { s := s.threshKept, late := false, dual := false } := by
    rw [writeFields_cons (writeField_free rfl rfl), writeFields_inert (by decide)]
    unfold State.threshKept
    rw [show (⟨"THRESH", 15, 0, .l, .rw, 0x1000⟩ : Field).width = 16 from rfl, hthresh]
  have hact : s.threshKept.actOrPark .nmc Slot.nmc Off.NMC.PINCTL (s.fld Slot.nmc Off.NMC.PINCTL 0 16 + bits * 2 ^ 16) {}
      = s.threshKept.pinCommand (bitAt bits 0) (bitAt bits 1) (bitAt bits 2) := by
    have hopen : s.threshKept.blockOn Slot.nmc = true := (blockOn_setFld _ _ _ _ _ _ _ (by decide) (by decide)).trans hon
    rw [actOrPark_works (cmdBusy_none (by decide)) hopen (writesHeld_none hresv)]
    unfold State.act
    rw [show pageKind Slot.nmc = some PageKind.nmc from rfl]
    refine (if_pos rfl).trans ?_
    rw [hclr, herase, hunerase]
  have hwrite := regWriteWith_fields (off := Off.NMC.PINCTL) (x := {}) ha hr (show pageKind Slot.nmc = some PageKind.nmc from rfl)
    (by decide) (by decide) (by rw [fields_pinctl]; exact hwritten)
  rw [hact] at hwrite
  exact hwrite

section Selected

variable {p : Nat} (hp : s.fld Slot.nmc Off.NMC.PINSEL 0 10 = p) (hmade : p < 640)

include hp hmade

theorem pinCommand_clears : s.pinCommand (bitAt 1 0) (bitAt 1 1) (bitAt 1 2) = s.setPinCount p 0 := by
  unfold State.pinCommand
  rw [hp]
  exact if_neg (Nat.not_le.mpr hmade)

theorem pinCommand_erases : s.pinCommand (bitAt 2 0) (bitAt 2 1) (bitAt 2 2) = s.erasePin p := by
  unfold State.pinCommand
  rw [hp]
  exact if_neg (Nat.not_le.mpr hmade)

theorem pinCommand_unerases : s.pinCommand (bitAt 4 0) (bitAt 4 1) (bitAt 4 2) = s.unerasePin p := by
  unfold State.pinCommand
  rw [hp]
  exact if_neg (Nat.not_le.mpr hmade)

end Selected

/-- R424: FAILCMD declares a channel failed. -/
theorem exec_failcmd_does {channel : BitVec 6} (ho : s.obeys src Slot.nmc) :
    exec (.failcmd src channel) s = .next (s.after (s.failChannel channel.toNat)) := by
  have hact : s.act Slot.nmc Off.NMC.FAILCMD (channel.toNat + 2 ^ 8) {} = s.failChannel channel.toNat := by
    have hchannel : bitsOf (channel.toNat + 2 ^ 8) 0 6 = channel.toNat := by
      have hlt := channel.isLt
      unfold bitsOf
      omega
    unfold State.act
    rw [show pageKind Slot.nmc = some PageKind.nmc from rfl]
    refine (if_neg (by decide)).trans ((if_pos ⟨rfl, bitAt_go channel⟩).trans ?_)
    rw [hchannel]
  have hwrite := commandRegister_failcmd.obeyed (v := channel.toNat + 2 ^ 8) (x := {}) ho (cmdBusy_none (by decide))
  rw [hact] at hwrite
  exact (exec_failcmd src channel s).trans (congrArg (outcome s) hwrite)

end Pins

/-- Settles O40. -/
theorem nearMemoryCare : Obligations.NearMemoryCare := by
  unfold Obligations.NearMemoryCare
  intro src pair lo hi channel s
  refine ⟨fun hon hen => ⟨fun hother => ?skipped, fun hnext hpop => ?visited⟩, fun ho => ⟨?pins, exec_failcmd_does ho⟩,
    exec_memRetrain channel false s, exec_memRetrain channel true s⟩
  case skipped => rw [exec_scrubLine, scrub_skips hother]
  case visited =>
    intro s1 next
    have hexec : exec (.scrubLine pair lo hi) s = .next (s.after (s1.scrubOn pair.toNat)) := by
      rw [exec_scrubLine, scrub_visits hon hen hnext hpop rfl]
    exact ⟨fun h => by rw [hexec, scrubOn_next rfl h], fun h => by rw [hexec, scrubOn_ends rfl h]⟩
  case pins =>
    intro s1 p hmade
    refine ⟨?clr, ?erase, ?unerase⟩
    case clr =>
      exact (exec_pinctlClr src s).trans
        (congrArg (outcome s) ((regWrite_pinctl ho 1).trans (congrArg Except.ok (pinCommand_clears rfl hmade))))
    case erase =>
      exact (exec_pinctlErase src s).trans
        (congrArg (outcome s) ((regWrite_pinctl ho 2).trans (congrArg Except.ok (pinCommand_erases rfl hmade))))
    case unerase =>
      exact (exec_pinctlUnerase src s).trans
        (congrArg (outcome s) ((regWrite_pinctl ho 4).trans (congrArg Except.ok (pinCommand_unerases rfl hmade))))

end Sys2Proof.Machine
end

section
/-!
SUPPORT. What the links, the inbound requests and the endpoint of the flexible ports do (R27, R426 to R433), and the statements of those
rules settled with it.
-/

namespace Sys2Proof.Machine

/-! ## Links (R426 to R428, R433) -/

section Links

variable {port : BitVec 2} {k : LinkPartner} {corr : Bool} {s : State} {p : Nat}

theorem exec_fxpLinkUp (port : BitVec 2) (k : LinkPartner) (s : State) :
    exec (.fxpLinkUp port k) s = .next (s.after (s.linkComesUp port.toNat k)) := rfl
theorem exec_fxpLinkDown (port : BitVec 2) (s : State) :
    exec (.fxpLinkDown port) s = .next (s.after (s.linkGoesDown port.toNat (s.portMode port.toNat == 1))) := rfl
theorem exec_cxlDeviceEvent (port : BitVec 2) (s : State) : exec (.cxlDeviceEvent port) s = .next (s.after (s.cxlEvent port.toNat)) := rfl
theorem exec_aerError (port : BitVec 2) (corr : Bool) (s : State) :
    exec (.aerError port corr) s = .next (s.after (s.aerError port.toNat corr)) := rfl
theorem exec_perstNAssert (s : State) : exec .perstNAssert s = .next (s.after s.perstAssert) := rfl

/-- R428: the width of a link between a port and its partner. -/
def State.linkWidth (s : State) (p : Nat) (k : LinkPartner) : Nat :=
  min (widthOf (s.fld (Slot.fxp p) Off.FXP.MODE 2 3)) (widthOf k.width.toNat)

/-- R428: the generation of a link between a port and its partner. -/
def State.linkGen (s : State) (p : Nat) (k : LinkPartner) : Nat :=
  min (genOf (s.fld (Slot.fxp p) Off.FXP.MODE 5 3)) (genOf k.gen.toNat)

/-- R426: a link that comes up ends PERST_N of port 0. -/
def State.linkWoken (s : State) (p : Nat) : State :=
  if p = 0 then { s with mantel := { s.mantel with perst := false } } else s

/-- R427: the width and rate are allowed. -/
theorem linkAllowed_cxl (hw : 2 ≤ s.linkWidth p k) (hg : s.linkGen p k = 5) :
    linkAllowed true (s.linkWidth p k) (s.linkGen p k) = true := by
  unfold linkAllowed
  rw [decide_eq_true hw, hg]
  rfl

section Up

variable (hon : s.blockOn (Slot.fxp p) = true) (hdown : s.portUp p = false)

include hon hdown

/-- R428: a PCIe link comes up at its width and generation. -/
theorem linkComesUp_pcie (hmode : s.portMode p = 2 ∨ s.portMode p = 3) : s.linkComesUp p k
    = (s.linkWoken p).setReg (Slot.fxp p) Off.FXP.LINK (1 + s.linkWidth p k * 4 + s.linkGen p k * 32) := by
  have hnone : (s.portMode p == 0) = false := beq_eq_false_iff_ne.mpr (by omega)
  have hpcie : (s.portMode p == 1) = false := beq_eq_false_iff_ne.mpr (by omega)
  unfold State.linkComesUp linkAllowed State.linkWoken State.linkWidth State.linkGen
  simp only [hon, hdown, hnone, hpcie, Bool.not_true, Bool.or_self, Bool.false_eq_true, if_false, Bool.not_false, Bool.true_or,
    Bool.false_and, if_true, b2n, Nat.zero_mul, Nat.add_zero]

section Cxl

variable (hmode : s.portMode p = 1)

include hmode

/-- R427: a CXL link narrower than x4 or slower than 32 GT/s does not come up. -/
theorem linkComesUp_slow (h : s.linkWidth p k < 2 ∨ s.linkGen p k ≠ 5) : s.linkComesUp p k = s := by
  have hnone : ((1 : Nat) == 0) = false := rfl
  have hrefused : linkAllowed true (s.linkWidth p k) (s.linkGen p k) = false := by
    unfold linkAllowed
    rcases h with h | h
    · rw [decide_eq_false (Nat.not_le.mpr h)]
      rfl
    · rw [beq_eq_false_iff_ne.mpr h]
      exact Bool.and_false _
  unfold State.linkWidth State.linkGen at hrefused
  unfold State.linkComesUp
  simp only [hon, hdown, hnone, hmode, beq_self_eq_true, hrefused, Bool.not_true, Bool.or_self, Bool.false_eq_true, if_false,
    Bool.not_false, if_true]

variable (hw : 2 ≤ s.linkWidth p k) (hg : s.linkGen p k = 5)

include hw hg

/-- R428: a CXL device of another type than 3 sets FXPERR. -/
theorem linkComesUp_otherType (htype : k.type3 = false) : s.linkComesUp p k
    = ((s.linkWoken p).setReg (Slot.fxp p) Off.FXP.LINK (1 + s.linkWidth p k * 4 + s.linkGen p k * 32)).setErr (Slot.fxp p)
        Off.FXP.FXPERR 5 := by
  have hnone : ((1 : Nat) == 0) = false := rfl
  have hallowed := linkAllowed_cxl hw hg
  unfold State.linkWidth State.linkGen at hallowed
  unfold State.linkComesUp State.linkWoken State.linkWidth State.linkGen
  simp only [hon, hdown, hnone, hmode, htype, beq_self_eq_true, hallowed, Bool.not_true, Bool.or_self, Bool.false_eq_true, if_false,
    Bool.and_false, Bool.not_false, if_true, b2n, Nat.zero_mul, Nat.add_zero]

/-- R428: a CXL device of Type 3 shows its capacity. -/
theorem linkComesUp_type3 (htype : k.type3 = true) : s.linkComesUp p k
    = (((s.linkWoken p).setReg (Slot.fxp p) Off.FXP.LINK (1 + 2 + s.linkWidth p k * 4 + s.linkGen p k * 32)).setReg (Slot.fxp p)
        Off.FXP.CAP (cxlCapacity k.capacity.toNat)).farContents p k := by
  have hnone : ((1 : Nat) == 0) = false := rfl
  have hallowed := linkAllowed_cxl hw hg
  unfold State.linkWidth State.linkGen at hallowed
  unfold State.linkComesUp State.linkWoken State.linkWidth State.linkGen
  simp only [hon, hdown, hnone, hmode, htype, beq_self_eq_true, hallowed, Bool.not_true, Bool.or_self, Bool.false_eq_true, if_false,
    Bool.and_self, if_true, b2n, Nat.one_mul]

end Cxl
end Up

/-- R433: what a link that goes down leaves of its port. -/
def State.linkLost (s : State) (p : Nat) : State :=
  (((s.setReg (Slot.fxp p) Off.FXP.LINK 0).setReg (Slot.fxp p) Off.FXP.CAP 0).setErr (Slot.fxp p) Off.FXP.FXPERR 0).ashLog 0x40
    (Slot.fxp p) none none 0 (p + 2 ^ 8)

/-- R433: a link goes down. -/
theorem linkGoesDown_up (hup : s.portUp p = true) (cxl : Bool) :
    s.linkGoesDown p cxl = if cxl then (s.linkLost p).invalidate (inWindow p) else s.linkLost p := by
  unfold State.linkGoesDown
  exact if_neg (by rw [hup]; decide)

/-- R433: a link that is down stays down. -/
theorem linkGoesDown_down (hup : s.portUp p = false) (cxl : Bool) : s.linkGoesDown p cxl = s := by
  unfold State.linkGoesDown
  exact if_pos (by rw [hup]; decide)

/-- R428: a CXL device's event is logged. -/
theorem cxlEvent_logs (hmode : s.portMode p = 1) (hup : s.portUp p = true) :
    s.cxlEvent p = s.ashLog 0x40 (Slot.fxp p) none none 0 (p + 4 * 2 ^ 8) := by
  unfold State.cxlEvent
  exact if_pos ⟨hmode, hup⟩

/-- A port keeps its mode when another of its registers is set. -/
theorem portMode_setFld (s : State) (off lo w x p : Nat) (h : off ≠ Off.FXP.MODE) (hoff : off < 4096) :
    (s.setFld (Slot.fxp p) off lo w x).portMode p = s.portMode p := by
  unfold State.portMode
  rw [fld_setFld_other _ _ _ _ _ _ _ _ _ _ (regKey_ne (by decide) hoff (Or.inr h.symm))]

/-- R427: a link error of a port that is not disabled is counted, and told. -/
theorem aerError_counts {s1 : State} (hmode : s.portMode port.toNat ≠ 0)
    (hs1 : s.incSat (Slot.fxp port.toNat) Off.FXP.AERCNT (if corr then 0 else 32) 32 1 = s1) : s.aerError port.toNat corr
    = if s.portMode port.toNat = 3 then { s1 with out := s1.out ++ [.aer port] }
      else if corr then s1 else s1.ashLog 0x40 (Slot.fxp port.toNat) none none 0 (port.toNat + 2 * 2 ^ 8) := by
  have hsame : s1.portMode port.toNat = s.portMode port.toNat := by
    rw [← hs1]
    exact portMode_setFld _ _ _ _ _ _ (by decide) (by decide)
  unfold State.aerError
  simp only [hmode, hs1, hsame, if_false, BitVec.ofNat_toNat, BitVec.setWidth_eq]

/-- R426: PERST_N in endpoint mode. -/
theorem perstAssert_endpoint {s1 : State} (hmode : s.portMode 0 = 3)
    (hs1 : ({ s with mantel := { s.mantel with perst := true } } : State) = s1) :
    s.perstAssert = if s1.portUp 0 then s1.linkLost 0 else s1 := by
  have hfalls : s.perstAssert = s1.linkGoesDown 0 false := by
    unfold State.perstAssert
    rw [hs1]
    exact if_pos hmode
  rw [hfalls]
  by_cases hup : s1.portUp 0 = true
  · rw [if_pos hup, linkGoesDown_up hup]
    rfl
  · rw [if_neg hup, linkGoesDown_down (Bool.not_eq_true _ ▸ hup)]

end Links

/-- Settles O41. -/
theorem portLinks : Obligations.PortLinks := by
  unfold Obligations.PortLinks
  intro port k corr s p page w g woken down
  refine ⟨fun hon hdown => ⟨fun hmode => ?pcie, fun hmode => ⟨fun hslow => ?slow, 
      fun hw hg => ⟨fun htype => ?otherType, fun htype => ?type3⟩⟩⟩,
    fun hup => ⟨?falls, fun hmode => ?event⟩, ?aer, ?perst⟩
  case pcie => exact (exec_fxpLinkUp port k s).trans (congrArg (fun t => Host.Outcome.next (s.after t)) (linkComesUp_pcie hon hdown hmode))
  case slow => rw [exec_fxpLinkUp, linkComesUp_slow hon hdown hmode hslow]
  case otherType =>
    exact (exec_fxpLinkUp port k s).trans
      (congrArg (fun t => Host.Outcome.next (s.after t)) (linkComesUp_otherType hon hdown hmode hw hg htype))
  case type3 =>
    exact (exec_fxpLinkUp port k s).trans
      (congrArg (fun t => Host.Outcome.next (s.after t)) (linkComesUp_type3 hon hdown hmode hw hg htype))
  case falls =>
    have hcxl : (s.portMode p == 1) = true ↔ s.portMode p = 1 := beq_iff_eq
    refine (exec_fxpLinkDown port s).trans (congrArg (fun t => Host.Outcome.next (s.after t)) ?_)
    exact (linkGoesDown_up hup _).trans (ite_congr (propext hcxl) (fun _ => rfl) (fun _ => rfl))
  case event => rw [exec_cxlDeviceEvent, cxlEvent_logs hmode hup]
  case aer =>
    intro s1 hmode
    rw [exec_aerError, aerError_counts hmode rfl]
  case perst =>
    intro s1 hmode
    exact (exec_perstNAssert s).trans (congrArg (fun t => Host.Outcome.next (s.after t)) (perstAssert_endpoint hmode rfl))

/-! ## Inbound requests (R432) -/

section Inbound

variable {port : BitVec 2} {r : Inbound} {t : Target} {n : Nat} {bs : List Byte} {poisoned : Bool} {s s1 : State} {p a : Nat}

theorem exec_inboundRead (port : BitVec 2) (t : Target) (n : BitVec 13) (s : State) :
    exec (.inboundRead port t n) s = .next (s.after (s.inbound port.toNat (.read t n))) := rfl
theorem exec_inboundWrite (port : BitVec 2) (t : Target) (bs : List Byte) (poisoned : Bool) (s : State) :
    exec (.inboundWrite port t ⟨bs, poisoned⟩) s = .next (s.after (s.inbound port.toNat (.write t bs poisoned))) := rfl

/-- The work that a machine holds has no part in what a request waits for. -/
theorem blockOn_park (s : State) (w : Work) (k : Nat) : (s.park w).blockOn k = s.blockOn k := rfl

theorem reaches_park (s : State) (w : Work) (p n : Nat) (t : Target) : (s.park w).reaches p n t = s.reaches p n t := rfl

theorem inboundHeld_park (s : State) (w : Work) (p : Nat) (r : Inbound) : (s.park w).inboundHeld p r = s.inboundHeld p r := by
  unfold State.inboundHeld
  simp only [reaches_park]
  rfl

/-- The only work that is held, taken again. -/
theorem park_taken (h : s.parked = []) (w : Work) : ({ s.park w with parked := [] } : State) = s := by
  unfold State.park
  rw [← h]

/-- R432: the request of a port that alone is held is served, or waits. -/
theorem serveHeld_only (h : s.parked = []) : (s.park (.inbound port r)).serveHeld port.toNat 1
    = if (!s.blockOn (Slot.fxp port.toNat) || s.inboundHeld port.toNat r) = true then s.park (.inbound port r)
      else s.serveInbound port.toNat r := by
  have htaken : takeInbound port.toNat (s.park (.inbound port r)).parked = some (r, []) := by
    have hparked : (s.park (.inbound port r)).parked = [.inbound port r] := by
      unfold State.park
      rw [h]
      rfl
    have hmine : inboundOf port.toNat (.inbound port r) = some r := by
      unfold inboundOf
      exact if_pos rfl
    rw [hparked]
    unfold takeInbound
    rw [hmine]
  unfold State.serveHeld
  rw [htaken]
  dsimp only
  rw [blockOn_park, inboundHeld_park, park_taken h]
  rfl

/-- R432: a request of a port whose link is up. -/
theorem inbound_serves (hup : s.portUp port.toNat = true) (h : s.parked = []) : s.inbound port.toNat r
    = if (!s.blockOn (Slot.fxp port.toNat) || s.inboundHeld port.toNat r) = true then s.park (.inbound port r)
      else s.serveInbound port.toNat r := by
  have hserve : s.inbound port.toNat r = (s.park (.inbound port r)).serveHeld port.toNat 1 := by
    unfold State.inbound State.park
    rw [hup, BitVec.ofNat_toNat, BitVec.setWidth_eq, h]
    rfl
  rw [hserve, serveHeld_only h]

/-- R52, R248: a request that cannot be served now is held. -/
theorem inbound_parks (hup : s.portUp port.toNat = true) (h : s.parked = [])
    (hwait : s.blockOn (Slot.fxp port.toNat) = false ∨ s.inboundHeld port.toNat r = true) :
    s.inbound port.toNat r = s.park (.inbound port r) := by
  rw [inbound_serves hup h]
  refine if_pos ?_
  rcases hwait with hwait | hwait
  · rw [hwait]
    rfl
  · rw [hwait]
    exact Bool.or_true _

/-- R432: a request that nothing holds up is served. -/
theorem inbound_now (hup : s.portUp port.toNat = true) (h : s.parked = []) (hon : s.blockOn (Slot.fxp port.toNat) = true)
    (hfree : s.inboundHeld port.toNat r = false) : s.inbound port.toNat r = s.serveInbound port.toNat r := by
  rw [inbound_serves hup h]
  exact if_neg (by rw [hon, hfree]; decide)

/-! ### Reads -/

theorem inboundRead_memory (hr : s.reaches p n t = .window a) (hok : s.inboundOk p a n false = true) :
    s.inboundRead p t n = (s.devRead a n).reply p (some (s.bytes a n)) (s.anyPoison a n) := by
  unfold State.inboundRead
  rw [hr]
  exact if_pos hok

theorem inboundRead_refused (hr : s.reaches p n t = .window a) (hok : s.inboundOk p a n false = false) :
    s.inboundRead p t n = ((s.inboundLost p a n false).inboundRefused p t).reply p none false := by
  unfold State.inboundRead
  rw [hr]
  exact if_neg (by rw [hok]; decide)

theorem inboundRead_doorbell (hr : s.reaches p n t = .door a) : s.inboundRead p t n = s.reply p (some (zeros n)) false := by
  unfold State.inboundRead
  rw [hr]

theorem inboundRead_msix (hr : s.reaches p n t = .bar4 a) :
    s.inboundRead p t n = s.reply p (some ((List.range n).map (fun i => s.msixByte (a + i)))) false := by
  unfold State.inboundRead
  rw [hr]

theorem inboundRead_nothing (hr : s.reaches p n t = .none) : s.inboundRead p t n = (s.inboundRefused p t).reply p none false := by
  unfold State.inboundRead
  rw [hr]

/-! ### Writes -/

section Writes

variable (hs1 : (if poisoned then s.setErr (Slot.fxp p) Off.FXP.FXPERR 3 else s) = s1)

include hs1

/-- R427: a write of memory the port may reach. -/
theorem inboundWrite_memory {s2 s3 : State} {m : Nat} (hr : s1.reaches p bs.length t = .window a)
    (hok : s1.inboundOk p a bs.length true = true) (hs2 : s1.devWrite a bs = s2)
    (hs3 : (if poisoned then (linesTouched a bs.length).foldl State.poisonLine s2 else s2) = s3)
    (hm : s3.fld (Slot.fxp p) Off.FXP.MSIADDR 3 61 * 8 = m) : s.inboundWrite p t bs poisoned
    = if m ≠ 0 ∧ a < m + 8 ∧ m < a + bs.length then s3.setErr (Slot.fxp p) Off.FXP.FXPERR 4 else s3 := by
  unfold State.inboundWrite
  simp only [hs1, hr, hok, if_true, hs2, hs3, hm]

theorem inboundWrite_refused (hr : s1.reaches p bs.length t = .window a) (hok : s1.inboundOk p a bs.length true = false) :
    s.inboundWrite p t bs poisoned = (s1.inboundLost p a bs.length true).inboundRefused p t := by
  unfold State.inboundWrite
  simp only [hs1, hr, hok, Bool.false_eq_true, if_false]

theorem inboundWrite_nothing (hr : s1.reaches p bs.length t = .none) : s.inboundWrite p t bs poisoned = s1.inboundRefused p t := by
  unfold State.inboundWrite
  simp only [hs1, hr]

/-- A poisoned write of a doorbell or of BAR4 sets FXPERR alone. -/
theorem inboundWrite_poisoned (hr : s1.reaches p bs.length t = .door a ∨ s1.reaches p bs.length t = .bar4 a) (hp : poisoned = true) :
    s.inboundWrite p t bs poisoned = s1 := by
  unfold State.inboundWrite
  rcases hr with hr | hr
  · simp only [hs1, hr]
    exact if_pos hp
  · simp only [hs1, hr]
    exact if_pos hp

end Writes

/-- R27: 8 aligned bytes ring a doorbell. -/
theorem inboundWrite_rings (hr : s.reaches p bs.length t = .door a) (hal : a % 8 = 0) (hlen : bs.length = 8) :
    s.inboundWrite p t bs false = s.ringDoorbell a (leNat bs) := by
  unfold State.inboundWrite
  simp only [Bool.false_eq_true, if_false, hr]
  exact if_pos ⟨hal, hlen⟩

/-- R27: other bytes of the doorbells are refused. -/
theorem inboundWrite_noDoorbell (hr : s.reaches p bs.length t = .door a) (h : a % 8 ≠ 0 ∨ bs.length ≠ 8) :
    s.inboundWrite p t bs false = s.inboundRefused p t := by
  unfold State.inboundWrite
  simp only [Bool.false_eq_true, if_false, hr]
  exact if_neg (by omega)

theorem inboundWrite_msix (hr : s.reaches p bs.length t = .bar4 a) : s.inboundWrite p t bs false = s.msixWrite a bs := by
  unfold State.inboundWrite
  simp only [Bool.false_eq_true, if_false, hr]

end Inbound

/-- Settles O42. -/
theorem inboundRequests : Obligations.InboundRequests := by
  unfold Obligations.InboundRequests
  refine ⟨?reads, ?writes⟩
  case reads =>
    intro port t n s p hup hidle
    refine ⟨fun hwait => ?held, fun hon hfree => ?served⟩
    case held => rw [exec_inboundRead, inbound_parks hup hidle hwait]
    case served =>
      have hexec {x : State} (hx : s.inboundRead p t n.toNat = x) : exec (.inboundRead port t n) s = .next (s.after x) := by
        rw [exec_inboundRead, inbound_now hup hidle hon hfree, ← hx]
        rfl
      exact ⟨fun a hr => ⟨fun hok => hexec (inboundRead_memory hr hok), fun hok => hexec (inboundRead_refused hr hok)⟩,
        fun a hr => hexec (inboundRead_doorbell hr), fun o hr => hexec (inboundRead_msix hr), fun hr => hexec (inboundRead_nothing hr)⟩
  case writes =>
    intro port t bs poisoned s p s1 hup hidle
    refine ⟨fun hwait => ?held, fun hon hfree => ?served⟩
    case held => rw [exec_inboundWrite, inbound_parks hup hidle hwait]
    case served =>
      have hexec {x : State} (hx : s.inboundWrite p t bs poisoned = x) :
          exec (.inboundWrite port t ⟨bs, poisoned⟩) s = .next (s.after x) := by
        rw [exec_inboundWrite, inbound_now hup hidle hon hfree, ← hx]
        rfl
      refine ⟨fun a hr => ⟨fun hok => hexec (inboundWrite_memory rfl hr hok rfl rfl rfl),
          fun hok => hexec (inboundWrite_refused rfl hr hok)⟩,
        fun a hr hp => ⟨fun hal hlen => ?rings, fun hbad => ?refused⟩, fun o hr hp => ?msix,
        fun a hr hp => hexec (inboundWrite_poisoned rfl hr hp), fun hr => hexec (inboundWrite_nothing rfl hr)⟩
      case rings =>
        subst hp
        exact hexec (inboundWrite_rings hr hal hlen)
      case refused =>
        subst hp
        exact hexec (inboundWrite_noDoorbell hr hbad)
      case msix =>
        subst hp
        exact hexec (inboundWrite_msix hr)

/-! ## The endpoint (R431) -/

section Endpoint

variable {src : Src} {reg : BitVec 12} {value : Option (BitVec 32)} {vec : BitVec 6} {s : State}

theorem exec_inboundConfigRequest (reg : BitVec 12) (value : Option (BitVec 32)) (s : State) :
    exec (.inboundConfigRequest reg value) s = .next (s.after (s.configRequest reg value)) := rfl
theorem exec_msixcmd (src : Src) (vec : BitVec 6) (s : State) :
    exec (.msixcmd src vec) s = outcome s (s.regWrite src (Slot.fxp 0) Off.FXP.MSIXCMD (vec.toNat + 2 ^ 8)) := rfl

/-- R431: before port 0 is an enabled endpoint a configuration request is retried. -/
theorem configRequest_retries (h : ¬(s.flag (Slot.fxp 0) Off.PAGE.CTL 0 = true ∧ s.portMode 0 = 3)) :
    s.configRequest reg value = { s with out := s.out ++ [.pcieRetry] } := by
  have hoff : (s.flag (Slot.fxp 0) Off.PAGE.CTL 0 && s.portMode 0 == 3) = false := by
    rw [Bool.eq_false_iff, ne_eq, Bool.and_eq_true, beq_iff_eq]
    exact h
  have hretry : (!s.flag (Slot.fxp 0) Off.PAGE.CTL 0 || s.portMode 0 != 3) = true := by
    rw [show (s.portMode 0 != 3) = !(s.portMode 0 == 3) from rfl, ← Bool.not_and, hoff]
    rfl
  unfold State.configRequest State.inboundConfig
  rw [hoff, hretry]
  rfl

section Enabled

variable (hen : s.flag (Slot.fxp 0) Off.PAGE.CTL 0 = true) (hmode : s.portMode 0 = 3)

include hen hmode

/-- R431: a configuration request of the enabled endpoint is served or held. -/
theorem configRequest_serves (h : s.parked = []) : s.configRequest reg value
    = if s.blockOn (Slot.fxp 0) = true then s.inboundConfig reg.toNat value else s.park (.inbound 0 (.config reg value)) := by
  have hserve : s.configRequest reg value = (s.park (.inbound 0 (.config reg value))).serveHeld (0 : BitVec 2).toNat 1 := by
    unfold State.configRequest State.park
    rw [hen, hmode, h]
    rfl
  rw [hserve, serveHeld_only h]
  cases hon : s.blockOn (Slot.fxp 0) with
  | true => exact if_neg (by rw [show s.blockOn (Slot.fxp (0 : BitVec 2).toNat) = true from hon]; exact (by decide : ¬(false = true)))
  | false => exact if_pos (by rw [show s.blockOn (Slot.fxp (0 : BitVec 2).toNat) = false from hon]; rfl)

/-- R431: the endpoint answers. -/
theorem inboundConfig_enabled : ¬(!s.flag (Slot.fxp 0) Off.PAGE.CTL 0 || s.portMode 0 != 3) = true := by
  rw [hen, hmode]
  decide

/-- R431: a write sets its register. -/
theorem inboundConfig_sets {o : Nat} (v : BitVec 32) : s.inboundConfig o (some v) = (s.configSet o v.toNat).reply 0 (some []) false := by
  unfold State.inboundConfig
  exact if_neg (inboundConfig_enabled hen hmode)

/-- R431: a read is answered with what the endpoint presents. -/
theorem inboundConfig_reads : s.inboundConfig reg.toNat none = (({ s with fresh := s.fresh + 1 } : State).reply 0
    (some (leBytes 4 (s.configWord reg.toNat (Config.pcieConfig s.fresh reg).toNat))) false) := by
  unfold State.inboundConfig
  refine (if_neg (inboundConfig_enabled hen hmode)).trans ?_
  rw [BitVec.ofNat_toNat, BitVec.setWidth_eq]

end Enabled

/-- R431: MSIXCMD asks the endpoint to send a vector. -/
theorem exec_msixcmd_does (ho : s.obeys src (Slot.fxp 0)) : exec (.msixcmd src vec) s = .next (s.after (s.msixCommand vec.toNat)) := by
  have hact : s.act (Slot.fxp 0) Off.FXP.MSIXCMD (vec.toNat + 2 ^ 8) {} = s.msixCommand vec.toNat := by
    have hvec : bitsOf (vec.toNat + 2 ^ 8) 0 6 = vec.toNat := by
      have hlt := vec.isLt
      unfold bitsOf
      omega
    unfold State.act
    rw [show pageKind (Slot.fxp 0) = some PageKind.fxp from rfl]
    refine (if_pos ⟨rfl, bitAt_go vec, rfl⟩).trans ?_
    rw [hvec]
  have hwrite := commandRegister_msixcmd.obeyed (v := vec.toNat + 2 ^ 8) (x := {}) ho (cmdBusy_none (by decide))
  rw [hact] at hwrite
  exact (exec_msixcmd src vec s).trans (congrArg (outcome s) hwrite)

/-- R431: a vector is sent, or its pending bit is set while it is masked. -/
theorem msixCommand_sends (hmode : s.portMode 0 = 3) (hup : s.portUp 0 = true) : s.msixCommand vec.toNat
    = if s.msixMasked vec.toNat then { s with msixPba := s.msixPba ||| BitVec.ofNat 64 (2 ^ vec.toNat) }
      else { s with msixPba := s.msixPba &&& ~~~(BitVec.ofNat 64 (2 ^ vec.toNat)), out := s.out ++ [.msix vec] } := by
  unfold State.msixCommand
  refine (if_pos ⟨hmode, hup⟩).trans ?_
  unfold State.msixSend
  rw [BitVec.ofNat_toNat, BitVec.setWidth_eq]

/-- R431: outside endpoint mode MSIXCMD is ignored. -/
theorem msixCommand_ignored (h : s.portMode 0 ≠ 3 ∨ s.portUp 0 = false) : s.msixCommand vec.toNat = s := by
  unfold State.msixCommand
  refine if_neg ?_
  rintro ⟨hmode, hup⟩
  rcases h with h | h
  · exact h hmode
  · rw [h] at hup
    exact absurd hup (by decide)

end Endpoint

/-- Settles O43. -/
theorem endpointConfiguration : Obligations.EndpointConfiguration := by
  unfold Obligations.EndpointConfiguration
  intro src reg v value vec s on
  refine ⟨fun hoff => ?retried, fun hon hidle => ?enabled, fun ho => ⟨fun hmode hup => ?sends, fun hout => ?ignored⟩⟩
  case retried => rw [exec_inboundConfigRequest, configRequest_retries hoff]
  case enabled =>
    obtain ⟨hen, hmode⟩ := hon
    refine ⟨fun hworks => ⟨?sets, ?reads⟩, fun hstops => ?held⟩
    case sets => rw [exec_inboundConfigRequest, configRequest_serves hen hmode hidle, if_pos hworks, inboundConfig_sets hen hmode]
    case reads =>
      intro w
      rw [exec_inboundConfigRequest, configRequest_serves hen hmode hidle, if_pos hworks, inboundConfig_reads hen hmode]
    case held => rw [exec_inboundConfigRequest, configRequest_serves hen hmode hidle, if_neg (by rw [hstops]; decide)]
  case sends => rw [exec_msixcmd_does ho, msixCommand_sends hmode hup]
  case ignored => rw [exec_msixcmd_does ho, msixCommand_ignored hout]

end Sys2Proof.Machine
end

section
/-!
SUPPORT. What the commands of mastership and of the clocks do (R528, R532, R533, R537 to R540), and the statement of those rules settled
with it.
-/

namespace Sys2Proof.Machine

/-! ## Mastership (R532, R533) -/

section Mastership

variable {src : Src} {s : State}

theorem exec_claimBeat (src : Src) (s : State) : exec (.claimBeat src) s = outcome s (s.regWrite src Slot.man Off.MAN.CLAIM 1) := rfl
theorem exec_claimClaim (src : Src) (s : State) : exec (.claimClaim src) s = outcome s (s.regWrite src Slot.man Off.MAN.CLAIM 2) := rfl
theorem exec_claimRelease (src : Src) (s : State) : exec (.claimRelease src) s = outcome s (s.regWrite src Slot.man Off.MAN.CLAIM 4) := rfl
theorem exec_mantelCoreHalt (south : Bool) (s : State) : exec (.mantelCoreHalt south) s = .next (s.after (s.haltCore south)) := rfl

/-- R532: a Mantel core that reaches the register window is not halted. -/
theorem coreHalted_of_reaches (hc : coreOf src ≠ 0) (hr : s.reachesRegs src = true) : s.coreHalted src = false := by
  unfold State.reachesRegs at hr
  cases src with
  | north => exact Bool.not_eq_true' _ ▸ (Bool.and_eq_true _ _ ▸ hr).2
  | south => exact Bool.not_eq_true' _ ▸ (Bool.and_eq_true _ _ ▸ hr).2
  | context => exact absurd rfl hc
  | debug => exact absurd rfl hc

/-- R533: a write of CLAIM by a core that reaches it. -/
theorem regWrite_claim (hr : s.reachesRegs src = true) (v : Nat) : s.regWrite src Slot.man Off.MAN.CLAIM v = .ok (s.claimWrite src v) := by
  unfold State.regWrite State.regWriteWith
  rw [show pageKind Slot.man = some PageKind.man from rfl]
  exact (if_neg (by rw [hr]; decide)).trans (if_pos ⟨rfl, rfl⟩)

section Running

variable (hc : coreOf src ≠ 0) (hr : s.reachesRegs src = true)

include hc hr

/-- R533: the bits of CLAIM, one at a time. -/
theorem claimWrite_bits : s.claimWrite src 1 = s.beat (coreOf src) ∧ s.claimWrite src 2 = s.claim (coreOf src)
    ∧ s.claimWrite src 4 = s.releaseToken (coreOf src) := by
  have hruns : ¬(coreOf src = 0 ∨ s.coreHalted src = true) := by
    rw [coreHalted_of_reaches hc hr]
    rintro (h | h)
    · exact hc h
    · exact absurd h (by decide)
  unfold State.claimWrite
  exact ⟨if_neg hruns, if_neg hruns, if_neg hruns⟩

theorem exec_claimBeat_does : exec (.claimBeat src) s = .next (s.after (s.beat (coreOf src))) := by
  obtain ⟨hbeat, -, -⟩ := claimWrite_bits hc hr
  rw [exec_claimBeat, regWrite_claim hr, hbeat]
  rfl

theorem exec_claimClaim_does : exec (.claimClaim src) s = .next (s.after (s.claim (coreOf src))) := by
  obtain ⟨-, hclaim, -⟩ := claimWrite_bits hc hr
  rw [exec_claimClaim, regWrite_claim hr, hclaim]
  rfl

theorem exec_claimRelease_does : exec (.claimRelease src) s = .next (s.after (s.releaseToken (coreOf src))) := by
  obtain ⟨-, -, hrelease⟩ := claimWrite_bits hc hr
  rw [exec_claimRelease, regWrite_claim hr, hrelease]
  rfl

end Running

/-- R532: mastership taken by a core. -/
def State.tokenTaken (s : State) (core : Nat) : State :=
  (s.setFld Slot.man Off.MAN.TOKEN 0 2 core).incWrap Slot.man Off.MAN.TOKEN 16 16 1

/-- R532: a claim succeeds when nobody holds mastership or the holder's beat has expired. -/
theorem claim_takes {core : Nat} (hne : s.holder ≠ core)
    (hfree : s.holder = 0 ∨ s.beatLimit < s.fld Slot.man Off.MAN.HBAGE (ageAt s.holder) 32) : s.claim core
    = ((s.tokenTaken core).setErr Slot.man Off.MAN.MANERR 0).ashLog 0x80 Slot.man none none 0
        (core + (s.tokenTaken core).fld Slot.man Off.MAN.TOKEN 16 16 * 2 ^ 16) := by
  unfold State.claim
  exact if_pos ⟨hne, hfree⟩

/-- R532: another claim is refused. -/
theorem claim_refused {core : Nat}
    (h : s.holder = core ∨ (s.holder ≠ 0 ∧ s.fld Slot.man Off.MAN.HBAGE (ageAt s.holder) 32 ≤ s.beatLimit)) :
    s.claim core = s.refuseWrite core Slot.man Off.MAN.CLAIM := by
  unfold State.claim
  refine if_neg ?_
  rintro ⟨hne, hfree⟩
  rcases h with h | ⟨hheld, hage⟩
  · exact hne h
  · rcases hfree with hfree | hfree
    · exact hheld hfree
    · exact Nat.not_lt.mpr hage hfree

/-- R533: the holder's release leaves no holder. -/
theorem releaseToken_holder {core : Nat} (h : s.holder = core) : s.releaseToken core = s.setFld Slot.man Off.MAN.TOKEN 0 2 0 := by
  unfold State.releaseToken
  exact if_pos h

/-- R528: the debug path at level 0b10 halts a core. -/
theorem haltCore_halts {south : Bool} (h : s.dbgLevel = 2) : s.haltCore south
    = (s.setFlag Slot.man Off.MAN.CORESTS (if south then 3 else 2) true).setFlag Slot.man Off.MAN.CORESTS (if south then 1 else 0)
        false := by
  unfold State.haltCore
  exact if_pos h

end Mastership

/-! ## The time of day (R539, R540) -/

section Clock

variable {src : Src} {v : Word} {s : State}

theorem exec_todset (src : Src) (v : Word) (s : State) :
    exec (.todset src v) s = outcome s (s.regWrite src Slot.clk Off.CLK.TODSET v.toNat) := rfl
theorem exec_todstep (src : Src) (v : Word) (s : State) :
    exec (.todstep src v) s = outcome s (s.regWrite src Slot.clk Off.CLK.TODSTEP v.toNat) := rfl
theorem exec_refloss (unlock : Bool) (s : State) : exec (.refloss unlock) s = .next (s.after (s.refLoss unlock)) := rfl
theorem exec_pllRelock (s : State) : exec .pllRelock s = .next (s.after s.relock) := rfl
theorem exec_holdoverExpiry (s : State) : exec .holdoverExpiry s = .next (s.after s.holdoverExpiry) := rfl

/-- The signed value of the bits of a word. -/
theorem sextInt_toNat {w : Nat} (v : BitVec w) : sextInt w v.toNat = v.toInt := by
  have hlt := v.isLt
  have hhalf : v.toNat < 2 ^ (w - 1) ↔ 2 * v.toNat < 2 ^ w := by
    cases w with
    | zero => omega
    | succ n =>
      rw [Nat.add_sub_cancel, Nat.pow_succ]
      omega
  unfold sextInt
  rw [BitVec.toInt_eq_toNat_cond, Nat.mod_eq_of_lt hlt]
  exact ite_congr (propext hhalf) (fun _ => rfl) (fun _ => rfl)

/-- R540: the field of TODSET. -/
theorem fields_todset : ((findRow .clk Off.CLK.TODSET).map (·.fields)).getD [] = [⟨"VALUE", 63, 0, .b, .wo, 0⟩] := by decide

/-- R50, R540: TODSET is heeded in the boot window, and LATE after it. -/
theorem writeFields_todset : writeFields Slot.clk Off.CLK.TODSET v.toNat [⟨"VALUE", 63, 0, .b, .wo, 0⟩]
      { s := s, late := false, dual := false }
    = .ok (if s.boot then { s := s.todSet v.toNat, late := false, dual := false } else { s := s, late := true, dual := false }) := by
  have hvalue : bitsOf v.toNat 0 64 = v.toNat := by
    unfold bitsOf
    rw [Nat.pow_zero, Nat.div_one]
    exact Nat.mod_eq_of_lt v.isLt
  have hfield : State.writeField { s := s, late := false, dual := false } Slot.clk Off.CLK.TODSET v.toNat ⟨"VALUE", 63, 0, .b, .wo, 0⟩
      = .ok (if s.boot then { s := s.todSet v.toNat, late := false, dual := false } else { s := s, late := true, dual := false }) := by
    unfold State.writeField
    simp only [show (⟨"VALUE", 63, 0, .b, .wo, 0⟩ : Field).width = 64 from rfl, hvalue, if_true]
    cases s.boot with
    | false => exact if_neg (by decide)
    | true => exact if_pos rfl
  rw [writeFields_cons hfield]
  rfl

/-- TODSET starts no other action. -/
theorem actOrPark_todset (s : State) (v : Nat) (x : Outside) : s.actOrPark .clk Slot.clk Off.CLK.TODSET v x = s := by
  rw [actOrPark_acts (cmdBusy_none (by decide)) rfl]
  unfold State.act
  rw [show pageKind Slot.clk = some PageKind.clk from rfl]
  exact if_neg (by decide)

/-- R540: TODSET, in the boot window and after it. -/
theorem exec_todset_does (ht : s.takesWrite src Slot.clk) : exec (.todset src v) s
    = .next (s.after (if s.boot then s.todSet v.toNat else s.badWrite Slot.clk Off.CLK.TODSET v.toNat 0 0x02)) := by
  obtain ⟨ha, hr⟩ := ht
  have hwrite : s.regWrite src Slot.clk Off.CLK.TODSET v.toNat
      = .ok (if s.boot then s.todSet v.toNat else s.badWrite Slot.clk Off.CLK.TODSET v.toNat 0 0x02) := by
    unfold State.regWrite
    rw [regWriteWith_admits _ ha (show pageKind Slot.clk = some PageKind.clk from rfl) (by decide)]
    unfold State.applyWrite
    rw [if_neg (by decide)]
    simp only [show ((Off.CLK.TODSET : Nat) < 0x40) = False from by decide, if_false, fields_todset, hr, Bool.false_eq_true, and_false,
      writeFields_todset, actOrPark_todset]
    cases s.boot <;> rfl
  exact (exec_todset src v s).trans (congrArg (outcome s) hwrite)

/-- R540: the time of day is set forward at once. -/
theorem todSet_forward {n : Nat} (h : s.tod ≤ n) : s.todSet n = s.setReg Slot.clk Off.CLK.TOD n := by
  unfold State.todSet
  exact if_pos h

/-- R540: the time of day is slewed backward. -/
theorem todSet_backward {n : Nat} (h : n < s.tod) : s.todSet n = s.setStepRem (s.stepRem - ((s.tod : Int) - (n : Int))) := by
  unfold State.todSet
  rw [if_neg (Nat.not_le.mpr h), Int.ofNat_sub (Nat.le_of_lt h)]

/-- R539: TODSTEP adds to STEPREM. -/
theorem exec_todstep_does (ht : s.takesWrite src Slot.clk) :
    exec (.todstep src v) s = .next (s.after (s.setStepRem (s.stepRem + v.toInt))) := by
  have hact : s.act Slot.clk Off.CLK.TODSTEP v.toNat {} = s.setStepRem (s.stepRem + v.toInt) := by
    unfold State.act
    rw [show pageKind Slot.clk = some PageKind.clk from rfl]
    refine (if_pos rfl).trans ?_
    unfold State.todStep
    rw [sextInt_toNat]
  have hwrite := commandRegister_todstep.performed (v := v.toNat) (x := {}) ht (cmdBusy_none (by decide)) (by decide)
  rw [hact] at hwrite
  exact (exec_todstep src v s).trans (congrArg (outcome s) hwrite)

/-! ## Holdover (R537) -/

/-- R537: a lost reference or lock enters holdover. -/
theorem refLoss_enters {unlock : Bool} (h : s.flag Slot.clk Off.CLK.CLKSTS 1 = true) {s0 s1 : State}
    (hs0 : (if unlock then s else s.setFlag Slot.clk Off.CLK.CLKSTS 0 false) = s0)
    (hs1 : (s0.setFlag Slot.clk Off.CLK.CLKSTS 1 false).setFlag Slot.clk Off.CLK.CLKSTS 2 true = s1) : s.refLoss unlock
    = (s1.setErr Slot.clk Off.CLK.CLKERR (if unlock then 1 else 0)).ashLog 0x82 Slot.clk none none 0 (if unlock then 2 else 1) := by
  unfold State.refLoss
  simp only [h, hs0, hs1, Bool.not_true, Bool.false_eq_true, if_false]

section Holdover

variable (h : s.flag Slot.clk Off.CLK.CLKSTS 2 = true)

include h

/-- R537: lock that returns leaves holdover. -/
theorem relock_leaves : s.relock = s.setFld Slot.clk Off.CLK.CLKSTS 0 3 3 := by
  unfold State.relock
  exact if_pos h

/-- R537: a holdover beyond HOLDMS forces a power-down. -/
theorem holdoverExpiry_forces : s.holdoverExpiry
    = (s.ashLog 0x82 Slot.clk none none 0 ((if s.flag Slot.clk Off.CLK.CLKSTS 0 then 2 else 1) + 4)).forceDown 3 := by
  have hcause : (if !s.flag Slot.clk Off.CLK.CLKSTS 0 then 1 else 2) = (if s.flag Slot.clk Off.CLK.CLKSTS 0 then 2 else 1) := by
    cases s.flag Slot.clk Off.CLK.CLKSTS 0 <;> rfl
  unfold State.holdoverExpiry
  refine (if_pos h).trans ?_
  rw [← hcause]

end Holdover
end Clock

/-- Settles O44. -/
theorem mastershipAndClocks : Obligations.MastershipAndClocks := by
  unfold Obligations.MastershipAndClocks
  refine ⟨?mastership, ?clocks⟩
  case mastership =>
    intro src south s c h held
    refine ⟨fun hc hr => ⟨exec_claimBeat_does hc hr, fun hne hfree => ?taken, fun hno => ?refused, fun hmine => ?released⟩,
      fun hlevel => ?halted⟩
    case taken =>
      rw [exec_claimClaim_does hc hr, claim_takes hne hfree]
      rfl
    case refused => rw [exec_claimClaim_does hc hr, claim_refused hno]
    case released => rw [exec_claimRelease_does hc hr, releaseToken_holder hmine]
    case halted => rw [exec_mantelCoreHalt, haltCore_halts hlevel]
  case clocks =>
    intro src v unlock s
    refine ⟨fun ht => ⟨fun hboot => ⟨fun hle => ?forward, fun hlt => ?backward⟩, fun hboot => ?late, exec_todstep_does ht⟩,
      fun hon => ?loss, fun hhold => ⟨?relock, ?expiry⟩⟩
    case forward => rw [exec_todset_does ht, if_pos hboot, todSet_forward hle]
    case backward => rw [exec_todset_does ht, if_pos hboot, todSet_backward hlt]
    case late => rw [exec_todset_does ht, if_neg (by rw [hboot]; decide)]
    case loss =>
      intro s0 s1
      rw [exec_refloss, refLoss_enters hon rfl rfl]
    case relock => rw [exec_pllRelock, relock_leaves hhold]
    case expiry => rw [exec_holdoverExpiry, holdoverExpiry_forces hhold]

end Sys2Proof.Machine
end

section
/-!
SUPPORT. What a microsecond brings, and what the sensors, brown-outs and power-downs do (R541, R542, R546 to R550, R579), and the
statement of those rules settled with it.
-/

namespace Sys2Proof.Machine

/-! ## A microsecond (R541, R542, R553) -/

section Microsecond

variable {s : State}

theorem exec_damperRefill (s : State) : exec .damperRefill s = .next (s.after s.microsecond) := rfl

/-- Frames that leave change what has been sent and counted, and nothing else. -/
theorem frameOut_eq (s : State) (port : Nat) (f : List Byte) :
    ∃ out stats, s.frameOut port f = { s with out := out, stats := stats } := by
  unfold State.frameOut
  exact ⟨_, _, rfl⟩

/-- R443: the frames that go change what has been sent and counted, and nothing else. -/
theorem foldl_frameOut_eq (fs : List HeldFrame) (s : State) :
    ∃ out stats, fs.foldl (fun s f => s.frameOut f.port.toNat f.bytes) s = { s with out := out, stats := stats } := by
  induction fs generalizing s with
  | nil => exact ⟨s.out, s.stats, rfl⟩
  | cons f fs ih =>
    obtain ⟨out, stats, hfirst⟩ := frameOut_eq s f.port.toNat f.bytes
    obtain ⟨out', stats', hrest⟩ := ih (s.frameOut f.port.toNat f.bytes)
    rw [hfirst] at hrest
    refine ⟨out', stats', ?_⟩
    rw [List.foldl_cons, hfirst, hrest]

theorem flushTx_eq (s : State) :
    ∃ outbuf out stats, s.flushTx = { s with outbuf := outbuf, out := out, stats := stats } := by
  unfold State.flushTx
  obtain ⟨out, stats, h⟩ := foldl_frameOut_eq (s.outbuf.filter fun f => s.mayTransmit f.port.toNat (framePrio f.bytes))
    { s with outbuf := s.outbuf.filter fun f => !s.mayTransmit f.port.toNat (framePrio f.bytes) }
  exact ⟨_, out, stats, h⟩

/-- R553: pages that leave their reset change registers alone. -/
theorem foldl_leaveReset_eq (xs : List (Nat × Nat)) (s : State) :
    ∃ regs regsQ, xs.foldl (fun s x => s.leaveReset x.1) s = { s with regs := regs, regsQ := regsQ } := by
  induction xs generalizing s with
  | nil => exact ⟨s.regs, s.regsQ, rfl⟩
  | cons x xs ih =>
    obtain ⟨regs, regsQ, h⟩ := ih (s.leaveReset x.1)
    refine ⟨regs, regsQ, ?_⟩
    rw [List.foldl_cons, h]
    rfl

/-- R553: the resets that go on after a microsecond. -/
def State.resetsLeft (s : State) : List (Nat × Nat) :=
  s.resets.filterMap (fun x => if x.2 ≤ 1 then none else some (x.1, x.2 - 1))

theorem ageResets_eq (s : State) :
    ∃ regs regsQ, s.ageResets = { s with resets := s.resetsLeft, regs := regs, regsQ := regsQ } := by
  obtain ⟨regs, regsQ, h⟩ := foldl_leaveReset_eq (s.resets.filter fun x => decide (x.2 ≤ 1)) { s with resets := s.resetsLeft }
  unfold State.ageResets
  unfold State.resetsLeft at h ⊢
  dsimp only
  rw [h]
  split
  · exact ⟨_, _, rfl⟩
  · exact ⟨_, _, rfl⟩

/-- R542, R553: a microsecond refills the damper, has every reset go on, and otherwise touches registers, pauses, frames that wait, and
what has been sent and counted. -/
theorem microsecond_eq (s : State) : ∃ regs regsQ pauses outbuf out stats, s.microsecond
    = { s.damperRefill with resets := s.resetsLeft, regs := regs, regsQ := regsQ, pauses := pauses, outbuf := outbuf, out := out,
                            stats := stats } := by
  obtain ⟨regs, regsQ, hresets⟩ := ageResets_eq s.damperRefill
  obtain ⟨outbuf, out, stats, hsent⟩ := flushTx_eq (s.damperRefill.ageResets.agePauses 1000000)
  unfold State.microsecond
  rw [hsent, hresets]
  exact ⟨regs, regsQ, _, outbuf, out, stats, rfl⟩

/-- R542: one bucket after its refill. -/
theorem damperRefill_bucket (i : Fin 9) : s.damperRefill.damper[i]
    = { s.damper[i] with level := min (s.damper[i].level + s.refillOf i) (4 * s.refillOf i), cap := 4 * s.refillOf i } := by
  unfold State.damperRefill
  exact Vector.getElem_ofFn i.isLt

/-- R553: a reset with more than a microsecond to go has one less to go. -/
theorem mem_resetsLeft {x : Nat × Nat} (hx : x ∈ s.resets) (h : 1 < x.2) : (x.1, x.2 - 1) ∈ s.resetsLeft := by
  unfold State.resetsLeft
  exact List.mem_filterMap.mpr ⟨x, hx, if_neg (Nat.not_le.mpr h)⟩

end Microsecond

/-! ## The sensors (R547 to R549) -/

section Heat

variable {r : Readings} {s : State}

theorem exec_thermalSample (r : Readings) (s : State) : exec (.thermalSample r) s = .next (s.after (s.thermal r)) := rfl
theorem exec_thermalTrip (s : State) : exec .thermalTrip s = .next (s.after s.thermalTrip) := rfl
theorem exec_overtempTimeout (s : State) : exec .overtempTimeout s = .next (s.after s.overtemp) := rfl

/-- R547: a duty of 7/8 or 8/8 is 8/8 after a sample in which every sensor that governs it is cool. -/
theorem nextDuty_cool {tset d : Nat} {own : Int} {bases : List Int} (h : ∀ t ∈ own :: bases, t < (tset : Int) - 2) (hd : 7 ≤ d) :
    nextDuty tset own bases d = 8 := by
  have hhot : ¬(own :: bases).any (fun t => decide (t > tset)) = true := by
    rw [List.any_eq_true]
    rintro ⟨t, ht, hgt⟩
    have hlt := h t ht
    have habove := of_decide_eq_true hgt
    omega
  have hcool : (own :: bases).all (fun t => decide (t < (tset : Int) - 2)) = true :=
    List.all_eq_true.mpr fun t ht => decide_eq_true (h t ht)
  unfold nextDuty
  rw [if_neg hhot, if_pos hcool]
  omega

/-- R547: the duty of a hearth after a sample. -/
def State.dutyAfter (s : State) (r : Readings) (h : Nat) : Nat :=
  nextDuty s.tset ((r.hearths.toList[h]?.map (·.toInt)).getD 0) (r.bases.toList.map (·.toInt)) (s.fld Slot.pwr Off.PWR.THROTTLE (4 * h) 4)

section Cool

variable (hcool : ∀ t ∈ sensorTemps r, t < (s.tset : Int) - 2) (hduty : ∀ h < 8, 7 ≤ s.fld Slot.pwr Off.PWR.THROTTLE (4 * h) 4)

include hcool hduty

/-- R547: after a cool sample every duty is 8/8. -/
theorem dutyAfter_cool {h : Nat} (hh : h < 8) : s.dutyAfter r h = 8 := by
  refine nextDuty_cool (fun t ht => hcool t ?_) (hduty h hh)
  have hown : (r.hearths.toList[h]?.map (·.toInt)).getD 0 ∈ r.hearths.toList.map (·.toInt) := by
    have hlen : h < r.hearths.toList.length := by
      rw [Vector.length_toList]
      exact hh
    rw [List.getElem?_eq_getElem hlen]
    exact List.mem_map_of_mem (List.getElem_mem hlen)
  unfold sensorTemps
  rcases List.mem_cons.mp ht with rfl | hbase
  · exact List.mem_append_left _ hown
  · exact List.mem_append_right _ hbase

/-- R547: the word of eight full duties. -/
theorem dutyWord_cool : ((List.range 8).map (fun h => s.dutyAfter r h * 2 ^ (4 * h))).sum = 0x88888888 := by
  have hall : (List.range 8).map (fun h => s.dutyAfter r h * 2 ^ (4 * h)) = (List.range 8).map (fun h => 8 * 2 ^ (4 * h)) :=
    List.map_congr_left fun h hh => by rw [dutyAfter_cool hcool hduty (List.mem_range.mp hh)]
  rw [hall]
  decide

/-- R547: after a cool sample no duty is reduced. -/
theorem dutyLow_cool : (List.range 8).any (fun h => decide (s.dutyAfter r h < 8)) = false := by
  rw [List.any_eq_false]
  intro h hh
  rw [dutyAfter_cool hcool hduty (List.mem_range.mp hh)]
  decide

end Cool

/-- R548: a cool sample has no sensor above 105 °C. -/
theorem sensorTemps_notHot (hcool : ∀ t ∈ sensorTemps r, t < (s.tset : Int) - 2) :
    (sensorTemps r).any (fun t => decide (t > 105)) = false := by
  have htset : s.tset ≤ 105 := by
    unfold State.tset
    omega
  rw [List.any_eq_false]
  intro t ht hhot
  have hlt := hcool t ht
  have habove := of_decide_eq_true hhot
  omega

/-- R547: a cool sample shows its readings and sets every duty to 8/8. -/
theorem thermal_cool {s1 : State} (hvsb : s.mantel.vsb = true) (hs1 : s.showReadings r = s1)
    (hcool : ∀ t ∈ sensorTemps r, t < (s1.tset : Int) - 2) (hduty : ∀ h < 8, 7 ≤ s1.fld Slot.pwr Off.PWR.THROTTLE (4 * h) 4) :
    s.thermal r = { s1.setReg Slot.pwr Off.PWR.THROTTLE 0x88888888 with
                    mantel := { (s1.setReg Slot.pwr Off.PWR.THROTTLE 0x88888888).mantel with hot := false } } := by
  have hword := dutyWord_cool hcool hduty
  have hlow := dutyLow_cool hcool hduty
  have hnot := sensorTemps_notHot hcool
  unfold State.dutyAfter at hword hlow
  unfold State.thermal
  simp only [hvsb, hs1, hnot, hword, hlow, Bool.not_true, Bool.false_eq_true, if_false]

theorem thermalTrip_off (h : s.mantel.vsb = true) :
    s.thermalTrip = { s.corelose with mantel := { s.corelose.mantel with tripped := true } } := by
  unfold State.thermalTrip
  exact if_pos h

theorem overtemp_forces (h : s.mantel.hot = true) : s.overtemp = s.forceDown 5 := by
  unfold State.overtemp
  exact if_pos h

end Heat

/-! ## Brown-outs and power-downs (R546, R550, R579) -/

section Power

variable {src : Src} {key : BitVec 32} {mv : Nat} {s : State}

theorem exec_brownout (mv : BitVec 16) (s : State) : exec (.brownout mv) s = .next (s.after (s.brownout mv.toNat)) := rfl
theorem exec_brownoutRecovery (mv : BitVec 16) (s : State) :
    exec (.brownoutRecovery mv) s = .next (s.after (s.brownRecovery mv.toNat)) := rfl
theorem exec_railfail (vin : Option (BitVec 16)) (s : State) :
    exec (.railfail vin) s = .next (s.after (s.railFail (vin.map (·.toNat)))) := rfl
theorem exec_pwrcmdOff (src : Src) (key : BitVec 32) (s : State) :
    exec (.pwrcmdOff src key) s = outcome s (s.regWrite src Slot.pwr Off.PWR.PWRCMD (1 + key.toNat * 2 ^ 32)) := rfl
theorem exec_ashcmdClear (src : Src) (key : BitVec 32) (s : State) :
    exec (.ashcmdClear src key) s = outcome s (s.regWrite src Slot.ash Off.ASH.ASHCMD (1 + key.toNat * 2 ^ 32)) := rfl

/-- R546: the contexts that leave their flues in a brown-out. -/
def State.flueLeavers (s : State) : List (BitVec 20) :=
  (s.banks.filter (fun b => b.flue.isSome && (s.leavesFlue b).flue.isNone)).map (·.ctx)

/-- R546: the state that grants no leave. -/
def State.ungranting (s : State) : State :=
  { s with
    mantel := { s.mantel with granting := false }
    banks := s.banks.map s.leavesFlue
    order := { s.order with bound := s.order.bound.filter (fun c => !s.flueLeavers.contains c) } }

/-- R546: a brown-out stops granting. -/
theorem brownout_stops (hmv : mv < s.brownMv) (hg : s.mantel.granting = true) :
    s.brownout mv = (s.ungranting.setErr Slot.pwr Off.PWR.PWRERR 0).ashLog 0x83 Slot.pwr none none 0 mv := by
  unfold State.brownout
  exact if_pos ⟨hmv, hg⟩

/-- R546: recovery resumes granting. -/
theorem brownRecovery_resumes (hmv : s.brownMv + 100 < mv) :
    s.brownRecovery mv = { s with mantel := { s.mantel with granting := true } } := by
  unfold State.brownRecovery
  exact if_pos hmv

/-- R546: a failed rail forces a power-down. -/
theorem railFail_forces {vin : Option Nat} (hcore : s.mantel.core = true) (hlow : (vin.map (fun v => decide (v < 2450))).getD true = true) :
    s.railFail vin = (s.setErr Slot.pwr Off.PWR.PWRERR 3).forceDown 4 := by
  unfold State.railFail
  exact if_pos (by rw [hcore, hlow]; rfl)

/-- The command bit of a word with a key above it. -/
theorem bitAt_keyed (n : Nat) : bitAt (1 + n * 2 ^ 32) 0 = true := by
  unfold bitAt
  simp only [beq_iff_eq]
  omega

/-- The key of a command word. -/
theorem bitsOf_keyed {c : Nat} (hc : c < 2 ^ 32) (key : BitVec 32) : bitsOf (c + key.toNat * 2 ^ 32) 32 32 = key.toNat := by
  rw [bitsOf_above hc, Nat.mod_eq_of_lt key.isLt]

/-- R550: PWRCMD.OFF with the key. -/
theorem exec_pwrcmdOff_does (ht : s.takesWrite src Slot.pwr) (hkey : key.toNat = s.serialKey) :
    exec (.pwrcmdOff src key) s = .next (s.after (s.forceDown 2)) := by
  have hact : s.act Slot.pwr Off.PWR.PWRCMD (1 + key.toNat * 2 ^ 32) {} = s.forceDown 2 := by
    unfold State.act
    rw [show pageKind Slot.pwr = some PageKind.pwr from rfl]
    refine (if_pos ⟨rfl, bitAt_keyed _⟩).trans ?_
    rw [bitsOf_keyed (by decide)]
    unfold State.powerCommand
    exact if_pos hkey
  have hwrite := commandRegister_pwrcmd.performed (v := 1 + key.toNat * 2 ^ 32) (x := {}) ht (cmdBusy_none (by decide)) (by decide)
  rw [hact] at hwrite
  exact (exec_pwrcmdOff src key s).trans (congrArg (outcome s) hwrite)

/-- R579: ASHCMD.CLEAR with the key. -/
theorem exec_ashcmdClear_does (ht : s.takesWrite src Slot.ash) (hkey : key.toNat = s.serialKey) : exec (.ashcmdClear src key) s
    = .next (s.after { s with ash := { entries := [], next := 0, frozen := false, dropped := 0 } }) := by
  have hact : s.act Slot.ash Off.ASH.ASHCMD (1 + key.toNat * 2 ^ 32) {}
      = { s with ash := { entries := [], next := 0, frozen := false, dropped := 0 } } := by
    unfold State.act
    rw [show pageKind Slot.ash = some PageKind.ash from rfl]
    refine (if_pos ⟨rfl, bitAt_keyed _⟩).trans ?_
    rw [bitsOf_keyed (by decide)]
    unfold State.ashClear
    exact if_pos hkey
  have hwrite := commandRegister_ashcmd.performed (v := 1 + key.toNat * 2 ^ 32) (x := {}) ht (cmdBusy_none (by decide)) (by decide)
  rw [hact] at hwrite
  exact (exec_ashcmdClear src key s).trans (congrArg (outcome s) hwrite)

end Power

/-- Settles O45. -/
theorem powerAndHeat : Obligations.PowerAndHeat := by
  unfold Obligations.PowerAndHeat
  intro src key mv r s
  refine ⟨⟨exec_damperRefill s, ?buckets, ?resets, ?memory, ?banks⟩, ?sample, fun hvsb => ?trip, fun hhot => ?overtemp, ?brownout,
    fun hmv => ?recovery, fun hcore => ⟨?rail, fun hlow => ?voltage⟩, exec_pwrcmdOff_does, exec_ashcmdClear_does⟩
  case buckets =>
    obtain ⟨regs, regsQ, pauses, outbuf, out, stats, h⟩ := microsecond_eq s
    intro i
    have hbucket : s.microsecond.damper[i] = s.damperRefill.damper[i] := by rw [h]
    rw [hbucket, damperRefill_bucket]
    exact ⟨rfl, rfl, rfl⟩
  case resets =>
    obtain ⟨regs, regsQ, pauses, outbuf, out, stats, h⟩ := microsecond_eq s
    intro x hx hmore
    rw [h]
    exact mem_resetsLeft hx hmore
  case memory =>
    obtain ⟨regs, regsQ, pauses, outbuf, out, stats, h⟩ := microsecond_eq s
    rw [h]
    rfl
  case banks =>
    obtain ⟨regs, regsQ, pauses, outbuf, out, stats, h⟩ := microsecond_eq s
    rw [h]
    rfl
  case sample =>
    intro s1 cool hvsb hcool hduty
    rw [exec_thermalSample, thermal_cool hvsb rfl hcool hduty]
  case trip => rw [exec_thermalTrip, thermalTrip_off hvsb]
  case overtemp => rw [exec_overtempTimeout, overtemp_forces hhot]
  case brownout =>
    intro off s1 hmv hg
    rw [exec_brownout, brownout_stops hmv hg]
    rfl
  case recovery => rw [exec_brownoutRecovery, brownRecovery_resumes hmv]
  case rail => rw [exec_railfail, railFail_forces hcore rfl]
  case voltage =>
    exact (exec_railfail (some mv) s).trans (congrArg (fun t => Host.Outcome.next (s.after t))
      (railFail_forces (vin := some mv.toNat) hcore (decide_eq_true hlow)))

end Sys2Proof.Machine
end

section
/-!
SUPPORT. What resets and start-up do (R48, R551 to R558, R592, R594), and the statements of those rules settled with it.
-/

namespace Sys2Proof.Machine

/-! ## RSTCMD (R551 to R553) -/

section Resets

variable {src : Src} {target : BitVec 6} {key : BitVec 32} {by' : ResetBy} {s : State}

theorem exec_porstN (s : State) : exec .porstN s = .next (s.after (s.coldReset .porst)) := rfl
theorem exec_warmN (s : State) : exec .warmN s = .next (s.after (s.requestReset 3 0 .warmN)) := rfl
theorem exec_rstcmdWarm (src : Src) (key : BitVec 32) (s : State) :
    exec (.rstcmdWarm src key) s = outcome s (s.regWrite src Slot.rst Off.RST.RSTCMD (3 + key.toNat * 2 ^ 32)) := rfl
theorem exec_rstcmdCold (src : Src) (key : BitVec 32) (s : State) :
    exec (.rstcmdCold src key) s = outcome s (s.regWrite src Slot.rst Off.RST.RSTCMD (4 + key.toNat * 2 ^ 32)) := rfl
theorem exec_rstcmdStove (src : Src) (target : BitVec 6) (key : BitVec 32) (s : State) : exec (.rstcmdStove src target key) s
    = outcome s (s.regWrite src Slot.rst Off.RST.RSTCMD (1 + target.toNat * 2 ^ 8 + key.toNat * 2 ^ 32)) := rfl
theorem exec_rstcmdHearth (src : Src) (target : BitVec 6) (key : BitVec 32) (s : State) : exec (.rstcmdHearth src target key) s
    = outcome s (s.regWrite src Slot.rst Off.RST.RSTCMD (2 + target.toNat * 2 ^ 8 + key.toNat * 2 ^ 32)) := rfl

/-- R551: the action of RSTCMD. -/
theorem act_rstcmd (s : State) (v : Nat) (x : Outside) :
    s.act Slot.rst Off.RST.RSTCMD v x = s.resetCommand (bitsOf v 0 3) (bitsOf v 8 6) (bitsOf v 32 32) := by
  unfold State.act
  rw [show pageKind Slot.rst = some PageKind.rst from rfl]
  exact if_pos rfl

section Given

variable (ht : s.takesWrite src Slot.rst)

include ht

/-- R551: a reset command that its sender may give. -/
theorem regWrite_rstcmd {v level n k : Nat} (hlevel : bitsOf v 0 3 = level) (hn : bitsOf v 8 6 = n) (hk : bitsOf v 32 32 = k) :
    s.regWrite src Slot.rst Off.RST.RSTCMD v = .ok (s.resetCommand level n k) := by
  have hwrite := commandRegister_rstcmd.performed (v := v) (x := {}) ht (cmdBusy_none (by decide)) (by decide)
  rw [act_rstcmd, hlevel, hn, hk] at hwrite
  exact hwrite

/-- R551: a reset command of a stove or a hearth. -/
theorem regWrite_rstcmd_target {level : Nat} (hlevel : level < 8) :
    s.regWrite src Slot.rst Off.RST.RSTCMD (level + target.toNat * 2 ^ 8 + key.toNat * 2 ^ 32)
      = .ok (s.resetCommand level target.toNat key.toNat) := by
  have htarget := target.isLt
  have hkey := key.isLt
  exact regWrite_rstcmd ht (by unfold bitsOf; omega) (by unfold bitsOf; omega) (by unfold bitsOf; omega)

/-- R551: a reset command of the whole device. -/
theorem regWrite_rstcmd_device {level : Nat} (hlevel : level < 8) :
    s.regWrite src Slot.rst Off.RST.RSTCMD (level + key.toNat * 2 ^ 32) = .ok (s.resetCommand level 0 key.toNat) := by
  have hkey := key.isLt
  exact regWrite_rstcmd ht (by unfold bitsOf; omega) (by unfold bitsOf; omega) (by unfold bitsOf; omega)

theorem exec_rstcmdStove_does :
    exec (.rstcmdStove src target key) s = .next (s.after (s.resetCommand 1 target.toNat key.toNat)) := by
  rw [exec_rstcmdStove, regWrite_rstcmd_target ht (by decide)]
  rfl

theorem exec_rstcmdHearth_does :
    exec (.rstcmdHearth src target key) s = .next (s.after (s.resetCommand 2 target.toNat key.toNat)) := by
  rw [exec_rstcmdHearth, regWrite_rstcmd_target ht (by decide)]
  rfl

theorem exec_rstcmdWarm_does : exec (.rstcmdWarm src key) s = .next (s.after (s.resetCommand 3 0 key.toNat)) := by
  rw [exec_rstcmdWarm, regWrite_rstcmd_device ht (by decide)]
  rfl

theorem exec_rstcmdCold_does : exec (.rstcmdCold src key) s = .next (s.after (s.resetCommand 4 0 key.toNat)) := by
  rw [exec_rstcmdCold, regWrite_rstcmd_device ht (by decide)]
  rfl

end Given

/-- R551: RSTCMD with a wrong key is refused. -/
theorem resetCommand_wrongKey {level n k : Nat} (h : k ≠ s.serialKey) : s.resetCommand level n k = s.rstSts true := by
  unfold State.resetCommand
  exact if_pos (Or.inl h)

/-- R551: RSTCMD with the key asks for its reset. -/
theorem resetCommand_asks {level n k : Nat} (hk : k = s.serialKey) (hmin : 1 ≤ level) (hmax : level ≤ 4) (hn : level = 2 → n < 8)
    (hcold : level = 4 → s.coldRefused = false) :
    s.resetCommand level n k = ((s.rstSts false).requestReset level n .rstcmd).resetBusy := by
  unfold State.resetCommand
  refine if_neg ?_
  rintro (hkey | hlow | hhigh | ⟨htwo, hbig⟩ | ⟨hfour, hrefused⟩)
  · exact hkey hk
  · exact Nat.not_lt.mpr hmin hlow
  · exact Nat.not_lt.mpr hmax hhigh
  · exact Nat.not_lt.mpr hbig (hn htwo)
  · rw [hcold hfour] at hrefused
    exact absurd hrefused (by decide)

section Powered

variable (hvsb : s.mantel.vsb = true)

include hvsb

/-- R551: a warm reset runs once start-up has reached step 3. -/
theorem requestReset_warm {n : Nat} :
    s.requestReset 3 n by' = if s.bootReached < 3 then s.dropReset 3 else s.warmReset by' := by
  unfold State.requestReset
  exact (if_neg (by decide)).trans ((if_neg (by rw [hvsb]; decide)).trans (if_pos rfl))

/-- R553: a hearth reset runs once start-up is over. -/
theorem requestReset_hearth {n : Nat} :
    s.requestReset 2 n by' = if s.bootReached < 7 then s.dropReset 2 else s.resetHearth (BitVec.ofNat 3 n) := by
  unfold State.requestReset
  exact (if_neg (by decide)).trans ((if_neg (by rw [hvsb]; decide)).trans (if_neg (by decide)))

/-- R552, R553: a stove reset runs once start-up is over, while its hearth is not in reset. -/
theorem requestReset_stove : s.requestReset 1 target.toNat by'
    = if s.bootReached < 7 ∨ s.flag (Slot.hrtA (target.toNat / 8)) Off.PAGE.STS 4 = true then s.dropReset 1 else s.resetStove target := by
  have hasked : s.requestReset 1 target.toNat by' = if s.bootReached < 7 then s.dropReset 1
      else if s.flag (Slot.hrtA (target.toNat / 8)) Off.PAGE.STS 4 then s.dropReset 1 else s.resetStove target := by
    have hstove : BitVec.ofNat 6 target.toNat = target := by rw [BitVec.ofNat_toNat, BitVec.setWidth_eq]
    unfold State.requestReset
    rw [Nat.mod_eq_of_lt target.isLt, hstove]
    exact (if_neg (by decide)).trans ((if_neg (by rw [hvsb]; decide)).trans (if_neg (by decide)))
  rw [hasked]
  by_cases hearly : s.bootReached < 7
  · rw [if_pos hearly, if_pos (Or.inl hearly)]
  · rw [if_neg hearly]
    exact ite_congr (propext ⟨Or.inr, fun h => h.resolve_left hearly⟩) (fun _ => rfl) (fun _ => rfl)

end Powered

theorem requestReset_cold {n : Nat} : s.requestReset 4 n by' = s.coldReset by' := by
  unfold State.requestReset
  exact if_pos rfl

/-! ## What resets leave -/

/-- R553: a page that is held in reset has 10 µs of it to go. -/
theorem holdInReset_resets (s : State) (slot : Nat) : (slot, 10) ∈ (s.holdInReset slot).resets := List.mem_cons_self

/-- R553: a page that is held in reset shows it. -/
theorem holdInReset_inRst (s : State) (slot : Nat) : (s.holdInReset slot).flag slot Off.PAGE.STS 4 = true :=
  State.flag_setFlag s slot Off.PAGE.STS 4 true (by decide)

/-- R553: a stove that is reset has 10 µs of its reset to go. -/
theorem resetStove_resets (s : State) (stove : BitVec 6) : (Slot.stv stove.toNat, 10) ∈ (s.resetStove stove).resets := by
  unfold State.resetStove
  rw [show ((s.resetStovePart stove).incSat Slot.rst Off.RST.COUNTS 48 16 1).resets = (s.resetStovePart stove).resets from rfl]
  exact holdInReset_resets _ _

/-- R553: the page of a stove that is reset shows its reset. -/
theorem resetStove_inRst (s : State) (stove : BitVec 6) : (s.resetStove stove).flag (Slot.stv stove.toNat) Off.PAGE.STS 4 = true := by
  unfold State.resetStove State.incSat
  rw [flag_setFld_other _ _ _ _ _ _ _ _ _ (regKey_ne (by decide) (by decide) (Or.inl (by simp only [Slot.stv, Slot.rst]; omega)))]
  exact holdInReset_inRst _ _

/-- R551: a cold reset that is refused, or without VSB, does nothing. -/
theorem coldReset_refused (h : s.coldRefused = true) : s.coldReset by' = s := by
  unfold State.coldReset
  exact if_pos (by rw [h]; rfl)

/-- R551: what a cold reset leaves before its step, cause and count are noted. -/
def State.coldCleared (s : State) : State :=
  { s.corelose with
    regs := s.corelose.keepRegs coldKeep
    boot := true
    mantel := { Mantel.reset with
      hot := s.corelose.mantel.hot, ticks := s.corelose.mantel.ticks, header := s.corelose.mantel.header, ember := s.corelose.mantel.ember,
      nvSeq := s.corelose.mantel.nvSeq, nvDigest := s.corelose.mantel.nvDigest, nvWrites := s.corelose.mantel.nvWrites,
      signed := s.corelose.mantel.signed, flash := s.corelose.mantel.flash, env := s.corelose.mantel.env } }

/-- R551: a cold reset. -/
theorem coldReset_clears (hok : s.coldRefused = false) (hvsb : s.mantel.vsb = true) : s.coldReset by'
    = ((s.coldCleared.bootStep 2).setReg Slot.rst Off.RST.RSTCAUSE (4 + by'.code * 2 ^ 8)).incSat Slot.rst Off.RST.COUNTS 0 16 1 := by
  unfold State.coldReset
  exact if_neg (by rw [hok, hvsb]; decide)

/-- When nothing waits, a command leaves its state with the queue and the fuses it found. -/
theorem after_idle {t : State} (h : t.idle = true) : s.after t = { t with pending := s.pending, fuses := s.fuses } := by
  unfold State.after
  rw [settle_idle h]

/-- R48, R551: what a cold reset leaves of the machine. -/
theorem coldReset_leaves (hok : s.coldRefused = false) (hvsb : s.mantel.vsb = true) : ∃ t, s.after (s.coldReset .porst) = t
    ∧ t.boot = true ∧ t.banks = [] ∧ t.stores = [] ∧ t.mantel.vsb = true ∧ t.mantel.core = false ∧ t.fuses = s.fuses
    ∧ t.reg Slot.rst Off.RST.BOOTSTEP = 2 ∧ t.reg Slot.rst Off.RST.RSTCAUSE = 4 + 1 * 2 ^ 8 := by
  have hidle : (s.coldReset .porst).idle = true := by
    rw [coldReset_clears hok hvsb]
    rfl
  have hstep : (s.coldReset .porst).reg Slot.rst Off.RST.BOOTSTEP = 2 := by
    rw [coldReset_clears hok hvsb]
    unfold State.incSat State.bootStep
    rw [State.reg_setFld_ne _ _ _ _ _ _ _ _ (by decide), State.reg_setReg_ne _ _ _ _ _ _ (by decide)]
    exact (State.reg_setReg _ _ _ _).trans (Nat.mod_eq_of_lt (by decide))
  have hcause : (s.coldReset .porst).reg Slot.rst Off.RST.RSTCAUSE = 4 + 1 * 2 ^ 8 := by
    rw [coldReset_clears hok hvsb]
    unfold State.incSat
    rw [State.reg_setFld_ne _ _ _ _ _ _ _ _ (by decide), State.reg_setReg]
    rfl
  refine ⟨_, after_idle hidle, ?_, ?_, ?_, ?_, ?_, rfl, hstep, hcause⟩
  all_goals
    rw [coldReset_clears hok hvsb]
    rfl

end Resets

/-- Settles O46. -/
theorem resetCommands : Obligations.ResetCommands := by
  unfold Obligations.ResetCommands
  refine ⟨?commands, ?leaves⟩
  case commands =>
    intro src target key s ok
    refine ⟨fun _ _ => exec_porstN s, fun hrefused => ?refused, fun hvsb => ?warmPin,
      fun ht => ⟨fun hkey hvsb => ⟨?stove, fun hhearth => ?hearth, ?warm, fun hcold => ?cold⟩, fun hkey f hf => ?wrongKey⟩⟩
    case refused => rw [exec_porstN, coldReset_refused hrefused]
    case warmPin => rw [exec_warmN, requestReset_warm hvsb]
    case stove =>
      rw [exec_rstcmdStove_does ht, resetCommand_asks hkey (by decide) (by decide) (fun h => absurd h (by decide))
        (fun h => absurd h (by decide)), requestReset_stove (s := s.rstSts false) hvsb]
    case hearth =>
      rw [exec_rstcmdHearth_does ht, resetCommand_asks hkey (by decide) (by decide) (fun _ => hhearth) (fun h => absurd h (by decide)),
        requestReset_hearth (s := s.rstSts false) hvsb]
    case warm =>
      rw [exec_rstcmdWarm_does ht, resetCommand_asks hkey (by decide) (by decide) (fun h => absurd h (by decide))
        (fun h => absurd h (by decide)), requestReset_warm (s := s.rstSts false) hvsb]
    case cold =>
      rw [exec_rstcmdCold_does ht, resetCommand_asks hkey (by decide) (by decide) (fun h => absurd h (by decide))
        (fun _ => hcold), requestReset_cold]
    case wrongKey =>
      simp only [List.mem_cons, List.not_mem_nil, or_false] at hf
      obtain rfl | rfl | rfl | rfl := hf
      · rw [exec_rstcmdStove_does ht, resetCommand_wrongKey hkey]
      · rw [exec_rstcmdHearth_does ht, resetCommand_wrongKey hkey]
      · rw [exec_rstcmdWarm_does ht, resetCommand_wrongKey hkey]
      · rw [exec_rstcmdCold_does ht, resetCommand_wrongKey hkey]
  case leaves =>
    intro s stove
    refine ⟨resetStove_resets s stove, resetStove_inRst s stove, fun hok hvsb => ?_⟩
    obtain ⟨t, ht, hleft⟩ := coldReset_leaves hok hvsb
    exact ⟨t, by rw [exec_porstN, ht], hleft⟩

/-! ## Start-up (R555 to R558, R592, R594) -/

section StartingUp

variable {src : Src} {env : BootEnv} {s : State}

theorem exec_vsbRise (s : State) : exec .vsbRise s = .next (s.after s.vsbRise) := rfl
theorem exec_vsbFall (s : State) : exec .vsbFall s = .next (s.after s.vsbFall) := rfl
theorem exec_corePowerUp (env : BootEnv) (flash : Option (Flash × Flash)) (s : State) :
    exec (.corePowerUp env flash) s = .next (s.after (s.powerUp env flash)) := rfl
theorem exec_bootctlRelease (src : Src) (hearths : BitVec 8) (s : State) :
    exec (.bootctlRelease src hearths) s = outcome s (s.regWrite src Slot.rst Off.RST.BOOTCTL (1 + hearths.toNat * 2 ^ 8)) := rfl

/-- The Mantel has no part in what modified lines lose. -/
theorem loseModified_mantel (s : State) : s.loseModified.mantel = s.mantel := by
  have hpokes (ms : List ModLine) (t : State) : (ms.foldl (fun s m => s.poke (m.line * 64) m.old) t).mantel = t.mantel := by
    induction ms generalizing t with
    | nil => rfl
    | cons m ms ih => rw [List.foldl_cons, ih, State.poke_mantel]
  unfold State.loseModified
  exact hpokes s.dirty s

/-- The Mantel after everything outside the always-on domain has lost its contents. -/
theorem corelose_mantel (s : State) : s.corelose.mantel = { s.mantel with core := false } := by
  unfold State.corelose
  rw [← loseModified_mantel s]

/-- R594: what the fall of VSB leaves of the machine. -/
theorem vsbFall_leaves (s : State) : ∃ t, s.after s.vsbFall = t ∧ t.mantel.vsb = false ∧ t.mantel.core = false ∧ t.boot = true
    ∧ t.ash = State.reset.ash ∧ t.mantel.flash = s.mantel.flash ∧ t.mantel.nvDigest = s.mantel.nvDigest ∧ t.fuses = s.fuses := by
  have hidle : s.vsbFall.idle = true := by
    unfold State.vsbFall
    rfl
  have hmantel : s.vsbFall.mantel = { Mantel.reset with
      vsb := false, nvSeq := s.mantel.nvSeq, nvDigest := s.mantel.nvDigest, nvWrites := s.mantel.nvWrites, signed := s.mantel.signed,
      flash := s.mantel.flash, env := s.mantel.env } := by
    unfold State.vsbFall
    dsimp only
    rw [corelose_mantel]
  have hrest : s.vsbFall.boot = true ∧ s.vsbFall.ash = State.reset.ash := by
    unfold State.vsbFall
    exact ⟨rfl, rfl⟩
  obtain ⟨hboot, hash⟩ := hrest
  refine ⟨_, after_idle hidle, ?_, ?_, hboot, hash, ?_, ?_, rfl⟩
  all_goals
    dsimp only
    rw [hmantel]
  rfl

section Rising

variable {f g : Flash} {s1 : State} (hvsb : s.mantel.vsb = true) (hcore : s.mantel.core = false) (hdown : s.mantel.down = false)
  (htrip : s.mantel.tripped = false) (hhalt : s.flag Slot.rst Off.RST.BOOTSTEP 12 = false)
  (hs1 : ({ s with mantel := { s.mantel with env := env, granting := true, flash := #v[f, g] } } : State).bootStep 2 = s1)

include hvsb hcore hdown htrip hhalt hs1

/-- R555: with VIN and PORST_N good start-up runs from step 2. -/
theorem powerUp_starts : s.powerUp env (some (f, g)) = if !env.rails then (s1.setErr Slot.pwr Off.PWR.PWRERR 3).bootHalt 2 1
    else if !env.lock then (s1.setErr Slot.pwr Off.PWR.PWRERR 3).bootHalt 2 2
    else (({ s1 with mantel := { s1.mantel with core := true } } : State).setReg Slot.clk Off.CLK.CLKSTS 0xB).boot3 := by
  have hready : ¬(!s.mantel.vsb || s.mantel.core || s.mantel.down || s.mantel.tripped || s.flag Slot.rst Off.RST.BOOTSTEP 12) = true := by
    rw [hvsb, hcore, hdown, htrip, hhalt]
    decide
  subst hs1
  unfold State.powerUp
  exact if_neg hready

/-- R555: start-up stops where the rails fail. -/
theorem powerUp_noRails (hrails : env.rails = false) :
    s.powerUp env (some (f, g)) = (s1.setErr Slot.pwr Off.PWR.PWRERR 3).bootHalt 2 1 := by
  rw [powerUp_starts hvsb hcore hdown htrip hhalt hs1, hrails]
  exact if_pos rfl

/-- R555: start-up stops where the root PLL does not lock. -/
theorem powerUp_noLock (hrails : env.rails = true) (hlock : env.lock = false) :
    s.powerUp env (some (f, g)) = (s1.setErr Slot.pwr Off.PWR.PWRERR 3).bootHalt 2 2 := by
  rw [powerUp_starts hvsb hcore hdown htrip hhalt hs1, hrails, hlock]
  exact (if_neg (by decide)).trans (if_pos rfl)

/-- R555: with rails and lock start-up goes on with step 3. -/
theorem powerUp_goesOn (hrails : env.rails = true) (hlock : env.lock = true) : s.powerUp env (some (f, g))
    = (({ s1 with mantel := { s1.mantel with core := true } } : State).setReg Slot.clk Off.CLK.CLKSTS 0xB).boot3 := by
  rw [powerUp_starts hvsb hcore hdown htrip hhalt hs1, hrails, hlock]
  exact (if_neg (by decide)).trans (if_neg (by decide))

end Rising

/-- R557: BOOTCTL.RELEASE that its sender may give. -/
theorem exec_bootctlRelease_does {hearths : BitVec 8} (ht : s.takesWrite src Slot.rst) :
    exec (.bootctlRelease src hearths) s = .next (s.after (s.bootRelease hearths.toNat)) := by
  have hlt := hearths.isLt
  have hgo : bitAt (1 + hearths.toNat * 2 ^ 8) 0 = true := by
    unfold bitAt
    simp only [beq_iff_eq]
    omega
  have hact : s.act Slot.rst Off.RST.BOOTCTL (1 + hearths.toNat * 2 ^ 8) {} = s.bootRelease hearths.toNat := by
    unfold State.act
    rw [show pageKind Slot.rst = some PageKind.rst from rfl]
    refine (if_neg (by decide)).trans ((if_pos ⟨rfl, hgo⟩).trans ?_)
    rw [bitsOf_above (by decide), Nat.mod_eq_of_lt hlt]
  have hwrite := commandRegister_bootctl.performed (v := 1 + hearths.toNat * 2 ^ 8) (x := {}) ht (cmdBusy_none (by decide)) (by decide)
  rw [hact] at hwrite
  exact (exec_bootctlRelease src hearths s).trans (congrArg (outcome s) hwrite)

/-- R557: after the boot window a release is refused. -/
theorem bootRelease_refused {n : Nat} (h : s.boot = false) : s.bootRelease n = s.rstSts true := by
  unfold State.bootRelease
  exact if_pos (by rw [h]; rfl)

/-- R557: in the boot window a release closes it and releases the hearths that are named. -/
theorem bootRelease_releases {n : Nat} (h : s.boot = true) : s.bootRelease n
    = (((List.range 8).filter (bitAt n)).foldl State.releaseHearth (({ s with boot := false } : State).rstSts false)).bootStep 9 := by
  unfold State.bootRelease
  exact if_neg (by rw [h]; decide)

end StartingUp

/-- Settles O47. -/
theorem startUp : Obligations.StartUp := by
  unfold Obligations.StartUp
  intro src hearths env f s
  refine ⟨?rise, ?fall, fun hvsb hcore hdown htrip hhalt => ?powered, fun ht => ⟨fun hboot => ?late, fun hboot => ?released⟩⟩
  case rise =>
    rw [exec_vsbRise]
    rfl
  case fall =>
    obtain ⟨t, ht, hleft⟩ := vsbFall_leaves s
    exact ⟨t, by rw [exec_vsbFall, ht], hleft⟩
  case powered =>
    obtain ⟨f, g⟩ := f
    intro s1 s2
    refine ⟨fun hrails => ?rails, fun hrails hlock => ?lock, fun hrails hlock => ?goesOn⟩
    case rails => rw [exec_corePowerUp, powerUp_noRails hvsb hcore hdown htrip hhalt rfl hrails]
    case lock => rw [exec_corePowerUp, powerUp_noLock hvsb hcore hdown htrip hhalt rfl hrails hlock]
    case goesOn => rw [exec_corePowerUp, powerUp_goesOn hvsb hcore hdown htrip hhalt rfl hrails hlock]
  case late => rw [exec_bootctlRelease_does ht, bootRelease_refused hboot]
  case released => rw [exec_bootctlRelease_does ht, bootRelease_releases hboot]

end Sys2Proof.Machine
end

section
/-!
SUPPORT. What the management requests are answered (R510, R517, R561 to R565), and the statement of those rules settled with it.
-/

namespace Sys2Proof.Machine

section Management

variable {r : Mgmt} {i : Iface} {s t : State}

/-- A command that leaves `x` leaves `t` when the two are the same. -/
theorem exec_leaves {e : Instr} {x : State} (he : exec e s = .next (s.after x)) (hx : x = t) : exec e s = .next (s.after t) := hx ▸ he

theorem exec_ident (r : Mgmt) (s : State) : exec (.ident r) s = .next (s.after (s.mgmtIdent r)) := rfl
theorem exec_lockread (r : Mgmt) (s : State) : exec (.lockread r) s = .next (s.after (s.mgmtLockread r)) := rfl
theorem exec_thermread (r : Mgmt) (s : State) : exec (.thermread r) s = .next (s.after (s.mgmtThermread r)) := rfl
theorem exec_masterread (r : Mgmt) (s : State) : exec (.masterread r) s = .next (s.after (s.mgmtMasterread r)) := rfl
theorem exec_ashread (r : Mgmt) (s : State) : exec (.ashread r) s = .next (s.after (s.mgmtAshread r)) := rfl
theorem exec_unknownOp (r : Mgmt) (s : State) : exec (.unknownOp r) s = .next (s.after (s.mgmtUnknown r)) := rfl
theorem exec_crcOrFramingError (i : Iface) (s : State) : exec (.crcOrFramingError i) s = .next (s.after (s.mgmtBad i)) := rfl
theorem exec_mgmtReset (r : Mgmt) (s : State) : exec (.mgmtReset r) s = .next (s.after (s.mgmtReset r)) := rfl
theorem exec_powerdown (r : Mgmt) (s : State) : exec (.powerdown r) s = .next (s.after (s.mgmtPowerdown r)) := rfl
theorem exec_mgmtQuote (r : Mgmt) (s : State) : exec (.mgmtQuote r) s = .next (s.after (s.mgmtQuote r)) := rfl
theorem exec_cfgrecord (r : Mgmt) (s : State) : exec (.cfgrecord r) s = .next (s.after (s.mgmtCfgrecord r)) := rfl
theorem exec_recovery (r : Mgmt) (s : State) : exec (.recovery r) s = .next (s.after (s.mgmtRecovery r)) := rfl
theorem exec_mgmtDump (r : Mgmt) (s : State) : exec (.mgmtDump r) s = .next (s.after (s.mgmtDump r)) := rfl

/-! ## Answers (R561) -/

/-- R561: a response with a STATUS has been sent. -/
def State.replied (s : State) (r : Mgmt) (status : BitVec 8) (bs : List Byte) : State :=
  { s with out := s.out ++ [.mgmt r.iface status r.tag bs] }

/-- R563: the payload of a RESET is as it must be. -/
theorem resetPayload_ok {level target : Nat} (hlen : r.payload.length = 10) (hlevel : leNat (r.payload.take 1) = level)
    (htarget : leNat (sliceBytes r.payload 1 1) = target) (hmin : 1 ≤ level) (hmax : level ≤ 4) (hstove : level = 1 → target < 64)
    (hhearth : level = 2 → target < 8) :
    ¬(r.payload.length ≠ 10 ∨ leNat (r.payload.take 1) < 1 ∨ 4 < leNat (r.payload.take 1)
      ∨ (leNat (r.payload.take 1) = 1 ∧ 64 ≤ leNat (sliceBytes r.payload 1 1))
      ∨ (leNat (r.payload.take 1) = 2 ∧ 8 ≤ leNat (sliceBytes r.payload 1 1))) := by
  rw [hlevel, htarget]
  omega

section On

variable (hvsb : s.mantel.vsb = true)

include hvsb

theorem answer_on {tag : BitVec 8} {status : Nat} {bs : List Byte} :
    s.answer i tag status bs = { s with out := s.out ++ [.mgmt i (BitVec.ofNat 8 status) tag bs] } := by
  unfold State.answer
  exact if_pos hvsb

theorem answerReq_on {status : Nat} {bs : List Byte} : s.answerReq r status bs = s.replied r (BitVec.ofNat 8 status) bs := by
  unfold State.answerReq State.replied
  exact answer_on hvsb

/-- R562: a payload of its length is answered with bytes. -/
theorem answerRead_answers {n : Nat} {bs : List Byte} (hlen : r.payload.length = n) : s.answerRead r n bs = s.replied r 0 bs := by
  unfold State.answerRead
  exact (if_pos hlen).trans (answerReq_on hvsb)

/-- R562: another payload is answered with 0x03. -/
theorem answerRead_refuses {n : Nat} {bs : List Byte} (hlen : r.payload.length ≠ n) : s.answerRead r n bs = s.replied r 3 [] := by
  unfold State.answerRead
  exact (if_neg hlen).trans (answerReq_on hvsb)

/-- R562: a request that reads is answered by whether its payload is of its length. -/
theorem exec_answersRead {e : Instr} {n : Nat} {bs : List Byte} (he : exec e s = .next (s.after (s.answerRead r n bs))) :
    (r.payload.length = n → exec e s = .next (s.after (s.replied r 0 bs)))
      ∧ (r.payload.length ≠ n → exec e s = .next (s.after (s.replied r 3 []))) :=
  ⟨fun hlen => exec_leaves he (answerRead_answers hvsb hlen), fun hlen => exec_leaves he (answerRead_refuses hvsb hlen)⟩

/-- R579: ASHREAD of one of the 1,024 entries. -/
theorem mgmtAshread_answers (hlen : r.payload.length = 2) (hn : leNat r.payload < 1024) : s.mgmtAshread r
    = s.replied r 0 (s.ashBytes (leNat r.payload) ++ leBytes 2 s.ash.next ++ leBytes 4 s.ash.dropped) := by
  unfold State.mgmtAshread
  exact (if_neg (Nat.not_le.mpr hn)).trans (answerRead_answers hvsb hlen)

theorem mgmtAshread_refuses (hn : 1024 ≤ leNat r.payload) : s.mgmtAshread r = s.replied r 3 [] := by
  unfold State.mgmtAshread
  exact (if_pos hn).trans (answerReq_on hvsb)

/-! ## RESET and POWERDOWN (R563) -/

section Reset

variable {level target : Nat} (hlen : r.payload.length = 10) (hlevel : leNat (r.payload.take 1) = level)
  (htarget : leNat (sliceBytes r.payload 1 1) = target) (hmin : 1 ≤ level) (hmax : level ≤ 4) (hstove : level = 1 → target < 64)
  (hhearth : level = 2 → target < 8)

include hlen hlevel htarget hmin hmax hstove hhearth

/-- R563: RESET with another SERIAL. -/
theorem mgmtReset_wrongSerial (hserial : s.serialIs (r.payload.drop 2) = false) : s.mgmtReset r = s.replied r 4 [] := by
  have hpayload := resetPayload_ok hlen hlevel htarget hmin hmax hstove hhearth
  unfold State.mgmtReset
  exact (if_neg hpayload).trans ((if_pos (by rw [hserial]; rfl)).trans (answerReq_on hvsb))

/-- R563: RESET acts after its answer. -/
theorem mgmtReset_acts (hserial : s.serialIs (r.payload.drop 2) = true) (hkept : s.resetDropped level target = false)
    (hcold : level = 4 → s.coldRefused = false) :
    s.mgmtReset r = (s.replied r 0 []).requestReset level target (.mgmt r.iface) := by
  have hpayload := resetPayload_ok hlen hlevel htarget hmin hmax hstove hhearth
  have hallowed : ¬((level = 4 ∧ s.coldRefused = true) ∨ s.resetDropped level target = true) := by
    rw [hkept]
    rintro (⟨hfour, hrefused⟩ | hdropped)
    · rw [hcold hfour] at hrefused
      exact absurd hrefused (by decide)
    · exact absurd hdropped (by decide)
  have hanswer : s.answerReq r Status.done [] = s.replied r 0 [] := answerReq_on hvsb
  unfold State.mgmtReset
  refine (if_neg hpayload).trans ((if_neg (by rw [hserial]; decide)).trans ?_)
  rw [hlevel, htarget, hanswer]
  exact if_neg hallowed

end Reset

section PowerDown

variable (hlen : r.payload.length = 8)

include hlen

theorem mgmtPowerdown_wrongSerial (hserial : s.serialIs r.payload = false) : s.mgmtPowerdown r = s.replied r 4 [] := by
  unfold State.mgmtPowerdown
  exact (if_neg (not_not_intro hlen)).trans ((if_pos (by rw [hserial]; rfl)).trans (answerReq_on hvsb))

/-- R563: POWERDOWN acts after its answer. -/
theorem mgmtPowerdown_acts (hserial : s.serialIs r.payload = true) : s.mgmtPowerdown r = (s.replied r 0 []).forceDown 1 := by
  have hanswer : s.answerReq r Status.done [] = s.replied r 0 [] := answerReq_on hvsb
  unfold State.mgmtPowerdown
  refine (if_neg (not_not_intro hlen)).trans ((if_neg (by rw [hserial]; decide)).trans ?_)
  rw [hanswer]

end PowerDown

/-! ## The requests of the firmware (R510, R517, R564, R565) -/

/-- R564: without firmware a request is busy. -/
theorem served_busy {form allowed : Bool} {f : State → State} (hf : s.firmware = false) :
    s.served r form allowed f = s.replied r 6 [] := by
  unfold State.served
  exact (if_pos (by rw [hf]; rfl)).trans (answerReq_on hvsb)

/-- R564: every request of the firmware is busy without it. -/
theorem exec_firmware_busy (hf : s.firmware = false) : ∀ f ∈ [Instr.mgmtQuote, Instr.cfgrecord, Instr.recovery, Instr.mgmtDump],
    exec (f r) s = .next (s.after (s.replied r 6 [])) := by
  intro f hmem
  simp only [List.mem_cons, List.not_mem_nil, or_false] at hmem
  obtain rfl | rfl | rfl | rfl := hmem
  · exact exec_leaves (exec_mgmtQuote r s) (by unfold State.mgmtQuote; exact served_busy hvsb hf)
  · exact exec_leaves (exec_cfgrecord r s) (by unfold State.mgmtCfgrecord; exact served_busy hvsb hf)
  · exact exec_leaves (exec_recovery r s) (by unfold State.mgmtRecovery; exact served_busy hvsb hf)
  · exact exec_leaves (exec_mgmtDump r s) (by unfold State.mgmtDump; exact served_busy hvsb hf)

end On

section Served

variable (hf : s.firmware = true)

include hf

/-- R564: with firmware a request that is formed and allowed is served. -/
theorem served_serves {form allowed : Bool} {f : State → State} (hform : form = true) (hallowed : allowed = true) :
    s.served r form allowed f = f s := by
  unfold State.served
  rw [hf, hform, hallowed]
  rfl

/-- R564: QUOTE is answered with its quote. -/
theorem mgmtQuote_answers (hlen : r.payload.length = 32) (hboot : 4 < s.bootReached) (hrng : s.rngOk = true)
    (hvsb : (s.quote r.payload).1.mantel.vsb = true) :
    s.mgmtQuote r = (s.quote r.payload).1.replied r 0 (s.quote r.payload).2 := by
  unfold State.mgmtQuote
  rw [served_serves hf (beq_iff_eq.mpr hlen) (by rw [decide_eq_true hboot, hrng]; rfl)]
  exact answerReq_on hvsb

/-- R517: CFGRECORD is answered by whether the record is accepted. -/
theorem mgmtCfgrecord_answers {ok : Bool} (hlen : r.payload.length = 1536)
    (hboot : s.reg Slot.rst Off.RST.BOOTSTEP = 4 + 5 * 2 ^ 4 + 2 ^ 12) (ht : s.acceptRecord r.payload = (t, ok))
    (hvsb : t.mantel.vsb = true) : s.mgmtCfgrecord r = t.replied r (if ok then 0 else 3) [] := by
  unfold State.mgmtCfgrecord
  rw [served_serves hf (beq_iff_eq.mpr hlen) (beq_iff_eq.mpr hboot), ht]
  cases ok with
  | true => exact answerReq_on hvsb
  | false => exact answerReq_on hvsb

/-- R510: RECOVERY is answered by whether its chunk is accepted. -/
theorem mgmtRecovery_answers {ok : Bool} (hlen : 8 ≤ r.payload.length) (hsel : s.mantel.env.bootsel = 3)
    (hboot : s.reg Slot.rst Off.RST.BOOTSTEP = 3) (hiface : r.iface ≠ .jtag)
    (ht : s.recoveryChunk (leNat (r.payload.take 4)) (bitAt (leNat (sliceBytes r.payload 4 4)) 0) (r.payload.drop 8) = (t, ok))
    (hvsb : t.mantel.vsb = true) : s.mgmtRecovery r = t.replied r (if ok then 0 else 3) [] := by
  have hport : recoveryPort r.iface = true := by
    unfold recoveryPort
    cases hi : r.iface with
    | i3c => rfl
    | uart => rfl
    | jtag => exact absurd hi hiface
  unfold State.mgmtRecovery
  rw [served_serves hf (decide_eq_true hlen) (by rw [hsel, hboot, hport]; rfl), ht]
  cases ok with
  | true => exact answerReq_on hvsb
  | false => exact answerReq_on hvsb

section Dump

variable {n : Nat} (hlen : r.payload.length = 1) (hn : leNat r.payload = n) (hlt : n < 64)

include hlen hn hlt

/-- R565: DUMP of a locked stove is answered once the dump is made. -/
theorem mgmtDump_answers (hlocked : s.flag (Slot.stv n) Off.STV.STATUS 0 = true) (ht : s.dump (BitVec.ofNat 6 n) = t)
    (hvsb : t.mantel.vsb = true) : s.mgmtDump r = t.replied r 0 [] := by
  have hdump : s.dumpCommand (BitVec.ofNat 6 n) = (t, false) := by
    unfold State.dumpCommand
    rw [BitVec.toNat_ofNat, Nat.mod_eq_of_lt hlt, if_pos hlocked, ht]
  unfold State.mgmtDump
  dsimp only
  rw [served_serves hf (by rw [hlen, hn, decide_eq_true hlt]; rfl) rfl, hn, hdump]
  exact answerReq_on hvsb

/-- R565: DUMP of a stove that is not locked is not allowed. -/
theorem mgmtDump_refuses (hlocked : s.flag (Slot.stv n) Off.STV.STATUS 0 = false) (hvsb : s.mantel.vsb = true) :
    s.mgmtDump r = s.replied r 5 [] := by
  have hdump : s.dumpCommand (BitVec.ofNat 6 n) = (s, true) := by
    unfold State.dumpCommand
    rw [BitVec.toNat_ofNat, Nat.mod_eq_of_lt hlt, if_neg (by rw [hlocked]; decide)]
  unfold State.mgmtDump
  dsimp only
  rw [served_serves hf (by rw [hlen, hn, decide_eq_true hlt]; rfl) rfl, hn, hdump]
  exact answerReq_on hvsb

end Dump
end Served

/-- R515: making a quote has no part in the supply. -/
theorem quote_vsb (s : State) (nonce : List Byte) : (s.quote nonce).1.mantel.vsb = s.mantel.vsb := by
  unfold State.quote State.sign
  rfl

end Management

/-- Settles O48. -/
theorem managementRequests : Obligations.ManagementRequests := by
  unfold Obligations.ManagementRequests
  refine ⟨?reading, ?acting⟩
  case reading =>
    intro r i s hvsb say reads
    refine ⟨fun a ha => ?reads, fun hlen hn => ?ash, fun _ hn => ?ashRefused, ?unknown, ?bad⟩
    case reads =>
      simp only [reads, List.mem_cons, List.not_mem_nil, or_false] at ha
      obtain rfl | rfl | rfl | rfl := ha
      · exact exec_answersRead hvsb (exec_ident r s)
      · exact exec_answersRead hvsb (exec_lockread r s)
      · exact exec_answersRead hvsb (exec_thermread r s)
      · exact exec_answersRead hvsb (exec_masterread r s)
    case ash =>
      exact exec_leaves (exec_ashread r s) (mgmtAshread_answers hvsb hlen hn)
    case ashRefused => exact exec_leaves (exec_ashread r s) (mgmtAshread_refuses hvsb hn)
    case unknown => exact exec_leaves (exec_unknownOp r s) (answerReq_on hvsb)
    case bad => exact exec_leaves (exec_crcOrFramingError i s) (answer_on hvsb)
  case acting =>
    intro r s hvsb say level target n
    refine ⟨fun hlen hmin hmax hstove hhearth => ⟨fun hserial => ?wrongSerial, fun hserial hkept hcold => ?reset⟩,
      fun hlen => ⟨fun hserial => ?notDown, fun hserial => ?down⟩, exec_firmware_busy hvsb, fun hf => ⟨fun hlen hboot hrng => ?quote,
      fun hlen hlt => ⟨fun hlocked t ht hon => ?dump, fun hlocked => ?noDump⟩, fun hlen hboot t ok ht hon => ?record,
      fun hlen hsel hboot hiface t ok ht hon => ?recovery⟩⟩
    case wrongSerial =>
      exact exec_leaves (exec_mgmtReset r s) (mgmtReset_wrongSerial hvsb hlen rfl rfl hmin hmax hstove hhearth hserial)
    case reset =>
      exact exec_leaves (exec_mgmtReset r s) (mgmtReset_acts hvsb hlen rfl rfl hmin hmax hstove hhearth hserial hkept hcold)
    case notDown =>
      exact exec_leaves (exec_powerdown r s) (mgmtPowerdown_wrongSerial hvsb hlen hserial)
    case down =>
      exact exec_leaves (exec_powerdown r s) (mgmtPowerdown_acts hvsb hlen hserial)
    case quote =>
      exact exec_leaves (exec_mgmtQuote r s) (mgmtQuote_answers hf hlen hboot hrng ((quote_vsb s _).trans hvsb))
    case dump =>
      exact exec_leaves (exec_mgmtDump r s) (mgmtDump_answers hf hlen rfl hlt hlocked ht hon)
    case noDump =>
      exact exec_leaves (exec_mgmtDump r s) (mgmtDump_refuses hf hlen rfl hlt hlocked hvsb)
    case record =>
      exact exec_leaves (exec_cfgrecord r s) (mgmtCfgrecord_answers hf hlen hboot ht hon)
    case recovery =>
      exact exec_leaves (exec_recovery r s) (mgmtRecovery_answers hf hlen hsel hboot hiface ht hon)

end Sys2Proof.Machine
end

section
/-!
SUPPORT. The canonical form of memory and of the register pages, and the rules by which work that may stop keeps a property.
-/

namespace Sys2Proof.Machine

/-- Memory and the register pages of a state are in canonical form. -/
structure State.Canon (s : State) : Prop where
  mem : Memory.wf s.mem = true
  regs : Registers.wf s.regs = true

/-- A Cpu works on a machine in canonical form. -/
abbrev Cpu.Canon (c : Cpu) : Prop := c.s.Canon

/-- The same of the state that an entry works on. -/
abbrev EntryCanon (x : State × List Access) : Prop := x.1.Canon

variable {s t : State}

theorem State.Canon.upd {pending regsQ lines stores dirty banks order embers temps resv ctxBusy haltBusy halting charges shelf caches damper
    ash boot sealKey parked queues rules stats inbuf outbuf pauses rc sessions lost acks halted watch unused closing chans secOp staged
    stepping enrolled rekindles fuses mantel msix msixPba bars msixCtl scrubAt doomed resets fresh out} (h : s.Canon) :
    State.Canon ⟨pending, s.mem, s.regs, regsQ, lines, stores, dirty, banks, order, embers, temps, resv, ctxBusy, haltBusy, halting,
      charges, shelf, caches, damper, ash, boot, sealKey, parked, queues, rules, stats, inbuf, outbuf, pauses, rc, sessions, lost, acks,
      halted, watch, unused, closing, chans, secOp, staged, stepping, enrolled, rekindles, fuses, mantel, msix, msixPba, bars, msixCtl,
      scrubAt, doomed, resets, fresh, out⟩ := ⟨h.mem, h.regs⟩

theorem State.Canon.ite {p : Prop} {i : Decidable p} (ha : s.Canon) (hb : t.Canon) : (if p then s else t).Canon := by
  split
  · exact ha
  · exact hb

theorem State.Canon.foldl {α : Type} {f : State → α → State} {l : List α} {s : State} (hf : ∀ s, s.Canon → ∀ x, (f s x).Canon)
    (h : s.Canon) : (l.foldl f s).Canon := by
  induction l generalizing s with
  | nil => exact h
  | cons x t ih => exact ih (hf s h x)

theorem State.Canon.fst {α : Type} {x : α} (h : s.Canon) : (s, x).1.Canon := h

theorem State.Canon.fst_of {α : Type} {p : State × α} {x : α} (e : p = (t, x)) (h : p.1.Canon) : t.Canon := by subst e; exact h

/-- The state that work ends in, whether it succeeds or stops. -/
def finalOf {ε σ α : Type} : EStateM.Result ε σ α → σ
  | .ok _ c => c
  | .error _ c => c

/-- Work keeps a property of what it works on, also where it stops. -/
def Keeps {ε σ α : Type} (P : σ → Prop) (m : EStateM ε σ α) : Prop := ∀ c, P c → P (finalOf (m c))

section

variable {ε σ α β : Type} {P : σ → Prop} {m : EStateM ε σ α} {f : α → EStateM ε σ β}

theorem Keeps.ok {c c' : σ} {a : α} (e : m c = .ok a c') (hm : Keeps P m) (h : P c) : P c' := by
  have := hm c h
  rw [e] at this
  exact this

theorem Keeps.error {c c' : σ} {x : ε} (e : m c = .error x c') (hm : Keeps P m) (h : P c) : P c' := by
  have := hm c h
  rw [e] at this
  exact this

theorem Keeps.run {c : σ} (hm : Keeps P m) (h : P c) : P (finalOf (m c)) := hm c h

theorem Keeps.pure {a : α} : Keeps P (Pure.pure a : EStateM ε σ α) := fun _ h => h

theorem Keeps.throw {e : ε} : Keeps P (MonadExcept.throw e : EStateM ε σ α) := fun _ h => h

theorem Keeps.set {c : σ} (h : P c) : Keeps P (MonadStateOf.set c : EStateM ε σ PUnit) := fun _ _ => h

theorem Keeps.modify {f : σ → σ} (hf : ∀ c, P c → P (f c)) : Keeps P (modify f : EStateM ε σ PUnit) := fun c h => hf c h

theorem Keeps.bind (hm : Keeps P m) (hf : ∀ a, Keeps P (f a)) : Keeps P (m >>= f) := by
  intro c h
  have hc := hm c h
  simp only [Bind.bind, EStateM.bind]
  split
  · rename_i a c' e
    rw [e] at hc
    exact hf a c' hc
  · rename_i x c' e
    rw [e] at hc
    exact hc

/-- Work that looks at what it works on first. -/
theorem Keeps.getBind {f : σ → EStateM ε σ β} (hf : ∀ c, P c → Keeps P (f c)) : Keeps P (MonadState.get >>= f) :=
  fun c h => hf c h c h

/-- A loop over a list keeps what every round of it keeps. -/
theorem Keeps.forIn {l : List α} {b : β} {f : α → β → EStateM ε σ (ForInStep β)} (hf : ∀ x b, Keeps P (f x b)) :
    Keeps P (ForIn.forIn l b f) := by
  induction l generalizing b with
  | nil => exact .pure
  | cons x t ih =>
    rw [List.forIn_cons]
    refine .bind (hf x b) fun r => ?_
    cases r with
    | done b => exact .pure
    | yield b => exact ih

theorem Keeps.ite {p : Prop} {i : Decidable p} {m' : EStateM ε σ α} (ha : Keeps P m) (hb : Keeps P m') :
    Keeps P (if p then m else m') := by
  split
  · exact ha
  · exact hb

end

/-- What work that may stop leaves, when it goes on, is in canonical form. -/
def OkCanon (r : Except Fault State) : Prop := ∀ t, r = .ok t → t.Canon

theorem OkCanon.ok (h : s.Canon) : OkCanon (.ok s) := by
  intro t e
  obtain rfl := Except.ok.inj e
  exact h

theorem OkCanon.error {f : Fault} : OkCanon (.error f) := by
  intro t e
  cases e

theorem OkCanon.ite {p : Prop} {i : Decidable p} {a b : Except Fault State} (ha : OkCanon a) (hb : OkCanon b) :
    OkCanon (if p then a else b) := by
  split
  · exact ha
  · exact hb

theorem OkCanon.get {r : Except Fault State} (h : OkCanon r) (e : r = .ok t) : t.Canon := h t e

end Sys2Proof.Machine
end

section
/-!
SUPPORT. The canonical form through clocks, register writes, stores to memory, alerts and events, frames of contexts, and spills.
-/

namespace Sys2Proof.Machine

variable {s t : State}

theorem State.Canon.setReg {slot off v} (h : s.Canon) : (s.setReg slot off v).Canon := ⟨h.mem, SMap.wf_set _ _ h.regs⟩

theorem State.Canon.setStepRem {v} (h : s.Canon) : (s.setStepRem v).Canon := by
  unfold State.setStepRem
  exact h.setReg

theorem State.Canon.todClock (h : s.Canon) : (s.todClock).Canon := by
  unfold State.todClock
  exact h.upd.setReg.setStepRem

theorem State.Canon.setFld {slot off lo w x} (h : s.Canon) : (s.setFld slot off lo w x).Canon := by
  unfold State.setFld
  exact h.setReg

theorem State.Canon.incSat {slot off lo w n} (h : s.Canon) : (s.incSat slot off lo w n).Canon := by
  unfold State.incSat
  exact h.setFld

theorem State.Canon.ageBeats (h : s.Canon) : (s.ageBeats).Canon := by
  unfold State.ageBeats
  exact h.incSat.incSat

theorem State.Canon.tick (h : s.Canon) : (s.tick).Canon := by
  unfold State.tick
  exact .ite h (.ite (State.Canon.ite h.todClock h).upd.ageBeats (State.Canon.ite h.todClock h).upd)

theorem State.Canon.putBank {b} (h : s.Canon) : (s.putBank b).Canon := by
  unfold State.putBank
  exact h.upd

theorem State.Canon.countKeyLost {a} (h : s.Canon) : (s.countKeyLost a).Canon := by
  unfold State.countKeyLost
  exact .ite h.incSat h

theorem State.Canon.poke {a bs} (h : s.Canon) : (s.poke a bs).Canon := ⟨SMap.wf_setN _ _ h.mem, h.regs⟩

theorem State.Canon.setRefChg {a v} (h : s.Canon) : (s.setRefChg a v).Canon := by
  unfold State.setRefChg
  exact .ite (.ite h h.poke) h

theorem State.Canon.markFrame {a store} (h : s.Canon) : (s.markFrame a store).Canon := by
  unfold State.markFrame
  exact .ite h.setRefChg h

theorem State.Canon.park {w} (h : s.Canon) : (s.park w).Canon := by
  unfold State.park
  exact h.upd

theorem State.Canon.toBound {ctx} (h : s.Canon) : (s.toBound ctx).Canon := by
  unfold State.toBound
  exact h.upd

theorem State.Canon.toReady {ctx} (h : s.Canon) : (s.toReady ctx).Canon := by
  unfold State.toReady
  exact h.upd

theorem State.Canon.wakeBank {b} (h : s.Canon) : (s.wakeBank b).Canon := by
  unfold State.wakeBank
  exact .ite h.putBank.toBound h.putBank.toReady

theorem State.Canon.uncache {ls} (h : s.Canon) : (s.uncache ls).Canon := by
  unfold State.uncache
  exact h.upd

theorem State.Canon.markRange {a n store} (h : s.Canon) : (s.markRange a n store).Canon := by
  unfold State.markRange
  exact .ite h (.foldl (fun _ h1 _ => h1.markFrame) h)

theorem State.Canon.retireRing {r} (h : s.Canon) : (s.retireRing r).Canon := by
  unfold State.retireRing
  exact h.upd

theorem State.Canon.noteRings {a n} (h : s.Canon) : (s.noteRings a n).Canon := by
  unfold State.noteRings
  exact .foldl (fun _ h1 _ => .ite h1.upd h1.upd.retireRing) h

theorem State.Canon.setEpoch {line} (h : s.Canon) : (s.setEpoch line).Canon := by
  unfold State.setEpoch
  exact h.upd

theorem State.Canon.setEpochs {ls} (h : s.Canon) : (s.setEpochs ls).Canon := by
  unfold State.setEpochs
  exact .foldl (fun _ h1 _ => .ite h1.setEpoch h1) h

theorem State.Canon.unpoison {line} (h : s.Canon) : (s.unpoison line).Canon := by
  unfold State.unpoison
  exact h.upd

theorem State.Canon.devWrite {a bs} (h : s.Canon) : (s.devWrite a bs).Canon := by
  unfold State.devWrite
  exact .ite h (State.Canon.foldl (fun _ h1 _ => h1.unpoison) h.markRange.poke.uncache.upd).setEpochs.noteRings

theorem State.Canon.devWriteN {a n v} (h : s.Canon) : (s.devWriteN a n v).Canon := by
  unfold State.devWriteN
  exact h.devWrite

theorem State.Canon.setCtxState {ctx v} (h : s.Canon) : (s.setCtxState ctx v).Canon := by
  unfold State.setCtxState
  exact .ite h.devWriteN.setReg (.ite h.devWriteN.setReg h.devWriteN)

theorem State.Canon.wakeOut {ctx} (h : s.Canon) : (s.wakeOut ctx).Canon := by
  unfold State.wakeOut
  exact h.setCtxState.toReady

theorem State.Canon.routeCtx {cls ctx} (h : s.Canon) : (s.routeCtx cls ctx).Canon := by
  unfold State.routeCtx
  extract_lets _ _ _ s1
  have hs1 : s1.Canon := h.setCtxState
  refine .ite ?_ ?_
  · exact h
  · refine .ite ?_ ?_
    · split
      · exact h
      · exact .ite h.wakeBank h.putBank
    · exact .ite hs1.wakeOut hs1

theorem State.Canon.setFlag {slot off i v} (h : s.Canon) : (s.setFlag slot off i v).Canon := by
  unfold State.setFlag
  exact h.setFld

theorem State.Canon.ashWrite {cls slot stove ctx addr detail} (h : s.Canon) : (s.ashWrite cls slot stove ctx addr detail).Canon := by
  unfold State.ashWrite
  exact .ite h.upd.setFlag.setFlag h.upd.setFlag

theorem State.Canon.routeGroup {cls g} (h : s.Canon) : (s.routeGroup cls g).Canon := by
  unfold State.routeGroup
  refine .ite ?_ ?_
  · exact h.incSat
  · split
    · exact h.routeCtx
    · exact .ite h.ashWrite h.devWriteN

theorem State.Canon.deliverGroup {cls g} (h : s.Canon) : (s.deliverGroup cls g).Canon := by
  unfold State.deliverGroup
  exact .ite h.park h.routeGroup

theorem State.Canon.raiseAlert {slot} (h : s.Canon) : (s.raiseAlert slot).Canon := by
  unfold State.raiseAlert
  exact .ite (State.Canon.ite h.upd h).deliverGroup (.ite h.upd h)

theorem State.Canon.withAlert {slot} {f : State → State} (h : s.Canon) (hf : ∀ s, s.Canon → (f s).Canon) :
    (s.withAlert slot f).Canon := by
  unfold State.withAlert
  exact .ite (hf _ h).raiseAlert (hf _ h)

theorem State.Canon.ashLog {cls slot stove ctx addr detail} (h : s.Canon) : (s.ashLog cls slot stove ctx addr detail).Canon := by
  unfold State.ashLog
  exact h.withAlert (fun _ h1 => h1.ashWrite)

theorem State.Canon.walkFailed {stove ctx ea la ttrBad} (h : s.Canon) : (s.walkFailed stove ctx ea la ttrBad).Canon := by
  unfold State.walkFailed
  exact h.countKeyLost.ashLog

theorem Keeps.frameAddr {ctx a n store} : Keeps State.Canon (frameAddr ctx a n store) := by
  unfold Machine.frameAddr
  refine .getBind fun _ _ => ?_
  extract_lets jp1
  have hjp1 : ∀ y0, Keeps State.Canon (jp1 y0) := fun _ => .ite .throw (.ite .throw (.ite (.bind (.modify
      fun _ h1 => h1.countKeyLost) fun _ => .throw) (.bind (.modify fun _ h2 => h2.markFrame) fun _ => .pure)))
  refine .ite ?_ ?_
  · refine .ite ?_ ?_
    · exact .bind .throw fun _ => hjp1 _
    · split
      · exact .bind (.modify fun _ h3 => h3.walkFailed) fun _ => .bind .throw fun _ => hjp1 _
      · exact .ite (.bind .throw fun _ => hjp1 _) (.bind .pure fun _ => hjp1 _)
  · exact .bind .pure fun _ => hjp1 _

theorem Keeps.fLdBytes {ctx a n} : Keeps State.Canon (fLdBytes ctx a n) := by
  unfold Machine.fLdBytes
  exact .bind .frameAddr fun _ => .getBind fun _ _ => .pure

theorem Keeps.fLd {ctx a n} : Keeps State.Canon (fLd ctx a n) := by
  unfold Machine.fLd
  exact .bind .fLdBytes fun _ => .pure

theorem State.Canon.noteModified {b old} (h : s.Canon) : (s.noteModified b old).Canon := by
  unfold State.noteModified
  exact h.upd

theorem State.Canon.coverStore {stove a n} (h : s.Canon) : (s.coverStore stove a n).Canon := by
  unfold State.coverStore
  exact .ite h (.ite h.unpoison h.upd)

theorem State.Canon.drainOne {b} (h : s.Canon) : (s.drainOne b).Canon := by
  unfold State.drainOne
  exact h.poke.coverStore.noteModified.noteRings

theorem State.Canon.hobWrite {ctx stove a bs} (h : s.Canon) : (s.hobWrite ctx stove a bs).Canon := by
  unfold State.hobWrite
  exact .foldl (fun _ h1 _ => h1.drainOne) h

theorem State.Canon.frameWrite {ctx pa bs} (h : s.Canon) : (s.frameWrite ctx pa bs).Canon := by
  unfold State.frameWrite
  split
  · exact h.hobWrite
  · exact h.devWrite

theorem Keeps.fStBytes {ctx a bs} : Keeps State.Canon (fStBytes ctx a bs) := by
  unfold Machine.fStBytes
  exact .bind .frameAddr fun _ => .modify fun _ h1 => h1.frameWrite

theorem Keeps.fSt {ctx a n v} : Keeps State.Canon (fSt ctx a n v) := by
  unfold Machine.fSt
  exact .fStBytes

theorem State.Canon.toNone {ctx} (h : s.Canon) : (s.toNone ctx).Canon := by
  unfold State.toNone
  exact h.upd

theorem State.Canon.lockStove {stove ctx cause addr} (h : s.Canon) : (s.lockStove stove ctx cause addr).Canon := by
  unfold State.lockStove
  extract_lets _ s1 s2 s3 s4 s5 _ s6
  have hs1 : s1.Canon := h.setReg
  have hs2 : s2.Canon := hs1.setReg
  have hs3 : s3.Canon := hs2.setFlag
  have hs4 : s4.Canon := hs3.setFlag
  have hs5 : s5.Canon := .foldl (fun _ h1 _ => .ite (.ite h1.setCtxState.putBank h1.setCtxState.putBank.toNone) h1) hs4
  have hs6 : s6.Canon := hs5.upd
  exact hs6.ashLog

theorem State.Canon.lockup {b kind step addr code} (h : s.Canon) : (s.lockup b kind step addr code).Canon := by
  unfold State.lockup
  exact h.putBank.lockStove

theorem State.Canon.attention (h : s.Canon) : (s.attention).Canon := by
  unfold State.attention
  exact h.deliverGroup

theorem State.Canon.refireBreak {b} (h : s.Canon) : (s.refireBreak b).Canon := by
  unfold State.refireBreak
  extract_lets _ s1 s2 s3 s4
  have hs1 : s1.Canon := h.putBank
  have hs2 : s2.Canon := by
    unfold s2
    split
    · rename_i e1
      exact Keeps.ok (P := State.Canon) e1 (.bind .fLd fun _ => .fSt) hs1
    · rename_i e2
      have h2 := Keeps.error (P := State.Canon) e2 (.bind .fLd fun _ => .fSt) hs1
      exact h2.lockup
  have hs3 : s3.Canon := hs2.incSat
  have hs4 : s4.Canon := hs3.ashLog
  exact .ite hs4.attention hs4

theorem State.Canon.boundary {b} (h : s.Canon) : (s.boundary b).Canon := by
  unfold State.boundary
  exact .ite h.refireBreak h

theorem State.Canon.ctxSts {refused} (h : s.Canon) : (s.ctxSts refused).Canon := by
  unfold State.ctxSts
  exact h.setFlag

theorem State.Canon.ctxStart {ctx} (h : s.Canon) : (s.ctxStart ctx).Canon := by
  unfold State.ctxStart
  exact .ite h.upd.setCtxState.toReady.ctxSts h.ctxSts

theorem State.Canon.atBoundary {op b} {act : State → State} (h : s.Canon) (hact : ∀ s, s.Canon → (act s).Canon) :
    (s.atBoundary op b act).Canon := by
  unfold State.atBoundary
  exact .ite (hact _ h) h.upd.setFlag.ctxSts

theorem State.Canon.haltBreak {ctx} (h : s.Canon) : (s.haltBreak ctx).Canon := by
  unfold State.haltBreak
  refine .ite ?_ ?_
  · exact h
  · extract_lets s1
    have hs1 : s1.Canon := h.upd
    split
    · exact .ite hs1.refireBreak hs1
    · exact hs1

theorem State.Canon.drain {ctx} (h : s.Canon) : (s.drain ctx).Canon := by
  unfold State.drain
  exact .foldl (fun _ h1 _ => h1.drainOne) h.upd

theorem Keeps.spillTarget {ctx} : Keeps State.Canon (spillTarget ctx) := by
  unfold Machine.spillTarget
  refine .getBind fun _ _ => ?_
  extract_lets
  refine .bind .fLd fun _ => ?_
  refine .bind .fLd fun _ => ?_
  refine .bind .fLd fun _ => ?_
  extract_lets jp1
  have hjp1 : ∀ y0, Keeps State.Canon (jp1 y0) := by
    intro _
    unfold jp1
    split
    · exact .pure
    · exact .ite (.bind .fLdBytes fun _ => .pure) (.ite (.bind .fLdBytes fun _ => .pure) .pure)
  exact .ite (.bind (.bind .fLdBytes fun _ => .getBind fun _ _ => .ite .pure (.bind (.modify fun _ h1 => h1.ashLog)
      fun _ => .pure)) fun _ => hjp1 _) (.bind .pure fun _ => hjp1 _)

theorem Keeps.spillFrames {b} : Keeps State.Canon (spillFrames b) := by
  unfold Machine.spillFrames
  refine .bind .spillTarget fun _ => ?_
  split
  · exact .pure
  · refine .getBind fun _ _ => ?_
    extract_lets _ jp1 jp2 jp3
    have hjp1 : ∀ y0, Keeps State.Canon (jp1 y0) := fun _ => .pure
    have hjp2 : ∀ y0, Keeps State.Canon (jp2 y0) := fun _ => .ite (.bind .fLd fun _ => .bind .fSt fun _ => hjp1 ()) (hjp1 ())
    have hjp3 : ∀ y0, Keeps State.Canon (jp3 y0) := by
      intro _
      unfold jp3
      split
      · exact .bind .fSt fun _ => hjp2 ()
      · exact hjp2 ()
    refine .bind .fLd fun _ => ?_
    refine .bind .frameAddr fun _ => ?_
    refine .getBind fun _ _ => ?_
    refine .bind .fStBytes fun _ => ?_
    refine .bind .fSt fun _ => ?_
    split
    · exact .bind .fSt fun _ => hjp3 ()
    · exact hjp3 ()

theorem State.Canon.spillFailed {b} (h : s.Canon) : (s.spillFailed b).Canon := by
  unfold State.spillFailed
  exact h.putBank.incSat.attention

theorem State.Canon.toWaiting {ctx} (h : s.Canon) : (s.toWaiting ctx).Canon := by
  unfold State.toWaiting
  exact h.upd

theorem State.Canon.orderFor {st ctx} (h : s.Canon) : (s.orderFor st ctx).Canon := by
  unfold State.orderFor
  exact .ite (.ite h h.toReady) (.ite (.ite h h.toWaiting) h.toNone)

theorem State.Canon.chargeAway {ctx n} (h : s.Canon) : (s.chargeAway ctx n).Canon := by
  unfold State.chargeAway
  exact h.upd

theorem State.Canon.dropBank {ctx} (h : s.Canon) : (s.dropBank ctx).Canon := by
  unfold State.dropBank
  exact h.upd

theorem State.Canon.setErr {slot off i} (h : s.Canon) : (s.setErr slot off i).Canon := by
  unfold State.setErr
  exact h.withAlert (fun _ h1 => h1.setFlag)

theorem Keeps.findSlot {ctx base code l free} : Keeps State.Canon (findSlot ctx base code l free) := by
  induction l generalizing free with
  | nil => exact .pure
  | cons i t ih =>
    unfold Machine.findSlot
    exact .bind .fLd fun _ => .ite (.ite .pure ih) ih

theorem Keeps.writeRecord {ctx code flags paddr stove} : Keeps State.Canon (writeRecord ctx code flags paddr stove) := by
  unfold Machine.writeRecord
  refine .getBind fun _ _ => ?_
  extract_lets
  refine .bind .findSlot fun _ => ?_
  split
  · refine .ite ?_ ?_
    · exact .pure
    · split
      · exact .bind .fStBytes fun _ => .bind (.modify fun _ h1 => h1.upd) fun _ => .pure
      · exact .bind .fLd fun _ => .bind .fSt fun _ => .bind (.modify fun _ h2 => h2.ashLog) fun _ => .pure

theorem State.Canon.hold {ctx reason} (h : s.Canon) : (s.hold ctx reason).Canon := by
  unfold State.hold
  exact h.setCtxState.toNone

theorem State.Canon.queueAlarm {ctx code flags paddr stove} (h : s.Canon) : (s.queueAlarm ctx code flags paddr stove).1.Canon := by
  unfold State.queueAlarm
  extract_lets
  split
  · exact h
  · split
    · rename_i e1
      have h1 := Keeps.ok (P := State.Canon) e1 .writeRecord h
      exact .fst (.ite h1.wakeOut h1)
    · rename_i e2
      have h2 := Keeps.error (P := State.Canon) e2 .writeRecord h
      split
      · split
        · exact .fst h2.lockup
        · exact h2
      · exact .ite h2.hold h2.hold.ashLog

theorem State.Canon.lateError {m f} (h : s.Canon) : (s.lateError m f).Canon := by
  unfold State.lateError
  refine .ite ?_ ?_
  · exact h.setErr.ashLog
  · split
    · rename_i e1
      have h1 := State.Canon.fst_of e1 h.queueAlarm
      exact h1.ashLog

theorem State.Canon.giveUp {line} (h : s.Canon) : (s.giveUp line).Canon := by
  unfold State.giveUp
  exact h.upd

theorem State.Canon.markPoison {line} (h : s.Canon) : (s.markPoison line).Canon := by
  unfold State.markPoison
  exact h.upd

theorem State.Canon.countUe {line} (h : s.Canon) : (s.countUe line).Canon := by
  unfold State.countUe
  exact h.incSat.setReg.setErr.ashLog

theorem State.Canon.setBeneath {line bs} (h : s.Canon) : (s.setBeneath line bs).Canon := by
  unfold State.setBeneath
  split
  · exact h.poke
  · exact h.poke.upd

theorem State.Canon.coverStored {line} (h : s.Canon) : (s.coverStored line).Canon := by
  unfold State.coverStored
  split
  · exact h
  · exact .ite h h.upd

theorem State.Canon.poisonLine {line} (h : s.Canon) : (s.poisonLine line).Canon := by
  unfold State.poisonLine
  exact h.coverStored.markPoison.upd

theorem State.Canon.poisonNear {line keyGone} (h : s.Canon) : (s.poisonNear line keyGone).Canon := by
  unfold State.poisonNear
  exact .ite h.countUe.setEpoch.setBeneath h.countUe.setEpoch.setBeneath.poisonLine.upd

theorem State.Canon.setPinCount {p n} (h : s.Canon) : (s.setPinCount p n).Canon := by
  unfold State.setPinCount
  exact h.upd

theorem State.Canon.erasePin {p} (h : s.Canon) : (s.erasePin p).Canon := by
  unfold State.erasePin
  exact .ite h (.ite h.setErr.ashLog h.upd)

theorem State.Canon.correctPin {p} (h : s.Canon) : (s.correctPin p).Canon := by
  unfold State.correctPin
  exact .ite h (.ite h.setPinCount.incSat.erasePin h.setPinCount.incSat)

theorem State.Canon.controllerRead {line m} (h : s.Canon) : (s.controllerRead line m).1.Canon := by
  unfold State.controllerRead
  split
  · exact .fst h.poisonNear
  · exact .ite (.foldl (fun _ h1 _ => h1.correctPin) h) (State.Canon.foldl (fun _ h2 _ => h2.correctPin) h).setBeneath

theorem State.Canon.writeBack {m found} (h : s.Canon) : (s.writeBack m found).Canon := by
  unfold State.writeBack
  extract_lets
  refine .ite ?_ ?_
  · exact h.giveUp.poke.lateError
  · refine .ite ?_ ?_
    · split
      · exact h.giveUp
      · exact h.giveUp
      · exact (State.Canon.ite h.giveUp.poke.unpoison.markPoison h.giveUp.poke.unpoison).lateError
    · refine .ite ?_ ?_
      · exact h.giveUp.setEpoch
      · split
        · exact h.giveUp.poisonNear.lateError
        · exact h.controllerRead.giveUp.setEpoch

theorem State.Canon.dropCopies {gone} (h : s.Canon) : (s.dropCopies gone).Canon := by
  unfold State.dropCopies
  exact (State.Canon.foldl (fun _ h1 _ => h1.writeBack) h).upd

theorem State.Canon.purge (h : s.Canon) : (s.purge).Canon := by
  unfold State.purge
  exact .ite h h.upd.dropCopies

theorem State.Canon.abandon {ctx} (h : s.Canon) : (s.abandon ctx).Canon := by
  unfold State.abandon
  exact h.upd.purge

theorem State.Canon.returnLeave {bucket cost} (h : s.Canon) : (s.returnLeave bucket cost).Canon := by
  unfold State.returnLeave
  split
  · exact h
  · exact h.upd

theorem State.Canon.releaseBank {b} (h : s.Canon) : (s.releaseBank b).Canon := by
  unfold State.releaseBank
  extract_lets s1
  have hs1 : s1.Canon := h.abandon.dropBank.chargeAway
  split
  · exact hs1.returnLeave
  · exact hs1

theorem State.Canon.spill {b dest} (h : s.Canon) : (s.spill b dest).1.Canon := by
  unfold State.spill
  extract_lets s1
  have hs1 : s1.Canon := h.putBank.drain
  split
  · rename_i e1
    have h1 := Keeps.error (P := State.Canon) e1 .spillFrames hs1
    exact h1.ashLog.spillFailed
  · rename_i e2
    have h2 := Keeps.ok (P := State.Canon) e2 .spillFrames hs1
    exact h2.ashLog.spillFailed
  · rename_i e3
    have h3 := Keeps.ok (P := State.Canon) e3 .spillFrames hs1
    extract_lets
    split
    · exact h3.setCtxState.devWriteN.releaseBank.orderFor.incSat

theorem State.Canon.spillOut {b dest} (h : s.Canon) : (s.spillOut b dest).1.Canon := by
  unfold State.spillOut
  split
  · rename_i e1
    have h1 := State.Canon.fst_of e1 h.spill
    exact .fst h1.chargeAway
  · rename_i e2
    exact State.Canon.fst_of e2 h.spill

end Sys2Proof.Machine
end

section
/-!
SUPPORT. The canonical form through the commands of the Grate, the Chimney, the Bellows and the security engine, and through start-up.
-/

namespace Sys2Proof.Machine

variable {s t : State}

theorem State.Canon.keepTemps {ctx frame} (h : s.Canon) : (s.keepTemps ctx frame).Canon := by
  unfold State.keepTemps
  split
  · exact h.upd
  · exact h

theorem State.Canon.fillMasks {line} (h : s.Canon) : (s.fillMasks line).Canon := by
  unfold State.fillMasks
  exact .ite h h.upd

theorem State.Canon.serveOne {stove x} (h : s.Canon) : (s.serveOne stove x).1.Canon := by
  unfold State.serveOne
  split
  · exact h
  · split
    · exact h
    · exact h
    · exact h
    · exact h
    · split
      · exact h
      · split
        · exact .fst h.upd.fillMasks
    · split
      · exact h
      · split
        · exact .fst h.upd.fillMasks
    · split
      · exact h
      · split
        · exact .fst h.upd.fillMasks

theorem State.Canon.serve {stove xs} (h : s.Canon) : (s.serve stove xs).1.Canon := by
  induction xs generalizing s with
  | nil => exact h
  | cons x t ih =>
    unfold State.serve
    split
    rename_i e1
    split
    rename_i e2
    exact .fst (State.Canon.fst_of e2 (ih (State.Canon.fst_of e1 h.serveOne)))

theorem State.Canon.breakLoaded {ctx p} (h : s.Canon) : (s.breakLoaded ctx p).Canon := by
  unfold State.breakLoaded
  refine .ite ?_ ?_
  · split
    · exact h.refireBreak
    · exact h
  · exact h

theorem Keeps.atStep {α : Type} {n ctx k a len} {m : FM α} (hm : Keeps State.Canon m) : Keeps EntryCanon (atStep n ctx k a len m) := by
  intro c hc
  have hrun : Keeps State.Canon (do
      let pa ← Machine.frameAddr ctx a len (k = .store)
      let v ← m
      Pure.pure (v, pa) : FM (α × Nat)) := .bind .frameAddr fun _ => .bind hm fun _ => .pure
  unfold Machine.atStep
  dsimp only
  split
  · rename_i e1
    exact Keeps.ok (P := State.Canon) e1 hrun hc
  · rename_i e1
    exact Keeps.error (P := State.Canon) e1 hrun hc

theorem Keeps.entryLd {n ctx a len} : Keeps EntryCanon (entryLd n ctx a len) := by
  unfold Machine.entryLd
  exact .atStep .fLd

theorem Keeps.entrySt {n ctx a bs} : Keeps EntryCanon (entrySt n ctx a bs) := by
  unfold Machine.entrySt
  exact .atStep .fStBytes

theorem Keeps.entrySteps {ctx e old image lis ember} : Keeps EntryCanon (entrySteps ctx e old image lis ember) := by
  unfold Machine.entrySteps
  refine .getBind fun _ _ => ?_
  split
  extract_lets _ jp1
  have hjp1 : ∀ a, Keeps EntryCanon (jp1 a) := fun _ => .bind .entryLd fun _ => .bind .entrySt fun _ => .bind .entrySt fun _ =>
    .bind .entryLd fun _ => .pure
  split
  · exact hjp1 ()
  · exact .bind .entryLd fun _ => .bind .entrySt fun _ => .bind .entrySt fun _ =>
      .bind (.modify fun _ h1 => State.Canon.keepTemps h1) fun _ => hjp1 ()

theorem State.Canon.spillQuar {b dest} (h : s.Canon) : (s.spillQuar b dest).1.Canon := by
  unfold State.spillQuar
  split
  · exact h.spillOut
  · extract_lets s1
    have hs1 : s1.Canon := h.drain
    split
    · rename_i s2 _ e1
      have h1 : State.Canon s2 := Keeps.error (P := EntryCanon) e1 .entrySteps hs1
      exact .fst h1.ashLog.spillFailed
    · rename_i s3 _ e2
      have h2 : State.Canon s3 := Keeps.ok (P := EntryCanon) e2 .entrySteps hs1
      exact h2.serve.putBank.breakLoaded.spill

theorem State.Canon.spillCommand {b dest} (h : s.Canon) : (s.spillCommand b dest).Canon := by
  unfold State.spillCommand
  split
  · rename_i e1
    have h1 := State.Canon.fst_of e1 h.spillQuar
    exact h1.ctxSts

theorem State.Canon.stopResident {b} (h : s.Canon) : (s.stopResident b).Canon := by
  unfold State.stopResident
  extract_lets s1
  have hs1 : s1.Canon := h.haltBreak
  split
  · exact hs1.ctxSts
  · refine .ite ?_ ?_
    · exact hs1.ctxSts
    · split
      · rename_i e1
        have h1 := State.Canon.fst_of e1 hs1.spillQuar
        exact h1.ctxSts
      · exact h.upd.spillCommand

theorem State.Canon.ctxStop {ctx} (h : s.Canon) : (s.ctxStop ctx).Canon := by
  unfold State.ctxStop
  extract_lets
  refine .ite ?_ ?_
  · exact h.setCtxState.toNone.ctxSts
  · refine .ite ?_ ?_
    · split
      · exact h.atBoundary (fun _ h1 => h1.stopResident)
      · exact h.ctxSts
    · exact h.ctxSts

theorem State.Canon.ctxEvict {ctx} (h : s.Canon) : (s.ctxEvict ctx).Canon := by
  unfold State.ctxEvict
  split
  · exact .ite (h.atBoundary (fun _ h1 => h1.spillCommand)) h.ctxSts
  · exact h.ctxSts

theorem State.Canon.unbind {b} (h : s.Canon) : (s.unbind b).Canon := by
  unfold State.unbind
  exact .ite h.putBank h.putBank.toReady

theorem State.Canon.ctxPreempt {ctx} (h : s.Canon) : (s.ctxPreempt ctx).Canon := by
  unfold State.ctxPreempt
  split
  · exact .ite (h.atBoundary (fun _ h1 => (State.Canon.ite h1.unbind h1).ctxSts)) h.ctxSts
  · exact h.ctxSts

theorem State.Canon.ctxAlarm {ctx} (h : s.Canon) : (s.ctxAlarm ctx).Canon := by
  unfold State.ctxAlarm
  exact .ite h.ctxSts h.devWriteN.ctxSts

theorem State.Canon.ctxAttn {ctx} (h : s.Canon) : (s.ctxAttn ctx).Canon := by
  unfold State.ctxAttn
  exact .ite h.ctxSts h.queueAlarm.ctxSts

theorem Keeps.discardAlarms {ctx base l} : Keeps State.Canon (discardAlarms ctx base l) := by
  induction l with
  | nil => exact .pure
  | cons i t ih =>
    unfold Machine.discardAlarms
    exact .bind .fLd fun _ => .ite (.bind .fSt fun _ => ih) ih

theorem State.Canon.dropEmber {ctx} (h : s.Canon) : (s.dropEmber ctx).Canon := by
  unfold State.dropEmber
  extract_lets s1
  have hs1 : s1.Canon := h.upd
  split
  · split
    · exact hs1.returnLeave
    · exact hs1
  · exact hs1

theorem State.Canon.resetContext {ctx} (h : s.Canon) : (s.resetContext ctx).Canon := by
  unfold State.resetContext
  extract_lets s1 s2 s3
  have hs1 : s1.Canon := by
    unfold s1
    split
    · rename_i e1
      exact Keeps.ok (P := State.Canon) e1 .discardAlarms h
    · rename_i e2
      exact Keeps.error (P := State.Canon) e2 .discardAlarms h
  have hs2 : s2.Canon := by
    unfold s2
    split
    · exact hs1.releaseBank
    · exact hs1
  have hs3 : s3.Canon := hs2.dropEmber
  exact hs3.setCtxState.toNone

theorem State.Canon.ctxReset {ctx} (h : s.Canon) : (s.ctxReset ctx).Canon := by
  unfold State.ctxReset
  exact .ite h.ctxSts h.resetContext.ctxSts

theorem State.Canon.ctxCommand {op ctx} (h : s.Canon) : (s.ctxCommand op ctx).Canon := by
  unfold State.ctxCommand
  split
  · exact h.ctxStart
  · exact h.ctxStop
  · exact h.ctxEvict
  · exact h.ctxPreempt
  · exact h.ctxAlarm
  · exact h.ctxAttn
  · exact h.ctxReset
  · exact h.ctxSts

theorem State.Canon.wgCommand {op g} (h : s.Canon) : (s.wgCommand op g).Canon := by
  unfold State.wgCommand
  exact .ite h.devWriteN (.ite h.devWriteN (.ite h.devWrite h))

theorem State.Canon.qcmdSts {refused} (h : s.Canon) : (s.qcmdSts refused).Canon := by
  unfold State.qcmdSts
  exact h.setFlag

theorem State.Canon.storeQueue {q v} (h : s.Canon) : (s.storeQueue q v).Canon := by
  unfold State.storeQueue
  exact h.devWrite

theorem State.Canon.queueFail {q code addr} (h : s.Canon) : (s.queueFail q code addr).Canon := by
  unfold State.queueFail
  extract_lets _ s1
  have hs1 : s1.Canon := by
    unfold s1
    split
    · exact h.upd.storeQueue
    · exact h.devWrite
  exact hs1.setErr.ashLog

theorem State.Canon.countLost {a n} (h : s.Canon) : (s.countLost a n).Canon := by
  unfold State.countLost
  split
  · exact h.countKeyLost
  · exact h

theorem State.Canon.shareLines {ls} (h : s.Canon) : (s.shareLines ls).Canon := by
  unfold State.shareLines
  exact h.upd

theorem State.Canon.devRead {a n} (h : s.Canon) : (s.devRead a n).Canon := by
  unfold State.devRead
  exact h.markRange.shareLines

theorem State.Canon.cacheQueue {q v} (h : s.Canon) : (s.cacheQueue q v).Canon := by
  unfold State.cacheQueue
  extract_lets
  split
  · exact h.upd
  · exact h.upd.storeQueue

theorem State.Canon.queueEnable {q} (h : s.Canon) : (s.queueEnable q).Canon := by
  unfold State.queueEnable
  exact .ite h.qcmdSts (.ite h.countLost.queueFail.qcmdSts (.ite h.devRead.qcmdSts h.devRead.cacheQueue.qcmdSts))

theorem State.Canon.useQueue {q} (h : s.Canon) : (s.useQueue q).1.Canon := by
  unfold State.useQueue
  split
  · exact .fst h.cacheQueue
  · extract_lets _ _ s1
    have hs1 : s1.Canon := h.devRead
    split
    · exact .fst h.countLost.queueFail
    · split
      · exact .fst hs1.cacheQueue
      · exact hs1

theorem State.Canon.setQueue {q v} (h : s.Canon) : (s.setQueue q v).Canon := by
  unfold State.setQueue
  exact .ite h.upd h.storeQueue

theorem State.Canon.sourceRead {key a n} (h : s.Canon) : (s.sourceRead key a n).Canon := by
  unfold State.sourceRead
  split
  · exact h.devRead
  · exact .ite h.countKeyLost h

theorem State.Canon.readParts {l} (h : s.Canon) : (s.readParts l).Canon := by
  induction l generalizing s with
  | nil => exact h
  | cons x t ih =>
    unfold State.readParts
    exact .ite (ih h.sourceRead) h.sourceRead

theorem State.Canon.putRc {x} (h : s.Canon) : (s.putRc x).Canon := by
  unfold State.putRc
  exact h.upd

theorem State.Canon.countPort {port cnt n} (h : s.Canon) : (s.countPort port cnt n).Canon := by
  unfold State.countPort
  exact h.upd

theorem State.Canon.frameOut {port f} (h : s.Canon) : (s.frameOut port f).Canon := by
  unfold State.frameOut
  exact h.upd.countPort.countPort

theorem State.Canon.transmit {port f} (h : s.Canon) : (s.transmit port f).Canon := by
  unfold State.transmit
  exact .ite h.upd (.ite h.upd.frameOut h.upd)

theorem State.Canon.emit {v p} (h : s.Canon) : (s.emit v p).Canon := by
  unfold State.emit
  exact h.transmit

theorem State.Canon.emitAll {v base only psn answer l i} (h : s.Canon) : (s.emitAll v base only psn answer l i).Canon := by
  induction l generalizing s i with
  | nil => exact h
  | cons b t ih =>
    unfold State.emitAll
    exact ih h.emit

theorem State.Canon.rcSend {qp load bs} (h : s.Canon) : (s.rcSend qp load bs).Canon := by
  unfold State.rcSend
  split
  · rename_i e1
    have h1 := State.Canon.fst_of e1 h.useQueue
    exact h1.emitAll.putRc.setQueue

theorem State.Canon.releaseQueue {q v} (h : s.Canon) : (s.releaseQueue q v).Canon := by
  unfold State.releaseQueue
  exact h.upd.storeQueue

theorem State.Canon.finishClose {q} (h : s.Canon) : (s.finishClose q).Canon := by
  unfold State.finishClose
  exact .ite h.upd.releaseQueue.setFlag h

theorem State.Canon.advanceTail {v n t} (h : s.Canon) : (s.advanceTail v n t).1.Canon := by
  induction n generalizing s t with
  | zero => exact h
  | succ n ih =>
    unfold State.advanceTail
    split
    · exact h
    · extract_lets _ s1
      have hs1 : s1.Canon := h.devRead
      split
      · exact hs1
      · exact ih hs1

theorem State.Canon.freeMessage {q x2} (h : s.Canon) : (s.freeMessage q x2).Canon := by
  unfold State.freeMessage
  extract_lets s1
  have hs1 : s1.Canon := h.devWrite
  split
  · rename_i e1
    have h1 := State.Canon.fst_of e1 hs1.useQueue
    split
    · rename_i e2
      have h2 := State.Canon.fst_of e2 h1.advanceTail
      exact h2.setQueue

theorem State.Canon.countStale (h : s.Canon) : (s.countStale).Canon := by
  unfold State.countStale
  exact h.incSat

theorem State.Canon.completeDesc {q i status stamp} (h : s.Canon) : (s.completeDesc q i status stamp).Canon := by
  unfold State.completeDesc
  split
  · rename_i e1
    have h1 := State.Canon.fst_of e1 h.useQueue
    extract_lets _ _ s1 s2 s3 s4 s5
    have hs1 : s1.Canon := .ite h1.devWrite h1
    have hs2 : s2.Canon := hs1.devWrite
    have hs3 : s3.Canon := hs2.setQueue
    have hs4 : s4.Canon := .ite hs3.ashLog hs3
    have hs5 : s5.Canon := hs4.devRead
    refine .ite ?_ ?_
    · split
      · exact .ite hs5.freeMessage hs5.countStale
      · exact hs5.countStale
    · exact hs4

theorem State.Canon.sendNext {q} (h : s.Canon) : (s.sendNext q).Canon := by
  unfold State.sendNext
  split
  rename_i v e1
  have h1 := State.Canon.fst_of e1 h.useQueue
  extract_lets _ _ _ _ _ x s2 s3
  have hs2 : s2.Canon := h1.sourceRead
  have hs3 : s3.Canon := .ite hs2.readParts hs2
  refine .ite h1 (.ite h1 ?_)
  cases x with
  | rc bs => exact hs3.rcSend
  | frame port f => exact hs3.transmit.completeDesc.finishClose
  | ud port f => exact hs3.transmit.setQueue.completeDesc.finishClose
  | refused status => exact .ite hs3.completeDesc.finishClose hs3

theorem State.Canon.sendMany {q n} (h : s.Canon) : (s.sendMany q n).Canon := by
  induction n generalizing s with
  | zero => exact h
  | succ n ih => exact ih h.sendNext

theorem State.Canon.queueDisable {q} (h : s.Canon) : (s.queueDisable q).Canon := by
  unfold State.queueDisable
  split
  · rename_i e1
    have h1 := State.Canon.fst_of e1 h.useQueue
    exact .ite h1.qcmdSts h1.upd.setQueue.setFlag.qcmdSts.sendMany.finishClose

theorem State.Canon.queueFlush {q} (h : s.Canon) : (s.queueFlush q).Canon := by
  unfold State.queueFlush
  split
  · rename_i e1
    have h1 := State.Canon.fst_of e1 h.useQueue
    exact .ite h1.qcmdSts h1.storeQueue.qcmdSts

theorem State.Canon.queueRelease {q} (h : s.Canon) : (s.queueRelease q).Canon := by
  unfold State.queueRelease
  extract_lets
  split
  · rename_i e1
    have h1 := State.Canon.fst_of e1 h.useQueue
    exact .ite h1.countStale.qcmdSts h1.freeMessage.qcmdSts

theorem State.Canon.dropSession {i peer} (h : s.Canon) : (s.dropSession i peer).Canon := by
  unfold State.dropSession
  exact h.upd

theorem State.Canon.readRing {r} (h : s.Canon) : (s.readRing r).1.Canon := by
  unfold State.readRing
  exact .fst h.devRead

theorem State.Canon.routeDura {ring} (h : s.Canon) : (s.routeDura ring).Canon := by
  unfold State.routeDura
  refine .foldl ?_ h
  intro _ h1 _
  split
  · exact .ite h1.wakeBank h1
  · exact .ite h1.wakeOut h1

theorem State.Canon.deliverDura {ring} (h : s.Canon) : (s.deliverDura ring).Canon := by
  unfold State.deliverDura
  exact .ite h.park h.routeDura

theorem State.Canon.refaultRing {r} (h : s.Canon) : (s.refaultRing r).Canon := by
  unfold State.refaultRing
  split
  · rename_i e1
    have h1 := State.Canon.fst_of e1 h.readRing
    exact .ite h1 (.ite h1 (.ite h1.devWrite.deliverDura h1.devWrite))

theorem State.Canon.refault {i} (h : s.Canon) : (s.refault i).Canon := by
  unfold State.refault
  exact .foldl (fun _ h1 _ => .ite h1.refaultRing h1) h

theorem State.Canon.setLive {i peer v} (h : s.Canon) : (s.setLive i peer v).Canon := by
  unfold State.setLive
  exact h.setFlag.refault

theorem State.Canon.askLeave {r} (h : s.Canon) : (s.askLeave r).Canon := by
  unfold State.askLeave
  split
  · exact .ite h h.upd
  · exact h

theorem State.Canon.putSession {x} (h : s.Canon) : (s.putSession x).Canon := by
  unfold State.putSession
  exact h.dropSession.upd

theorem State.Canon.mirrorStart {i peer} (h : s.Canon) : (s.mirrorStart i peer).Canon := by
  unfold State.mirrorStart
  exact .ite h h.putSession.askLeave

theorem State.Canon.queueRestart {q} (h : s.Canon) : (s.queueRestart q).Canon := by
  unfold State.queueRestart
  split
  · rename_i e1
    have h1 := State.Canon.fst_of e1 h.useQueue
    refine .ite ?_ ?_
    · exact h1.qcmdSts
    · extract_lets s1
      have hs1 : s1.Canon := h1.setQueue.qcmdSts
      split
      · exact hs1
      · exact (State.Canon.ite hs1.dropSession.upd.setLive hs1.dropSession.upd).mirrorStart

theorem State.Canon.queueCommand {op q} (h : s.Canon) : (s.queueCommand op q).Canon := by
  unfold State.queueCommand
  refine .ite ?_ ?_
  · exact h
  · split
    · exact h.queueEnable
    · exact h.queueDisable
    · exact h.queueFlush
    · exact h.queueRelease
    · exact h.queueRestart
    · exact h.qcmdSts

theorem State.Canon.ruleLoop {f : State → Nat → Option State} {l} (h : s.Canon)
    (hf : ∀ s, s.Canon → ∀ i t, f s i = some t → t.Canon) : (s.ruleLoop f l).Canon := by
  induction l generalizing s with
  | nil => exact h
  | cons i t ih =>
    unfold State.ruleLoop
    split
    · rename_i e1
      exact ih (hf _ h _ _ e1)
    · exact h.countLost.setFlag

theorem State.Canon.loadRule {i} (h : s.Canon) (e : s.loadRule i = some t) : t.Canon := by
  unfold State.loadRule at e
  extract_lets at e
  split at e
  · cases e
  · obtain rfl := Option.some.inj e
    exact h.upd.devRead

theorem State.Canon.dumpRule {i} (h : s.Canon) (e : s.dumpRule i = some t) : t.Canon := by
  unfold State.dumpRule at e
  extract_lets at e
  split at e
  · obtain rfl := Option.some.inj e
    exact h.devWrite
  · cases e

theorem State.Canon.ruleCommand {op first last} (h : s.Canon) : (s.ruleCommand op first last).Canon := by
  unfold State.ruleCommand
  exact .ite h.setFlag.setFlag (.ite (h.setFlag.ruleLoop fun _ h1 _ _ e => h1.loadRule e)
    (.ite (h.setFlag.ruleLoop fun _ h1 _ _ e => h1.dumpRule e) h.setFlag.setFlag))

theorem State.Canon.clearStat {port cnt} (h : s.Canon) : (s.clearStat port cnt).Canon := by
  unfold State.clearStat
  exact h.upd

theorem State.Canon.chcmdSts {refused} (h : s.Canon) : (s.chcmdSts refused).Canon := by
  unfold State.chcmdSts
  exact h.setFlag

theorem State.Canon.chanEnable {c} (h : s.Canon) : (s.chanEnable c).Canon := by
  unfold State.chanEnable
  exact .ite h.chcmdSts (.ite h.chcmdSts h.upd.devRead.devWrite.chcmdSts)

theorem State.Canon.dropBellowsLeave {c} (h : s.Canon) : (s.dropBellowsLeave c).Canon := by
  unfold State.dropBellowsLeave
  exact h.upd

theorem State.Canon.chanOff {k} (h : s.Canon) : (s.chanOff k).Canon := by
  unfold State.chanOff
  exact h.upd.devWrite.devWrite

theorem State.Canon.ringErr {k} (h : s.Canon) : (s.ringErr k).Canon := by
  unfold State.ringErr
  exact h.chanOff.setErr.ashLog

theorem State.Canon.putChan {k} (h : s.Canon) : (s.putChan k).Canon := by
  unfold State.putChan
  exact h.upd

theorem State.Canon.deliverCtx {cls ctx} (h : s.Canon) : (s.deliverCtx cls ctx).Canon := by
  unfold State.deliverCtx
  exact .ite h.park h.routeCtx

theorem State.Canon.belFinish {k w status} (h : s.Canon) : (s.belFinish k w status).Canon := by
  unfold State.belFinish
  extract_lets _ _ s1 s2 s3 s4
  have hs1 : s1.Canon := h.devWrite
  have hs2 : s2.Canon := hs1.devWrite
  have hs3 : s3.Canon := hs2.putChan
  have hs4 : s4.Canon := by
    unfold s4
    split
    · exact hs3.deliverCtx
    · exact hs3
  exact .ite h.countKeyLost.ringErr (.ite hs4 hs4.setErr.ashLog)

theorem State.Canon.chanDisable {c} (h : s.Canon) : (s.chanDisable c).Canon := by
  unfold State.chanDisable
  split
  · exact h.chcmdSts
  · extract_lets s1 s2 s3
    have hs1 : s1.Canon := h.dropBellowsLeave
    have hs2 : s2.Canon := by
      unfold s2
      split
      · exact hs1
      · exact hs1.belFinish
    have hs3 : s3.Canon := by
      unfold s3
      split
      · exact hs2.chanOff
      · exact hs2
    exact hs3.chcmdSts

theorem State.Canon.chanCommand {op c} (h : s.Canon) : (s.chanCommand op c).Canon := by
  unfold State.chanCommand
  split
  · exact h.chanEnable
  · exact h.chanDisable
  · exact h.chcmdSts

theorem State.Canon.belDbErr (h : s.Canon) : (s.belDbErr).Canon := by
  unfold State.belDbErr
  exact h.incSat.setErr

/-- The kernel is kept from evaluating `extendIndex`, as in `doorbell_moves`. -/
theorem State.Canon.belDoorbell {c index} (h : s.Canon) : (s.belDoorbell c index).Canon := by
  have hdef : State.belDoorbell = State.belDoorbell := rfl
  revert hdef
  conv in State.belDoorbell = _ => rhs; delta State.belDoorbell
  generalize extendIndex = extended
  generalize State.belDoorbell = rung
  revert rung extended
  refine id ?_
  rintro extended _ rfl
  dsimp only
  split
  · exact h.belDbErr
  · split
    · exact h.belDbErr
    · exact .ite h.belDbErr h.putChan

theorem State.Canon.secGo (h : s.Canon) : (s.secGo).Canon := by
  unfold State.secGo
  exact .ite h.setFlag h.upd.setFlag

theorem State.Canon.tpcErr {e} (h : s.Canon) : (s.tpcErr e).Canon := by
  unfold State.tpcErr
  exact h.setFld

theorem State.Canon.tpcRefuse {e} (h : s.Canon) : (s.tpcRefuse e).Canon := by
  unfold State.tpcRefuse
  exact h.tpcErr.setErr

theorem State.Canon.unread {a n} (h : s.Canon) : (s.unread a n).Canon := by
  unfold State.unread
  exact .ite h.countLost h

theorem State.Canon.setEnrolled {idx digest on} (h : s.Canon) : (s.setEnrolled idx digest on).Canon := by
  unfold State.setEnrolled
  exact h.upd.setFlag

theorem State.Canon.applyItem {x1} (h : s.Canon) : (s.applyItem x1).Canon := by
  unfold State.applyItem
  split
  · exact h.setReg
  · exact h.setEnrolled
  · exact h.setEnrolled
  · exact h

theorem State.Canon.changed {items} (h : s.Canon) : (s.changed items).Canon := by
  unfold State.changed
  exact .foldl (fun _ h1 _ => h1.applyItem) h

theorem State.Canon.randomBytes {n} (h : s.Canon) : (s.randomBytes n).1.Canon := by
  unfold State.randomBytes
  exact h.upd

theorem State.Canon.setDigestRegs {slot off bs} (h : s.Canon) : (s.setDigestRegs slot off bs).Canon := by
  unfold State.setDigestRegs
  exact .foldl (fun _ h1 _ => h1.setReg) h

theorem State.Canon.markStaged {pages on} (h : s.Canon) : (s.markStaged pages on).Canon := by
  unfold State.markStaged
  exact .foldl (fun _ h1 _ => h1.setFlag) h

theorem State.Canon.tpcStage (h : s.Canon) : (s.tpcStage).Canon := by
  unfold State.tpcStage
  extract_lets _ s1 s2 _ s3
  have hs1 : s1.Canon := h.tpcErr
  have hs2 : s2.Canon := hs1.devRead
  have hs3 : s3.Canon := hs2.devRead
  refine .ite ?_ ?_
  · exact hs1.tpcRefuse
  · refine .ite ?_ ?_
    · exact hs1.tpcRefuse
    · refine .ite ?_ ?_
      · exact hs1.unread.tpcRefuse
      · refine .ite ?_ ?_
        · exact hs2.tpcRefuse
        · refine .ite ?_ ?_
          · exact hs2.unread.tpcRefuse
          · split
            · exact hs3.tpcRefuse
            · refine .ite ?_ ?_
              · exact hs3.tpcRefuse
              · refine .ite ?_ ?_
                · exact hs3.tpcRefuse
                · refine .ite ?_ ?_
                  · exact hs3.tpcRefuse
                  · split
                    · rename_i e1
                      have h1 := State.Canon.fst_of e1 hs3.randomBytes
                      exact h1.setDigestRegs.setDigestRegs.setReg.upd.markStaged.setFld

theorem State.Canon.tpcVerify {a} (h : s.Canon) : (s.tpcVerify a).Canon := by
  unfold State.tpcVerify
  exact .ite h.tpcRefuse (.ite h.setFld.setFld h.setFld.setFld)

theorem State.Canon.signRead {a} (h : s.Canon) : (s.signRead a).Canon := by
  unfold State.signRead
  exact .ite h.devRead h.unread

theorem State.Canon.tpcSign (h : s.Canon) : (s.tpcSign).Canon := by
  unfold State.tpcSign
  split
  · exact h.tpcErr.tpcRefuse
  · extract_lets _ s1 s2 _ _ s3
    have hs1 : s1.Canon := h.upd.setFlag
    have hs2 : s2.Canon := h.tpcErr
    have hs3 : s3.Canon := hs2.signRead
    split
    · exact .ite hs2.tpcRefuse (.ite hs1.signRead.tpcVerify hs1.signRead.tpcRefuse)
    · exact .ite hs2.tpcRefuse (.ite hs3.tpcRefuse hs3.upd.setFlag.askLeave)

theorem State.Canon.sign {digest} (h : s.Canon) : (s.sign digest).1.Canon := by
  unfold State.sign
  exact .fst h.upd

theorem State.Canon.writeCopy {second bs} (h : s.Canon) : (s.writeCopy second bs).Canon := by
  unfold State.writeCopy
  exact h.upd

theorem State.Canon.storeRecord {x1 fault} (h : s.Canon) : (s.storeRecord x1 fault).1.Canon := by
  unfold State.storeRecord
  split
  · rename_i e1
    have h1 := State.Canon.fst_of e1 h.sign
    extract_lets _ _ _ s1 s2 _ s3
    have hs1 : s1.Canon := h1.upd
    have hs2 : s2.Canon := hs1.writeCopy
    have hs3 : s3.Canon := hs2.upd
    split
    · exact hs1
    · split
      · exact hs2
      · split
        · exact hs3
        · exact .fst hs3.writeCopy

theorem State.Canon.bothPeers {i} {f : State → Nat → Bool → State} (h : s.Canon)
    (hf : ∀ s, s.Canon → ∀ i peer, (f s i peer).Canon) :
    (bothPeers s i f).Canon := hf _ (hf _ h _ _) _ _

theorem State.Canon.mirrorSend {x type ring count seq body records} (h : s.Canon) :
    (s.mirrorSend x type ring count seq body records).Canon := by
  unfold State.mirrorSend
  exact h.putSession.rcSend

theorem State.Canon.closeSession {x} (h : s.Canon) : (s.closeSession x).Canon := by
  unfold State.closeSession
  exact h.upd.mirrorSend

theorem State.Canon.closeSide {i peer} (h : s.Canon) : (s.closeSide i peer).Canon := by
  unfold State.closeSide
  split
  · exact h
  · exact h.closeSession.dropSession.ashLog

theorem State.Canon.drainFrame {f} (h : s.Canon) : (s.drainFrame f).Canon := by
  unfold State.drainFrame
  exact .foldl (fun _ h1 _ => h1.drain) h

theorem State.Canon.setKeyByte {a kb} (h : s.Canon) : (s.setKeyByte a kb).Canon := by
  unfold State.setKeyByte
  exact .ite h.upd.setEpochs (.ite h.upd.poke h.upd)

theorem State.Canon.setKey {f kb cref cchg} (h : s.Canon) : (s.setKey f kb cref cchg).Canon := by
  unfold State.setKey
  exact .ite h.drainFrame.setKeyByte.setRefChg h.drainFrame.setKeyByte

theorem State.Canon.applyVkey {cseq f kb} (h : s.Canon) : (s.applyVkey cseq f kb).Canon := by
  unfold State.applyVkey
  exact .ite h.setKey h.ashLog

theorem State.Canon.tpcDiscard (h : s.Canon) : (s.tpcDiscard).Canon := by
  unfold State.tpcDiscard
  exact h.upd.markStaged.upd.setReg

theorem State.Canon.tpcApply {x items} (h : s.Canon) : (s.tpcApply x items).Canon := by
  unfold State.tpcApply
  exact (State.Canon.foldl (fun _ h1 _ => h1.setFld.setFlag) (.foldl (fun _ h2 _ => h2.setFld.refault.bothPeers
      (fun _ h3 _ _ => h3.mirrorStart)) (.foldl (fun _ h4 _ => h4.applyVkey) (State.Canon.foldl (fun _ h5 _ => h5.bothPeers
          (fun _ h6 _ _ => h6.closeSide)) h).changed))).tpcDiscard.setReg.ashLog

theorem State.Canon.tpcCommit {fault} (h : s.Canon) : (s.tpcCommit fault).Canon := by
  unfold State.tpcCommit
  extract_lets s1 s2
  have hs1 : s1.Canon := h
  have hs2 : s2.Canon := h.tpcErr
  split
  · exact hs2.tpcRefuse
  · extract_lets
    refine .ite ?_ ?_
    · exact hs2.tpcRefuse
    · refine .ite ?_ ?_
      · exact hs1
      · refine .ite ?_ ?_
        · exact hs2.tpcRefuse
        · refine .ite ?_ ?_
          · exact hs2.tpcRefuse
          · refine .ite ?_ ?_
            · exact hs2.tpcRefuse
            · split
              · rename_i e1
                have h1 := State.Canon.fst_of e1 hs2.storeRecord
                exact h1.tpcRefuse
              · rename_i e2
                have h2 := State.Canon.fst_of e2 hs2.storeRecord
                exact h2.tpcApply

theorem State.Canon.tpcClear (h : s.Canon) : (s.tpcClear).Canon := by
  unfold State.tpcClear
  exact .ite h.tpcErr.tpcRefuse h.tpcErr.tpcDiscard

theorem State.Canon.tpcCommand {op fault} (h : s.Canon) : (s.tpcCommand op fault).Canon := by
  unfold State.tpcCommand
  split
  · exact h.tpcStage
  · exact h.tpcSign
  · exact h.tpcCommit
  · exact h.tpcClear
  · exact h.tpcErr.tpcRefuse

theorem State.Canon.discardWork {b} (h : s.Canon) : (s.discardWork b).Canon := by
  unfold State.discardWork
  split
  · exact h
  · exact h
  · extract_lets s1 s2
    have hs1 : s1.Canon := h.abandon
    have hs2 : s2.Canon := by
      unfold s2
      split
      · exact hs1.returnLeave
      · exact hs1
    exact .ite hs2.wakeBank hs2.putBank
  · extract_lets s3 s4
    have hs3 : s3.Canon := h.abandon
    have hs4 : s4.Canon := by
      unfold s4
      split
      · exact hs3.returnLeave
      · exact hs3
    exact .ite hs4.wakeBank hs4.putBank
  · extract_lets s5 s6
    have hs5 : s5.Canon := h.abandon
    have hs6 : s6.Canon := by
      unfold s6
      split
      · exact hs5.returnLeave
      · exact hs5
    exact .ite hs6.wakeBank hs6.putBank
  · extract_lets s7 s8
    have hs7 : s7.Canon := h.abandon
    have hs8 : s8.Canon := by
      unfold s8
      split
      · exact hs7.returnLeave
      · exact hs7
    exact .ite hs8.wakeBank hs8.putBank

theorem State.Canon.verifyRetained (h : s.Canon) (e : s.verifyRetained = some t) : t.Canon := by
  unfold State.verifyRetained at e
  split at e
  · obtain rfl := Option.some.inj e
    exact h
  · obtain ⟨img, -, rfl⟩ := Option.map_eq_some_iff.1 e
    exact h.upd

theorem State.Canon.rekindle {r} (h : s.Canon) : (s.rekindle r).Canon := by
  unfold State.rekindle
  extract_lets
  split
  · rename_i e1
    split at e1
    · exact (h.verifyRetained e1).setFlag.incSat.ashLog
    · cases e1
  · exact h.setFlag.ashLog.lockStove

theorem State.Canon.parityError {r} (h : s.Canon) : (s.parityError r).Canon := by
  unfold State.parityError
  extract_lets _ s1 s2
  have hs1 : s1.Canon := h.incSat.setFld
  have hs2 : s2.Canon := .foldl (fun _ h1 _ => h1.discardWork) hs1
  exact .ite hs2.rekindle hs2.upd

theorem State.Canon.dbgOutcome {was : State} (_ : was.Canon) (hs : s.Canon) : (State.dbgOutcome was s).Canon := by
  unfold State.dbgOutcome
  exact hs.setReg.setFlag

theorem State.Canon.haltNow {ctx} (h : s.Canon) : (s.haltNow ctx).Canon := by
  unfold State.haltNow
  exact h.dbgOutcome (.ite h.ctxStop h.upd.ctxStop)

theorem State.Canon.dbgCommand {op ctx} (h : s.Canon) : (s.dbgCommand op ctx).Canon := by
  unfold State.dbgCommand
  refine .ite ?_ ?_
  · exact h.setFlag
  · split
    · exact .ite h.upd.setFlag.setFlag h.haltNow
    · exact h.dbgOutcome h.ctxStart
    · exact h.dbgOutcome (.ite h.ctxStart h.ctxStart.upd)
    · exact h.setFlag

theorem State.Canon.dumpOne {b} (h : s.Canon) : (s.dumpOne b).Canon := by
  unfold State.dumpOne
  extract_lets s1 _ _ _ _ s2 s3
  have hs1 : s1.Canon := h.dropEmber
  have hs2 : Keeps State.Canon s2 := .getBind fun _ _ => .bind .fLd fun _ => .ite .pure (.bind .fStBytes fun _ => .pure)
  have hs3 : s3.Canon := hs1.devWrite
  split
  · rename_i e1
    have h1 := Keeps.ok (P := State.Canon) e1 hs2 hs1
    exact h1.setCtxState.releaseBank.orderFor
  · exact hs3.hold.releaseBank.toNone
  · exact hs3.hold.releaseBank.toNone

theorem State.Canon.dump {stove} (h : s.Canon) : (s.dump stove).Canon := by
  unfold State.dump
  exact (State.Canon.foldl (fun _ h1 _ => h1.dumpOne) h).setFlag

theorem State.Canon.dumpCommand {stove} (h : s.Canon) : (s.dumpCommand stove).1.Canon := by
  unfold State.dumpCommand
  split
  · exact .fst h.dump
  · exact h

theorem State.Canon.dumpRegister {stove} (h : s.Canon) : (s.dumpRegister stove).Canon := by
  unfold State.dumpRegister
  split
  · rename_i e1
    have h1 := State.Canon.fst_of e1 h.dumpCommand
    exact h1.setFlag

theorem State.Canon.todStep {v} (h : s.Canon) : (s.todStep v).Canon := by
  unfold State.todStep
  exact h.setStepRem

theorem State.Canon.loseModified (h : s.Canon) : (s.loseModified).Canon := by
  unfold State.loseModified
  exact (State.Canon.foldl (fun _ h1 _ => h1.poke) h).upd

/-- What keeps bits of the register pages over a reset keeps their canonical form. -/
theorem regsWf_keepRegs {mask : Nat → Nat → Nat} (h : s.Canon) : Registers.wf (s.keepRegs mask) = true := by
  obtain ⟨hp, -⟩ := (SMap.wf_iff _ _).1 h.regs
  refine (SMap.wf_iff _ _).2 ⟨?_, fun e he => ?_⟩
  · unfold State.keepRegs
    rw [List.pairwise_map] at hp ⊢
    refine hp.filterMap _ fun a b hab x hx y hy => ?_
    dsimp only at hx hy
    split at hx <;> split at hy <;> cases hx <;> cases hy
    exact hab
  · obtain ⟨x, -, hx⟩ := List.mem_filterMap.1 he
    dsimp only at hx
    split at hx
    · cases hx
    · cases hx
      assumption

theorem memWf_filter {p : Nat × Byte → Bool} (h : s.Canon) : Memory.wf (s.mem.filter p) = true := SMap.wf_filter p h.mem

theorem State.Canon.corelose (h : s.Canon) : (s.corelose).Canon := by
  unfold State.corelose
  refine .mk (memWf_filter h.loseModified) ?_
  dsimp only
  exact regsWf_keepRegs h.loseModified

theorem State.Canon.forceDown {cause} (h : s.Canon) : (s.forceDown cause).Canon := by
  unfold State.forceDown
  exact .ite h h.ashLog.corelose.upd.setFld

theorem State.Canon.powerCommand {key} (h : s.Canon) : (s.powerCommand key).Canon := by
  unfold State.powerCommand
  exact .ite h.forceDown h

theorem State.Canon.rstSts {refused} (h : s.Canon) : (s.rstSts refused).Canon := by
  unfold State.rstSts
  exact h.setFlag

theorem State.Canon.resetBusy (h : s.Canon) : (s.resetBusy).Canon := by
  unfold State.resetBusy
  exact .ite h h.setFlag

theorem State.Canon.bootStep {n} (h : s.Canon) : (s.bootStep n).Canon := by
  unfold State.bootStep
  exact h.setReg

theorem State.Canon.coldReset {by'} (h : s.Canon) : (s.coldReset by').Canon := by
  unfold State.coldReset
  refine .ite h ?_
  extract_lets s1 _ _ s2
  have hs1 : s1.Canon := h.corelose
  have hs2 : s2.Canon := ⟨hs1.mem, regsWf_keepRegs hs1⟩
  exact hs2.bootStep.setReg.incSat

theorem State.Canon.dropReset {level} (h : s.Canon) : (s.dropReset level).Canon := by
  unfold State.dropReset
  exact h.ashLog

theorem State.Canon.flushLine {m} (h : s.Canon) : (s.flushLine m).Canon := by
  unfold State.flushLine
  exact .ite (.ite h.giveUp h.giveUp.setEpoch) h.giveUp.poke.ashLog

theorem State.Canon.slotFail {i c} (h : s.Canon) : (s.slotFail i c).Canon := by
  unfold State.slotFail
  exact h.setFld

theorem State.Canon.trySlots {l} (h : s.Canon) : (s.trySlots l).1.Canon := by
  induction l generalizing s with
  | nil => exact h
  | cons i t ih =>
    unfold State.trySlots
    extract_lets _ s1
    have hs1 : s1.Canon := h.slotFail
    split
    · exact hs1
    · exact ih hs1.setFlag

theorem State.Canon.bootHalt {step fail} (h : s.Canon) : (s.bootHalt step fail).Canon := by
  unfold State.bootHalt
  exact h.setReg.ashLog

theorem State.Canon.rngPass (h : s.Canon) : (s.rngPass).Canon := by
  unfold State.rngPass
  exact h.setFlag

theorem State.Canon.rngFail (h : s.Canon) : (s.rngFail).Canon := by
  unfold State.rngFail
  exact h.setFlag.incSat.setErr.ashLog

theorem State.Canon.setD {slot off v} (h : s.Canon) : (s.setD slot off v).Canon := by
  unfold State.setD
  exact h.setReg

theorem State.Canon.applyRecord {r} (h : s.Canon) : (s.applyRecord r).Canon := by
  unfold State.applyRecord
  extract_lets _ s1 s2 s3
  have hs1 : s1.Canon := h.setD
  have hs2 : s2.Canon := .foldl (fun _ h1 _ => h1.upd) hs1
  have hs3 : s3.Canon := .foldl (fun _ h1 _ => h1.setD) hs2
  exact hs3.setReg

theorem State.Canon.invalidate {p} (h : s.Canon) : (s.invalidate p).Canon := by
  unfold State.invalidate
  exact h.upd.dropCopies

theorem State.Canon.failChannel {c} (h : s.Canon) : (s.failChannel c).Canon := by
  unfold State.failChannel
  exact .ite h h.setFlag.setFlag.setFlag.setErr.ashLog.invalidate

theorem State.Canon.zeroRange {a n} (h : s.Canon) : (s.zeroRange a n).Canon := ⟨memWf_filter h, h.regs⟩

theorem State.Canon.pokeN {a n v} (h : s.Canon) : (s.pokeN a n v).Canon := by
  unfold State.pokeN
  exact h.poke

theorem State.Canon.loaderArea {stove loader} (h : s.Canon) : (s.loaderArea stove loader).Canon := by
  unfold State.loaderArea
  extract_lets s1 s2 s3 s4 s5 s6 s7 s8 s9 s10 s11
  have hs1 : s1.Canon := h.zeroRange
  have hs2 : s2.Canon := hs1.poke
  have hs3 : s3.Canon := hs2.zeroRange
  have hs4 : s4.Canon := hs3.poke
  have hs5 : s5.Canon := hs4.pokeN
  have hs6 : s6.Canon := hs5.pokeN
  have hs7 : s7.Canon := hs6.poke
  have hs8 : s8.Canon := hs7.zeroRange
  have hs9 : s9.Canon := hs8.zeroRange.poke
  have hs10 : s10.Canon := hs9.setReg
  have hs11 : s11.Canon := hs10.setReg
  exact hs11.setReg

theorem State.Canon.releasePage {slot} (h : s.Canon) : (s.releasePage slot).Canon := by
  unfold State.releasePage
  exact h.setReg.setFlag

theorem State.Canon.boot7 (h : s.Canon) : (s.boot7).Canon := by
  unfold State.boot7
  extract_lets s1
  have hs1 : s1.Canon := h.bootStep
  split
  · exact hs1.bootHalt
  · exact hs1.loaderArea.releasePage.releasePage.releasePage.ctxStart

theorem State.Canon.boot6 (h : s.Canon) : (s.boot6).Canon := by
  unfold State.boot6
  extract_lets _ _ _ s3 _ s4
  have hs3 : s3.Canon := .foldl (fun _ h1 _ => h1.failChannel) h.bootStep.setFlag
  have hs4 : s4.Canon := .ite ⟨memWf_filter hs3, hs3.regs⟩ hs3
  exact .ite hs3.bootHalt hs4.setFlag.releasePage.boot7

theorem State.Canon.boot5 (h : s.Canon) : (s.boot5).Canon := by
  unfold State.boot5
  exact (State.Canon.foldl (fun _ h1 _ => h1.lockStove) h.bootStep.setReg.setDigestRegs.setReg).boot6

theorem State.Canon.bootSealed {x1} (h : s.Canon) : (s.bootSealed x1).Canon := by
  unfold State.bootSealed
  exact (State.Canon.foldl (fun _ h1 _ => h1.setFlag) h.applyRecord).boot5

theorem State.Canon.boot4 (h : s.Canon) : (s.boot4).Canon := by
  unfold State.boot4
  extract_lets s1 _ s2 s3
  have hs1 : s1.Canon := h.bootStep
  have hs2 : s2.Canon := .ite hs1.rngPass hs1.rngFail
  have hs3 : s3.Canon := .ite hs2.upd hs2
  refine .ite ?_ ?_
  · exact hs2.bootHalt
  · split
    · exact hs3.bootSealed
    · exact hs3.bootHalt

theorem State.Canon.bootAccept {img} (h : s.Canon) : (s.bootAccept img).Canon := by
  unfold State.bootAccept
  exact h.upd.setFld.boot4

theorem State.Canon.boot3 (h : s.Canon) : (s.boot3).Canon := by
  unfold State.boot3
  extract_lets s1 s2 _ s3
  have hs1 : s1.Canon := h.bootStep
  have hs2 : s2.Canon := hs1.setReg
  have hs3 : s3.Canon := hs2.upd
  refine .ite ?_ ?_
  · exact hs3
  · split
    · rename_i e1
      have h1 := State.Canon.fst_of e1 hs3.trySlots
      exact h1.bootHalt
    · rename_i e2
      have h2 := State.Canon.fst_of e2 hs3.trySlots
      exact h2.setFlag.bootAccept

theorem State.Canon.warmReset {by'} (h : s.Canon) : (s.warmReset by').Canon := by
  unfold State.warmReset
  extract_lets s1 s2 _ _ _ s3
  have hs1 : s1.Canon := .foldl (fun _ h1 _ => h1.drainOne) h.upd
  have hs2 : s2.Canon := .foldl (fun _ h1 _ => h1.flushLine) hs1
  have hs3 : s3.Canon := ⟨memWf_filter hs2, regsWf_keepRegs hs2⟩
  exact hs3.setReg.incSat.boot3

theorem State.Canon.emptyStove {stove} (h : s.Canon) : (s.emptyStove stove).Canon := by
  unfold State.emptyStove
  extract_lets
  refine .foldl ?_ h
  intro _ h1 _
  split
  · exact h1
  · extract_lets
    refine .ite ?_ ?_
    · exact h1.dropEmber.hold.releaseBank
    · split
      · rename_i e1
        have h2 := State.Canon.fst_of e1 h1.putBank.spillQuar
        exact .ite h2.toReady h2
      · rename_i e2
        have h3 := State.Canon.fst_of e2 h1.putBank.spillQuar
        exact h3.hold.releaseBank

theorem State.Canon.wbinv {x1 found} (h : s.Canon) : (s.wbinv x1 found).Canon := by
  unfold State.wbinv
  exact (State.Canon.foldl (fun _ h1 _ => h1.writeBack) h).upd

theorem State.Canon.rekindleFirst {stove} (h : s.Canon) : (s.rekindleFirst stove).Canon := by
  unfold State.rekindleFirst
  exact .ite (State.Canon.foldl (fun _ h1 _ => h1.rekindle) h.upd).rekindle (.foldl (fun _ h2 _ => h2.rekindle) h.upd)

theorem State.Canon.resetPage {slot keep} (h : s.Canon) : (s.resetPage slot keep).Canon := by
  unfold State.resetPage
  refine .mk h.mem ?_
  dsimp only
  exact regsWf_keepRegs h

theorem State.Canon.holdInReset {slot} (h : s.Canon) : (s.holdInReset slot).Canon := by
  unfold State.holdInReset
  exact h.setFlag.upd

theorem State.Canon.emptyFetch {stove} (h : s.Canon) : (s.emptyFetch stove).Canon := by
  unfold State.emptyFetch
  exact h.upd

theorem State.Canon.resetStovePart {stove} (h : s.Canon) : (s.resetStovePart stove).Canon := by
  unfold State.resetStovePart
  exact h.emptyStove.rekindleFirst.upd.resetPage.setFlag.setFlag.emptyFetch.holdInReset

end Sys2Proof.Machine
end

section
/-!
SUPPORT. The canonical form through resets, mirror messages, RoCE packets, inbound requests, parked work, and what a command lets go on.
-/

namespace Sys2Proof.Machine

variable {s t : State}

theorem State.Canon.resetHearth {x1} (h : s.Canon) : (s.resetHearth x1).Canon := by
  unfold State.resetHearth
  extract_lets _ s1 s2 s3 _ s4 s5 s6
  have hs1 : s1.Canon := .foldl (fun _ h1 _ => h1.emptyStove) h
  have hs2 : s2.Canon := hs1.wbinv
  have hs3 : s3.Canon := .foldl (fun _ h2 _ => h2.resetStovePart) hs2
  have hs4 : s4.Canon := hs3.resetPage.resetPage
  have hs5 : s5.Canon := hs4.setReg
  have hs6 : s6.Canon := hs5.upd.holdInReset
  exact hs6.incSat

theorem State.Canon.resetStove {stove} (h : s.Canon) : (s.resetStove stove).Canon := by
  unfold State.resetStove
  exact h.resetStovePart.incSat

theorem State.Canon.requestReset {level target x3} (h : s.Canon) : (s.requestReset level target x3).Canon := by
  unfold State.requestReset
  exact .ite h.coldReset (.ite h (.ite (.ite h.dropReset h.warmReset) (.ite h.dropReset (.ite h.resetHearth
      (.ite h.dropReset h.resetStove)))))

theorem State.Canon.resetCommand {level target key} (h : s.Canon) : (s.resetCommand level target key).Canon := by
  unfold State.resetCommand
  exact .ite h.rstSts h.rstSts.requestReset.resetBusy

theorem State.Canon.mergeQ {p} (h : s.Canon) : (s.mergeQ p).Canon := by
  unfold State.mergeQ
  exact (State.Canon.foldl (fun _ h1 _ => h1.setReg) h).upd

theorem State.Canon.offFlue {b} (h : s.Canon) : (s.offFlue b).Canon := by
  unfold State.offFlue
  extract_lets s1
  have hs1 : s1.Canon := h.putBank
  split
  · exact hs1.toReady
  · exact .ite hs1.upd hs1.toWaiting
  · exact .ite hs1.upd hs1.toWaiting
  · exact hs1.toNone
  · exact hs1.toNone
  · exact hs1.toNone

theorem State.Canon.leaveFlues {x1} (h : s.Canon) : (s.leaveFlues x1).Canon := by
  unfold State.leaveFlues
  exact .foldl (fun _ h1 _ => h1.offFlue) h

theorem State.Canon.releaseHearth {x1} (h : s.Canon) : (s.releaseHearth x1).Canon := by
  unfold State.releaseHearth
  exact (State.Canon.foldl (fun _ h1 _ => .ite h1 h1.releasePage) h.mergeQ.setFlag.releasePage).leaveFlues

theorem State.Canon.bootRelease {hmask} (h : s.Canon) : (s.bootRelease hmask).Canon := by
  unfold State.bootRelease
  exact .ite h.rstSts (State.Canon.foldl (fun _ h1 _ => h1.releaseHearth) h.upd.rstSts).bootStep

theorem State.Canon.ashClear {key} (h : s.Canon) : (s.ashClear key).Canon := by
  unfold State.ashClear
  exact .ite h.upd h

theorem State.Canon.unerasePin {p} (h : s.Canon) : (s.unerasePin p).Canon := by
  unfold State.unerasePin
  exact h.upd

theorem State.Canon.pinCommand {clr erase unerase} (h : s.Canon) : (s.pinCommand clr erase unerase).Canon := by
  unfold State.pinCommand
  extract_lets _ s1 s2
  have hs1 : s1.Canon := .ite h.setPinCount h
  have hs2 : s2.Canon := .ite hs1.erasePin hs1
  exact .ite h (.ite hs2.unerasePin hs2)

theorem State.Canon.msixSend {v} (h : s.Canon) : (s.msixSend v).Canon := by
  unfold State.msixSend
  exact .ite h.upd h.upd

theorem State.Canon.msixCommand {v} (h : s.Canon) : (s.msixCommand v).Canon := by
  unfold State.msixCommand
  exact .ite h.msixSend h

theorem State.Canon.quarantineOne {b} (h : s.Canon) : (s.quarantineOne b).Canon := by
  unfold State.quarantineOne
  extract_lets s1 s2 s3 _ _ _ s4
  have hs1 : s1.Canon := h.dropEmber
  have hs2 : s2.Canon := hs1.abandon
  have hs3 : s3.Canon := by
    unfold s3
    split
    · exact hs2.returnLeave
    · exact hs2
  have hs4 : s4.Canon := hs3.putBank.breakLoaded
  exact .ite hs3.spillQuar hs4.spill

theorem State.Canon.quarantine {stove} (h : s.Canon) : (s.quarantine stove).Canon := by
  unfold State.quarantine
  exact .foldl (fun _ h1 _ => h1.quarantineOne) h.setFlag.setFlag.incSat.ashLog.upd

theorem State.Canon.quarCommand {stove} (h : s.Canon) : (s.quarCommand stove).Canon := by
  unfold State.quarCommand
  exact .ite h h.setFld.setReg.quarantine

theorem State.Canon.act {slot off v x} (h : s.Canon) : (s.act slot off v x).Canon := by
  unfold State.act
  extract_lets
  split
  · exact .ite h.ctxCommand (.ite h.wgCommand h)
  · exact .ite h.queueCommand (.ite h.ruleCommand h)
  · exact .ite h.clearStat h
  · exact .ite h.chanCommand (.ite h.belDoorbell h)
  · exact .ite h.secGo h
  · exact .ite h.tpcCommand h
  · exact .ite h.parityError h
  · exact .ite h.dbgCommand h
  · exact .ite h.dumpRegister h
  · exact .ite h.todStep h
  · exact .ite h.powerCommand h
  · exact .ite h.resetCommand (.ite h.bootRelease h)
  · exact .ite h.ashClear h
  · exact .ite h.pinCommand (.ite h.failChannel h)
  · exact .ite h.msixCommand h
  · exact .ite h.quarCommand h
  · exact .ite h.wbinv h
  · exact h
  · exact h
  · exact h
  · exact h

theorem State.Canon.unbusy {slot off} (h : s.Canon) : (s.unbusy slot off).Canon := by
  unfold State.unbusy
  split
  · exact h.setFlag
  · exact h

theorem State.Canon.countDberr (h : s.Canon) : (s.countDberr).Canon := by
  unfold State.countDberr
  exact h.incSat

/-- The kernel is kept from evaluating `extendIndex`, as in `doorbell_moves`. -/
theorem State.Canon.doorbell {q value} (h : s.Canon) : (s.doorbell q value).Canon := by
  have hdef : State.doorbell = State.doorbell := rfl
  revert hdef
  conv in State.doorbell = _ => rhs; delta State.doorbell
  generalize extendIndex = extended
  generalize State.doorbell = rung
  revert rung extended
  refine id ?_
  rintro extended _ rfl
  dsimp only
  have h1 : (s.useQueue q).1.Canon := h.useQueue
  split
  · exact h1.countDberr
  · exact .ite h1.countDberr (.ite (.ite h1.countDberr h1.setQueue) (.ite h1.countDberr h1.setQueue))

theorem State.Canon.doorbellAt {a v} (h : s.Canon) : (s.doorbellAt a v).Canon := by
  unfold State.doorbellAt
  exact h.doorbell

theorem State.Canon.sendPause {port} (h : s.Canon) : (s.sendPause port).Canon := by
  unfold State.sendPause
  exact .ite h (.ite h.upd.frameOut.countPort (.ite h.upd.frameOut.countPort h))

theorem State.Canon.overflow {port} (h : s.Canon) : (s.overflow port).Canon := by
  unfold State.overflow
  exact h.countPort.sendPause

theorem State.Canon.holdWork {port w} (h : s.Canon) : (s.holdWork port w).Canon := by
  unfold State.holdWork
  exact .ite h.park h.overflow

theorem State.Canon.roceQp {x1} (h : s.Canon) : (s.roceQp x1).1.Canon := by
  unfold State.roceQp
  extract_lets _ jp1
  have hjp1 : ∀ s, s.Canon → (jp1 s).Canon := fun _ h1 => h1.countPort
  split
  · exact .fst (hjp1 _ h)
  · split
    · rename_i e1
      have h2 := State.Canon.fst_of e1 h.useQueue
      split
      · exact .fst (hjp1 _ h2)
      · exact h2

theorem State.Canon.respond {v psn syndrome} (h : s.Canon) : (s.respond v psn syndrome).Canon := by
  unfold State.respond
  exact h.emit

theorem State.Canon.outOfOrder {v o} (h : s.Canon) : (s.outOfOrder v o).Canon := by
  unfold State.outOfOrder
  split
  · exact h
  · exact h.respond
  · exact h.respond

theorem State.Canon.sendTooLong {x1 v} (h : s.Canon) : (s.sendTooLong x1 v).Canon := by
  unfold State.sendTooLong
  exact h.putRc.respond.setQueue.countPort.setErr.ashLog

theorem State.Canon.psnAdvance {qp n} (h : s.Canon) : (s.psnAdvance qp n).Canon := by
  unfold State.psnAdvance
  exact h.setQueue

theorem State.Canon.peerLost {i peer code} (h : s.Canon) : (s.peerLost i peer code).Canon := by
  unfold State.peerLost
  exact h.dropSession.upd.setErr.ashLog.setLive

theorem State.Canon.failSession {x} (h : s.Canon) : (s.failSession x).Canon := by
  unfold State.failSession
  exact h.closeSession.peerLost

theorem State.Canon.onHello {qp ctr na pub eph} (h : s.Canon) : (s.onHello qp ctr na pub eph).Canon := by
  unfold State.onHello
  split
  · exact h
  · refine .ite ?_ ?_
    · exact h
    · extract_lets _ _ _ s1 s2 s3
      have hs1 : s1.Canon := h.putSession
      have hs2 : s2.Canon := hs1.upd
      have hs3 : s3.Canon := .ite hs2.setLive hs2
      exact .ite hs3.failSession hs3.askLeave

theorem State.Canon.receiveMsg {qp ctr tagOk} (h : s.Canon) : (s.receiveMsg qp ctr tagOk).1.Canon := by
  unfold State.receiveMsg
  split
  · exact h
  · split
    · exact h
    · extract_lets
      split
      · exact .fst h.failSession
      · exact .fst h.putSession

theorem State.Canon.establish {x theirs} (h : s.Canon) : (s.establish x theirs).Canon := by
  unfold State.establish
  exact h.upd.putSession.setLive

theorem State.Canon.onHelloReply {qp ctr nb pub eph sig} (h : s.Canon) : (s.onHelloReply qp ctr nb pub eph sig).Canon := by
  unfold State.onHelloReply
  split
  · rename_i e1
    exact State.Canon.fst_of e1 h.receiveMsg
  · rename_i e2
    have h2 := State.Canon.fst_of e2 h.receiveMsg
    refine .ite ?_ ?_
    · exact h2
    · extract_lets
      refine .ite ?_ ?_
      · exact h2.failSession
      · split
        · rename_i e3
          have h3 := State.Canon.fst_of e3 h2.sign
          extract_lets s1
          have hs1 : s1.Canon := h3.mirrorSend
          split
          · exact hs1.establish
          · exact hs1

theorem State.Canon.sendResumes {i} (h : s.Canon) : (s.sendResumes i).Canon := by
  unfold State.sendResumes
  refine .foldl ?_ h
  intro _ h1 _
  extract_lets _ s1
  have hs1 : s1.Canon := h1.devRead
  refine .ite ?_ ?_
  · split
    · exact hs1.mirrorSend
    · exact hs1
  · exact h1

theorem State.Canon.onConfirm {qp ctr sig} (h : s.Canon) : (s.onConfirm qp ctr sig).Canon := by
  unfold State.onConfirm
  split
  · rename_i e1
    exact State.Canon.fst_of e1 h.receiveMsg
  · rename_i e2
    have h2 := State.Canon.fst_of e2 h.receiveMsg
    exact .ite h2 (.ite h2.failSession h2.establish.sendResumes)

theorem State.Canon.appendBy {put : State → Nat → List Byte → State} {r body} (h : ∀ s, s.Canon → ∀ y2 y3, (put s y2 y3).Canon)
    (hs : s.Canon) : (State.appendBy put s r body).Canon := by
  unfold State.appendBy
  exact .ite (State.Canon.foldl (fun _ h1 _ => h _ h1 _ _) hs).deliverDura (.foldl (fun _ h2 _ => h _ h2 _ _) hs)

theorem State.Canon.append {r body} (h : s.Canon) : (s.append r body).Canon := by
  unfold State.append
  exact State.Canon.appendBy (fun _ h1 _ _ => h1.devWrite) h

theorem State.Canon.shadowRecord {r q bs} (h : s.Canon) (e : s.shadowRecord r q bs = some t) : t.Canon := by
  unfold State.shadowRecord at e
  split at e
  rename_i e1
  have h1 := State.Canon.fst_of e1 h.readRing
  split at e
  · split at e
    · obtain rfl := Option.some.inj e
      exact h1
    · split at e
      · obtain rfl := Option.some.inj e
        exact h1.devRead
      · cases e
  · split at e
    · obtain rfl := Option.some.inj e
      exact h1.append
    · cases e

/-- The kernel is kept from evaluating the modulus, as in `doorbell_moves`. -/
theorem shadowRecords_cons (r q : Nat) (x : List Byte) (l : List (List Byte)) :
    s.shadowRecords r q (x :: l) = match s.shadowRecord r q x with
      | some s => s.shadowRecords r ((q + 1) % 2 ^ 64) l
      | none => (s, some ((s.ring r).slot q)) := by
  have hdef : State.shadowRecords = State.shadowRecords := rfl
  revert hdef
  conv in State.shadowRecords = _ => rhs; delta State.shadowRecords State.shadowRecords._f
  generalize 2 ^ 64 = m
  generalize State.shadowRecord = one
  generalize State.shadowRecords = records
  revert records one m
  refine id ?_
  rintro m one _ rfl
  rfl

theorem State.Canon.shadowRecords {r q l} (h : s.Canon) : (s.shadowRecords r q l).1.Canon := by
  induction l generalizing s q with
  | nil => exact h
  | cons x t ih =>
    rw [shadowRecords_cons]
    split
    · rename_i e1
      exact ih (h.shadowRecord e1)
    · exact h

theorem State.Canon.chainBreak {x ring addr} (h : s.Canon) : (s.chainBreak x ring addr).Canon := by
  unfold State.chainBreak
  exact h.closeSession.dropSession.upd.setErr.ashLog.setLive

theorem State.Canon.onRecords {qp ctr tagOk ring q rs} (h : s.Canon) : (s.onRecords qp ctr tagOk ring q rs).1.Canon := by
  unfold State.onRecords
  extract_lets
  split
  · exact h
  · extract_lets
    split
    · exact h
    · split
      · rename_i e1
        exact State.Canon.fst_of e1 h.receiveMsg
      · rename_i e2
        have h2 := State.Canon.fst_of e2 h.receiveMsg
        split
        · exact h2
        · split
          · exact .fst h2.failSession
          · split
            · rename_i e3
              have h3 := State.Canon.fst_of e3 h2.shadowRecords
              exact .fst h3.chainBreak
            · rename_i e4
              have h4 := State.Canon.fst_of e4 h2.shadowRecords
              exact h4.mirrorSend

theorem State.Canon.advanceDurable {r} (h : s.Canon) : (s.advanceDurable r).Canon := by
  unfold State.advanceDurable
  split
  · rename_i e1
    have h1 := State.Canon.fst_of e1 h.readRing
    exact .ite h1 h1.devWrite.deliverDura

theorem State.Canon.noteAck {r peer next} (h : s.Canon) : (s.noteAck r peer next).Canon := by
  unfold State.noteAck
  exact h.upd.advanceDurable

theorem State.Canon.onAck {qp ctr tagOk ring q c} (h : s.Canon) : (s.onAck qp ctr tagOk ring q c).Canon := by
  unfold State.onAck
  split
  · rename_i e1
    exact State.Canon.fst_of e1 h.receiveMsg
  · rename_i e2
    have h2 := State.Canon.fst_of e2 h.receiveMsg
    extract_lets
    split
    · rename_i e3
      have h3 := State.Canon.fst_of e3 h2.readRing
      refine .ite ?_ ?_
      · exact h3
      · split
        · exact h3
        · exact .ite h3.peerLost (.ite h3 (.ite h3.peerLost (.ite h3.devRead h3.devRead.noteAck)))

theorem State.Canon.onResume {qp ctr tagOk ring x5 c} (h : s.Canon) : (s.onResume qp ctr tagOk ring x5 c).Canon := by
  unfold State.onResume
  split
  · rename_i e1
    exact State.Canon.fst_of e1 h.receiveMsg
  · rename_i e2
    have h2 := State.Canon.fst_of e2 h.receiveMsg
    refine .ite ?_ ?_
    · exact h2
    · split
      · rename_i e3
        have h3 := State.Canon.fst_of e3 h2.readRing
        exact .ite h3.putSession.noteAck h3.chainBreak

theorem State.Canon.onClose {qp ctr tagOk} (h : s.Canon) : (s.onClose qp ctr tagOk).Canon := by
  unfold State.onClose
  split
  · rename_i e1
    exact State.Canon.fst_of e1 h.receiveMsg
  · rename_i e2
    have h2 := State.Canon.fst_of e2 h.receiveMsg
    exact h2.peerLost

theorem State.Canon.mirrorMessage {qp bs} (h : s.Canon) : (s.mirrorMessage qp bs).1.Canon := by
  unfold State.mirrorMessage
  extract_lets _ _ type
  generalize type = n
  split
  · exact h
  · extract_lets
    split
    extract_lets
    split
    · exact .fst h.onHello
    · exact .fst h.onHelloReply
    · exact .fst h.onConfirm
    · exact h.onRecords
    · exact .fst h.onAck
    · exact .fst h.onResume
    · exact .fst h.onClose
    · exact h

theorem State.Canon.countNoq (h : s.Canon) : (s.countNoq).Canon := by
  unfold State.countNoq
  exact h.incSat

theorem State.Canon.countFull {q} (h : s.Canon) : (s.countFull q).Canon := by
  unfold State.countFull
  exact h.incSat.setFld

theorem State.Canon.place {q m} (h : s.Canon) : (s.place q m).1.Canon := by
  unfold State.place
  split
  · rename_i e1
    have h1 := State.Canon.fst_of e1 h.useQueue
    split
    · exact .fst h1.countNoq
    · extract_lets _ _ _ _ _ _ _ _ s1 s2 s3
      have hs1 : s1.Canon := .ite h1 h1.devWrite
      have hs2 : s2.Canon := hs1.devWrite
      have hs3 : s3.Canon := hs2.setQueue
      split
      · exact .fst h1.countFull
      · split
        · exact .fst h1.countLost.queueFail
        · exact .fst (.ite hs3 hs3.deliverGroup)

theorem State.Canon.placeSend {x1 x bytes} (h : s.Canon) : (s.placeSend x1 x bytes).1.Canon := by
  unfold State.placeSend
  extract_lets
  split
  · split
    · rename_i e1
      exact State.Canon.fst_of e1 h.mirrorMessage
    · rename_i e2
      exact State.Canon.fst_of e2 h.mirrorMessage
  · exact h.place

theorem State.Canon.rcSendIn {x1 x v} (h : s.Canon) : (s.rcSendIn x1 x v).Canon := by
  unfold State.rcSendIn
  extract_lets _ _ _ _ _ s1
  have hs1 : s1.Canon := h.putRc.psnAdvance
  refine .ite ?_ ?_
  · exact h
  · refine .ite ?_ ?_
    · exact h.outOfOrder
    · refine .ite ?_ ?_
      · exact h.respond
      · refine .ite ?_ ?_
        · exact h.respond
        · refine .ite ?_ ?_
          · exact h.sendTooLong
          · refine .ite ?_ ?_
            · exact .ite hs1.respond hs1
            · split
              · rename_i e1
                have h1 := State.Canon.fst_of e1 h.placeSend
                exact h1.putRc.psnAdvance.respond
              · rename_i e2
                have h2 := State.Canon.fst_of e2 h.placeSend
                exact h2.respond
              · rename_i e3
                exact State.Canon.fst_of e3 h.placeSend
              · rename_i e4
                exact State.Canon.fst_of e4 h.placeSend

theorem State.Canon.roceSend {x1 x} (h : s.Canon) : (s.roceSend x1 x).Canon := by
  unfold State.roceSend
  split
  · rename_i e1
    exact State.Canon.fst_of e1 h.roceQp
  · rename_i e2
    have h2 := State.Canon.fst_of e2 h.roceQp
    refine .ite ?_ ?_
    · exact h2.rcSendIn
    · split
      · exact h2
      · exact .ite h2 h2.place

theorem State.Canon.regionLost {v a n rkey store} (h : s.Canon) : (s.regionLost v a n rkey store).Canon := by
  unfold State.regionLost
  exact .ite h.countLost h

theorem State.Canon.roceWrite {hd x} (h : s.Canon) : (s.roceWrite hd x).Canon := by
  unfold State.roceWrite
  split
  · rename_i e1
    exact State.Canon.fst_of e1 h.roceQp
  · rename_i e1
    have h1 := State.Canon.fst_of e1 h.roceQp
    extract_lets _ _ _ _ at'
    refine .ite h1 (.ite h1.outOfOrder ?_)
    generalize at' = place
    cases place with
    | none => exact h1.respond
    | some p => exact .ite h1.respond (.ite h1.regionLost.respond
        (.ite h1.devWrite.putRc.psnAdvance.respond h1.devWrite.putRc.psnAdvance))

theorem State.Canon.roceRead {x1 va rkey len} (h : s.Canon) : (s.roceRead x1 va rkey len).Canon := by
  unfold State.roceRead
  split
  · rename_i e1
    exact State.Canon.fst_of e1 h.roceQp
  · rename_i e2
    have h2 := State.Canon.fst_of e2 h.roceQp
    exact .ite h2 (.ite h2.outOfOrder (.ite h2.regionLost.respond (.ite h2.respond
        (.ite h2.devRead.emitAll.psnAdvance h2.devRead.emitAll))))

theorem State.Canon.finishSent {q status m} (h : s.Canon) : (s.finishSent q status m).Canon := by
  unfold State.finishSent
  split
  · exact h.completeDesc.finishClose
  · exact h

theorem State.Canon.rcAcked {qp psn} (h : s.Canon) : (s.rcAcked qp psn).Canon := by
  unfold State.rcAcked
  exact .foldl (fun _ h1 _ => h1.finishSent) h.putRc

theorem State.Canon.rcResend {qp} (h : s.Canon) : (s.rcResend qp).Canon := by
  unfold State.rcResend
  exact .foldl (fun _ h1 _ => h1.emitAll) h

theorem State.Canon.rcError {qp} (h : s.Canon) : (s.rcError qp).Canon := by
  unfold State.rcError
  extract_lets
  split
  · rename_i e1
    have h1 := State.Canon.fst_of e1 h.useQueue
    exact .foldl (fun _ h2 _ => h2.finishSent) h1.setQueue.putRc

theorem State.Canon.rcFail {qp} (h : s.Canon) : (s.rcFail qp).Canon := by
  unfold State.rcFail
  extract_lets s1
  have hs1 : s1.Canon := h.rcError
  split
  · exact hs1.peerLost
  · exact hs1

theorem State.Canon.roceAck {x1 syndrome} (h : s.Canon) : (s.roceAck x1 syndrome).Canon := by
  unfold State.roceAck
  split
  · rename_i e1
    exact State.Canon.fst_of e1 h.roceQp
  · rename_i e2
    have h2 := State.Canon.fst_of e2 h.roceQp
    extract_lets _ s1
    have hs1 : s1.Canon := h2.rcAcked
    refine .ite ?_ ?_
    · exact h2
    · split
      · exact h2.rcAcked
      · exact hs1.rcResend
      · exact .ite hs1.rcResend hs1.rcFail
      · exact h2

theorem State.Canon.rocePacket {p} (h : s.Canon) : (s.rocePacket p).Canon := by
  unfold State.rocePacket
  refine .ite ?_ ?_
  · exact h.holdWork
  · split
    · exact h.roceSend
    · exact h.roceWrite
    · exact h.roceRead
    · exact h.roceAck

theorem State.Canon.mirrorIn {x1 x2} (h : s.Canon) : (s.mirrorIn x1 x2).Canon := by
  unfold State.mirrorIn
  split
  · exact h.onHello
  · exact h.onHelloReply
  · exact h.onConfirm
  · exact h.onResume
  · exact h.onRecords
  · exact h.onAck
  · exact h.onClose

theorem State.Canon.reply {p data poisoned} (h : s.Canon) : (s.reply p data poisoned).Canon := by
  unfold State.reply
  exact h.upd

theorem State.Canon.inboundRefused {p t} (h : s.Canon) : (s.inboundRefused p t).Canon := by
  unfold State.inboundRefused
  exact h.setErr.ashLog

theorem State.Canon.inboundLost {p a n store} (h : s.Canon) : (s.inboundLost p a n store).Canon := by
  unfold State.inboundLost
  split
  · exact .ite h.countKeyLost h
  · exact h

theorem State.Canon.inboundRead {p t n} (h : s.Canon) : (s.inboundRead p t n).Canon := by
  unfold State.inboundRead
  split
  · exact .ite h.devRead.reply h.inboundLost.inboundRefused.reply
  · exact h.reply
  · exact h.reply
  · exact h.inboundRefused.reply

theorem State.Canon.ringDoorbell {a v} (h : s.Canon) : (s.ringDoorbell a v).Canon := by
  unfold State.ringDoorbell
  exact .ite h.doorbellAt h.park

theorem State.Canon.msixPending (h : s.Canon) : (s.msixPending).Canon := by
  unfold State.msixPending
  exact .foldl (fun _ h1 _ => .ite h1.msixSend h1) h

theorem State.Canon.msixWrite {o bs} (h : s.Canon) : (s.msixWrite o bs).Canon := by
  unfold State.msixWrite
  exact h.upd.msixPending

theorem State.Canon.inboundWrite {p t bs poisoned} (h : s.Canon) : (s.inboundWrite p t bs poisoned).Canon := by
  unfold State.inboundWrite
  extract_lets s1
  have hs1 : s1.Canon := .ite h.setErr h
  split
  · refine .ite ?_ ?_
    · extract_lets s2 s3
      have hs2 : s2.Canon := hs1.devWrite
      have hs3 : s3.Canon := .ite (.foldl (fun _ h1 _ => h1.poisonLine) hs2) hs2
      exact .ite hs3.setErr hs3
    · exact hs1.inboundLost.inboundRefused
  · exact .ite hs1 (.ite hs1.ringDoorbell hs1.inboundRefused)
  · exact .ite hs1 hs1.msixWrite
  · exact hs1.inboundRefused

theorem State.Canon.configSet {reg v} (h : s.Canon) : (s.configSet reg v).Canon := by
  unfold State.configSet
  exact .ite h.upd (.ite h.upd.msixPending h)

theorem State.Canon.inboundConfig {reg value} (h : s.Canon) : (s.inboundConfig reg value).Canon := by
  unfold State.inboundConfig
  refine .ite ?_ ?_
  · exact h.upd
  · split
    · exact h.configSet.reply
    · exact h.upd.reply

theorem State.Canon.serveInbound {p x2} (h : s.Canon) : (s.serveInbound p x2).Canon := by
  unfold State.serveInbound
  split
  · exact h.inboundRead
  · exact h.inboundWrite
  · exact h.inboundConfig

theorem State.Canon.debugAnswer {data} (h : s.Canon) : (s.debugAnswer data).Canon := by
  unfold State.debugAnswer
  exact h.upd

theorem State.Canon.debugNow {x1} (h : s.Canon) : (s.debugNow x1).Canon := by
  unfold State.debugNow
  split
  · exact .ite h.countLost.debugAnswer h.devRead.debugAnswer
  · exact .ite h.countLost.debugAnswer h.devWrite.debugAnswer
  · exact h
  · exact h

theorem State.Canon.runWork {x1} (h : s.Canon) : (s.runWork x1).Canon := by
  unfold State.runWork
  split
  · exact h.unbusy.act
  · exact h.doorbellAt
  · exact h.rocePacket
  · exact h.mirrorIn
  · exact .ite h.serveInbound h
  · exact .ite h.upd h
  · exact h.debugNow
  · exact h.routeGroup
  · exact h.routeCtx
  · exact h.routeDura

theorem State.Canon.toExc {f reason rule} (h : s.Canon) : (s.toExc f reason rule).Canon := by
  unfold State.toExc
  exact h.countPort.place

theorem State.Canon.toQueue {q f p rule user} (h : s.Canon) : (s.toQueue q f p rule user).Canon := by
  unfold State.toQueue
  exact .ite h.toExc h.place

theorem State.Canon.steerParsed {f p} (h : s.Canon) : (s.steerParsed f p).Canon := by
  unfold State.steerParsed
  extract_lets
  split
  · exact .ite h.toQueue h.countNoq
  · extract_lets s1
    have hs1 : s1.Canon := h.upd
    split
    · exact hs1.countNoq
    · exact hs1.toQueue
    · split
      · exact hs1.toExc
      · extract_lets
        split
        · exact hs1.countLost.toExc
        · exact hs1.devRead.toQueue
        · exact hs1.devRead.toQueue
    · exact hs1.toExc

theorem State.Canon.steer {f} (h : s.Canon) : (s.steer f).Canon := by
  unfold State.steer
  split
  · exact h.toExc
  · split
    · exact h.steerParsed
    · split
      · exact h.rocePacket
      · exact h.countPort

theorem State.Canon.flushTx (h : s.Canon) : (s.flushTx).Canon := by
  unfold State.flushTx
  exact .foldl (fun _ h1 _ => h1.frameOut) h.upd

/-- Running the parked work one after the other keeps the canonical form. -/
theorem State.Canon.runParked {l : List Work} {x : State × List Work} (h : x.1.Canon) :
    (l.foldl (fun (s, kept) w =>
      if kept.any (fun x => Work.block x == w.block) || !State.workReady s w then (s, kept ++ [w])
      else (State.runWork s w, kept)) x).1.Canon := by
  induction l generalizing x with
  | nil => exact h
  | cons w t ih =>
    obtain ⟨s, kept⟩ := x
    refine ih ?_
    dsimp only
    split
    · exact h
    · exact State.Canon.runWork h

theorem State.Canon.runHeld (h : s.Canon) : (s.runHeld).Canon := by
  unfold State.runHeld
  split
  rename_i e1
  have h1 := State.Canon.fst_of e1 (State.Canon.runParked h.upd)
  exact (State.Canon.ite (.foldl (fun _ h2 _ => h2.steer) h1.upd.upd) h1.upd).flushTx

theorem State.Canon.adoptRing {r e} (h : s.Canon) : (s.adoptRing r e).Canon := by
  unfold State.adoptRing
  exact h.upd

theorem State.Canon.lookAtRing {r} (h : s.Canon) : (s.lookAtRing r).Canon := by
  unfold State.lookAtRing
  exact (State.Canon.ite h.adoptRing h).refaultRing

theorem State.Canon.lookAtRings (h : s.Canon) : (s.lookAtRings).Canon := by
  unfold State.lookAtRings
  refine .ite ?_ ?_
  · exact h
  · extract_lets s1
    have hs1 : s1.Canon := .foldl (fun _ h1 _ => h1.lookAtRing) h.upd
    exact hs1.upd

theorem State.Canon.finishHalt (h : s.Canon) : (s.finishHalt).Canon := by
  unfold State.finishHalt
  split
  · exact h
  · exact .ite h h.upd.setFlag.haltNow

theorem State.Canon.finishCtx (h : s.Canon) : (s.finishCtx).Canon := by
  unfold State.finishCtx
  split
  · exact h
  · extract_lets s1
    have hs1 : s1.Canon := h.upd.setFlag
    split
    · exact .ite hs1.ctxStop hs1
    · refine .ite ?_ ?_
      · exact h
      · split
        · exact hs1.ctxStop
        · exact hs1.ctxEvict
        · exact hs1.ctxPreempt

theorem State.Canon.settle (h : s.Canon) : (s.settle).Canon := by
  unfold State.settle
  exact .ite h h.finishCtx.finishHalt.lookAtRings.runHeld

theorem State.Canon.after (h : t.Canon) : (s.after t).Canon := h.settle.upd

end Sys2Proof.Machine
end

section
/-!
SUPPORT. The canonical form through fetches, exceptions, the withdrawal and the end of an instruction, and writes of registers.
-/

namespace Sys2Proof.Machine

variable {s t : State}

theorem State.Canon.overrun {b xs} (h : s.Canon) : (s.overrun b xs).Canon := by
  unfold State.overrun
  exact .ite (.foldl (fun _ h1 _ => h1.ashLog) h) h

theorem State.Canon.memFinding {x1} (h : s.Canon) : (s.memFinding x1).Canon := by
  unfold State.memFinding
  split
  · exact .ite h.controllerRead h
  · exact h.incSat
  · exact h.incSat.failChannel
  · exact .ite h.poisonLine h

theorem State.Canon.evict {stove x2} (h : s.Canon) : (s.evict stove x2).Canon := by
  unfold State.evict
  split
  · exact h.upd
  · exact h.upd

theorem State.Canon.before {b env} (h : s.Canon) : (s.before b env).Canon := by
  unfold State.before
  exact (State.Canon.foldl (fun _ h1 _ => h1.memFinding) (.foldl (fun _ h2 _ => h2.evict) h)).overrun

theorem State.Canon.withdraw {b op w cause trace latch upsets began} (h : s.Canon) :
    (s.withdraw b op w cause trace latch upsets began).Canon := by
  unfold State.withdraw
  extract_lets _ _ _ s1
  have hs1 : s1.Canon := h.putBank
  split
  · exact .ite hs1 hs1.toWaiting
  · exact .ite hs1 hs1.toWaiting
  · exact .ite hs1 hs1.toNone
  · exact .ite hs1 hs1.toNone
  · exact .ite hs1 hs1.toReady

theorem Keeps.getPsw : Keeps Cpu.Canon getPsw := by
  unfold Machine.getPsw
  exact .getBind fun _ _ => .pure

theorem Keeps.replayed {k t acc} : Keeps Cpu.Canon (replayed k t acc) := by
  unfold Machine.replayed
  exact .modify fun _ h1 => h1

theorem Keeps.keepingReach {m : M Nat} (h : Keeps Cpu.Canon m) : Keeps Cpu.Canon (keepingReach m) := by
  intro c h1
  unfold Machine.keepingReach
  split
  · rename_i e1
    have h2 := Keeps.ok (P := Cpu.Canon) e1 h h1
    exact h2
  · rename_i e2
    have h3 := Keeps.error (P := Cpu.Canon) e2 h h1
    exact h3

theorem Keeps.keptReach {m : M Nat} (h : Keeps Cpu.Canon m) : Keeps Cpu.Canon (keptReach m) := by
  unfold Machine.keptReach
  refine .getBind fun _ _ => ?_
  split
  · exact .bind .replayed fun _ => .pure
  · exact .keepingReach h
  · exact .keepingReach h
  · exact .keepingReach h

theorem Keeps.scratchCt : Keeps Cpu.Canon scratchCt := by
  unfold Machine.scratchCt
  exact .getBind fun _ _ => .pure

theorem Keeps.raise {α : Type} {e} : Keeps Cpu.Canon (raise e : M α) := .throw

theorem Keeps.raiseCode {α : Type} {code} : Keeps Cpu.Canon (raiseCode code : M α) := .throw

theorem Keeps.modS {f : State → State} (h : ∀ s, s.Canon → (f s).Canon) : Keeps Cpu.Canon (modS f) := by
  unfold Machine.modS
  exact .modify fun _ h1 => h _ h1

theorem Keeps.translateAccess {k te la e} : Keeps Cpu.Canon (translateAccess k te la e) := by
  unfold Machine.translateAccess
  refine .getBind fun _ _ => ?_
  refine .ite ?_ ?_
  · exact .ite .raise .pure
  · refine .ite ?_ ?_
    · exact .raise
    · refine .ite ?_ ?_
      · exact .throw
      · split
        · exact .bind (.modS (fun _ h1 => h1.walkFailed)) fun _ => .raise
        · exact .ite .raise (.ite .raise .pure)

theorem Keeps.raiseWhen {p : Prop} [Decidable p] {e} : Keeps Cpu.Canon (raiseWhen p e) := by
  unfold Machine.raiseWhen
  exact .ite .raise .pure

theorem Keeps.sizeRule {k pa len total e} (_ : s.Canon) : Keeps Cpu.Canon (sizeRule s k pa len total e) := by
  unfold Machine.sizeRule
  split
  · exact .raiseWhen
  · exact .ite .throw .pure
  · exact .raiseWhen
  · exact .pure
  · exact .pure
  · exact .pure
  · exact .pure

theorem Keeps.keyLostRule {pa e} (_ : s.Canon) : Keeps Cpu.Canon (keyLostRule s pa e) := by
  unfold Machine.keyLostRule
  exact .ite (.bind (.modS (fun _ h1 => h1.countKeyLost)) fun _ => .raise) .pure

theorem Keeps.ordinaryRule {k via key pa e} (h : s.Canon) : Keeps Cpu.Canon (ordinaryRule s k via key pa e) := by
  unfold Machine.ordinaryRule
  exact .ite (.bind (.keyLostRule h) fun _ => .bind .raiseWhen fun _ => .bind .raiseWhen fun _ => .modS (fun _ h1 => h1.markFrame)) .pure

theorem Keeps.reachAccess {k via la len total second} : Keeps Cpu.Canon (reachAccess k via la len total second) := by
  unfold Machine.reachAccess
  refine .bind .scratchCt fun _ => ?_
  refine .bind .getPsw fun _ => ?_
  extract_lets
  refine .bind .translateAccess fun _ => ?_
  refine .bind .raiseWhen fun _ => ?_
  refine .getBind fun _ h1 => ?_
  extract_lets s1
  have hs1 : s1.Canon := h1
  exact .bind .raiseWhen fun _ => .bind (.sizeRule hs1) fun _ => .bind (.ordinaryRule hs1) fun _ => .pure

theorem Keeps.checkAccess {k via la len total second} : Keeps Cpu.Canon (checkAccess k via la len total second) := by
  unfold Machine.checkAccess
  exact .bind .reachAccess fun _ => .getBind fun _ _ => .bind .scratchCt fun _ => .bind .raiseWhen fun _ => .pure

theorem Keeps.awaitLines {ps} : Keeps Cpu.Canon (awaitLines ps) := by
  unfold Machine.awaitLines
  exact .getBind fun _ _ => .ite .throw (.ite (.modify fun _ h1 => h1) (.ite .throw .pure))

theorem State.Canon.drainThese {ctx bs} (h : s.Canon) : (s.drainThese ctx bs).Canon := by
  unfold State.drainThese
  exact .foldl (fun _ h1 _ => h1.drainOne) h.upd

theorem State.Canon.drainFetch {ctx a n} (h : s.Canon) : (s.drainFetch ctx a n).Canon := by
  unfold State.drainFetch
  exact .ite h.drainThese h

theorem Keeps.noteAccess {a} : Keeps Cpu.Canon (noteAccess a) := by
  unfold Machine.noteAccess
  exact .modify fun _ h1 => h1

theorem Keeps.fetchAt {a} : Keeps Cpu.Canon (fetchAt a) := by
  unfold Machine.fetchAt
  exact .bind .checkAccess fun _ => .bind .awaitLines fun _ => .getBind fun _ _ => .bind (.modS (fun _ h1 => h1.drainFetch))
      fun _ => .bind .noteAccess fun _ => .pure

theorem Keeps.fetchCheck : Keeps Cpu.Canon fetchCheck := by
  unfold Machine.fetchCheck
  exact .bind .getPsw fun _ => .bind (.keptReach .fetchAt) fun _ => .pure

theorem State.Canon.release {ctx} (h : s.Canon) : (s.release ctx).Canon := by
  unfold State.release
  exact h.upd.purge

theorem State.Canon.endPair {ctx} (h : s.Canon) : (s.endPair ctx).Canon := by
  unfold State.endPair
  exact h.release.upd

theorem State.Canon.heldByPoison {b addr} (h : s.Canon) : (s.heldByPoison b addr).Canon := by
  unfold State.heldByPoison
  exact h.spill.ashLog.attention

theorem State.Canon.enter {b e old image lis ember cost} (h : s.Canon) : (s.enter b e old image lis ember cost).Canon := by
  unfold State.enter
  extract_lets s1
  have hs1 : s1.Canon := h.drain
  refine .ite ?_ ?_
  · exact hs1.lockup
  · split
    · rename_i s2 _ e1
      have h1 : State.Canon s2 := Keeps.error (P := EntryCanon) e1 .entrySteps hs1
      exact h1.lockup
    · rename_i s3 _ e2
      have h2 : State.Canon s3 := Keeps.ok (P := EntryCanon) e2 .entrySteps hs1
      exact h2.serve.emptyFetch.putBank.breakLoaded

theorem State.Canon.takeException {b e image} (h : s.Canon) : (s.takeException b e image).Canon := by
  unfold State.takeException
  extract_lets s1 s2 _ s3
  have hs1 : s1.Canon := by
    unfold s1
    split
    · exact h.returnLeave
    · exact h
  have hs2 : s2.Canon := hs1.endPair
  have hs3 : s3.Canon := .ite hs2.incSat hs2
  exact .ite hs3.putBank.heldByPoison hs3.enter

theorem Cpu.Canon.places {c : Cpu} (h : c.s.Canon) : (Cpu.places c).Canon := by
  unfold Cpu.places
  exact h.serve

theorem Cpu.Canon.withdraws {c : Cpu} {op w x} (h : c.s.Canon) : (Cpu.withdraws c op w x).Canon := by
  unfold Cpu.withdraws
  exact h.withdraw

/-- The meaning of an instruction keeps the canonical form, straight and as pass B has it. -/
structure Body.Canon (body : Body) : Prop where
  run : ∀ w, Keeps Cpu.Canon (body.run w)
  again : ∀ w, Keeps Cpu.Canon (body.again w)

theorem Keeps.fetched {body : Body} {w} (hb : body.Canon) : Keeps Cpu.Canon (body.fetched w) :=
  .bind (.modify fun _ h1 => h1) fun _ => hb.run w

theorem Cpu.Canon.passFrom {c0 prev : Cpu} {p elapsed} (h : c0.s.Canon) (hprev : prev.s.Canon) : (c0.passFrom prev p elapsed).s.Canon := by
  unfold Cpu.passFrom
  exact State.Canon.setReg ⟨h.mem, hprev.regs⟩

theorem State.Canon.shelve {b es} (h : s.Canon) : (s.shelve b es).Canon := by
  unfold State.shelve
  exact h.upd

theorem Keeps.repeated {body : Body} {w} (hb : body.Canon) : Keeps Cpu.Canon (body.repeated w) :=
  .bind (.modify fun _ h1 => h1) fun _ => hb.again w

theorem Cpu.Canon.commitEntry {c : Cpu} {e} (h : c.s.Canon) : (Cpu.commitEntry c e).s.Canon := by
  unfold Cpu.commitEntry
  split
  · split
    · exact h
    · exact h
  · extract_lets _ _ _ s1
    have hs1 : s1.Canon := .ite h h.poke
    split
    · exact h
    · exact hs1.upd
  · exact h
  · exact h
  · exact h
  · exact h
  · exact h

theorem Cpu.Canon.commitShelf {c : Cpu} {l} (h : c.s.Canon) : (c.commitShelf l).s.Canon := by
  unfold Cpu.commitShelf
  induction l generalizing c with
  | nil => exact h
  | cons e t ih => exact ih (Cpu.Canon.commitEntry h)

theorem State.Canon.recordMismatch {b m tries} (h : s.Canon) : (s.recordMismatch b m tries).Canon := by
  unfold State.recordMismatch
  exact h.setReg.setReg

theorem State.Canon.noteTransient {b} (h : s.Canon) : (s.noteTransient b).Canon := by
  unfold State.noteTransient
  exact h.incSat.incSat.ashLog

theorem State.Canon.setResv {r} (h : s.Canon) : (s.setResv r).Canon := by
  unfold State.setResv
  exact h.upd

theorem State.Canon.takeUnits {ctx units} (h : s.Canon) : (s.takeUnits ctx units).1.Canon := by
  unfold State.takeUnits
  extract_lets
  split
  · exact .fst h.setResv
  · exact .fst h.setResv.purge

theorem State.Canon.incWrap {slot off lo w n} (h : s.Canon) : (s.incWrap slot off lo w n).Canon := by
  unfold State.incWrap
  exact h.setFld

theorem State.Canon.countPair {stove} (h : s.Canon) : (s.countPair stove).Canon := by
  unfold State.countPair
  exact h.incWrap.incWrap

theorem State.Canon.beat {core} (h : s.Canon) : (s.beat core).Canon := by
  unfold State.beat
  exact h.setFld

theorem State.Canon.refuseWrite {core slot off} (h : s.Canon) : (s.refuseWrite core slot off).Canon := by
  unfold State.refuseWrite
  exact h.incSat.setErr.ashLog

theorem State.Canon.claim {core} (h : s.Canon) : (s.claim core).Canon := by
  unfold State.claim
  exact .ite h.setFld.incWrap.setErr.ashLog h.refuseWrite

theorem State.Canon.releaseToken {core} (h : s.Canon) : (s.releaseToken core).Canon := by
  unfold State.releaseToken
  exact .ite h.setFld h

theorem State.Canon.claimWrite {src v} (h : s.Canon) : (s.claimWrite src v).Canon := by
  unfold State.claimWrite
  extract_lets _ s1 s2
  have hs1 : s1.Canon := .ite h.beat h
  have hs2 : s2.Canon := .ite hs1.claim hs1
  exact .ite h (.ite hs2.releaseToken hs2)

theorem State.Canon.todSet {v} (h : s.Canon) : (s.todSet v).Canon := by
  unfold State.todSet
  exact .ite h.setReg h.setStepRem

theorem State.Canon.setW1s {slot off f} (h : s.Canon) : (s.setW1s slot off f).Canon := by
  unfold State.setW1s
  exact .ite h h.setFld

theorem State.Canon.farKeysLost (h : s.Canon) : (s.farKeysLost).Canon := by
  unfold State.farKeysLost
  exact h.upd

theorem State.Canon.fktChange {on} (h : s.Canon) : (s.fktChange on).Canon := by
  unfold State.fktChange
  exact .ite h h.dropCopies.setFlag.farKeysLost

theorem State.Canon.quiesceRequest {slot} (h : s.Canon) : (s.quiesceRequest slot).Canon := by
  unfold State.quiesceRequest
  exact .ite h.setFlag h

theorem State.Canon.linkGoesDown {p cxl} (h : s.Canon) : (s.linkGoesDown p cxl).Canon := by
  unfold State.linkGoesDown
  exact .ite h (.ite h.setReg.setReg.setErr.ashLog.invalidate h.setReg.setReg.setErr.ashLog)

theorem State.Canon.modeChanged {was : State} {slot} (_ : was.Canon) (hs : s.Canon) : (State.modeChanged was s slot).Canon := by
  unfold State.modeChanged
  exact .ite (.ite hs.setErr hs) (State.Canon.ite hs.setErr hs).linkGoesDown

theorem State.Canon.runRekindles (h : s.Canon) : (s.runRekindles).Canon := by
  unfold State.runRekindles
  exact .foldl (fun _ h1 _ => h1.rekindle) h.upd

theorem State.Canon.keepQuiet {x1} (h : s.Canon) : (s.keepQuiet x1).Canon := by
  unfold State.keepQuiet
  exact .foldl (fun _ h1 _ => .ite h1.setFlag h1) h

theorem State.Canon.emptyFetches {x1} (h : s.Canon) : (s.emptyFetches x1).Canon := by
  unfold State.emptyFetches
  exact h.upd

theorem State.Canon.hearthGoesOn {was : State} {slot} (_ : was.Canon) (hs : s.Canon) : (State.hearthGoesOn was s slot).Canon := by
  unfold State.hearthGoesOn
  exact .ite hs.keepQuiet.leaveFlues.emptyFetches hs.keepQuiet.leaveFlues

theorem State.Canon.handshakeGranted {i peer} (h : s.Canon) : (s.handshakeGranted i peer).Canon := by
  unfold State.handshakeGranted
  split
  · exact h
  · refine .ite ?_ ?_
    · exact h
    · extract_lets _ _ s1
      have hs1 : s1.Canon := h.upd
      split
      · exact hs1.mirrorSend
      · split
        · rename_i e1
          have h1 := State.Canon.fst_of e1 hs1.sign
          exact h1.mirrorSend
      · exact hs1
      · exact hs1
      · exact hs1
      · exact hs1

theorem State.Canon.mirrorStarts {p} (h : s.Canon) : (s.mirrorStarts p).Canon := by
  unfold State.mirrorStarts
  exact .foldl (fun _ h1 _ => .foldl (fun _ h2 _ => .ite h2.mirrorStart h2) h1) h

theorem State.Canon.mirrorResume (h : s.Canon) : (s.mirrorResume).Canon := by
  unfold State.mirrorResume
  exact .foldl (fun _ h1 _ => h1.handshakeGranted) h.mirrorStarts

theorem State.Canon.quiesceRelease {slot} (h : s.Canon) : (s.quiesceRelease slot).Canon := by
  unfold State.quiesceRelease
  refine .ite ?_ ?_
  · exact h
  · extract_lets _ _ s1 s2 s3 s4
    have hs1 : s1.Canon := h.setFlag
    have hs2 : s2.Canon := hs1.setFlag
    have hs3 : s3.Canon := hs2.mergeQ
    have hs4 : s4.Canon := by
      unfold s4
      split
      · exact hs2.modeChanged hs3
      · exact hs3.runRekindles
      · exact hs2.hearthGoesOn hs3
      · exact hs3
    exact .ite hs1 (.ite hs4.mirrorResume hs4)

/-- What the fields of a write leave, when the write goes on, is in canonical form. -/
def FieldsCanon (r : Except Fault FieldsOut) : Prop := ∀ o, r = .ok o → o.s.Canon

theorem FieldsCanon.ok {o : FieldsOut} (h : o.s.Canon) : FieldsCanon (.ok o) := by
  intro t e
  obtain rfl := Except.ok.inj e
  exact h

theorem FieldsCanon.error {f : Fault} : FieldsCanon (.error f) := by
  intro t e
  cases e

theorem FieldsCanon.ite {p : Prop} {i : Decidable p} {a b : Except Fault FieldsOut} (ha : FieldsCanon a) (hb : FieldsCanon b) :
    FieldsCanon (if p then a else b) := by
  split
  · exact ha
  · exact hb

theorem FieldsCanon.writeField {o : FieldsOut} {slot off v f} (h : o.s.Canon) : FieldsCanon (State.writeField o slot off v f) := by
  unfold State.writeField
  extract_lets s1
  have hs1 : s1.Canon := h
  split
  · exact .ok h
  · exact .ok h
  · exact .ite (.ite (.ok hs1.todSet) (.ok h)) (.ok h)
  · exact .ok hs1.setFld
  · exact .ite (.ok h) (.ite .error (.ok hs1.setW1s))
  · split
    · exact .ok hs1.setFld
    · exact .ite (.ok h) (.ok h)
    · exact .ite (.ok h) (.ite (.ok h) (.ite (.ok hs1.fktChange) (.ok hs1.setFld)))
    · exact .ite (.ok h) (.ite .error (.ok hs1.upd))

theorem FieldsCanon.writeFields {slot off v fs} {o : FieldsOut} (h : o.s.Canon) : FieldsCanon (writeFields slot off v fs o) := by
  induction fs generalizing o with
  | nil => exact .ok h
  | cons f t ih =>
    unfold Machine.writeFields
    split
    · exact .error
    · rename_i e1
      exact ih (FieldsCanon.writeField h _ e1)

theorem OkCanon.writeCtl {slot v} (h : s.Canon) : OkCanon (s.writeCtl slot v) := by
  unfold State.writeCtl
  refine .ite (.ok h) ?_
  split
  · exact .error
  · rename_i o e1
    have h1 : o.s.Canon := FieldsCanon.writeField h _ e1
    exact .ite (.ok h1.quiesceRequest) (.ite (.ok h1.quiesceRelease) (.ok h1))

theorem State.Canon.badWrite {slot off v bit cls} (h : s.Canon) : (s.badWrite slot off v bit cls).Canon := by
  unfold State.badWrite
  exact (h.withAlert (fun _ h1 => h1.setFlag)).ashLog

theorem State.Canon.ignoreWrite {slot off} (h : s.Canon) : (s.ignoreWrite slot off).Canon := by
  unfold State.ignoreWrite
  split
  · exact h.setFlag
  · exact h
  · exact h

theorem State.Canon.parkWrite {slot off v} (h : s.Canon) : (s.parkWrite slot off v).Canon := by
  unfold State.parkWrite
  extract_lets s1
  have hs1 : s1.Canon := h.park
  split
  · exact hs1
  · exact hs1.setFlag

theorem State.Canon.actOrPark {k slot off v x} (h : s.Canon) : (s.actOrPark k slot off v x).Canon := by
  unfold State.actOrPark
  exact .ite h.ignoreWrite (.ite h.parkWrite h.act)

theorem OkCanon.applyWrite {k slot off v x} (h : s.Canon) : OkCanon (s.applyWrite k slot off v x) := by
  unfold State.applyWrite
  refine .ite (.writeCtl h) ?_
  extract_lets
  refine .ite (.ok (h.withAlert fun _ h1 => h1.setFlag)) ?_
  split
  · exact .error
  · rename_i o e1
    have h1 : o.s.Canon := FieldsCanon.writeFields h _ e1
    extract_lets s1 s2
    have hs1 : s1.Canon := .ite h1.badWrite h1
    have hs2 : s2.Canon := .ite hs1.badWrite hs1
    exact .ok (.ite hs2 hs2.actOrPark)

theorem OkCanon.regWriteWith {src slot off v x} (h : s.Canon) : OkCanon (s.regWriteWith src slot off v x) := by
  unfold State.regWriteWith
  split
  · exact .ok h
  · exact .ite (.ok h) (.ite (.ok h.claimWrite) (.ite (.ok h.refuseWrite) (.applyWrite h)))

theorem OkCanon.regWrite {src slot off v} (h : s.Canon) : OkCanon (s.regWrite src slot off v) := by
  unfold State.regWrite
  exact .regWriteWith h

theorem State.Canon.sendStore {p a bs} (h : s.Canon) : (s.sendStore p a bs).Canon := by
  unfold State.sendStore
  exact .ite h.runWork h.park

theorem OkCanon.deviceStore {src a bs} (h : s.Canon) : OkCanon (s.deviceStore src a bs) := by
  unfold State.deviceStore
  split
  · exact .ite (.regWrite h) .error
  · exact .ok h.ringDoorbell
  · exact .ok h.sendStore
  · exact .ok h.poke
  · exact .ok h.poke
  · exact .ok h.poke
  · exact .ok h.poke

theorem OkCanon.perform {ctx x2} (h : s.Canon) : OkCanon (s.perform ctx x2) := by
  unfold State.perform
  split
  · exact .deviceStore h
  · exact .ok h.poke
  · exact .ok h.deliverCtx
  · exact .ok h.deliverGroup
  · refine .ok ?_
    split
    · exact h.refireBreak
    · exact h

theorem OkCanon.performAll {ctx l} (h : s.Canon) : OkCanon (s.performAll ctx l) := by
  induction l generalizing s with
  | nil => exact .ok h
  | cons e t ih =>
    intro u hu
    simp only [State.performAll, bind, Except.bind] at hu
    split at hu
    · cases hu
    · rename_i e1
      exact ih ((OkCanon.perform h).get e1) u hu

theorem OkCanon.complete {b0} {c : Cpu} {count extra} (h : s.Canon) (_ : c.s.Canon) : OkCanon (s.complete b0 c count extra) := by
  unfold State.complete
  extract_lets _ _ _ _ s1 s2
  have hs1 : s1.Canon := h.putBank
  have hs2 : s2.Canon := .ite hs1.countPair.endPair hs1
  split
  · exact .error
  · rename_i s3 e1
    have h1 : s3.Canon := (OkCanon.performAll hs2).get e1
    split
    · exact .ok h1
    · split
      · exact .ok h1.enter
      · exact .ite (.ok h1.enter) (.ok h1)
      · exact .ite (.ok h1.enter) (.ok h1)
      · exact .ite (.ok h1.enter) (.ok h1)
      · exact .ite (.ok h1.enter) (.ok h1)

theorem State.Canon.endInstr {ctx} (h : s.Canon) : (s.endInstr ctx).Canon := by
  unfold State.endInstr
  exact h.drainThese.upd

theorem Cpu.Canon.settle {c : Cpu} (h : c.s.Canon) : (Cpu.settle c).s.Canon := by
  unfold Cpu.settle
  exact .ite (State.Canon.ite h.serve.emptyFetch h.serve).endInstr (.ite h.serve.emptyFetch h.serve)

end Sys2Proof.Machine
end

section
/-!
SUPPORT. The canonical form through operand accesses, and through the binary, branch and packed instructions.
-/

namespace Sys2Proof.Machine

variable {s t : State}

theorem Keeps.raiseIf {c code} : Keeps Cpu.Canon (raiseIf c code) := by
  unfold Machine.raiseIf
  exact .ite .raiseCode .pure

theorem Keeps.pswFmt {w} : Keeps Cpu.Canon (pswFmt w) := by
  unfold Machine.pswFmt
  exact .raiseIf

theorem Keeps.checkShape {sh w} : Keeps Cpu.Canon (checkShape sh w) := by
  unfold Machine.checkShape
  exact .bind .getPsw fun _ => .bind .raiseIf fun _ => .bind .raiseIf fun _ => .bind .raiseIf fun _ => .raiseIf

theorem Keeps.modB {f} : Keeps Cpu.Canon (modB f) := by
  unfold Machine.modB
  exact .modify fun _ h1 => h1

theorem Keeps.writeG {r v} : Keeps Cpu.Canon (writeG r v) := by
  unfold Machine.writeG
  exact .modB

theorem Keeps.movPswBody {m w} : Keeps Cpu.Canon (movPswBody m w) := by
  unfold Machine.movPswBody
  exact .bind .pswFmt fun _ => .bind .checkShape fun _ => .bind .getPsw fun _ => .bind .writeG fun _ => .pure

theorem Keeps.readG {r} : Keeps Cpu.Canon (readG r) := by
  unfold Machine.readG
  exact .getBind fun _ _ => .pure

theorem Keeps.getB : Keeps Cpu.Canon getB := by
  unfold Machine.getB
  exact .getBind fun _ _ => .pure

theorem Keeps.checkPiecesBy {check : Acc → Nat → Nat → Bool → M Nat} {ks via first l}
    (h : ∀ k a n second, Keeps Cpu.Canon (check k a n second)) :
    Keeps Cpu.Canon (checkPiecesBy check ks via first l) := by
  induction l generalizing first with
  | nil => exact .pure
  | cons x t ih =>
    unfold Machine.checkPiecesBy
    extract_lets
    refine .bind (.forIn fun _ _ => .bind (.keptReach (h _ _ _ _)) fun _ => .pure) fun _ => ?_
    refine .getBind fun _ _ => ?_
    extract_lets _ _ jp1
    have hjp1 : ∀ a, Keeps Cpu.Canon (jp1 a) := fun _ => .bind ih fun _ => .pure
    split
    · exact .ite (.bind .raise fun _ => hjp1 ()) (hjp1 ())
    · exact hjp1 ()

theorem Keeps.checkPieces {ks via total first ps} : Keeps Cpu.Canon (checkPieces ks via total first ps) := by
  unfold Machine.checkPieces
  exact .checkPiecesBy (fun _ _ _ _ => .checkAccess)

theorem Keeps.awaitNeeded {ps} : Keeps Cpu.Canon (awaitNeeded ps) := by
  unfold Machine.awaitNeeded
  refine .getBind fun _ h1 => ?_
  refine .ite ?_ ?_
  · split
    · rename_i e1
      have h2 := State.Canon.fst_of e1 h1.takeUnits
      exact .set h2
    · rename_i e2
      have h3 := State.Canon.fst_of e2 h1.takeUnits
      exact .bind (.set h3) fun _ => .throw
  · exact .awaitLines

theorem Keeps.keepingRead {m : M (List Byte)} (h : Keeps Cpu.Canon m) : Keeps Cpu.Canon (keepingRead m) := by
  intro c h1
  unfold Machine.keepingRead
  split
  · rename_i e1
    have h2 := Keeps.ok (P := Cpu.Canon) e1 h h1
    exact h2
  · rename_i e2
    have h3 := Keeps.error (P := Cpu.Canon) e2 h h1
    exact h3
  · rename_i e3
    have h4 := Keeps.error (P := Cpu.Canon) e3 h h1
    exact h4
  · rename_i e4
    have h5 := Keeps.error (P := Cpu.Canon) e4 h h1
    exact h5

theorem Keeps.keptRead {m : M (List Byte)} (h : Keeps Cpu.Canon m) : Keeps Cpu.Canon (keptRead m) := by
  unfold Machine.keptRead
  refine .getBind fun _ _ => ?_
  split
  · exact .bind .replayed fun _ => .pure
  · exact .bind .replayed fun _ => .raise
  · exact .keepingRead h
  · exact .keepingRead h

theorem State.Canon.drainOver {ctx a n} (h : s.Canon) : (s.drainOver ctx a n).Canon := by
  unfold State.drainOver
  exact .ite h.drainThese h

theorem Keeps.loadOrdinary {p} : Keeps Cpu.Canon (loadOrdinary p) := by
  unfold Machine.loadOrdinary
  refine .getBind fun _ _ => ?_
  extract_lets _ _ jp1
  have hjp1 : ∀ y0, Keeps Cpu.Canon (jp1 y0) := fun _ => .bind (.modS (fun _ h1 => h1.drainOver)) fun _ => .pure
  exact .ite (.bind .noteAccess fun _ => hjp1 ()) (hjp1 ())

theorem Keeps.drainOwn : Keeps Cpu.Canon drainOwn := by
  unfold Machine.drainOwn
  exact .bind .getB fun _ => .modS (fun _ h1 => h1.drain)

theorem State.Canon.clearRc {slot off} (h : s.Canon) : (s.clearRc slot off).Canon := by
  unfold State.clearRc
  split
  · exact h
  · exact .foldl (fun _ h1 _ => .ite h1.setFld h1) h

theorem Keeps.takeCompletion {pa len e} : Keeps Cpu.Canon (takeCompletion pa len e) := by
  unfold Machine.takeCompletion
  refine .getBind fun _ h1 => ?_
  extract_lets _ s1
  have hs1 : s1.Canon := h1
  split
  · exact .throw
  · refine .ite ?_ ?_
    · exact .throw
    · refine .bind (.set hs1.upd) fun _ => ?_
      split
      · exact .pure
      · exact .raise
      · exact .bind (.modS (fun _ h2 => h2.setErr)) fun _ => .raise
      · exact .bind (.modS (fun _ h3 => h3.setErr)) fun _ => .raise

theorem Keeps.loadDevice {p second} : Keeps Cpu.Canon (loadDevice p second) := by
  unfold Machine.loadDevice
  refine .getBind fun _ _ => ?_
  refine .ite ?_ ?_
  · exact .pure
  · refine .bind .drainOwn fun _ => ?_
    refine .getBind fun _ _ => ?_
    extract_lets
    split
    · exact .pure
    · exact .bind (.modS (fun _ h1 => h1.clearRc)) fun _ => .pure
    · exact .pure
    · exact .takeCompletion
    · exact .pure
    · exact .pure
    · exact .pure

theorem Keeps.loadPiece {p second} : Keeps Cpu.Canon (loadPiece p second) := by
  unfold Machine.loadPiece
  exact .getBind fun _ _ => .ite (.bind .noteAccess fun _ => .pure) (.ite .loadOrdinary (.bind .noteAccess fun _ => .loadDevice))

theorem Keeps.noteVolatile {pa v} : Keeps Cpu.Canon (noteVolatile pa v) := by
  unfold Machine.noteVolatile
  exact .modify fun _ h1 => h1

theorem Keeps.readPieces {ps second} : Keeps Cpu.Canon (readPieces ps second) := by
  induction ps generalizing second with
  | nil => exact .pure
  | cons p t ih =>
    unfold Machine.readPieces
    exact .bind (.keptRead .loadPiece) fun _ => .getBind fun _ _ =>
      .ite (.bind .noteVolatile fun _ => .bind ih fun _ => .pure) (.bind ih fun _ => .pure)

theorem Keeps.loadPointer {a} : Keeps Cpu.Canon (loadPointer a) := by
  unfold Machine.loadPointer
  extract_lets jp1
  have hjp1 : ∀ y0, Keeps Cpu.Canon (jp1 y0) := fun _ => .bind .checkPieces fun _ => .bind .awaitNeeded fun _ => .bind .readPieces
      fun _ => .pure
  exact .ite (.bind .raise fun _ => hjp1 ()) (hjp1 ())

theorem Keeps.moduloParts {mk o n} : Keeps Cpu.Canon (moduloParts mk o n) := by
  unfold Machine.moduloParts
  extract_lets _ _ _ _ _ jp1
  have hjp1 : ∀ y0, Keeps Cpu.Canon (jp1 y0) := fun _ => .pure
  exact .ite (.bind .raiseCode fun _ => hjp1 ()) (hjp1 ())

theorem Keeps.areaOffset {sp} : Keeps Cpu.Canon (areaOffset sp) := by
  unfold Machine.areaOffset
  exact .bind .getB fun _ => .ite .pure .pure

theorem Keeps.formPlace {sp n} : Keeps Cpu.Canon (formPlace sp n) := by
  unfold Machine.formPlace
  refine .bind .getB fun _ => ?_
  extract_lets _ _ _ jp1
  have hjp1 : ∀ y0, Keeps Cpu.Canon (jp1 y0) := fun _ => .bind .raiseIf fun _ => .pure
  split
  · exact hjp1 _
  · exact hjp1 _
  · exact .bind .writeG fun _ => hjp1 _
  · exact .bind .writeG fun _ => hjp1 _
  · exact hjp1 _
  · exact .bind .loadPointer fun _ => hjp1 _
  · exact .bind .moduloParts fun _ => .pure
  · exact .bind .moduloParts fun _ => .bind .writeG fun _ => .pure
  · exact .bind .raiseIf fun _ => .pure
  · exact .bind .areaOffset fun _ => .bind .raiseIf fun _ => .pure
  · exact .bind .areaOffset fun _ => .bind .raiseIf fun _ => .getBind fun _ _ => .pure

theorem Keeps.checkOwn {ks second ps} : Keeps Cpu.Canon (checkOwn ks second ps) := by
  induction ps generalizing second with
  | nil => exact .pure
  | cons p t ih =>
    unfold Machine.checkOwn
    exact .getBind fun _ _ => .bind .raiseWhen fun _ => .bind ih fun _ => .pure

theorem Keeps.checkPlace {p ks n} : Keeps Cpu.Canon (checkPlace p ks n) := by
  unfold Machine.checkPlace
  extract_lets _ jp1
  have hjp1 : ∀ y0, Keeps Cpu.Canon (jp1 y0) := fun _ => .bind .awaitLines fun _ => .pure
  exact .ite (.bind .checkOwn fun _ => hjp1 _) (.bind .checkPieces fun _ => hjp1 _)

theorem Keeps.surcharge {n} : Keeps Cpu.Canon (surcharge n) := by
  unfold Machine.surcharge
  exact .modify fun _ h1 => h1

theorem Keeps.formOpnd {sp n ks} : Keeps Cpu.Canon (formOpnd sp n ks) := by
  unfold Machine.formOpnd
  split
  · exact .bind .readG fun _ => .pure
  · exact .pure
  · exact .pure
  · exact .pure
  · exact .bind .formPlace fun _ => .bind .checkPlace fun _ => .bind .surcharge fun _ => .pure

theorem Keeps.readOpnd {o n} : Keeps Cpu.Canon (readOpnd o n) := by
  unfold Machine.readOpnd
  split
  · exact .pure
  · exact .pure
  · exact .bind .getB fun _ => .pure
  · exact .bind .getB fun _ => .pure
  · exact .readPieces

theorem Keeps.readVal {o n} : Keeps Cpu.Canon (readVal o n) := by
  unfold Machine.readVal
  exact .bind .readOpnd fun _ => .pure

theorem Keeps.formMove {w} : Keeps Cpu.Canon (formMove w) := by
  unfold Machine.formMove
  exact .bind .formOpnd fun _ => .bind .formOpnd fun _ => .bind .readVal fun _ => .pure

theorem Keeps.addEffect {e} : Keeps Cpu.Canon (addEffect e) := by
  unfold Machine.addEffect
  exact .modify fun _ h1 => h1

theorem Keeps.writePiece {p bs} : Keeps Cpu.Canon (writePiece p bs) := by
  unfold Machine.writePiece
  exact .getBind fun _ _ => .ite .pure (.bind .noteAccess fun _ => .bind (.modify fun _ h1 => h1)
      fun _ => .ite (.modS (fun _ h2 => h2.upd)) (.bind .drainOwn fun _ => .addEffect))

theorem Keeps.writeDealt {ps} : Keeps Cpu.Canon (writeDealt ps) := by
  induction ps with
  | nil => exact .pure
  | cons p t ih =>
    unfold Machine.writeDealt
    exact .bind .writePiece fun _ => ih

theorem Keeps.writePieces {ps bs} : Keeps Cpu.Canon (writePieces ps bs) := by
  unfold Machine.writePieces
  exact .writeDealt

theorem Keeps.writeOpnd {o bs} : Keeps Cpu.Canon (writeOpnd o bs) := by
  unfold Machine.writeOpnd
  split
  · exact .writeG
  · exact .pure
  · exact .modB
  · exact .modB
  · exact .writePieces

theorem Keeps.writeVal {o n v} : Keeps Cpu.Canon (writeVal o n v) := by
  unfold Machine.writeVal
  exact .writeOpnd

theorem Keeps.movBody {m w} : Keeps Cpu.Canon (movBody m w) := by
  unfold Machine.movBody
  exact .ite .movPswBody (.bind .checkShape fun _ => .bind .formMove fun _ => .bind .writeVal fun _ => .pure)

theorem Keeps.modPsw {f} : Keeps Cpu.Canon (modPsw f) := by
  unfold Machine.modPsw
  exact .modB

theorem Keeps.applyControl {new} : Keeps Cpu.Canon (applyControl new) := by
  unfold Machine.applyControl
  exact .bind .getPsw fun _ => .bind .raiseIf fun _ => .bind .raiseIf fun _ => .modPsw

theorem Keeps.andPswBody {m w} : Keeps Cpu.Canon (andPswBody m w) := by
  unfold Machine.andPswBody
  exact .bind .pswFmt fun _ => .bind .checkShape fun _ => .bind .formOpnd fun _ => .bind .readVal fun _ => .bind .getPsw
      fun _ => .bind .applyControl fun _ => .pure

theorem Keeps.orPswBody {m w} : Keeps Cpu.Canon (orPswBody m w) := by
  unfold Machine.orPswBody
  exact .bind .pswFmt fun _ => .bind .checkShape fun _ => .bind .formOpnd fun _ => .bind .readVal fun _ => .bind .getPsw
      fun _ => .bind .applyControl fun _ => .pure

theorem Keeps.formAddress {sp n} : Keeps Cpu.Canon (formAddress sp n) := by
  unfold Machine.formAddress
  extract_lets jp1
  have hjp1 : ∀ y0, Keeps Cpu.Canon (jp1 y0) := fun _ => .formPlace
  exact .ite (.bind .surcharge fun _ => hjp1 ()) (hjp1 ())

theorem Keeps.leaBody {w} : Keeps Cpu.Canon (leaBody w) := by
  unfold Machine.leaBody
  exact .bind .checkShape fun _ => .bind .formAddress fun _ => .bind .writeG fun _ => .pure

theorem Keeps.formBoth {w} : Keeps Cpu.Canon (formBoth w) := by
  unfold Machine.formBoth
  exact .bind .formOpnd fun _ => .bind .formOpnd fun _ => .bind .readVal fun _ => .bind .readVal fun _ => .pure

theorem Keeps.raiseLate {b code} : Keeps Cpu.Canon (raiseLate b code) := by
  unfold Machine.raiseLate
  exact .getBind fun _ _ => .ite .raiseCode .pure

theorem Keeps.setCc {v} : Keeps Cpu.Canon (setCc v) := by
  unfold Machine.setCc
  exact .modPsw

theorem Keeps.setArith {w e} : Keeps Cpu.Canon (setArith w e) := by
  unfold Machine.setArith
  exact .bind .getPsw fun _ => .ite (.bind .raiseLate fun _ => .setCc) .setCc

theorem Keeps.deliverArith {o n e} : Keeps Cpu.Canon (deliverArith o n e) := by
  unfold Machine.deliverArith
  exact .bind .setArith fun _ => .writeVal

theorem Keeps.addBody {m w} : Keeps Cpu.Canon (addBody m w) := by
  unfold Machine.addBody
  exact .bind .checkShape fun _ => .bind .formBoth fun _ => .bind .deliverArith fun _ => .pure

theorem Keeps.subBody {m w} : Keeps Cpu.Canon (subBody m w) := by
  unfold Machine.subBody
  exact .bind .checkShape fun _ => .bind .formBoth fun _ => .bind .deliverArith fun _ => .pure

theorem Keeps.mulBody {m w} : Keeps Cpu.Canon (mulBody m w) := by
  unfold Machine.mulBody
  exact .bind .checkShape fun _ => .bind .formBoth fun _ => .bind .deliverArith fun _ => .pure

theorem Keeps.mulhBody {m w} : Keeps Cpu.Canon (mulhBody m w) := by
  unfold Machine.mulhBody
  refine .bind .checkShape fun _ => ?_
  extract_lets _ jp1
  have hjp1 : ∀ y0, Keeps Cpu.Canon (jp1 y0) := fun _ => .pure
  exact .bind .formBoth fun _ => .ite (.bind .setCc fun _ => .bind .writeVal fun _ => hjp1 ()) (.bind .setCc
      fun _ => .bind .writeVal fun _ => hjp1 ())

theorem Keeps.signedDivide {m rem w} : Keeps Cpu.Canon (signedDivide m rem w) := by
  unfold Machine.signedDivide
  extract_lets
  refine .bind .formBoth fun _ => ?_
  split
  · refine .bind .raiseIf fun _ => ?_
    extract_lets _ _ jp1
    have hjp1 : ∀ y0, Keeps Cpu.Canon (jp1 y0) := fun _ => .pure
    exact .ite (.bind .getPsw fun _ => .bind .raiseLate fun _ => .bind .setCc fun _ => .bind .writeVal
        fun _ => hjp1 ()) (.bind .setCc fun _ => .bind .writeVal fun _ => hjp1 ())

theorem Keeps.divBody {m w} : Keeps Cpu.Canon (divBody m w) := by
  unfold Machine.divBody
  exact .bind .checkShape fun _ => .signedDivide

theorem Keeps.unsignedDivide {m rem w} : Keeps Cpu.Canon (unsignedDivide m rem w) := by
  unfold Machine.unsignedDivide
  exact .bind .formBoth fun _ => .bind .raiseIf fun _ => .bind .setCc fun _ => .bind .writeVal fun _ => .pure

theorem Keeps.divuBody {m w} : Keeps Cpu.Canon (divuBody m w) := by
  unfold Machine.divuBody
  exact .bind .checkShape fun _ => .unsignedDivide

theorem Keeps.remBody {m w} : Keeps Cpu.Canon (remBody m w) := by
  unfold Machine.remBody
  exact .bind .checkShape fun _ => .ite .unsignedDivide .signedDivide

theorem Keeps.negBody {m w} : Keeps Cpu.Canon (negBody m w) := by
  unfold Machine.negBody
  exact .bind .checkShape fun _ => .bind .formMove fun _ => .bind .deliverArith fun _ => .pure

theorem Keeps.absBody {m w} : Keeps Cpu.Canon (absBody m w) := by
  unfold Machine.absBody
  exact .bind .checkShape fun _ => .bind .formMove fun _ => .bind .deliverArith fun _ => .pure

theorem Keeps.deliverLogic {o n v} : Keeps Cpu.Canon (deliverLogic o n v) := by
  unfold Machine.deliverLogic
  exact .bind .setCc fun _ => .writeVal

theorem Keeps.andBody {m w} : Keeps Cpu.Canon (andBody m w) := by
  unfold Machine.andBody
  exact .ite .andPswBody (.bind .checkShape fun _ => .bind .formBoth fun _ => .bind .deliverLogic fun _ => .pure)

theorem Keeps.orBody {m w} : Keeps Cpu.Canon (orBody m w) := by
  unfold Machine.orBody
  exact .ite .orPswBody (.bind .checkShape fun _ => .bind .formBoth fun _ => .bind .deliverLogic fun _ => .pure)

theorem Keeps.xorBody {m w} : Keeps Cpu.Canon (xorBody m w) := by
  unfold Machine.xorBody
  exact .bind .checkShape fun _ => .bind .formBoth fun _ => .bind .deliverLogic fun _ => .pure

theorem Keeps.notBody {m w} : Keeps Cpu.Canon (notBody m w) := by
  unfold Machine.notBody
  exact .bind .checkShape fun _ => .bind .formMove fun _ => .bind .deliverLogic fun _ => .pure

theorem Keeps.formShift {w} : Keeps Cpu.Canon (formShift w) := by
  unfold Machine.formShift
  exact .bind .formOpnd fun _ => .ite (.bind .readVal fun _ => .pure) (.bind .formOpnd fun _ => .bind .readVal
      fun _ => .bind .readVal fun _ => .pure)

theorem Keeps.shlBody {m w} : Keeps Cpu.Canon (shlBody m w) := by
  unfold Machine.shlBody
  exact .bind .checkShape fun _ => .bind .formShift fun _ => .bind .deliverLogic fun _ => .pure

theorem Keeps.shrBody {m w} : Keeps Cpu.Canon (shrBody m w) := by
  unfold Machine.shrBody
  exact .bind .checkShape fun _ => .bind .formShift fun _ => .bind .deliverLogic fun _ => .pure

theorem Keeps.shaBody {m w} : Keeps Cpu.Canon (shaBody m w) := by
  unfold Machine.shaBody
  refine .bind .checkShape fun _ => ?_
  extract_lets _ jp1
  have hjp1 : ∀ y0, Keeps Cpu.Canon (jp1 y0) := fun _ => .pure
  exact .bind .formShift fun _ => .ite (.bind .deliverArith fun _ => hjp1 ()) (.bind .setCc fun _ => .bind .writeVal fun _ => hjp1 ())

theorem Keeps.rotBody {m w} : Keeps Cpu.Canon (rotBody m w) := by
  unfold Machine.rotBody
  exact .bind .checkShape fun _ => .bind .formShift fun _ => .bind .deliverLogic fun _ => .pure

theorem Keeps.formSources {w} : Keeps Cpu.Canon (formSources w) := by
  unfold Machine.formSources
  exact .bind .formOpnd fun _ => .bind .formOpnd fun _ => .bind .readVal fun _ => .bind .readVal fun _ => .pure

theorem Keeps.cmpBody {m w} : Keeps Cpu.Canon (cmpBody m w) := by
  unfold Machine.cmpBody
  exact .bind .checkShape fun _ => .bind .formSources fun _ => .bind .setCc fun _ => .pure

theorem Keeps.tstBody {m w} : Keeps Cpu.Canon (tstBody m w) := by
  unfold Machine.tstBody
  exact .bind .checkShape fun _ => .bind .formSources fun _ => .bind .setCc fun _ => .pure

theorem Keeps.formTarget {sp} : Keeps Cpu.Canon (formTarget sp) := by
  unfold Machine.formTarget
  extract_lets jp1
  have hjp1 : ∀ y0, Keeps Cpu.Canon (jp1 y0) := fun _ => .bind .raiseIf fun _ => .pure
  exact .ite (.bind (.bind .readG fun _ => .pure) fun _ => hjp1 _) (.bind (.bind .formAddress fun _ => .pure) fun _ => hjp1 _)

theorem Keeps.setNext {n} : Keeps Cpu.Canon (setNext n) := by
  unfold Machine.setNext
  exact .modify fun _ h1 => h1

theorem Keeps.brBody {w} : Keeps Cpu.Canon (brBody w) := by
  unfold Machine.brBody
  exact .bind .checkShape fun _ => .bind .formTarget fun _ => .bind .setNext fun _ => .pure

theorem Keeps.brcBody {w} : Keeps Cpu.Canon (brcBody w) := by
  unfold Machine.brcBody
  refine .bind .checkShape fun _ => ?_
  refine .bind .formTarget fun _ => ?_
  refine .bind .getPsw fun _ => ?_
  extract_lets jp1
  have hjp1 : ∀ y0, Keeps Cpu.Canon (jp1 y0) := fun _ => .pure
  exact .ite (.bind .setNext fun _ => hjp1 ()) (hjp1 ())

theorem Keeps.callBody {w} : Keeps Cpu.Canon (callBody w) := by
  unfold Machine.callBody
  exact .bind .checkShape fun _ => .bind .formTarget fun _ => .bind .readG fun _ => .bind .getPsw fun _ => .bind .raiseIf
      fun _ => .bind .checkPieces fun _ => .bind .awaitLines fun _ => .bind .writePieces fun _ => .bind .writeG
          fun _ => .bind .setNext fun _ => .pure

theorem Keeps.retBody {w} : Keeps Cpu.Canon (retBody w) := by
  unfold Machine.retBody
  exact .bind .checkShape fun _ => .bind .readG fun _ => .bind .raiseIf fun _ => .bind .checkPieces fun _ => .bind .awaitNeeded
      fun _ => .bind .readPieces fun _ => .bind .raiseIf fun _ => .bind .writeG fun _ => .bind .setNext fun _ => .pure

theorem Keeps.repBody {w} : Keeps Cpu.Canon (repBody w) := by
  unfold Machine.repBody
  refine .bind .checkShape fun _ => ?_
  refine .bind .readG fun _ => ?_
  extract_lets _ jp1
  have hjp1 : ∀ y0, Keeps Cpu.Canon (jp1 y0) := fun _ => .pure
  exact .bind .raiseIf fun _ => .bind .getPsw fun _ => .ite (.bind .setNext fun _ => hjp1 ()) (.bind .setNext fun _ => hjp1 ())

theorem Keeps.formTwoP {w} : Keeps Cpu.Canon (formTwoP w) := by
  unfold Machine.formTwoP
  exact .bind .formOpnd fun _ => .bind .formOpnd fun _ => .bind .readOpnd fun _ => .bind .readOpnd fun _ => .bind .raiseIf fun _ => .pure

theorem Keeps.deliverPacked {o n v} : Keeps Cpu.Canon (deliverPacked o n v) := by
  unfold Machine.deliverPacked
  extract_lets jp1
  have hjp1 : ∀ y0, Keeps Cpu.Canon (jp1 y0) := fun _ => .writeOpnd
  exact .ite (.bind .getPsw fun _ => .bind .raiseLate fun _ => .bind .setCc fun _ => hjp1 ()) (.bind .setCc fun _ => hjp1 ())

theorem Keeps.addpBody {m w} : Keeps Cpu.Canon (addpBody m w) := by
  unfold Machine.addpBody
  exact .bind .checkShape fun _ => .bind .formTwoP fun _ => .bind .deliverPacked fun _ => .pure

theorem Keeps.subpBody {m w} : Keeps Cpu.Canon (subpBody m w) := by
  unfold Machine.subpBody
  exact .bind .checkShape fun _ => .bind .formTwoP fun _ => .bind .deliverPacked fun _ => .pure

theorem Keeps.readPacked {o n} : Keeps Cpu.Canon (readPacked o n) := by
  unfold Machine.readPacked
  exact .bind .readOpnd fun _ => .bind .raiseIf fun _ => .pure

theorem Keeps.zappBody {m w} : Keeps Cpu.Canon (zappBody m w) := by
  unfold Machine.zappBody
  exact .bind .checkShape fun _ => .bind .formOpnd fun _ => .bind .formOpnd fun _ => .bind .readPacked
      fun _ => .bind .deliverPacked fun _ => .pure

theorem Keeps.cmppBody {m w} : Keeps Cpu.Canon (cmppBody m w) := by
  unfold Machine.cmppBody
  exact .bind .checkShape fun _ => .bind .formOpnd fun _ => .bind .formOpnd fun _ => .bind .readOpnd fun _ => .bind .readOpnd
      fun _ => .bind .raiseIf fun _ => .bind .setCc fun _ => .pure

theorem Keeps.takeLeave {cost} : Keeps Cpu.Canon (takeLeave cost) := by
  unfold Machine.takeLeave
  refine .getBind fun _ _ => ?_
  refine .ite ?_ ?_
  · exact .pure
  · split
    · exact .pure
    · extract_lets
      refine .bind ?_ fun _ => ?_
      · refine .modS ?_
        intro _ h1
        refine .ite ?_ ?_
        · exact h1
        · split
          · exact h1.upd
          · exact h1
      · exact .throw

theorem Keeps.mulpBody {m w} : Keeps Cpu.Canon (mulpBody m w) := by
  unfold Machine.mulpBody
  refine .bind .checkShape fun _ => ?_
  refine .bind .formTwoP fun _ => ?_
  split
  · extract_lets jp1
    have hjp1 : ∀ y0, Keeps Cpu.Canon (jp1 y0) := fun _ => .bind .deliverPacked fun _ => .pure
    exact .ite (.bind .takeLeave fun _ => hjp1 ()) (hjp1 ())

theorem Keeps.divpBody {m w} : Keeps Cpu.Canon (divpBody m w) := by
  unfold Machine.divpBody
  exact .bind .checkShape fun _ => .bind .formOpnd fun _ => .bind .formOpnd fun _ => .bind .formOpnd fun _ => .bind .readOpnd
      fun _ => .bind .readOpnd fun _ => .bind .raiseIf fun _ => .bind .raiseIf fun _ => .bind .raiseIf fun _ => .bind .takeLeave
          fun _ => .bind .writeOpnd fun _ => .bind .writeOpnd fun _ => .bind .setCc fun _ => .pure

theorem Keeps.srppBody {m w} : Keeps Cpu.Canon (srppBody m w) := by
  unfold Machine.srppBody
  exact .bind .checkShape fun _ => .bind .formOpnd fun _ => .bind .formOpnd fun _ => .bind .readVal fun _ => .bind .raiseIf
      fun _ => .bind .readPacked fun _ => .bind .deliverPacked fun _ => .pure

theorem Keeps.tstpBody {m w} : Keeps Cpu.Canon (tstpBody m w) := by
  unfold Machine.tstpBody
  exact .bind .checkShape fun _ => .bind .formOpnd fun _ => .bind .readOpnd fun _ => .bind .setCc fun _ => .pure

theorem Keeps.cvbpBody {m w} : Keeps Cpu.Canon (cvbpBody m w) := by
  unfold Machine.cvbpBody
  exact .bind .checkShape fun _ => .bind .formOpnd fun _ => .bind .formOpnd fun _ => .bind .readPacked fun _ => .bind .deliverArith
      fun _ => .pure

theorem Keeps.cvdpBody {m w} : Keeps Cpu.Canon (cvdpBody m w) := by
  unfold Machine.cvdpBody
  exact .bind .checkShape fun _ => .bind .formOpnd fun _ => .bind .formOpnd fun _ => .bind .readVal fun _ => .bind .deliverPacked
      fun _ => .pure

theorem Keeps.packBody {m w} : Keeps Cpu.Canon (packBody m w) := by
  unfold Machine.packBody
  exact .bind .checkShape fun _ => .bind .formOpnd fun _ => .bind .formOpnd fun _ => .bind .readOpnd fun _ => .bind .raiseIf
      fun _ => .bind .deliverPacked fun _ => .pure

theorem Keeps.unpkBody {m w} : Keeps Cpu.Canon (unpkBody m w) := by
  unfold Machine.unpkBody
  refine .bind .checkShape fun _ => ?_
  refine .bind .formOpnd fun _ => ?_
  refine .bind .formOpnd fun _ => ?_
  refine .bind .readPacked fun _ => ?_
  extract_lets _ jp1
  have hjp1 : ∀ y0, Keeps Cpu.Canon (jp1 y0) := fun _ => .bind .writeOpnd fun _ => .pure
  exact .ite (.bind .getPsw fun _ => .bind .raiseIf fun _ => .bind .setCc fun _ => hjp1 ()) (.bind .setCc fun _ => hjp1 ())

theorem Keeps.ldaBody {m w} : Keeps Cpu.Canon (ldaBody m w) := by
  unfold Machine.ldaBody
  exact .bind .checkShape fun _ => .bind .formOpnd fun _ => .bind .formOpnd fun _ => .bind .readOpnd fun _ => .bind .writeOpnd
      fun _ => .pure

theorem Keeps.staBody {m w} : Keeps Cpu.Canon (staBody m w) := by
  unfold Machine.staBody
  exact .bind .checkShape fun _ => .bind .formOpnd fun _ => .bind .formOpnd fun _ => .bind .readOpnd fun _ => .bind .writeOpnd
      fun _ => .pure

theorem Keeps.readNat {r} : Keeps Cpu.Canon (readNat r) := by
  unfold Machine.readNat
  exact .bind .readG fun _ => .pure

theorem Keeps.checkExtent {sp a n} : Keeps Cpu.Canon (checkExtent sp a n) := by
  unfold Machine.checkExtent
  exact .bind .getB fun _ => .raiseIf

theorem Keeps.formPairs {w} : Keeps Cpu.Canon (formPairs w) := by
  unfold Machine.formPairs
  exact .bind .readNat fun _ => .bind .readNat fun _ => .bind .readNat fun _ => .bind .readNat fun _ => .bind .checkExtent
      fun _ => .bind .checkExtent fun _ => .pure

theorem Keeps.usablePoints {ps} : Keeps Cpu.Canon (usablePoints ps) := by
  unfold Machine.usablePoints
  exact .bind .getPsw fun _ => .pure

theorem Keeps.reachSpace {sp a} : Keeps Cpu.Canon (reachSpace sp a) := by
  unfold Machine.reachSpace
  refine .getBind fun _ _ => ?_
  split
  · exact .pure
  · exact .pure
  · exact .pure

theorem Keeps.recordedAs {e} {m : M Nat} (h : Keeps Cpu.Canon m) : Keeps Cpu.Canon (recordedAs e m) := by
  intro c h1
  unfold Machine.recordedAs
  split
  · rename_i e1
    have h2 := Keeps.error (P := Cpu.Canon) e1 h h1
    exact h2
  · rename_i e2
    have h3 := Keeps.error (P := Cpu.Canon) e2 h h1
    exact h3
  · rename_i e3
    have h4 := Keeps.ok (P := Cpu.Canon) e3 h h1
    exact h4

theorem Keeps.noDevice {k sp x e} : Keeps Cpu.Canon (noDevice k sp x e) := by
  unfold Machine.noDevice
  split
  · exact .bind .getPsw fun _ => .bind .translateAccess fun _ => .bind .raiseWhen fun _ => .getBind fun _ _ => .raiseWhen
  · exact .pure
  · exact .pure

theorem Keeps.longAccess {check : Via → Nat → M Nat} {k sp a len} (h : ∀ y0 y1, Keeps Cpu.Canon (check y0 y1)) : Keeps Cpu.Canon
    (longAccess check k sp a len) := by
  unfold Machine.longAccess
  exact .bind .reachSpace fun _ => .bind .scratchCt fun _ => .bind (.keptReach (.recordedAs (.bind .noDevice fun _ => h _ _)))
      fun _ => .pure

theorem Keeps.longCheck {k sp a len} : Keeps Cpu.Canon (longCheck k sp a len) := by
  unfold Machine.longCheck
  exact .longAccess (fun _ _ => .checkAccess)

theorem Keeps.longPieces {sp a n} : Keeps Cpu.Canon (longPieces sp a n) := by
  unfold Machine.longPieces
  exact .bind .reachSpace fun _ => .pure

theorem Keeps.longRange {k sp ps} : Keeps Cpu.Canon (longRange k sp ps) := by
  induction ps with
  | nil => exact .pure
  | cons p t ih =>
    unfold Machine.longRange
    exact .bind .longCheck fun _ => .bind .awaitLines fun _ => .bind ih fun _ => .pure

theorem Keeps.longOpnd {k sp a n} : Keeps Cpu.Canon (longOpnd k sp a n) := by
  unfold Machine.longOpnd
  exact .bind .longPieces fun _ => .longRange

theorem Keeps.alarmDue : Keeps Cpu.Canon alarmDue := by
  unfold Machine.alarmDue
  exact .getBind fun _ _ => .pure

theorem Keeps.alarmHere : Keeps Cpu.Canon alarmHere := by
  unfold Machine.alarmHere
  refine .getBind fun _ _ => ?_
  split
  · exact .bind .alarmDue fun _ => .ite .pure (.bind (.keptReach .pure) fun _ => .pure)
  · exact .bind (.keptReach .pure) fun _ => .pure

theorem Keeps.caught {α : Type} {m : M α} (h : Keeps Cpu.Canon m) : Keeps Cpu.Canon (caught m : M (Except Exc α)) := by
  intro c h1
  unfold Machine.caught
  split
  · rename_i e1
    have h2 := Keeps.ok (P := Cpu.Canon) e1 h h1
    exact h2
  · rename_i e2
    have h3 := Keeps.error (P := Cpu.Canon) e2 h h1
    exact h3
  · rename_i e3
    have h4 := Keeps.error (P := Cpu.Canon) e3 h h1
    exact h4

theorem Keeps.scanUnit {n first seg k ps} (hfirst : ∀ p, Keeps Cpu.Canon (first p)) (hseg : ∀ k p, Keeps Cpu.Canon (seg k p)) :
    Keeps Cpu.Canon (scanUnit n first seg k ps) := by
  induction ps generalizing k with
  | nil =>
    unfold Machine.scanUnit
    refine .bind (hseg _ _) fun x => ?_
    cases x with
    | some j => exact .pure
    | none => exact .pure
  | cons p t ih =>
    unfold Machine.scanUnit
    refine .bind (hseg _ _) fun x => ?_
    cases x with
    | some j => exact .pure
    | none =>
      refine .bind .alarmHere fun _ => .ite .pure (.bind (.caught (hfirst _)) fun y => ?_)
      cases y with
      | error e => exact .pure
      | ok => exact ih

theorem Keeps.moveReach {x} : Keeps Cpu.Canon (PairForm.moveReach x) := by
  unfold Machine.PairForm.moveReach
  extract_lets _ _ jp1 jp2
  have hjp1 : ∀ y0, Keeps Cpu.Canon (jp1 y0) := by
    intro _
    unfold jp1
    extract_lets jp3
    have hjp3 : ∀ y0, Keeps Cpu.Canon (jp3 y0) := fun _ => .ite (.bind .longCheck fun _ => .pure) .pure
    exact .ite (.bind .longCheck fun _ => hjp3 ()) (hjp3 ())
  have hjp2 : ∀ y0 y1, Keeps Cpu.Canon (jp2 y0 y1) := fun _ _ => .bind .longOpnd fun _ => .bind .longOpnd fun _ => .pure
  exact .bind .usablePoints fun _ => .scanUnit hjp1 hjp2

theorem Keeps.noteCrossings {n} : Keeps Cpu.Canon (noteCrossings n) := by
  unfold Machine.noteCrossings
  exact .ite .pure .noteAccess

theorem Keeps.commitPart {α : Type} {count e} : Keeps Cpu.Canon (commitPart count e : M α) := by
  unfold Machine.commitPart
  exact .bind (.modify fun _ h1 => h1) fun _ => .raise

theorem Keeps.clearIp : Keeps Cpu.Canon clearIp := by
  unfold Machine.clearIp
  exact .modPsw

theorem Keeps.finishUnit {ops r} {commit : Nat → Bool → M Bool} {count}
    (h : ∀ y0 y1, Keeps Cpu.Canon (commit y0 y1)) : Keeps Cpu.Canon
    (finishUnit ops r commit count) := by
  unfold Machine.finishUnit
  refine .bind (h _ _) fun _ => ?_
  refine .bind .noteCrossings fun _ => ?_
  split
  · exact .commitPart
  · extract_lets jp1
    have hjp1 : ∀ y0, Keeps Cpu.Canon (jp1 y0) := fun _ => .pure
    exact .ite (.bind .clearIp fun _ => hjp1 ()) (.bind .setNext fun _ => hjp1 ())

theorem Keeps.longRead {sp a n} : Keeps Cpu.Canon (longRead sp a n) := by
  unfold Machine.longRead
  exact .bind .longOpnd fun _ => .readPieces

theorem Keeps.longWrite {sp a bs} : Keeps Cpu.Canon (longWrite sp a bs) := by
  unfold Machine.longWrite
  exact .bind .longOpnd fun _ => .writePieces

theorem Keeps.advancePair {r n} : Keeps Cpu.Canon (advancePair r n) := by
  unfold Machine.advancePair
  exact .bind .readG fun _ => .bind .readG fun _ => .bind .writeG fun _ => .writeG

theorem Keeps.moveCommit {x m j} : Keeps Cpu.Canon (PairForm.moveCommit x m j) := by
  unfold Machine.PairForm.moveCommit
  extract_lets _ jp1
  have hjp1 : ∀ y0, Keeps Cpu.Canon (jp1 y0) := fun _ => .ite (.bind .setCc fun _ => .pure) .pure
  exact .bind .longRead fun _ => .bind .longWrite fun _ => .ite (.bind .advancePair fun _ => .bind .advancePair
      fun _ => hjp1 ()) (hjp1 ())

theorem Keeps.movlBody {m w} : Keeps Cpu.Canon (movlBody m w) := by
  unfold Machine.movlBody
  exact .bind .checkShape fun _ => .bind .formPairs fun _ => .ite (.bind .setCc fun _ => .pure) (.bind .moveReach
      fun _ => .finishUnit (fun _ _ => .moveCommit))

theorem Keeps.scanRead {α : Type} {read : Nat → Nat → M (List α)} {hit ps} (hread : ∀ k n, Keeps Cpu.Canon (read k n)) :
    Keeps Cpu.Canon (scanRead read hit ps) := by
  induction ps with
  | nil => exact .pure
  | cons p t ih =>
    unfold Machine.scanRead
    refine .bind (hread _ _) fun _ => ?_
    split
    · exact .pure
    · exact ih

theorem Keeps.readPadded {sp a len pad k n} : Keeps Cpu.Canon (readPadded sp a len pad k n) := by
  unfold Machine.readPadded
  exact .bind .longRead fun _ => .pure

theorem Keeps.bothAt {x k j} : Keeps Cpu.Canon (PairForm.bothAt x k j) := by
  unfold Machine.PairForm.bothAt
  exact .bind .readPadded fun _ => .bind .readPadded fun _ => .pure

end Sys2Proof.Machine
end

section
/-!
SUPPORT. The canonical form through long strings, posting, floating point, frames, events, queues and keys.
-/

namespace Sys2Proof.Machine

variable {s t : State}

theorem Keeps.compareReach {x} : Keeps Cpu.Canon (PairForm.compareReach x) := by
  unfold Machine.PairForm.compareReach
  extract_lets _ jp1
  have hjp1 : ∀ y0, Keeps Cpu.Canon (jp1 y0) := by
    intro _
    unfold jp1
    extract_lets jp2
    have hjp2 : ∀ y0, Keeps Cpu.Canon (jp2 y0) := fun _ => .ite (.bind .longCheck fun _ => .pure) .pure
    exact .ite (.bind .longCheck fun _ => hjp2 ()) (hjp2 ())
  refine .bind .usablePoints fun _ => ?_
  refine .bind .reachSpace fun _ => ?_
  split
  · refine .bind .reachSpace fun _ => ?_
    split
    · extract_lets jp3
      have hjp3 : ∀ y0 y1, Keeps Cpu.Canon (jp3 y0 y1) := fun _ _ => .scanRead (fun _ _ => .bothAt)
      exact .scanUnit hjp1 hjp3

theorem Keeps.advanceScan {r n} : Keeps Cpu.Canon (advanceScan r n) := by
  unfold Machine.advanceScan
  exact .ite .pure .advancePair

theorem Keeps.compareCommit {x j stop} : Keeps Cpu.Canon (PairForm.compareCommit x j stop) := by
  unfold Machine.PairForm.compareCommit
  exact .bind .advanceScan fun _ => .bind .advanceScan fun _ => .ite (.bind .bothAt fun _ => .bind .setCc
      fun _ => .pure) (.ite (.bind .setCc fun _ => .pure) .pure)

theorem Keeps.cmplBody {w} : Keeps Cpu.Canon (cmplBody w) := by
  unfold Machine.cmplBody
  exact .bind .checkShape fun _ => .bind .formPairs fun _ => .bind .compareReach fun _ => .finishUnit (fun _ _ => .compareCommit)

theorem Keeps.longReach {k sp a len} : Keeps Cpu.Canon (longReach k sp a len) := by
  unfold Machine.longReach
  exact .longAccess (fun _ _ => .reachAccess)

theorem Keeps.checkTable {sp t} : Keeps Cpu.Canon (checkTable sp t) := by
  unfold Machine.checkTable
  extract_lets
  refine .bind .longReach fun _ => ?_
  extract_lets jp1
  have hjp1 : ∀ y0, Keeps Cpu.Canon (jp1 y0) := fun _ => .getBind fun _ _ => .ite .awaitLines .pure
  exact .ite (.bind (.bind .longReach fun _ => .pure) fun _ => hjp1 _) (.bind .pure fun _ => hjp1 _)

theorem Keeps.formTable {w} : Keeps Cpu.Canon (formTable w) := by
  unfold Machine.formTable
  exact .bind .readNat fun _ => .bind .readNat fun _ => .bind .readNat fun _ => .bind .checkExtent fun _ => .bind .checkExtent
      fun _ => .bind .checkTable fun _ => .pure

theorem Keeps.lookup {sp t bs} : Keeps Cpu.Canon (lookup sp t bs) := by
  induction bs with
  | nil => exact .pure
  | cons b rest ih =>
    unfold Machine.lookup
    exact .bind .longRead fun _ => .bind ih fun _ => .pure

theorem Keeps.functions {f k j} : Keeps Cpu.Canon (TableForm.functions f k j) := by
  unfold Machine.TableForm.functions
  exact .bind .longRead fun _ => .lookup

theorem Keeps.trlReach {f} : Keeps Cpu.Canon (TableForm.trlReach f) := by
  unfold Machine.TableForm.trlReach
  extract_lets _ jp1 jp2
  have hjp1 : ∀ y0, Keeps Cpu.Canon (jp1 y0) := fun _ => .bind .longCheck fun _ => .bind .longCheck fun _ => .pure
  have hjp2 : ∀ y0 y1, Keeps Cpu.Canon (jp2 y0 y1) := fun _ _ => .bind .functions fun _ => .bind .longOpnd fun _ => .pure
  exact .bind .usablePoints fun _ => .scanUnit hjp1 hjp2

theorem Keeps.trlCommit {f j} : Keeps Cpu.Canon (TableForm.trlCommit f j) := by
  unfold Machine.TableForm.trlCommit
  exact .bind .functions fun _ => .bind .longWrite fun _ => .bind .advanceScan fun _ => .pure

theorem Keeps.trlBody {w} : Keeps Cpu.Canon (trlBody w) := by
  unfold Machine.trlBody
  exact .bind .checkShape fun _ => .bind .formTable fun _ => .bind .trlReach fun _ => .finishUnit (fun _ _ => .trlCommit)

theorem Keeps.trtlReach {f} : Keeps Cpu.Canon (TableForm.trtlReach f) := by
  unfold Machine.TableForm.trtlReach
  extract_lets _ jp1
  have hjp1 : ∀ y0, Keeps Cpu.Canon (jp1 y0) := fun _ => .bind .longCheck fun _ => .pure
  refine .bind .usablePoints fun _ => ?_
  refine .bind .reachSpace fun _ => ?_
  split
  · extract_lets _ jp2
    have hjp2 : ∀ y0 y1, Keeps Cpu.Canon (jp2 y0 y1) := fun _ _ => .scanRead (fun _ _ => .functions)
    exact .scanUnit hjp1 hjp2

theorem Keeps.trtlCommit {f to3 j stop} : Keeps Cpu.Canon (TableForm.trtlCommit f to3 j stop) := by
  unfold Machine.TableForm.trtlCommit
  refine .ite ?_ ?_
  · exact .bind .functions fun _ => .bind .advanceScan fun _ => .bind .writeG fun _ => .bind .setCc fun _ => .pure
  · refine .bind .advanceScan fun _ => ?_
    extract_lets jp1
    have hjp1 : ∀ y0, Keeps Cpu.Canon (jp1 y0) := fun _ => .pure
    exact .ite (.bind .setCc fun _ => hjp1 ()) (hjp1 ())

theorem Keeps.trtlBody {w} : Keeps Cpu.Canon (trtlBody w) := by
  unfold Machine.trtlBody
  exact .bind .checkShape fun _ => .bind .formTable fun _ => .bind .trtlReach fun _ => .finishUnit (fun _ _ => .trtlCommit)

theorem Keeps.formScan {w} : Keeps Cpu.Canon (formScan w) := by
  unfold Machine.formScan
  exact .bind .readNat fun _ => .bind .readNat fun _ => .bind .checkExtent fun _ => .pure

theorem Keeps.srchReach {x w} : Keeps Cpu.Canon (ScanForm.srchReach x w) := by
  unfold Machine.ScanForm.srchReach
  refine .bind .usablePoints fun _ => ?_
  refine .bind .reachSpace fun _ => ?_
  split
  · extract_lets jp1 jp2
    have hjp1 : ∀ y0, Keeps Cpu.Canon (jp1 y0) := fun _ => .bind .longCheck fun _ => .pure
    have hjp2 : ∀ y0 y1, Keeps Cpu.Canon (jp2 y0 y1) := fun _ _ => .scanRead (fun _ _ => .longRead)
    exact .scanUnit hjp1 hjp2

theorem Keeps.srchCommit {x j stop} : Keeps Cpu.Canon (ScanForm.srchCommit x j stop) := by
  unfold Machine.ScanForm.srchCommit
  exact .bind .advanceScan fun _ => .ite (.bind .setCc fun _ => .pure) (.ite (.bind .setCc fun _ => .pure) .pure)

theorem Keeps.srchBody {w} : Keeps Cpu.Canon (srchBody w) := by
  unfold Machine.srchBody
  exact .bind .checkShape fun _ => .bind .formScan fun _ => .bind .srchReach fun _ => .finishUnit (fun _ _ => .srchCommit)

theorem Keeps.formEdit {isMark w} : Keeps Cpu.Canon (formEdit isMark w) := by
  unfold Machine.formEdit
  extract_lets
  refine .bind .getPsw fun _ => ?_
  refine .bind .readG fun _ => ?_
  refine .bind .readG fun _ => ?_
  refine .bind .readG fun _ => ?_
  refine .bind .readG fun _ => ?_
  refine .bind .readG fun _ => ?_
  extract_lets
  exact .bind .checkExtent fun _ => .bind .checkExtent fun _ => .bind .raiseIf fun _ => .ite .pure (.bind .readG fun _ => .pure)

theorem Keeps.beyond {α : Type} {point} {access : M α} (h : Keeps Cpu.Canon access) : Keeps Cpu.Canon (beyond point access : M (Except
    (Option Exc) α)) := by
  unfold Machine.beyond
  refine .ite ?_ ?_
  · exact .bind h fun _ => .pure
  · refine .bind .alarmHere fun _ => ?_
    refine .ite ?_ ?_
    · exact .pure
    · refine .bind (.caught h) fun _ => ?_
      split
      · exact .pure
      · exact .pure

theorem Keeps.editByte {f points x} : Keeps Cpu.Canon (editByte f points x) := by
  unfold Machine.editByte
  extract_lets
  refine .bind (.beyond .longRead) fun _ => ?_
  split
  · exact .pure
  · extract_lets
    refine .bind .getB fun _ => ?_
    refine .bind .raiseIf fun _ => ?_
    refine .bind (.ite (.beyond .longRead) .pure) fun _ => ?_
    split
    · exact .pure
    · split
      · exact .raiseCode
      · refine .bind (.beyond .longCheck) fun _ => ?_
        split
        · exact .pure
        · exact .pure

theorem Keeps.editUnit {f points n x} : Keeps Cpu.Canon (editUnit f points n x) := by
  induction n generalizing x with
  | zero => exact .pure
  | succ n ih =>
    unfold Machine.editUnit
    refine .bind .editByte fun y => ?_
    cases y with
    | ok y => exact ih
    | error stop => exact .pure

theorem Keeps.store {x x1} : Keeps Cpu.Canon (EditOpnds.store x x1) := by
  unfold Machine.EditOpnds.store
  exact .bind .longOpnd fun _ => .ite (.bind .checkExtent fun _ => .bind .longOpnd fun _ => .bind .writePieces
      fun _ => .writePieces) .writePieces

theorem Keeps.commitEdit {x w e} : Keeps Cpu.Canon (EditOpnds.commit x w e) := by
  unfold Machine.EditOpnds.commit
  extract_lets _ _ _ jp1 jp2 jp3
  have hjp1 : ∀ y0, Keeps Cpu.Canon (jp1 y0) := fun _ => .bind .modPsw fun _ => .ite .setCc .pure
  have hjp2 : ∀ y0, Keeps Cpu.Canon (jp2 y0) := by
    intro _
    unfold jp2
    split
    · exact .bind .writeG fun _ => hjp1 ()
    · exact hjp1 ()
  have hjp3 : ∀ y0, Keeps Cpu.Canon (jp3 y0) := fun _ => .ite (.bind .writeG fun _ => hjp2 ()) (hjp2 ())
  exact .ite (.bind .writeG fun _ => .bind .writeG fun _ => .bind .writeG fun _ => .bind .writeG fun _ => hjp3 ()) (hjp3 ())

theorem Keeps.editAny {isMark w} : Keeps Cpu.Canon (editAny isMark w) := by
  unfold Machine.editAny
  refine .bind .checkShape fun _ => ?_
  refine .bind .formEdit fun _ => ?_
  split
  · exact .bind .setCc fun _ => .pure
  · refine .bind .getPsw fun _ => ?_
    refine .bind .editUnit fun _ => ?_
    split
    · refine .bind .noteCrossings fun _ => ?_
      refine .bind .store fun _ => ?_
      refine .bind .commitEdit fun _ => ?_
      split
      · exact .commitPart
      · extract_lets jp1
        have hjp1 : ∀ y0, Keeps Cpu.Canon (jp1 y0) := fun _ => .pure
        exact .ite (.bind .clearIp fun _ => hjp1 ()) (.bind .setNext fun _ => hjp1 ())

theorem Keeps.editBody {w} : Keeps Cpu.Canon (editBody w) := by
  unfold Machine.editBody
  exact .editAny

theorem Keeps.edmkBody {w} : Keeps Cpu.Canon (edmkBody w) := by
  unfold Machine.edmkBody
  exact .editAny

theorem Keeps.ledgerAccess {total k la len second} : Keeps Cpu.Canon (ledgerAccess total k la len second) := by
  unfold Machine.ledgerAccess
  refine .bind .getPsw fun _ => ?_
  extract_lets _ jp1
  have hjp1 : ∀ y0, Keeps Cpu.Canon (jp1 y0) := fun _ => .checkAccess
  refine .bind .translateAccess fun _ => ?_
  extract_lets jp2
  have hjp2 : ∀ y0, Keeps Cpu.Canon (jp2 y0) := fun _ => .getBind fun _ _ => .ite (.bind .raise fun _ => hjp1 ()) (hjp1 ())
  exact .ite (.bind .raise fun _ => hjp2 ()) (hjp2 ())

theorem Keeps.ledgerPieces {ks total ps} : Keeps Cpu.Canon (ledgerPieces ks total ps) := by
  unfold Machine.ledgerPieces
  exact .checkPiecesBy (fun _ _ _ _ => .ledgerAccess)

theorem Keeps.formBalance {sp n} : Keeps Cpu.Canon (formBalance sp n) := by
  unfold Machine.formBalance
  exact .bind .formPlace fun _ => .bind .ledgerPieces fun _ => .bind .surcharge fun _ => .pure

theorem Keeps.needOpnd {x0} : Keeps Cpu.Canon (needOpnd x0) := by
  unfold Machine.needOpnd
  split
  · exact .awaitNeeded
  · exact .pure
  · exact .pure
  · exact .pure
  · exact .pure

theorem Keeps.checkRingBy {read : M Ring} {r} (h : Keeps Cpu.Canon read) : Keeps Cpu.Canon (checkRingBy read r) := by
  unfold Machine.checkRingBy
  refine .bind ?_ fun _ => ?_
  · refine .keptRead ?_
    refine .bind h fun _ => ?_
    refine .getBind fun _ _ => ?_
    extract_lets _ jp1 jp2 jp3
    have hjp1 : ∀ y0, Keeps Cpu.Canon (jp1 y0) := fun _ => .pure
    have hjp2 : ∀ y0, Keeps Cpu.Canon (jp2 y0) := fun _ => .ite (.bind .raise fun _ => hjp1 ()) (hjp1 ())
    have hjp3 : ∀ y0, Keeps Cpu.Canon (jp3 y0) := fun _ => .ite (.bind .raise fun _ => hjp2 ()) (hjp2 ())
    exact .bind (.modS (fun _ h1 => h1.markRange)) fun _ => .ite (.bind .raise fun _ => hjp3 ()) (hjp3 ())
  · exact .pure

theorem Keeps.ringRead {r} : Keeps Cpu.Canon (ringRead r) := by
  unfold Machine.ringRead
  exact .getBind fun _ _ => .bind .noteAccess fun _ => .bind .noteAccess fun _ => .pure

theorem Keeps.ringNow {inSet r} : Keeps Cpu.Canon (ringNow inSet r) := by
  unfold Machine.ringNow
  refine .getBind fun _ _ => ?_
  extract_lets _ _ jp1
  have hjp1 : ∀ y0, Keeps Cpu.Canon (jp1 y0) := fun _ => .ringRead
  exact .ite (.bind .awaitLines fun _ => hjp1 ()) (hjp1 ())

theorem Keeps.checkRing {inSet r} : Keeps Cpu.Canon (checkRing inSet r) := by
  unfold Machine.checkRing
  exact .checkRingBy .ringNow

theorem Keeps.limitPieces {x base} : Keeps Cpu.Canon (limitPieces x base) := by
  unfold Machine.limitPieces
  exact .ite .pure (.bind .raiseIf fun _ => .ledgerPieces)

theorem Keeps.reserve {units} : Keeps Cpu.Canon (reserve units) := by
  unfold Machine.reserve
  refine .getBind fun _ h1 => ?_
  split
  · exact .modify fun _ h2 => h2
  · exact .pure
  · exact .pure
  · exact .pure
  · split
    · rename_i e1
      have h3 := State.Canon.fst_of e1 h1.takeUnits
      exact .set h3
    · rename_i e2
      have h4 := State.Canon.fst_of e2 h1.takeUnits
      exact .bind (.set h4) fun _ => .throw

theorem Keeps.formPost {w} : Keeps Cpu.Canon (formPost w) := by
  unfold Machine.formPost
  exact .bind .formBalance fun _ => .bind .formBalance fun _ => .bind .formOpnd fun _ => .bind .drainOwn fun _ => .bind .needOpnd
      fun _ => .bind .readOpnd fun _ => .bind .raiseIf fun _ => .bind .raiseIf fun _ => .bind .checkRing
          fun _ => .bind .limitPieces fun _ => .bind .raiseIf fun _ => .bind .takeLeave fun _ => .bind .reserve
              fun _ => .bind .readPieces fun _ => .bind .readPieces fun _ => .bind .readPieces fun _ => .bind .raiseIf fun _ => .pure

theorem Keeps.giveLeaveBack : Keeps Cpu.Canon giveLeaveBack := by
  unfold Machine.giveLeaveBack
  refine .getBind fun _ _ => ?_
  split
  · exact .bind (.modS (fun _ h1 => h1.returnLeave)) fun _ => .modB
  · exact .pure

theorem Keeps.releaseLines : Keeps Cpu.Canon releaseLines := by
  unfold Machine.releaseLines
  exact .getBind fun _ _ => .ite (.modS (fun _ h1 => h1.release)) .pure

theorem Keeps.postEnds {cc} : Keeps Cpu.Canon (postEnds cc) := by
  unfold Machine.postEnds
  exact .bind .giveLeaveBack fun _ => .bind .releaseLines fun _ => .setCc

theorem Keeps.claimUnits {units} : Keeps Cpu.Canon (claimUnits units) := by
  unfold Machine.claimUnits
  refine .getBind fun _ _ => ?_
  split
  · exact .modify fun _ h1 => h1
  · exact .pure
  · exact .pure
  · exact .pure
  · exact .ite .throw (.modS (fun _ h2 => h2.setResv))

theorem Keeps.claimRing {r} : Keeps Cpu.Canon (claimRing r) := by
  unfold Machine.claimRing
  exact .getBind fun _ _ => .bind .claimUnits fun _ => .ringNow

theorem Keeps.awaitSm3 : Keeps Cpu.Canon awaitSm3 := by
  unfold Machine.awaitSm3
  exact .getBind fun _ _ => .ite .throw .pure

theorem State.Canon.appendFor {ctx stove r body} (h : s.Canon) : (s.appendFor ctx stove r body).Canon := by
  unfold State.appendFor
  exact State.Canon.appendBy (fun _ h1 _ _ => h1.markRange.hobWrite) h

theorem Keeps.appendRecord {r body} : Keeps Cpu.Canon (appendRecord r body) := by
  unfold Machine.appendRecord
  refine .bind .awaitSm3 fun _ => ?_
  refine .getBind fun _ h1 => ?_
  extract_lets
  exact .set h1.appendFor

theorem State.Canon.drainFree {ctx} (h : s.Canon) : (s.drainFree ctx).Canon := by
  unfold State.drainFree
  exact h.drainThese

theorem Keeps.commitPost {f e m n1 n2} : Keeps Cpu.Canon (PostForm.commit f e m n1 n2) := by
  unfold Machine.PostForm.commit
  refine .getBind fun _ _ => ?_
  refine .bind .appendRecord fun _ => ?_
  refine .bind .writePieces fun _ => ?_
  refine .bind .writePieces fun _ => ?_
  extract_lets jp1
  have hjp1 : ∀ y0, Keeps Cpu.Canon (jp1 y0) := fun _ => .modS (fun _ h1 => h1.drainFree)
  split
  · exact .bind .writePieces fun _ => hjp1 ()
  · exact hjp1 ()
  · exact hjp1 ()
  · exact hjp1 ()
  · exact hjp1 ()

theorem Keeps.postBody {m w} : Keeps Cpu.Canon (postBody m w) := by
  unfold Machine.postBody
  refine .bind .checkShape fun _ => ?_
  refine .bind .formPost fun _ => ?_
  extract_lets _ _ jp1
  have hjp1 : ∀ y0, Keeps Cpu.Canon (jp1 y0) := fun _ => .pure
  exact .ite (.bind .postEnds fun _ => hjp1 ()) (.bind .claimRing fun _ => .ite (.bind .postEnds
      fun _ => hjp1 ()) (.bind .commitPost fun _ => .bind .releaseLines fun _ => .bind .setCc fun _ => hjp1 ()))

theorem Keeps.ringOperand {sp} : Keeps Cpu.Canon (ringOperand sp) := by
  unfold Machine.ringOperand
  exact .bind .formOpnd fun _ => .readVal

theorem Keeps.ringNumber {r} : Keeps Cpu.Canon (ringNumber r) := by
  unfold Machine.ringNumber
  exact .raiseIf

theorem Keeps.jappBody {w} : Keeps Cpu.Canon (jappBody w) := by
  unfold Machine.jappBody
  extract_lets _ jp1
  have hjp1 : ∀ y0, Keeps Cpu.Canon (jp1 y0) := fun _ => .pure
  exact .bind .checkShape fun _ => .bind .formOpnd fun _ => .bind .ringOperand fun _ => .bind .formOpnd fun _ => .bind .ringNumber
      fun _ => .bind .drainOwn fun _ => .bind .checkRing fun _ => .bind .readOpnd fun _ => .bind .claimRing
          fun _ => .ite (.bind .releaseLines fun _ => .bind .setCc fun _ => hjp1 ()) (.getBind fun _ _ => .bind .appendRecord
              fun _ => .bind .writeVal fun _ => .bind .releaseLines fun _ => .bind .setCc fun _ => hjp1 ())

theorem Keeps.durwBody {w} : Keeps Cpu.Canon (durwBody w) := by
  unfold Machine.durwBody
  refine .bind .checkShape fun _ => ?_
  refine .bind .formOpnd fun _ => ?_
  refine .bind .readVal fun _ => ?_
  refine .bind .ringOperand fun _ => ?_
  refine .bind .ringNumber fun _ => ?_
  refine .bind .checkRing fun _ => ?_
  refine .bind .ringNow fun _ => ?_
  extract_lets jp1
  have hjp1 : ∀ y0, Keeps Cpu.Canon (jp1 y0) := fun _ => .pure
  exact .ite (.bind .setCc fun _ => hjp1 ()) (.ite (.bind .setCc fun _ => hjp1 ()) (.ite (.bind .setCc
      fun _ => hjp1 ()) (.bind .throw fun _ => hjp1 ())))

theorem Keeps.formFp {w} : Keeps Cpu.Canon (formFp w) := by
  unfold Machine.formFp
  exact .bind .formOpnd fun _ => .bind .formOpnd fun _ => .bind .readVal fun _ => .bind .readVal fun _ => .pure

theorem Keeps.brm : Keeps Cpu.Canon brm := by
  unfold Machine.brm
  exact .bind .getPsw fun _ => .pure

theorem Keeps.raiseFp {fl} : Keeps Cpu.Canon (raiseFp fl) := by
  unfold Machine.raiseFp
  exact .bind .getPsw fun _ => .bind .raiseLate fun _ => .bind .raiseLate fun _ => .raiseLate

theorem Keeps.stickFp {fl} : Keeps Cpu.Canon (stickFp fl) := by
  unfold Machine.stickFp
  exact .modPsw

theorem Keeps.deliverFp {o n r} : Keeps Cpu.Canon (deliverFp o n r) := by
  unfold Machine.deliverFp
  exact .bind .raiseFp fun _ => .bind .stickFp fun _ => .writeVal

theorem Keeps.faddBody {m w} : Keeps Cpu.Canon (faddBody m w) := by
  unfold Machine.faddBody
  exact .bind .checkShape fun _ => .bind .formFp fun _ => .bind .brm fun _ => .bind .deliverFp fun _ => .pure

theorem Keeps.fsubBody {m w} : Keeps Cpu.Canon (fsubBody m w) := by
  unfold Machine.fsubBody
  exact .bind .checkShape fun _ => .bind .formFp fun _ => .bind .brm fun _ => .bind .deliverFp fun _ => .pure

theorem Keeps.fmulBody {m w} : Keeps Cpu.Canon (fmulBody m w) := by
  unfold Machine.fmulBody
  exact .bind .checkShape fun _ => .bind .formFp fun _ => .bind .brm fun _ => .bind .deliverFp fun _ => .pure

theorem Keeps.fmaBody {m w} : Keeps Cpu.Canon (fmaBody m w) := by
  unfold Machine.fmaBody
  exact .bind .checkShape fun _ => .bind .formOpnd fun _ => .bind .formOpnd fun _ => .bind .formOpnd fun _ => .bind .readVal
      fun _ => .bind .readVal fun _ => .bind .readVal fun _ => .bind .brm fun _ => .bind .deliverFp fun _ => .pure

theorem Keeps.fdivBody {m w} : Keeps Cpu.Canon (fdivBody m w) := by
  unfold Machine.fdivBody
  exact .bind .checkShape fun _ => .bind .formFp fun _ => .bind .takeLeave fun _ => .bind .brm fun _ => .bind .deliverFp fun _ => .pure

theorem Keeps.fsqrtBody {w} : Keeps Cpu.Canon (fsqrtBody w) := by
  unfold Machine.fsqrtBody
  exact .bind .checkShape fun _ => .bind .formOpnd fun _ => .bind .formOpnd fun _ => .bind .readVal fun _ => .bind .takeLeave
      fun _ => .bind .brm fun _ => .bind .deliverFp fun _ => .pure

theorem Keeps.fcmpBody {m w} : Keeps Cpu.Canon (fcmpBody m w) := by
  unfold Machine.fcmpBody
  exact .bind .checkShape fun _ => .bind .formOpnd fun _ => .bind .formOpnd fun _ => .bind .readVal fun _ => .bind .readVal
      fun _ => .bind .raiseFp fun _ => .bind .stickFp fun _ => .bind .setCc fun _ => .pure

theorem Keeps.fcvtBody {m w} : Keeps Cpu.Canon (fcvtBody m w) := by
  unfold Machine.fcvtBody
  refine .bind .checkShape fun _ => ?_
  extract_lets _ _ _ jp1
  have hjp1 : ∀ y0, Keeps Cpu.Canon (jp1 y0) := fun _ => .pure
  exact .bind .formOpnd fun _ => .bind .formOpnd fun _ => .bind .readVal fun _ => .bind .brm fun _ => .ite (.bind .deliverFp
      fun _ => hjp1 ()) (.ite (.bind .deliverFp fun _ => hjp1 ()) (.bind .deliverFp fun _ => hjp1 ()))

theorem Keeps.dotUnit {m f rm n k a b acc fl} : Keeps Cpu.Canon (dotUnit m f rm n k a b acc fl) := by
  induction k generalizing a b acc fl with
  | zero => exact .pure
  | succ k ih =>
    unfold Machine.dotUnit
    refine .bind .checkPieces fun _ => .bind .awaitLines fun _ => .bind .readPieces fun _ =>
      .bind .checkPieces fun _ => .bind .awaitLines fun _ => .bind .readPieces fun _ => ?_
    extract_lets
    split
    exact .bind .raiseFp fun _ => ih

theorem Keeps.dotCommit {w k len a b v fl} : Keeps Cpu.Canon (dotCommit w k len a b v fl) := by
  unfold Machine.dotCommit
  exact .bind .stickFp fun _ => .bind .modB fun _ => .bind .writeG fun _ => .bind .writeG fun _ => .bind .writeG
      fun _ => .ite .setNext .clearIp

theorem Keeps.dotBody {m w} : Keeps Cpu.Canon (dotBody m w) := by
  unfold Machine.dotBody
  extract_lets
  refine .bind .checkShape fun _ => ?_
  refine .bind .readG fun _ => ?_
  refine .bind .readG fun _ => ?_
  refine .bind .readG fun _ => ?_
  extract_lets _ _ jp1
  have hjp1 : ∀ y0, Keeps Cpu.Canon (jp1 y0) := fun _ => .bind .getB fun _ => .bind .brm fun _ => .bind .dotUnit
      fun _ => .bind .dotCommit fun _ => .pure
  exact .ite (.bind .clearIp fun _ => .pure) (.bind .getB fun _ => .ite (.bind .takeLeave fun _ => hjp1 ()) (hjp1 ()))

theorem Keeps.frameOp {α : Type} {m : FM α} (h : Keeps State.Canon m) : Keeps Cpu.Canon (frameOp m : M α) := by
  intro c h1
  unfold Machine.frameOp
  split
  · rename_i e1
    have h2 := Keeps.ok (P := State.Canon) e1 h h1
    exact h2
  · rename_i e2
    have h3 := Keeps.error (P := State.Canon) e2 h h1
    exact h3

theorem Keeps.frReach {k a n} : Keeps Cpu.Canon (frReach k a n) := by
  unfold Machine.frReach
  exact .bind .getB fun _ => .bind (.keptReach (.frameOp .frameAddr)) fun _ => .pure

theorem Keeps.frCheck {a n} : Keeps Cpu.Canon (frCheck a n) := by
  unfold Machine.frCheck
  exact .bind .frReach fun _ => .awaitLines

theorem Keeps.commitBank : Keeps Cpu.Canon commitBank := by
  unfold Machine.commitBank
  exact .modify fun _ h1 => h1

theorem Keeps.chargePart {n} : Keeps Cpu.Canon (chargePart n) := by
  unfold Machine.chargePart
  exact .bind .modB fun _ => .commitBank

theorem Keeps.frSt {a bs} : Keeps Cpu.Canon (frSt a bs) := by
  unfold Machine.frSt
  exact .bind .frReach fun _ => .writePieces

theorem Keeps.saveGroups {limit l g x} : Keeps Cpu.Canon (saveGroups limit l g x) := by
  induction l generalizing g x with
  | nil => exact .pure
  | cons k t ih =>
    unfold Machine.saveGroups
    refine .ite .pure ?_
    extract_lets
    refine .bind .getB fun _ => ?_
    extract_lets
    refine .bind (.caught (.bind .frCheck fun _ => .frCheck)) fun y => ?_
    cases y with
    | error e => exact .bind .getB fun _ => .ite (.bind .getB fun _ => .bind .chargePart fun _ => .raise) .raise
    | ok => exact .bind .frSt fun _ => .bind .frSt fun _ => .bind .modB fun _ => .bind .commitBank fun _ => ih

theorem Keeps.ownBlock : Keeps Cpu.Canon ownBlock := by
  unfold Machine.ownBlock
  exact .getBind fun _ _ => .pure

theorem Keeps.frLdBytes {a n} : Keeps Cpu.Canon (frLdBytes a n) := by
  unfold Machine.frLdBytes
  exact .bind .frReach fun _ => .bind .awaitNeeded fun _ => .readPieces

theorem Keeps.frLd {a n} : Keeps Cpu.Canon (frLd a n) := by
  unfold Machine.frLd
  exact .bind .frLdBytes fun _ => .pure

theorem Keeps.saveFinish {g x} : Keeps Cpu.Canon (saveFinish g x) := by
  unfold Machine.saveFinish
  refine .bind .ownBlock fun _ => ?_
  extract_lets
  refine .bind (.caught (.bind .frLd fun _ => .bind .frCheck fun _ => .bind .frCheck fun _ => .bind .frCheck fun _ => .pure)) fun _ => ?_
  split
  · exact .bind .getB fun _ => .bind .chargePart fun _ => .raise
  · exact .bind .getB fun _ => .bind .frSt fun _ => .bind .frSt fun _ => .bind .frSt fun _ => .bind .modB fun _ => .modPsw

theorem Keeps.awaitSlots {f groups} : Keeps Cpu.Canon (awaitSlots f groups) := by
  unfold Machine.awaitSlots
  exact .bind .frReach fun _ => .awaitLines

theorem Keeps.framePhys : Keeps Cpu.Canon framePhys := by
  unfold Machine.framePhys
  exact .bind .scratchCt fun _ => .pure

theorem Keeps.raiseFrame {α : Type} {code f} : Keeps Cpu.Canon (raiseFrame code f : M α) := by
  unfold Machine.raiseFrame
  exact .bind .framePhys fun _ => .raise

theorem Keeps.saveContinue {l} : Keeps Cpu.Canon (saveContinue l) := by
  unfold Machine.saveContinue
  extract_lets _ jp1
  have hjp1 : ∀ y0, Keeps Cpu.Canon (jp1 y0) := fun _ => .bind .frLd fun _ => .bind .frCheck fun _ => .bind .awaitSlots fun _ => .pure
  exact .bind .frLd fun _ => .ite (.bind .raiseFrame fun _ => hjp1 ()) (hjp1 ())

theorem Keeps.saveStart {w} : Keeps Cpu.Canon (saveStart w) := by
  unfold Machine.saveStart
  refine .bind .getB fun _ => ?_
  refine .bind .ownBlock fun _ => ?_
  extract_lets
  refine .ite ?_ ?_
  · exact .pure
  · refine .bind .frLd fun _ => ?_
    extract_lets jp1 jp2
    have hjp1 : ∀ y0, Keeps Cpu.Canon (jp1 y0) := by
      intro _
      unfold jp1
      refine .bind .frLd fun _ => ?_
      refine .bind .frLd fun _ => ?_
      refine .bind .frCheck fun _ => ?_
      refine .bind .frCheck fun _ => ?_
      refine .bind .frCheck fun _ => ?_
      refine .bind .awaitSlots fun _ => ?_
      extract_lets
      exact .getBind fun _ _ => .bind .frSt fun _ => .bind .frSt fun _ => .bind .frSt fun _ => .bind .modB
          fun _ => .bind .commitBank fun _ => .pure
    have hjp2 : ∀ y0, Keeps Cpu.Canon (jp2 y0) := fun _ => .ite (.bind .raiseFrame fun _ => hjp1 ()) (hjp1 ())
    exact .ite (.bind .raiseFrame fun _ => hjp2 ()) (hjp2 ())

theorem Keeps.savehUpTo {limit w} : Keeps Cpu.Canon (savehUpTo limit w) := by
  unfold Machine.savehUpTo
  refine .bind .checkShape fun _ => ?_
  refine .bind .getB fun _ => ?_
  extract_lets jp1
  have hjp1 : ∀ y0, Keeps Cpu.Canon (jp1 y0) := by
    intro _
    unfold jp1
    split
    · exact .bind .setCc fun _ => .pure
    · extract_lets
      refine .bind .saveGroups fun _ => ?_
      split
      · extract_lets jp2
        have hjp2 : ∀ y0, Keeps Cpu.Canon (jp2 y0) := fun _ => .bind .getB fun _ => .pure
        exact .ite (.bind .setNext fun _ => hjp2 ()) (.bind .saveFinish fun _ => hjp2 ())
  split
  · exact .bind .saveContinue fun _ => .bind .pure fun _ => hjp1 _
  · exact .bind .saveStart fun _ => hjp1 _

theorem Keeps.savehBody {w} : Keeps Cpu.Canon (savehBody w) := by
  unfold Machine.savehBody
  exact .savehUpTo

theorem Keeps.restoreGroups {limit f bs l g done} : Keeps Cpu.Canon (restoreGroups limit f bs l g done) := by
  induction l generalizing g done with
  | nil => exact .pure
  | cons k t ih =>
    unfold Machine.restoreGroups
    refine .ite .pure (.bind (.caught .frCheck) fun y => ?_)
    cases y with
    | error e => exact .ite (.bind .getB fun _ => .bind .chargePart fun _ => .raise) .raise
    | ok => exact .bind .modB fun _ => .bind .modPsw fun _ => .bind .frSt fun _ => .bind .commitBank fun _ => ih

theorem Keeps.restoreFree {cb f} : Keeps Cpu.Canon (restoreFree cb f) := by
  unfold Machine.restoreFree
  exact .bind .frLd fun _ => .bind .frCheck fun _ => .bind .frCheck fun _ => .bind .frCheck fun _ => .bind .frCheck fun _ => .pure

theorem Keeps.restoreFinish {cb f free bs} : Keeps Cpu.Canon (restoreFinish cb f free bs) := by
  unfold Machine.restoreFinish
  exact .bind .frSt fun _ => .bind .frSt fun _ => .bind .frSt fun _ => .bind .frSt fun _ => .modPsw

theorem Keeps.resthUpTo {limit w} : Keeps Cpu.Canon (resthUpTo limit w) := by
  unfold Machine.resthUpTo
  refine .bind .checkShape fun _ => ?_
  refine .bind .getB fun _ => ?_
  extract_lets
  refine .bind .ownBlock fun _ => ?_
  refine .bind .frLd fun _ => ?_
  refine .ite ?_ ?_
  · exact .bind .setCc fun _ => .pure
  · refine .bind .frLdBytes fun _ => ?_
    refine .getBind fun _ _ => ?_
    extract_lets _ _ _ jp1 jp2 jp3
    have hjp1 : ∀ y0, Keeps Cpu.Canon (jp1 y0) := by
      intro _
      unfold jp1
      refine .bind .restoreGroups fun _ => ?_
      refine .ite ?_ ?_
      · exact .bind .setNext fun _ => .bind .getB fun _ => .pure
      · refine .bind (.caught .restoreFree) fun _ => ?_
        split
        · extract_lets jp4
          have hjp4 : ∀ y0, Keeps Cpu.Canon (jp4 y0) := fun _ => .raise
          exact .ite (.bind .getB fun _ => .bind .chargePart fun _ => hjp4 ()) (hjp4 ())
        · exact .bind .restoreFinish fun _ => .bind .getB fun _ => .pure
    have hjp2 : ∀ y0, Keeps Cpu.Canon (jp2 y0) := fun _ => .ite (.bind .raiseFrame fun _ => hjp1 ()) (hjp1 ())
    have hjp3 : ∀ y0, Keeps Cpu.Canon (jp3 y0) := fun _ => .ite (.bind .raiseFrame fun _ => hjp2 ()) (hjp2 ())
    exact .ite (.bind .raiseFrame fun _ => hjp3 ()) (hjp3 ())

theorem Keeps.resthBody {w} : Keeps Cpu.Canon (resthBody w) := by
  unfold Machine.resthBody
  exact .resthUpTo

theorem Keeps.readFrame {via a n} : Keeps Cpu.Canon (readFrame via a n) := by
  unfold Machine.readFrame
  exact .bind .checkPieces fun _ => .bind .awaitNeeded fun _ => .readPieces

theorem Keeps.sealfBody {w} : Keeps Cpu.Canon (sealfBody w) := by
  unfold Machine.sealfBody
  exact .bind .checkShape fun _ => .bind .formAddress fun _ => .bind .ownBlock fun _ => .bind .readFrame fun _ => .bind .raiseIf
      fun _ => .bind .raiseIf fun _ => .bind .raiseIf fun _ => .bind .readFrame fun _ => .bind .raiseIf fun _ => .getBind
          fun _ _ => .bind .checkPieces fun _ => .bind .awaitLines fun _ => .bind .writePieces fun _ => .pure

theorem Keeps.retxBody {w} : Keeps Cpu.Canon (retxBody w) := by
  unfold Machine.retxBody
  refine .bind .checkShape fun _ => ?_
  refine .bind .formAddress fun _ => ?_
  extract_lets
  refine .bind .raiseIf fun _ => ?_
  refine .bind .readFrame fun _ => ?_
  refine .bind .framePhys fun _ => ?_
  extract_lets
  refine .bind .getB fun _ => ?_
  refine .getBind fun _ _ => ?_
  extract_lets _ jp1 _ jp2 jp3
  have hjp1 : ∀ y0, Keeps Cpu.Canon (jp1 y0) := by
    intro _
    unfold jp1
    refine .getBind fun _ _ => ?_
    extract_lets _ jp4
    have hjp4 : ∀ y0, Keeps Cpu.Canon (jp4 y0) := fun _ => .bind .setNext fun _ => .pure
    exact .ite (.bind .addEffect fun _ => hjp4 ()) (hjp4 ())
  have hjp2 : ∀ y0, Keeps Cpu.Canon (jp2 y0) := by
    intro _
    unfold jp2
    refine .bind .raiseIf fun _ => ?_
    refine .bind .ownBlock fun _ => ?_
    refine .ite ?_ ?_
    · refine .bind .frLdBytes fun _ => ?_
      extract_lets _ _ _ jp5
      have hjp5 : ∀ y0, Keeps Cpu.Canon (jp5 y0) := fun _ => .ite (.bind (.modS (fun _ h1 => h1.dropEmber)) fun _ => .bind .modB
          fun _ => hjp1 ()) (.bind (.modS (fun _ h2 => .ite h2.upd h2.dropEmber)) fun _ => .bind .modB fun _ => hjp1 ())
      exact .ite (.bind .raise fun _ => hjp5 ()) (hjp5 ())
    · exact .bind (.modS (fun _ h3 => h3.dropEmber)) fun _ => .bind .modB fun _ => hjp1 ()
  have hjp3 : ∀ y0, Keeps Cpu.Canon (jp3 y0) := fun _ => .ite (.bind .raise fun _ => hjp2 ()) (hjp2 ())
  exact .bind .raiseIf fun _ => .ite (.bind .raise fun _ => hjp3 ()) (hjp3 ())

theorem Keeps.svcBody {w} : Keeps Cpu.Canon (svcBody w) := by
  unfold Machine.svcBody
  exact .bind .checkShape fun _ => .bind .setNext fun _ => .pure

theorem Keeps.takeEvents {m l r} : Keeps Cpu.Canon (takeEvents m l r) := by
  induction l generalizing r with
  | nil => exact .pure
  | cons x t ih =>
    unfold Machine.takeEvents
    exact .getBind fun _ _ => .ite (.bind .modB fun _ => ih) (.ite (.bind (.modS fun _ h1 => h1.devWriteN) fun _ => ih) ih)

theorem Keeps.waitBody {w} : Keeps Cpu.Canon (waitBody w) := by
  unfold Machine.waitBody
  refine .bind .checkShape fun _ => ?_
  refine .bind .readG fun _ => ?_
  extract_lets _ jp1
  have hjp1 : ∀ y0, Keeps Cpu.Canon (jp1 y0) := fun _ => .pure
  exact .bind .raiseIf fun _ => .bind .takeEvents fun _ => .bind .readG fun _ => .getBind fun _ _ => .ite (.bind .throw
      fun _ => hjp1 ()) (.bind .writeG fun _ => .bind .setCc fun _ => hjp1 ())

theorem Keeps.signalBody {w} : Keeps Cpu.Canon (signalBody w) := by
  unfold Machine.signalBody
  refine .bind .checkShape fun _ => ?_
  refine .bind .drainOwn fun _ => ?_
  refine .bind .formOpnd fun _ => ?_
  refine .bind .readVal fun _ => ?_
  refine .getBind fun _ _ => ?_
  extract_lets _ jp1
  have hjp1 : ∀ y0, Keeps Cpu.Canon (jp1 y0) := fun _ => .pure
  exact .ite (.bind .raiseIf fun _ => .ite (.bind .setCc fun _ => hjp1 ()) (.bind .addEffect fun _ => .bind .setCc
      fun _ => hjp1 ())) (.bind .raiseIf fun _ => .ite (.bind .setCc fun _ => hjp1 ()) (.bind .addEffect fun _ => .bind .setCc
          fun _ => hjp1 ()))

theorem Keeps.sendPiece {via total second la len} : Keeps Cpu.Canon (sendPiece via total second la len) := by
  unfold Machine.sendPiece
  refine .bind ?_ fun _ => ?_
  · refine .keptReach ?_
    refine .bind .scratchCt fun _ => ?_
    refine .bind .getPsw fun _ => ?_
    extract_lets
    refine .bind .translateAccess fun _ => ?_
    refine .getBind fun _ _ => ?_
    refine .ite ?_ ?_
    · extract_lets jp1 jp2
      have hjp1 : ∀ y0, Keeps Cpu.Canon (jp1 y0) := fun _ => .pure
      have hjp2 : ∀ y0, Keeps Cpu.Canon (jp2 y0) := fun _ => .getBind fun _ _ => .ite (.bind .raise fun _ => hjp1 ()) (hjp1 ())
      exact .ite (.bind .raise fun _ => hjp2 ()) (hjp2 ())
    · exact .checkAccess
  · exact .getBind fun _ _ => .pure

theorem Keeps.sendPieces {via total first next ok l} : Keeps Cpu.Canon (sendPieces via total first next ok l) := by
  induction l generalizing first next ok with
  | nil => exact .pure
  | cons x t ih =>
    unfold Machine.sendPieces
    exact .bind .sendPiece fun _ => ih

theorem Keeps.claimQueue {q} : Keeps Cpu.Canon (claimQueue q) := by
  unfold Machine.claimQueue
  exact .getBind fun _ _ => .ite .throw .claimUnits

theorem Keeps.readQueue {q} : Keeps Cpu.Canon (readQueue q) := by
  unfold Machine.readQueue
  exact .getBind fun _ h1 => .bind (.set h1.useQueue) fun _ => .pure

theorem Keeps.checkQueueKey {q v} : Keeps Cpu.Canon (checkQueueKey q v) := by
  unfold Machine.checkQueueKey
  exact .bind .getPsw fun _ => .ite (.getBind fun _ _ => .raise) .pure

theorem Keeps.sendBody {w} : Keeps Cpu.Canon (sendBody w) := by
  unfold Machine.sendBody
  refine .bind .checkShape fun _ => ?_
  refine .bind .formOpnd fun _ => ?_
  refine .bind .readVal fun _ => ?_
  refine .bind .formOpnd fun _ => ?_
  refine .bind .readVal fun _ => ?_
  refine .bind .raiseIf fun _ => ?_
  refine .bind .formAddress fun _ => ?_
  refine .bind .sendPieces fun _ => ?_
  split
  · exact .raiseCode
  · refine .bind .claimQueue fun _ => ?_
    refine .bind .readQueue fun _ => ?_
    refine .bind .checkQueueKey fun _ => ?_
    refine .bind .getB fun _ => ?_
    refine .getBind fun _ _ => ?_
    extract_lets jp1 _ jp2
    have hjp1 : ∀ y0, Keeps Cpu.Canon (jp1 y0) := fun _ => .bind .releaseLines fun _ => .pure
    have hjp2 : ∀ y0, Keeps Cpu.Canon (jp2 y0) := fun _ => .getBind fun _ _ => .bind .drainOwn
        fun _ => .bind (.modS (fun _ h1 => h1.devWrite)) fun _ => .bind .readQueue fun _ => .bind (.modS (fun _ h2 => h2.setQueue))
            fun _ => .bind .modB fun _ => .bind .setCc fun _ => hjp1 ()
    exact .ite (.bind .setCc fun _ => hjp1 ()) (.ite (.bind .setCc fun _ => hjp1 ()) (.ite (.bind .readQueue
        fun _ => hjp2 _) (.bind .pure fun _ => hjp2 _)))

theorem State.Canon.releaseMsg {ctx m} (h : s.Canon) : (s.releaseMsg ctx m).Canon := by
  unfold State.releaseMsg
  split
  · rename_i e1
    have h1 := State.Canon.fst_of e1 h.useQueue
    exact .ite h1.devRead.freeMessage h1.devRead.countStale

theorem Keeps.recvBody {w} : Keeps Cpu.Canon (recvBody w) := by
  unfold Machine.recvBody
  refine .bind .checkShape fun _ => ?_
  refine .bind .formOpnd fun _ => ?_
  refine .bind .readVal fun _ => ?_
  refine .bind .raiseIf fun _ => ?_
  refine .bind .claimQueue fun _ => ?_
  refine .bind .readQueue fun _ => ?_
  refine .bind .checkQueueKey fun _ => ?_
  refine .bind .getB fun _ => ?_
  extract_lets _ _ jp1 jp2
  have hjp1 : ∀ y0, Keeps Cpu.Canon (jp1 y0) := fun _ => .bind .releaseLines fun _ => .pure
  have hjp2 : ∀ y0, Keeps Cpu.Canon (jp2 y0) := by
    intro _
    unfold jp2
    refine .bind .readQueue fun _ => ?_
    refine .getBind fun _ _ => ?_
    refine .ite ?_ ?_
    · exact .bind .modB fun _ => .bind .setCc fun _ => hjp1 ()
    · refine .getBind fun _ _ => ?_
      extract_lets
      exact .ite (.bind (.modS (fun _ h1 => h1.setQueue)) fun _ => .bind .modB fun _ => .bind .setCc
          fun _ => hjp1 ()) (.bind (.modS (fun _ h2 => h2.devWrite.devWrite)) fun _ => .bind (.modS (fun _ h3 => h3.setQueue))
              fun _ => .bind .modB fun _ => .bind .setCc fun _ => hjp1 ())
  exact .ite (.bind (.modS (fun _ h4 => h4.releaseMsg)) fun _ => hjp2 ()) (hjp2 ())

theorem Keeps.pinLine {a} : Keeps Cpu.Canon (pinLine a) := by
  unfold Machine.pinLine
  exact .keptReach (.bind .getPsw fun _ => .bind .translateAccess fun _ => .bind .raiseWhen fun _ => .getBind
      fun _ _ => .bind .raiseWhen fun _ => .checkAccess)

theorem Keeps.pinLines {a n} : Keeps Cpu.Canon (pinLines a n) := by
  induction n generalizing a with
  | zero => exact .pure
  | succ n ih =>
    unfold Machine.pinLines
    exact .bind .raiseIf fun _ => .bind .pinLine fun _ => .bind ih fun _ => .pure

theorem Keeps.pinBody {w} : Keeps Cpu.Canon (pinBody w) := by
  unfold Machine.pinBody
  refine .bind .checkShape fun _ => ?_
  extract_lets _ jp1
  have hjp1 : ∀ y0, Keeps Cpu.Canon (jp1 y0) := fun _ => .pure
  exact .bind .formAddress fun _ => .bind .pinLines fun _ => .getBind fun _ _ => .ite (.bind .modB fun _ => .bind .setCc
      fun _ => hjp1 ()) (.ite (.bind .setCc fun _ => hjp1 ()) (.bind .modB fun _ => .bind .setCc fun _ => hjp1 ()))

theorem Keeps.sampleQueue {src q} : Keeps Cpu.Canon (sampleQueue src q) := by
  unfold Machine.sampleQueue
  exact .bind .raiseIf fun _ => .bind .readQueue fun _ => .bind .checkQueueKey fun _ => .ite .pure (.ite .pure .pure)

theorem Keeps.sampleBody {w} : Keeps Cpu.Canon (sampleBody w) := by
  unfold Machine.sampleBody
  extract_lets src plain jp1 jp2
  have hjp1 : ∀ a, Keeps Cpu.Canon (jp1 a) := fun _ => .bind (.modify fun _ h1 => h1) fun _ => .bind .writeG fun _ =>
    .bind .setCc fun _ => .pure
  have hjp2 : ∀ a, Keeps Cpu.Canon (jp2 a) := by
    intro arg
    unfold jp2
    generalize src = n
    split
    · exact .getBind fun _ _ => .bind .pure fun _ => hjp1 _
    · exact .bind (.bind .getB fun _ => .pure) fun _ => hjp1 _
    · exact .bind .sampleQueue fun _ => hjp1 _
    · exact .bind .sampleQueue fun _ => hjp1 _
    · exact .bind .ringNumber fun _ => .bind (.checkRingBy .ringRead) fun _ => .bind .ringRead fun _ => .bind .pure fun _ => hjp1 _
  exact .bind .checkShape fun _ => .ite (.bind .pure fun _ => hjp2 _) (.bind (.bind .formOpnd fun _ => .readVal) fun _ => hjp2 _)

theorem Keeps.fenceBody {w} : Keeps Cpu.Canon (fenceBody w) := by
  unfold Machine.fenceBody
  exact .bind .checkShape fun _ => .bind .drainOwn fun _ => .pure

theorem Keeps.setkeyBody {w} : Keeps Cpu.Canon (setkeyBody w) := by
  unfold Machine.setkeyBody
  refine .bind .checkShape fun _ => ?_
  refine .bind .drainOwn fun _ => ?_
  refine .bind .readG fun _ => ?_
  extract_lets
  refine .getBind fun _ _ => ?_
  extract_lets _ jp1
  have hjp1 : ∀ y0, Keeps Cpu.Canon (jp1 y0) := by
    intro _
    unfold jp1
    refine .bind .formOpnd fun _ => ?_
    refine .bind .readVal fun _ => ?_
    extract_lets _ jp2
    have hjp2 : ∀ y0, Keeps Cpu.Canon (jp2 y0) := fun _ => .bind .takeLeave fun _ => .bind .reserve fun _ => .getBind
        fun _ _ => .bind (.modS (fun _ h1 => h1.setKey)) fun _ => .bind .setCc fun _ => .bind .releaseLines fun _ => .pure
    exact .bind .raiseIf fun _ => .ite (.bind .raise fun _ => hjp2 ()) (hjp2 ())
  exact .ite (.bind .raise fun _ => hjp1 ()) (hjp1 ())

theorem Keeps.peek {α : Type} {m : M α} (_ : Keeps Cpu.Canon m) : Keeps Cpu.Canon (peek m : M (Option α)) := by
  intro c h1
  unfold Machine.peek
  split
  · exact h1
  · exact h1

theorem Keeps.testReach {k la} : Keeps Cpu.Canon (testReach k la) := by
  unfold Machine.testReach
  refine .bind .getPsw fun _ => ?_
  refine .bind (.peek .translateAccess) fun _ => ?_
  split
  · exact .pure
  · refine .getBind fun _ _ => ?_
    extract_lets
    exact .pure

theorem Keeps.testkeyBody {w} : Keeps Cpu.Canon (testkeyBody w) := by
  unfold Machine.testkeyBody
  refine .bind .checkShape fun _ => ?_
  refine .bind .formAddress fun _ => ?_
  extract_lets _ jp1
  have hjp1 : ∀ y0, Keeps Cpu.Canon (jp1 y0) := fun _ => .pure
  refine .bind .getPsw fun _ => ?_
  extract_lets
  refine .bind .testReach fun _ => ?_
  split
  · exact .bind .writeG fun _ => .bind .setCc fun _ => hjp1 ()
  · refine .bind .testReach fun _ => ?_
    refine .getBind fun _ _ => ?_
    extract_lets
    exact .bind .getPsw fun _ => .bind .writeG fun _ => .bind .setCc fun _ => hjp1 ()

theorem State.Canon.leaveGranted {x1} (h : s.Canon) : (s.leaveGranted x1).Canon := by
  unfold State.leaveGranted
  split
  · split
    · exact h.wakeBank
    · exact h
  · exact h.upd
  · exact h.upd
  · exact h.upd
  · exact h.handshakeGranted

theorem State.Canon.damperGrant {i} (h : s.Canon) : (s.damperGrant i).Canon := by
  unfold State.damperGrant
  split
  · exact h
  · split
    · exact h
    · exact .ite h.upd.leaveGranted h

theorem State.Canon.grantLine {ctx} (h : s.Canon) : (s.grantLine ctx).Canon := by
  unfold State.grantLine
  split
  · exact h
  · split
    · exact h
    · refine .ite ?_ ?_
      · exact h
      · extract_lets s1
        have hs1 : s1.Canon := h.upd
        split
        · exact .ite hs1.wakeBank hs1
        · exact hs1

theorem State.Canon.drainOldest {ctx} (h : s.Canon) : (s.drainOldest ctx).Canon := by
  unfold State.drainOldest
  split
  · exact h
  · exact .ite h h.upd.drainOne

end Sys2Proof.Machine
end

section
/-!
SUPPORT. The canonical form through the events of the devices and of the machine, and the management requests.
-/

namespace Sys2Proof.Machine

variable {s t : State}

theorem State.Canon.writeBackLine {line found} (h : s.Canon) : (s.writeBackLine line found).Canon := by
  unfold State.writeBackLine
  split
  · exact h
  · exact .ite h h.writeBack

theorem State.Canon.timerAlarm {ctx} (h : s.Canon) : (s.timerAlarm ctx).Canon := by
  unfold State.timerAlarm
  exact .ite h h.devWriteN.queueAlarm

theorem State.Canon.waitDeadline {ctx} (h : s.Canon) : (s.waitDeadline ctx).Canon := by
  unfold State.waitDeadline
  split
  · exact h
  · split
    · exact .ite h.wakeBank h
    · exact h
    · exact h
    · exact h
    · exact h
    · exact h

theorem State.Canon.takeRecord {b r} (h : s.Canon) : (s.takeRecord b r).1.Canon := by
  unfold State.takeRecord
  split
  · rename_i e1
    have h1 := Keeps.ok (P := State.Canon) e1 .fSt h
    exact h1
  · rename_i e2
    have h2 := Keeps.error (P := State.Canon) e2 .fSt h
    exact .fst h2.lockup

theorem State.Canon.readyUnlessBound {ctx} (h : s.Canon) : (s.readyUnlessBound ctx).Canon := by
  unfold State.readyUnlessBound
  split
  · exact .ite h.toReady h
  · exact h

theorem State.Canon.boundaryAlarm {b r} (h : s.Canon) : (s.boundaryAlarm b r).Canon := by
  unfold State.boundaryAlarm
  split
  · exact h
  · split
    · rename_i e1
      have h1 := State.Canon.fst_of e1 h.takeRecord
      exact h1
    · rename_i e2
      have h2 := State.Canon.fst_of e2 h.takeRecord
      extract_lets s1 s2
      have hs1 : s1.Canon := h2.abandon
      have hs2 : s2.Canon := by
        unfold s2
        split
        · exact hs1.returnLeave
        · exact hs1
      exact hs2.enter.readyUnlessBound

theorem State.Canon.trapStart {b p env} (h : s.Canon) : (Cpu.trapStart s b p env).s.Canon := h

theorem Keeps.dotReads {j w} : Keeps Cpu.Canon (dotReads j w) := by
  unfold Machine.dotReads
  refine .bind .checkShape fun _ => ?_
  extract_lets
  refine .bind .readG fun _ => ?_
  extract_lets
  refine .bind .readG fun _ => ?_
  refine .bind .readG fun _ => ?_
  refine .bind .getB fun _ => ?_
  extract_lets jp1
  have hjp1 : ∀ y0, Keeps Cpu.Canon (jp1 y0) := fun _ => .bind .getB fun _ => .bind .brm fun _ => .bind .dotUnit fun _ => .pure
  exact .ite (.bind .takeLeave fun _ => hjp1 ()) (hjp1 ())

theorem State.Canon.bindFlue {stove flue} (h : s.Canon) : (s.bindFlue stove flue).Canon := by
  unfold State.bindFlue
  refine .ite ?_ ?_
  · exact h
  · split
    · exact h
    · exact h.putBank.toBound

theorem State.Canon.sliceDue {stove flue} (h : s.Canon) : (s.sliceDue stove flue).Canon := by
  unfold State.sliceDue
  split
  · exact h
  · exact .ite h.putBank h

theorem State.Canon.preempt {ctx} (h : s.Canon) : (s.preempt ctx).Canon := by
  unfold State.preempt
  split
  · exact h
  · exact .ite h (.ite h.unbind h)

theorem State.Canon.spillOne {ctx} (h : s.Canon) : (s.spillOne ctx).Canon := by
  unfold State.spillOne
  split
  · exact h
  · exact .ite h.spillOut h

theorem Keeps.refillFrames {ctx stove slot evpend} : Keeps State.Canon (refillFrames ctx stove slot evpend) := by
  unfold Machine.refillFrames
  refine .getBind fun _ _ => ?_
  extract_lets
  refine .bind .fLd fun _ => ?_
  refine .bind .fLd fun _ => ?_
  extract_lets
  refine .bind .fLdBytes fun _ => ?_
  refine .getBind fun _ _ => ?_
  extract_lets _ _ _ _ _ _ jp1
  have hjp1 : ∀ y0, Keeps State.Canon (jp1 y0) := fun _ => .pure
  exact .ite .pure (.ite .pure (.ite .pure (.ite (.bind .fSt fun _ => hjp1 ()) (hjp1 ()))))

theorem State.Canon.refillAt {ctx stove slot} (h : s.Canon) : (s.refillAt ctx stove slot).Canon := by
  unfold State.refillAt
  extract_lets _ jp1
  have hjp1 : ∀ s, s.Canon → ∀ y2 y3, (jp1 s y2 y3).Canon := fun _ h1 _ _ => h1.hold.ashLog.attention
  split
  · rename_i e1
    have h2 := Keeps.error (P := State.Canon) e1 .refillFrames h
    exact hjp1 _ h2 _ _
  · rename_i e2
    have h3 := Keeps.ok (P := State.Canon) e2 .refillFrames h
    exact hjp1 _ h3 _ _
  · rename_i e3
    have h4 := Keeps.ok (P := State.Canon) e3 .refillFrames h
    extract_lets s1 s2 s3 s4
    have hs1 : s1.Canon := h4.setCtxState
    have hs2 : s2.Canon := hs1.upd
    have hs3 : s3.Canon := hs2.incSat
    have hs4 : s4.Canon := hs3.breakLoaded.haltBreak
    exact .ite hs4.enter hs4

theorem State.Canon.refill {ctx} (h : s.Canon) : (s.refill ctx).Canon := by
  unfold State.refill
  refine .ite ?_ ?_
  · exact h
  · split
    · exact h
    · split
      · exact h.refillAt
      · split
        · exact h
        · split
          · rename_i e1
            have h1 := State.Canon.fst_of e1 h.spillOut
            exact h1.refillAt
          · rename_i e2
            have h2 := State.Canon.fst_of e2 h.spillOut
            exact h2

theorem State.Canon.quiesceAck {slot} (h : s.Canon) : (s.quiesceAck slot).Canon := by
  unfold State.quiesceAck
  exact .ite h.setFlag h

theorem State.Canon.quiesceTimeout {slot} (h : s.Canon) : (s.quiesceTimeout slot).Canon := by
  unfold State.quiesceTimeout
  exact .ite h.ashLog h

theorem State.Canon.contextLoad {addr} (h : s.Canon) : (s.contextLoad addr).Canon := by
  unfold State.contextLoad
  exact h.clearRc.upd

theorem State.Canon.unlessHeld {t : State} (h : s.Canon) (ht : t.Canon) : (s.unlessHeld t).Canon := by
  unfold State.unlessHeld
  exact .ite h ht

theorem State.Canon.setPause {port prio quanta} (h : s.Canon) : (s.setPause port prio quanta).Canon := by
  unfold State.setPause
  exact h.upd

theorem State.Canon.pauseFrame {p f} (h : s.Canon) (e : s.pauseFrame p f = some t) : t.Canon := by
  unfold State.pauseFrame at e
  extract_lets at e
  split at e
  · cases e
  · split at e
    · obtain rfl := Option.some.inj e
      exact (State.Canon.foldl (fun _ h1 _ => .ite h1.setPause h1) h).flushTx
    · split at e
      · obtain rfl := Option.some.inj e
        exact h.setPause.flushTx
      · cases e

theorem State.Canon.holdFrame {f} (h : s.Canon) : (s.holdFrame f).Canon := by
  unfold State.holdFrame
  exact .ite h.upd h.overflow

theorem State.Canon.receiveFrame {port fcsOk bytes} (h : s.Canon) : (s.receiveFrame port fcsOk bytes).Canon := by
  unfold State.receiveFrame
  extract_lets _ _ s1
  have hs1 : s1.Canon := h.countPort.countPort
  refine .ite ?_ ?_
  · exact h
  · refine .ite ?_ ?_
    · exact h.countPort
    · refine .ite ?_ ?_
      · exact h.countPort
      · refine .ite ?_ ?_
        · exact h.countPort
        · split
          · rename_i e1
            have h1 := hs1.pauseFrame e1
            exact h1.countPort
          · exact .ite hs1.countPort (.ite hs1.steer hs1.holdFrame)

theorem State.Canon.roceArrive {p} (h : s.Canon) : (s.roceArrive p).Canon := by
  unfold State.roceArrive
  exact .ite h.countPort h.rocePacket

theorem State.Canon.rcTimeout {qp} (h : s.Canon) : (s.rcTimeout qp).Canon := by
  unfold State.rcTimeout
  exact .ite h (.ite h.rcFail h.putRc.rcResend)

theorem State.Canon.mirrorArrive {x1 m} (h : s.Canon) : (s.mirrorArrive x1 m).Canon := by
  unfold State.mirrorArrive
  exact .ite h.countPort (.ite h.holdWork h.mirrorIn)

theorem State.Canon.recordsSend {i peer ring} (h : s.Canon) : (s.recordsSend i peer ring).Canon := by
  unfold State.recordsSend
  extract_lets _ s1
  have hs1 : s1.Canon := h.devRead
  split
  · exact h
  · split
    · exact h
    · exact .ite h (.ite (State.Canon.foldl (fun _ h1 _ => h1.countLost) hs1).upd.ashLog.refaultRing (State.Canon.foldl
          (fun _ h2 _ => h2.devRead) hs1).mirrorSend)

theorem State.Canon.mirrorTimeout {i peer} (h : s.Canon) : (s.mirrorTimeout i peer).Canon := by
  unfold State.mirrorTimeout
  split
  · exact h
  · exact .ite h.peerLost h

theorem State.Canon.ppsIn (h : s.Canon) : (s.ppsIn).Canon := by
  unfold State.ppsIn
  exact .ite h.setReg h

theorem State.Canon.ppsOut (h : s.Canon) : (s.ppsOut).Canon := by
  unfold State.ppsOut
  exact h.upd

theorem State.Canon.belLists {w} (h : s.Canon) : (s.belLists w).Canon := by
  unfold State.belLists
  split
  · exact h.devRead
  · exact h

theorem State.Canon.belStart {c} (h : s.Canon) : (s.belStart c).1.Canon := by
  unfold State.belStart
  split
  · exact h
  · split
    · exact h
    · split
      · exact h
      · split
        · exact h
        · split
          · exact .fst h.countKeyLost.ringErr
          · exact .fst h.devRead.belLists

theorem State.Canon.belTaken {segs off r} (h : s.Canon) : (s.belTaken segs off r).Canon := by
  unfold State.belTaken
  exact .ite (State.Canon.foldl (fun _ h1 _ => h1.devRead) h).countKeyLost (.foldl (fun _ h2 _ => h2.devRead) h)

theorem State.Canon.belCompare {key w} (h : s.Canon) : (s.belCompare key w).1.Canon := by
  unfold State.belCompare
  split
  · extract_lets _ _ _ s1
    have hs1 : s1.Canon := h.belTaken.belTaken
    split
    · exact hs1
    · exact hs1

theorem State.Canon.belCount {n} (h : s.Canon) : (s.belCount n).Canon := by
  unfold State.belCount
  exact h.incWrap

theorem State.Canon.belCheck {key w} (h : s.Canon) : (s.belCheck key w).1.Canon := by
  unfold State.belCheck
  split
  · exact .ite h.belTaken.belCount h.belTaken

theorem State.Canon.belModified {a n was old} (h : s.Canon) : (s.belModified a n was old).Canon := by
  unfold State.belModified
  exact .ite h.upd h

theorem State.Canon.belWrite {key w a bs st} (h : s.Canon) : (s.belWrite key w a bs st).1.Canon := by
  unfold State.belWrite
  split
  · exact h
  · extract_lets
    split
    · exact .fst h.countKeyLost
    · exact .fst h.devWrite.belModified.belCount

theorem State.Canon.belMove {key w} (h : s.Canon) : (s.belMove key w).1.Canon := by
  unfold State.belMove
  split
  · extract_lets _ _ _ _ _ s1
    have hs1 : s1.Canon := h.belTaken
    split
    · exact h
    · split
      · exact h
      · split
        · split
          · rename_i e1
            have h1 := State.Canon.fst_of e1 h.belWrite
            exact h1
        · split
          · rename_i e2
            have h2 := State.Canon.fst_of e2 hs1.belWrite
            exact h2

theorem State.Canon.belRun {key w fuel} (h : s.Canon) : (s.belRun key w fuel).1.Canon := by
  induction fuel generalizing s w with
  | zero => exact h
  | succ fuel ih =>
    unfold State.belRun
    split
    · exact h
    · split
      rename_i e1
      have h1 : _ := State.Canon.fst_of e1 (by
        split
        · exact h.belCompare
        · split
          · exact h.belCheck
          · exact h.belMove)
      extract_lets
      split
      · exact h1
      · exact ih h1

theorem State.Canon.belOperate {op c limit} (h : s.Canon) : (s.belOperate op c limit).Canon := by
  unfold State.belOperate
  split
  · rename_i e1
    have h1 := State.Canon.fst_of e1 h.belStart
    exact h1
  · rename_i e2
    have h2 := State.Canon.fst_of e2 h.belStart
    refine .ite ?_ ?_
    · exact h
    · refine .ite ?_ ?_
      · exact h2.putChan.askLeave
      · split
        · rename_i e3
          have h3 := State.Canon.fst_of e3 h2.belRun
          exact h3.putChan

theorem State.Canon.belComplete {c} (h : s.Canon) : (s.belComplete c).Canon := by
  unfold State.belComplete
  split
  · rename_i e1
    have h1 := State.Canon.fst_of e1 h.belStart
    exact h1
  · rename_i e2
    have h2 := State.Canon.fst_of e2 h.belStart
    split
    · exact h2.belFinish
    · exact h

theorem State.Canon.secLost {blk} (h : s.Canon) : (s.secLost blk).Canon := by
  unfold State.secLost
  refine .ite ?_ ?_
  · exact h.countLost
  · split
    · split
      · exact h.countLost
      · exact h
    · exact h

theorem State.Canon.quote {nonce} (h : s.Canon) : (s.quote nonce).1.Canon := by
  unfold State.quote
  extract_lets
  split
  · rename_i e1
    have h1 := State.Canon.fst_of e1 h.sign
    exact h1

theorem State.Canon.secPerform {blk} (h : s.Canon) : (s.secPerform blk).1.Canon := by
  unfold State.secPerform
  extract_lets s1 _ _ _ _ _ _ s2
  have hs1 : s1.Canon := h.devRead
  have hs2 : s2.Canon := hs1.devRead.devRead
  split
  · split
    · rename_i e1
      have h1 := State.Canon.fst_of e1 hs1.randomBytes
      exact .fst h1.devWrite
  · exact .fst hs1.devRead.devRead
  · split
    · rename_i e2
      have h2 := State.Canon.fst_of e2 hs1.devRead.quote
      exact .fst h2.devWrite
  · split
    · exact .fst hs1.devRead.devRead.devWrite
  · split
    · exact .fst hs2.devWrite
    · exact hs2
  · exact .fst hs1.devWrite
  · exact hs1

theorem State.Canon.secStep {op} (h : s.Canon) : (s.secStep op).Canon := by
  unfold State.secStep
  split
  · exact h
  · extract_lets _ _ s1
    have hs1 : s1.Canon := .ite h.secLost h
    refine .ite ?_ ?_
    · exact h
    · refine .ite ?_ ?_
      · exact hs1.upd
      · refine .ite ?_ ?_
        · exact h.askLeave
        · split
          · rename_i e1
            have h1 := State.Canon.fst_of e1 h.secPerform
            exact h.unlessHeld h1.upd

theorem State.Canon.secComplete (h : s.Canon) : (s.secComplete).Canon := by
  unfold State.secComplete
  split
  · exact h
  · extract_lets _ _ st
    generalize st = status
    split
    · exact h
    · extract_lets s1 s2
      have hs1 : s1.Canon := .ite h.devWrite h
      have hs2 : s2.Canon := hs1.upd.setFlag
      exact .ite h (.ite hs2 hs2.setErr)

theorem State.Canon.tpcExpire (h : s.Canon) : (s.tpcExpire).Canon := by
  unfold State.tpcExpire
  exact .ite h h.tpcDiscard.setErr

theorem State.Canon.debugOpen (h : s.Canon) : (s.debugOpen).Canon := by
  unfold State.debugOpen
  exact h.setFlag.setFlag.ashLog

theorem State.Canon.debugMemory {x} (h : s.Canon) : (s.debugMemory x).Canon := by
  unfold State.debugMemory
  exact .ite h.park h.debugNow

theorem OkCanon.debugRead {a n} (h : s.Canon) : OkCanon (s.debugRead a n) := by
  unfold State.debugRead
  extract_lets
  refine .ite ?_ ?_
  · exact .ok h.debugAnswer
  · refine .ite ?_ ?_
    · exact .ok h.debugAnswer
    · refine .ite ?_ ?_
      · exact .ok h.debugMemory
      · split
        · exact .ok h.debugAnswer
        · exact .ite (.ok h.debugAnswer) .error
        · exact .ok h.debugAnswer
        · exact .ok h.debugAnswer
        · exact .ok h.upd.debugAnswer
        · exact .ok h.debugAnswer
        · exact .ok h.debugAnswer

theorem OkCanon.debugWrite {a bs} (h : s.Canon) : OkCanon (s.debugWrite a bs) := by
  unfold State.debugWrite
  extract_lets
  refine .ite ?_ ?_
  · exact .ok h.debugAnswer
  · refine .ite ?_ ?_
    · exact .ok h.debugAnswer
    · refine .ite ?_ ?_
      · exact .ok h.debugMemory
      · refine .ite ?_ ?_
        · exact .ok h.debugAnswer
        · split
          · rename_i s1 e1
            have h1 : s1.Canon := (OkCanon.deviceStore h).get e1
            exact .ok h1.debugAnswer
          · exact .error

theorem OkCanon.debugAccess {x} (h : s.Canon) : OkCanon (s.debugAccess x) := by
  unfold State.debugAccess
  refine .ite ?_ ?_
  · exact .ok h.debugAnswer
  · split
    · exact .ite (.ok h.debugAnswer) .error
    · refine .ite ?_ ?_
      · split
        · rename_i s1 e1
          have h1 : s1.Canon := (OkCanon.regWrite h).get e1
          exact .ok h1.debugAnswer
        · exact .error
      · exact .error
    · exact .ite (.debugRead h) (.ok h.debugAnswer)
    · exact .ite (.debugWrite h) (.ok h.debugAnswer)

theorem State.Canon.scrubOn {pair} (h : s.Canon) : (s.scrubOn pair).Canon := by
  unfold State.scrubOn
  exact .ite h.upd.incWrap.setFld h.upd.setFld

theorem State.Canon.scrubOne {line m} (h : s.Canon) : (s.scrubOne line m).Canon := by
  unfold State.scrubOne
  exact .ite h.controllerRead.setEpoch h.controllerRead

theorem State.Canon.scrub {pair lo hi} (h : s.Canon) : (s.scrub pair lo hi).Canon := by
  unfold State.scrub
  exact .ite h (.ite h.scrubOne.scrubOne.scrubOn h.scrubOn)

theorem State.Canon.farContents {p k} (h : s.Canon) : (s.farContents p k).Canon := by
  unfold State.farContents
  split
  · exact h
  · exact .foldl (fun _ h1 _ => h1.poke) ⟨memWf_filter h, h.regs⟩

theorem State.Canon.linkComesUp {p k} (h : s.Canon) : (s.linkComesUp p k).Canon := by
  unfold State.linkComesUp
  exact .ite h (.ite h (.ite (State.Canon.ite h.upd h).setReg (.ite (State.Canon.ite h.upd h).setReg.setErr
      (State.Canon.ite h.upd h).setReg.setReg.farContents)))

theorem State.Canon.cxlEvent {p} (h : s.Canon) : (s.cxlEvent p).Canon := by
  unfold State.cxlEvent
  exact .ite h.ashLog h

theorem State.Canon.serveHeld {p fuel} (h : s.Canon) : (s.serveHeld p fuel).Canon := by
  induction fuel generalizing s with
  | zero => exact h
  | succ fuel ih =>
    unfold State.serveHeld
    split
    · exact h
    · exact .ite h (ih h.upd.serveInbound)

theorem State.Canon.inbound {p r} (h : s.Canon) : (s.inbound p r).Canon := by
  unfold State.inbound
  exact .ite h h.upd.serveHeld

theorem State.Canon.configRequest {reg value} (h : s.Canon) : (s.configRequest reg value).Canon := by
  unfold State.configRequest
  exact .ite h.upd.serveHeld h.inboundConfig

theorem State.Canon.agePauses {ps} (h : s.Canon) : (s.agePauses ps).Canon := by
  unfold State.agePauses
  exact h.upd

theorem State.Canon.leaveReset {slot} (h : s.Canon) : (s.leaveReset slot).Canon := by
  unfold State.leaveReset
  exact h.setReg.setReg.upd

theorem State.Canon.ageResets (h : s.Canon) : (s.ageResets).Canon := by
  unfold State.ageResets
  extract_lets _ _ s1
  have hs1 : s1.Canon := .foldl (fun _ h1 _ => h1.leaveReset) h.upd
  exact .ite hs1.setFlag hs1

theorem State.Canon.damperRefill (h : s.Canon) : (s.damperRefill).Canon := by
  unfold State.damperRefill
  exact h.upd

theorem State.Canon.microsecond (h : s.Canon) : (s.microsecond).Canon := by
  unfold State.microsecond
  exact h.damperRefill.ageResets.agePauses.flushTx

theorem State.Canon.showReadings {r} (h : s.Canon) : (s.showReadings r).Canon := by
  unfold State.showReadings
  exact h.setReg.setReg.setReg.setReg

theorem State.Canon.thermal {r} (h : s.Canon) : (s.thermal r).Canon := by
  unfold State.thermal
  refine .ite ?_ ?_
  · exact h
  · extract_lets s1 _ _ _ _ _ s2 s3 _ _ s4 s5
    have hs1 : s1.Canon := h.showReadings
    have hs2 : s2.Canon := hs1.setReg
    have hs3 : s3.Canon := .ite hs2.setErr hs2
    have hs4 : s4.Canon := hs3.upd
    have hs5 : s5.Canon := hs4.setErr
    exact .ite (.ite hs5 hs5.ashLog) hs4

theorem State.Canon.overtemp (h : s.Canon) : (s.overtemp).Canon := by
  unfold State.overtemp
  exact .ite h.forceDown h

theorem State.Canon.thermalTrip (h : s.Canon) : (s.thermalTrip).Canon := by
  unfold State.thermalTrip
  exact .ite h.corelose.upd h

theorem State.Canon.brownout {mv} (h : s.Canon) : (s.brownout mv).Canon := by
  unfold State.brownout
  exact .ite h.upd.setErr.ashLog h

theorem State.Canon.brownRecovery {mv} (h : s.Canon) : (s.brownRecovery mv).Canon := by
  unfold State.brownRecovery
  exact .ite h.upd h

theorem State.Canon.railFail {mv} (h : s.Canon) : (s.railFail mv).Canon := by
  unfold State.railFail
  exact .ite h.setErr.forceDown h

theorem State.Canon.refLoss {unlock} (h : s.Canon) : (s.refLoss unlock).Canon := by
  unfold State.refLoss
  exact .ite h (State.Canon.ite h h.setFlag).setFlag.setFlag.setErr.ashLog

theorem State.Canon.relock (h : s.Canon) : (s.relock).Canon := by
  unfold State.relock
  exact .ite h.setFld h

theorem State.Canon.holdoverExpiry (h : s.Canon) : (s.holdoverExpiry).Canon := by
  unfold State.holdoverExpiry
  exact .ite h.ashLog.forceDown h

theorem State.Canon.vsbRise (h : s.Canon) : (s.vsbRise).Canon := by
  unfold State.vsbRise
  exact .ite h h.upd

theorem State.Canon.vsbFall (h : s.Canon) : (s.vsbFall).Canon := by
  unfold State.vsbFall
  have h1 := h.corelose
  refine .mk h1.mem ?_
  dsimp only
  exact regsWf_keepRegs h1

theorem State.Canon.powerUp {env flash} (h : s.Canon) : (s.powerUp env flash).Canon := by
  unfold State.powerUp
  exact .ite h (.ite h.upd.bootStep.setErr.bootHalt (.ite h.upd.bootStep.setErr.bootHalt h.upd.bootStep.upd.setReg.boot3))

theorem State.Canon.answer {i tag status bytes} (h : s.Canon) : (s.answer i tag status bytes).Canon := by
  unfold State.answer
  exact .ite h.upd h

theorem State.Canon.answerReq {r status bytes} (h : s.Canon) : (s.answerReq r status bytes).Canon := by
  unfold State.answerReq
  exact h.answer

theorem State.Canon.answerRead {r len bytes} (h : s.Canon) : (s.answerRead r len bytes).Canon := by
  unfold State.answerRead
  exact .ite h.answerReq h.answerReq

theorem State.Canon.mgmtIdent {r} (h : s.Canon) : (s.mgmtIdent r).Canon := by
  unfold State.mgmtIdent
  exact h.answerRead

theorem State.Canon.mgmtAshread {r} (h : s.Canon) : (s.mgmtAshread r).Canon := by
  unfold State.mgmtAshread
  exact .ite h.answerReq h.answerRead

theorem State.Canon.mgmtLockread {r} (h : s.Canon) : (s.mgmtLockread r).Canon := by
  unfold State.mgmtLockread
  exact h.answerRead

theorem State.Canon.mgmtThermread {r} (h : s.Canon) : (s.mgmtThermread r).Canon := by
  unfold State.mgmtThermread
  exact h.answerRead

theorem State.Canon.mgmtMasterread {r} (h : s.Canon) : (s.mgmtMasterread r).Canon := by
  unfold State.mgmtMasterread
  exact h.answerRead

theorem State.Canon.mgmtReset {r} (h : s.Canon) : (s.mgmtReset r).Canon := by
  unfold State.mgmtReset
  exact .ite h.answerReq (.ite h.answerReq (.ite h.answerReq.requestReset h.answerReq.requestReset))

theorem State.Canon.mgmtPowerdown {r} (h : s.Canon) : (s.mgmtPowerdown r).Canon := by
  unfold State.mgmtPowerdown
  exact .ite h.answerReq (.ite h.answerReq h.answerReq.forceDown)

theorem State.Canon.served {r form allowed} {f : State → State} (h : s.Canon) (hf : ∀ s, s.Canon → (f s).Canon) :
    (s.served r form allowed f).Canon := by
  unfold State.served
  exact .ite h.answerReq (.ite h.answerReq (.ite h.answerReq (hf _ h)))

theorem State.Canon.mgmtQuote {r} (h : s.Canon) : (s.mgmtQuote r).Canon := by
  unfold State.mgmtQuote
  refine .served h ?_
  intro _ h1
  split
  · rename_i e1
    have h2 := State.Canon.fst_of e1 h1.quote
    exact h2.answerReq

theorem State.Canon.acceptRecord {x1} (h : s.Canon) : (s.acceptRecord x1).1.Canon := by
  unfold State.acceptRecord
  extract_lets
  split
  · split
    · rename_i e1
      have h1 := State.Canon.fst_of e1 h.sign
      exact h1.upd.writeCopy.writeCopy.bootSealed
  · exact h

theorem State.Canon.mgmtCfgrecord {r} (h : s.Canon) : (s.mgmtCfgrecord r).Canon := by
  unfold State.mgmtCfgrecord
  refine .served h ?_
  intro _ h1
  split
  · rename_i e1
    have h2 := State.Canon.fst_of e1 h1.acceptRecord
    exact h2.answerReq
  · rename_i e2
    have h3 := State.Canon.fst_of e2 h1.acceptRecord
    exact h3.answerReq

theorem State.Canon.recoveryChunk {off last data} (h : s.Canon) : (s.recoveryChunk off last data).1.Canon := by
  unfold State.recoveryChunk
  extract_lets _ _ _ s1
  have hs1 : s1.Canon := h.upd
  split
  · exact hs1
  · split
    · exact .fst hs1.setFlag.bootAccept
    · exact .fst hs1.upd

theorem State.Canon.mgmtRecovery {r} (h : s.Canon) : (s.mgmtRecovery r).Canon := by
  unfold State.mgmtRecovery
  extract_lets
  refine .served h ?_
  intro _ h1
  split
  · rename_i e1
    have h2 := State.Canon.fst_of e1 h1.recoveryChunk
    exact h2.answerReq
  · rename_i e2
    have h3 := State.Canon.fst_of e2 h1.recoveryChunk
    exact h3.answerReq

theorem State.Canon.mgmtDump {r} (h : s.Canon) : (s.mgmtDump r).Canon := by
  unfold State.mgmtDump
  extract_lets
  refine .served h ?_
  intro _ h1
  split
  · rename_i e1
    have h2 := State.Canon.fst_of e1 h1.dumpCommand
    exact h2.answerReq
  · rename_i e2
    have h3 := State.Canon.fst_of e2 h1.dumpCommand
    exact h3.answerReq

theorem State.Canon.portUpEvent {p} (h : s.Canon) : (s.portUpEvent p).Canon := by
  unfold State.portUpEvent
  exact .ite h h.setFlag.mirrorStarts

theorem State.Canon.portDownEvent {p} (h : s.Canon) : (s.portDownEvent p).Canon := by
  unfold State.portDownEvent
  exact .ite h (.foldl (fun _ h1 _ => .foldl (fun _ h2 _ => .ite h2.dropSession.setLive h2) h1) h.setFlag.setErr.upd)

theorem State.Canon.debugClose (h : s.Canon) : (s.debugClose).Canon := by
  unfold State.debugClose
  exact h.setFlag

theorem State.Canon.haltCore {south} (h : s.Canon) : (s.haltCore south).Canon := by
  unfold State.haltCore
  exact .ite h.setFlag.setFlag h

theorem State.Canon.perstAssert (h : s.Canon) : (s.perstAssert).Canon := by
  unfold State.perstAssert
  exact .ite h.upd.linkGoesDown h

theorem State.Canon.aerError {p corr} (h : s.Canon) : (s.aerError p corr).Canon := by
  unfold State.aerError
  exact .ite h (.ite h.incSat.upd (.ite h.incSat h.incSat.ashLog))

theorem State.Canon.mgmtBad {i} (h : s.Canon) : (s.mgmtBad i).Canon := by
  unfold State.mgmtBad
  exact h.answer

theorem State.Canon.mgmtUnknown {r} (h : s.Canon) : (s.mgmtUnknown r).Canon := by
  unfold State.mgmtUnknown
  exact h.answerReq

end Sys2Proof.Machine
end

section
/-!
SUPPORT. The canonical form through one issue of an instruction, plain or refired, whatever its opcode.
-/

namespace Sys2Proof.Machine

variable {s t : State}

theorem resultCpu_eq (r : EStateM.Result Stop Cpu Nat) : resultCpu r = finalOf r := by
  cases r with
  | ok n c => rfl
  | error x c => rfl

theorem resultCpu_canon {r : EStateM.Result Stop Cpu Nat} (h : (finalOf r).s.Canon) : (resultCpu r).s.Canon := by
  rw [resultCpu_eq]
  exact h

theorem Keeps.onSaved {x op w} {m : M Nat} (h : Keeps Cpu.Canon m) : Keeps Cpu.Canon (onSaved x op w m) := by
  intro c h1
  unfold Machine.onSaved
  split
  · rename_i c2 e1
    have h2 : c2.s.Canon := Keeps.ok (P := Cpu.Canon) e1 h h1
    exact h2
  · rename_i c2 e1
    have h2 : c2.s.Canon := Keeps.error (P := Cpu.Canon) e1 h h1
    exact h2

theorem Keeps.unlessBlocked {entry} {m : M Nat} (h : Keeps Cpu.Canon m) : Keeps Cpu.Canon (unlessBlocked entry m) := by
  intro c h1
  unfold Machine.unlessBlocked
  extract_lets
  split
  · exact Keeps.run h h1
  · split
    · rename_i e1
      split
      · exact Keeps.ok (P := Cpu.Canon) e1 h h1
      · exact h1
    · exact h1
    · rename_i e1
      split
      · exact Keeps.error (P := Cpu.Canon) e1 h h1
      · exact h1

theorem OkCanon.runPlain {b body w} {c : Cpu} (hb : body.Canon) (h : c.s.Canon) : OkCanon (State.runPlain b body w c) := by
  unfold State.runPlain
  extract_lets m
  have hm : Keeps Cpu.Canon m := by
    unfold m
    split
    · exact .ite (.fetched hb) (.onSaved (.fetched hb))
    · exact .fetched hb
  split
  · rename_i e1
    exact .ok (Cpu.Canon.withdraws (Keeps.error (P := Cpu.Canon) e1 (.unlessBlocked hm) h))
  · exact .error
  · rename_i e1
    exact .ok (Cpu.Canon.places (Keeps.error (P := Cpu.Canon) e1 (.unlessBlocked hm) h)).takeException
  · rename_i e1
    have h1 := Keeps.ok (P := Cpu.Canon) e1 (.unlessBlocked hm) h
    exact .complete (Cpu.Canon.settle h1) (Cpu.Canon.settle h1)

/-- What the try of a refire pair leaves is in canonical form. -/
def PairEnd.Canon : PairEnd → Prop
  | .wait _ c _ | .exc _ c | .done _ c _ | .differ _ c => c.s.Canon
  | .fault _ => True

theorem Cpu.Canon.noteTransientIf {p : Prop} {i : Decidable p} {c : Cpu} {b} (h : c.s.Canon) :
    (if p then c else { c with s := c.s.noteTransient b }).s.Canon := by
  split
  · exact h
  · exact State.Canon.noteTransient h

theorem PairEnd.Canon.pairTry {body w env u again} {c0 prev : Cpu} (hb : body.Canon) (h : c0.s.Canon) (hprev : prev.s.Canon) :
    (pairTry body w env u c0 prev again).Canon := by
  unfold Machine.pairTry
  extract_lets ra ca shelf cb0 onShelf rb cb _ c
  have hra : (finalOf ra).s.Canon := Keeps.fetched hb _ (Cpu.Canon.passFrom h hprev)
  have hca : ca.s.Canon := resultCpu_canon hra
  have hcb0 : cb0.s.Canon := Cpu.Canon.passFrom h hca
  have hrb : (finalOf rb).s.Canon := Keeps.repeated hb _ hcb0
  have hcb : cb.s.Canon := resultCpu_canon hrb
  have hshelf : ∀ c : Cpu, c.s.Canon → (onShelf c).s.Canon := fun _ h1 => State.Canon.shelve h1
  have hc : c.s.Canon := Cpu.Canon.commitShelf hcb
  clear_value c cb rb onShelf cb0 shelf ca ra
  rcases ra with _ | ⟨_ | x | f, c1⟩
  case error.wait => exact hra
  case error.fault => trivial
  all_goals
    dsimp only
    split
    · exact hshelf _ hcb0
    · rcases rb with _ | ⟨_ | x | f, c2⟩
      case error.wait => exact hshelf _ hrb
      case error.fault => trivial
      all_goals
        dsimp only
        split
        · exact State.Canon.mk h.mem hcb.regs
        · split
          · exact hcb
          · exact hc

theorem PairEnd.Canon.pairTries {body w env us limit n} {c0 prev : Cpu} (hb : body.Canon) (h : c0.s.Canon) (hprev : prev.s.Canon) :
    (pairTries body w env us c0 limit n prev).Canon := by
  induction n generalizing prev with
  | zero => exact .pairTry hb h hprev
  | succ left ih =>
    unfold Machine.pairTries
    extract_lets tries
    have htry : (Machine.pairTry body w env (us.getD tries {}) c0 prev (tries != 0)).Canon := .pairTry hb h hprev
    generalize Machine.pairTry body w env (us.getD tries {}) c0 prev (tries != 0) = r at htry
    cases r with
    | differ m c => exact ih (State.Canon.recordMismatch htry)
    | done n c extra => exact Cpu.Canon.noteTransientIf htry
    | exc e c => exact Cpu.Canon.noteTransientIf htry
    | wait x c began => exact htry
    | fault f => trivial

theorem leaveFirst_canon {body : Body} {w x} {c c' : Cpu} (h : c.s.Canon) (e : leaveFirst body w c = some (x, c')) : c'.s.Canon := by
  unfold leaveFirst at e
  split at e
  · cases e
    exact h.upd
  · cases e
  · cases e

/-- What forming the line set of a pair leaves, whether the set is held or waited for, is in canonical form. -/
def FormCanon : Except (WaitCause × Cpu) Cpu → Prop
  | .error (_, c) | .ok c => c.s.Canon

theorem FormCanon.formSet {body : Body} {w env} {c : Cpu} (h : c.s.Canon) : FormCanon (formSet body w env c) := by
  unfold Machine.formSet
  extract_lets _ at' r
  have hat : ∀ s, (at' s).s.Canon := fun _ => h.upd
  clear_value at' r
  split
  · exact hat _
  · exact hat _
  all_goals
    split
    · exact hat _
    · split
      · exact hat _
      · exact hat _

theorem PairEnd.Canon.runPair {body w env us began} {c : Cpu} (hb : body.Canon) (h : c.s.Canon) :
    (runPair body w env us began c).Canon := by
  unfold Machine.runPair
  extract_lets
  split
  · exact .pairTries hb h h
  · split
    · rename_i e1
      exact leaveFirst_canon h e1
    · have hset : FormCanon (Machine.formSet body w env c) := .formSet h
      split
      · rename_i e1
        rw [e1] at hset
        exact hset
      · rename_i e1
        rw [e1] at hset
        exact .pairTries hb hset hset

theorem OkCanon.runRefired {b body w env us began} {c : Cpu} (hb : body.Canon) (h : c.s.Canon) :
    OkCanon (State.runRefired b body w env us began c) := by
  unfold State.runRefired
  extract_lets keep
  have hkeep : ∀ x c began, c.s.Canon → (keep x c began).Canon := by
    intro x c began h1
    unfold keep
    extract_lets s1
    have hs1 : s1.Canon := by
      cases x with
      | event m d => exact h1.endPair
      | dura r => exact h1.endPair
      | ext x => exact h1
      | leave n => exact h1
      | reserved => exact h1
    exact hs1.withdraw
  clear_value keep
  refine .ite (.ok (hkeep _ _ _ h)) ?_
  have hpair : (Machine.runPair body w env us began c).Canon := .runPair hb h
  generalize Machine.runPair body w env us began c = r at hpair
  cases r with
  | wait x c began => exact .ok (hkeep _ _ _ hpair)
  | fault f => exact .error
  | exc e c => exact .ok (Cpu.Canon.places hpair).takeException
  | done n c extra => exact .complete (Cpu.Canon.settle hpair) (Cpu.Canon.settle hpair)
  | differ m c =>
    have h1 : c.s.Canon := hpair
    exact .ok h1.recordMismatch.endPair.putBank.quarantine

theorem OkCanon.work {b body w env} (hb : body.Canon) (h : s.Canon) : OkCanon (s.work b body w env) := by
  unfold State.work
  extract_lets _ _ _ _ c
  have hc : c.s.Canon := h
  split
  · exact .ok h.withdraw
  · split
    · rename_i e1
      have h1 := Keeps.error (P := Cpu.Canon) e1 .fetchCheck hc
      exact .ok (.ite (Cpu.Canon.places h1).takeException (Cpu.Canon.withdraws h1))
    · rename_i e1
      exact .ok (Cpu.Canon.withdraws (Keeps.error (P := Cpu.Canon) e1 .fetchCheck hc))
    · exact .error
    · rename_i e1
      have h1 := Keeps.ok (P := Cpu.Canon) e1 .fetchCheck hc
      exact .ite (.runRefired hb h1) (.runPlain hb h1)

theorem OkCanon.map {r : Except Fault State} {f : State → State} (h : OkCanon r) (hf : ∀ s, s.Canon → (f s).Canon) :
    OkCanon (r.map f) := by
  cases r with
  | error x => exact .error
  | ok s => exact .ok (hf s (h.get rfl))

theorem OkCanon.issueBank {b body w env} (hb : body.Canon) (h : s.Canon) : OkCanon (s.issueBank b body w env) := by
  unfold State.issueBank
  extract_lets s1
  have hs1 : s1.Canon := h.before
  split
  · exact .ok hs1
  · exact .ite (.map (.work hb hs1) fun _ h1 => h1.upd) (.ok hs1)

/-! ## The bodies of the instructions -/

theorem Body.Canon.both {op f} (h : ∀ m w, Keeps Cpu.Canon (f m w)) : (both op f).Canon := .mk (h _) (h _)

theorem Body.Canon.same {op f} (h : ∀ w, Keeps Cpu.Canon (f w)) : (same op f).Canon := .mk h h

theorem Body.Canon.unassigned {op} : (unassigned op).Canon := .same fun _ => .bind .raiseCode fun _ => .pure

theorem Body.Canon.ite {p : Prop} {i : Decidable p} {a b : Body} (ha : a.Canon) (hb : b.Canon) : (if p then a else b).Canon := by
  split
  · exact ha
  · exact hb

theorem Body.Canon.unlessOther {body : Body} {other} (h : body.Canon) : (body.unlessOther other).Canon := by
  cases other with
  | none => exact h
  | some op => exact .ite h .unassigned

/-- The meaning of every opcode keeps the canonical form. -/
theorem Body.Canon.bodyOf {op w} : (bodyOf op w).Canon := by
  unfold Machine.bodyOf
  split
  · exact .ite (.both fun _ _ => .movPswBody) (.both fun _ _ => .movBody)
  · exact .same fun _ => .leaBody
  · exact .both fun _ _ => .addBody
  · exact .both fun _ _ => .subBody
  · exact .both fun _ _ => .mulBody
  · exact .both fun _ _ => .mulhBody
  · exact .both fun _ _ => .divBody
  · exact .both fun _ _ => .divuBody
  · exact .both fun _ _ => .remBody
  · exact .both fun _ _ => .negBody
  · exact .both fun _ _ => .absBody
  · exact .ite (.both fun _ _ => .andPswBody) (.both fun _ _ => .andBody)
  · exact .ite (.both fun _ _ => .orPswBody) (.both fun _ _ => .orBody)
  · exact .both fun _ _ => .xorBody
  · exact .both fun _ _ => .notBody
  · exact .both fun _ _ => .shlBody
  · exact .both fun _ _ => .shrBody
  · exact .both fun _ _ => .shaBody
  · exact .both fun _ _ => .rotBody
  · exact .both fun _ _ => .cmpBody
  · exact .both fun _ _ => .tstBody
  · exact .same fun _ => .brBody
  · exact .same fun _ => .brcBody
  · exact .same fun _ => .callBody
  · exact .same fun _ => .retBody
  · exact .same fun _ => .repBody
  · exact .both fun _ _ => .addpBody
  · exact .both fun _ _ => .subpBody
  · exact .both fun _ _ => .zappBody
  · exact .both fun _ _ => .cmppBody
  · exact .both fun _ _ => .mulpBody
  · exact .both fun _ _ => .divpBody
  · exact .both fun _ _ => .srppBody
  · exact .both fun _ _ => .tstpBody
  · exact .both fun _ _ => .cvbpBody
  · exact .both fun _ _ => .cvdpBody
  · exact .both fun _ _ => .packBody
  · exact .both fun _ _ => .unpkBody
  · exact .both fun _ _ => .ldaBody
  · exact .both fun _ _ => .staBody
  · exact .both fun _ _ => .movlBody
  · exact .same fun _ => .cmplBody
  · exact .same fun _ => .trlBody
  · exact .same fun _ => .trtlBody
  · exact .same fun _ => .srchBody
  · exact .same fun _ => .editBody
  · exact .same fun _ => .edmkBody
  · exact .both fun _ _ => .postBody
  · exact .same fun _ => .jappBody
  · exact .same fun _ => .durwBody
  · exact .both fun _ _ => .faddBody
  · exact .both fun _ _ => .fsubBody
  · exact .both fun _ _ => .fmulBody
  · exact .both fun _ _ => .fmaBody
  · exact .both fun _ _ => .fdivBody
  · exact .same fun _ => .fsqrtBody
  · exact .both fun _ _ => .fcmpBody
  · exact .both fun _ _ => .fcvtBody
  · exact .both fun _ _ => .dotBody
  · exact .same fun _ => .savehBody
  · exact .same fun _ => .resthBody
  · exact .same fun _ => .sealfBody
  · exact .same fun _ => .retxBody
  · exact .same fun _ => .svcBody
  · exact .same fun _ => .waitBody
  · exact .same fun _ => .signalBody
  · exact .same fun _ => .sendBody
  · exact .same fun _ => .recvBody
  · exact .same fun _ => .pinBody
  · exact .same fun _ => .sampleBody
  · exact .same fun _ => .fenceBody
  · exact .same fun _ => .setkeyBody
  · exact .same fun _ => .testkeyBody
  · exact .unassigned

end Sys2Proof.Machine
end

section
/-!
SUPPORT. Every command keeps the canonical form, and the statement settled with it.
-/

namespace Sys2Proof.Machine

variable {s t : State}

theorem OkCanon.reissue {stove flue env} (h : s.Canon) : OkCanon (s.reissue stove flue env) := by
  unfold State.reissue
  split
  · exact .ok h
  · refine .ite (.ok h) ?_
    split
    · exact .ok h
    · exact .issueBank .bodyOf h

theorem OkCanon.completionTimeout {ctx env} (h : s.Canon) : OkCanon (s.completionTimeout ctx env) := by
  unfold State.completionTimeout
  split
  · exact .ok h
  · split
    · exact .ok h
    · exact .ite (.ok h) (.issueBank .bodyOf h)

/-! ## Alarms inside an instruction -/

theorem Body.Canon.trapRun {t : MicroTrap} : (trapRun t).Canon := by
  unfold Machine.trapRun
  exact .ite (.same fun _ => .dotReads) .bodyOf

/-- What a micro-trap leaves, when there is one, is in canonical form. -/
def TrapCanon (r : Option Trapped) : Prop := ∀ x, r = some x → x.s.Canon

theorem TrapCanon.none : TrapCanon none := fun _ e => by cases e

theorem TrapCanon.some {x : Trapped} (h : x.s.Canon) : TrapCanon (some x) := fun _ e => Option.some.inj e ▸ h

theorem TrapCanon.ite {p : Prop} {i : Decidable p} {a b : Option Trapped} (ha : TrapCanon a) (hb : TrapCanon b) :
    TrapCanon (if p then a else b) := by
  split
  · exact ha
  · exact hb

theorem TrapCanon.trapRoutine {b t env} (h : s.Canon) : TrapCanon (s.trapRoutine b t env) := by
  unfold State.trapRoutine
  split
  · exact .none
  · rename_i c0 e0
    have h0 : c0.s.Canon := Keeps.ok (P := Cpu.Canon) e0 .fetchCheck (State.Canon.trapStart h)
    extract_lets old run
    have hrun : Keeps Cpu.Canon run := by
      unfold run
      clear_value old
      cases old with
      | none => exact .fetched .trapRun
      | some x => exact .onSaved (.fetched .trapRun)
    split
    · exact .none
    · rename_i e1
      have h1 := Keeps.ok (P := Cpu.Canon) e1 hrun h0
      extract_lets
      split
      · exact .none
      · exact .ite .none (.some h1)

theorem TrapCanon.trapGroups {b t env} (h : s.Canon) : TrapCanon (s.trapGroups b t env) := by
  unfold State.trapGroups
  extract_lets total j body
  have hbody : ∀ w, Keeps Cpu.Canon (body w) := fun _ => .ite .savehUpTo .resthUpTo
  refine .ite .none ?_
  split
  · exact .none
  · rename_i e1
    have h1 := Keeps.ok (P := Cpu.Canon) e1 (.bind .fetchCheck fun _ => .fetched (.same hbody)) (State.Canon.trapStart h)
    exact .ite (.some h1) .none

theorem State.Canon.microAlarm {b r t env} (h : s.Canon) : (s.microAlarm b r t env).Canon := by
  unfold State.microAlarm
  refine .ite h ?_
  have hx : TrapCanon (if t.op = 0x600 ∨ t.op = 0x601 then s.trapGroups b t env else s.trapRoutine b t env) :=
    .ite (.trapGroups h) (.trapRoutine h)
  split
  · exact h
  · rename_i x e1
    extract_lets served
    have hserved : served.1.Canon := State.Canon.serve (hx x e1)
    clear_value served
    split
    · rename_i e2
      exact State.Canon.fst_of e2 hserved.takeRecord
    · rename_i e2
      exact State.Canon.enter (State.Canon.upd (State.Canon.fst_of e2 hserved.takeRecord))

theorem State.Canon.takeAlarm {ctx micro env} (h : s.Canon) : (s.takeAlarm ctx micro env).Canon := by
  unfold State.takeAlarm
  split
  · exact h
  · extract_lets s1
    have hs1 : s1.Canon := h.before
    split
    · exact hs1
    · refine .ite hs1 ?_
      split
      · exact hs1
      · cases micro with
        | none => exact hs1.boundaryAlarm
        | some t => exact hs1.microAlarm

/-! ## Every command keeps the canonical form -/

/-- What a command leaves, when it does not stop, is in canonical form. -/
def NextCanon (o : Host.Outcome State Fault Refusal) : Prop := ∀ t, o = .next t → t.Canon

theorem NextCanon.next (h : s.Canon) : NextCanon (.next s) := by
  intro t e
  cases e
  exact h

theorem NextCanon.fault {f : Fault} : NextCanon (.fault f) := fun _ e => by cases e

theorem NextCanon.done (h : t.Canon) : NextCanon (done s t) := .next h.after

theorem NextCanon.outcome {r : Except Fault State} (h : OkCanon r) : NextCanon (outcome s r) := by
  cases r with
  | ok t => exact .done (h.get rfl)
  | error f => exact .fault

theorem NextCanon.ite {p : Prop} {i : Decidable p} {a b : Host.Outcome State Fault Refusal} (ha : NextCanon a) (hb : NextCanon b) :
    NextCanon (if p then a else b) := by
  split
  · exact ha
  · exact hb

theorem NextCanon.issue {body : Body} {i : Issue} (hb : body.Canon) (h : s.Canon) : NextCanon (issue body i s) := by
  unfold Machine.issue
  split
  · exact .next h
  · refine .ite (.next h) ?_
    extract_lets s1
    have hs1 : s1.Canon := h.boundary
    split
    · exact .done hs1
    · exact .outcome (.issueBank hb hs1)

/-- Every command keeps the canonical form. -/
theorem exec_canon (i : Instr) (h : s.Canon) : NextCanon (exec i s) := by
  cases i with
  | mov => exact .issue (.unlessOther (.both fun _ _ => .movBody)) h
  | movPsw => exact .issue (.both fun _ _ => .movPswBody) h
  | andPsw => exact .issue (.both fun _ _ => .andPswBody) h
  | orPsw => exact .issue (.both fun _ _ => .orPswBody) h
  | lea => exact .issue (.same fun _ => .leaBody) h
  | add => exact .issue (.both fun _ _ => .addBody) h
  | sub => exact .issue (.both fun _ _ => .subBody) h
  | mul => exact .issue (.both fun _ _ => .mulBody) h
  | mulh => exact .issue (.both fun _ _ => .mulhBody) h
  | div => exact .issue (.both fun _ _ => .divBody) h
  | divu => exact .issue (.both fun _ _ => .divuBody) h
  | rem => exact .issue (.both fun _ _ => .remBody) h
  | neg => exact .issue (.both fun _ _ => .negBody) h
  | abs => exact .issue (.both fun _ _ => .absBody) h
  | and => exact .issue (.both fun _ _ => .andBody) h
  | or => exact .issue (.both fun _ _ => .orBody) h
  | xor => exact .issue (.both fun _ _ => .xorBody) h
  | not => exact .issue (.both fun _ _ => .notBody) h
  | shl => exact .issue (.both fun _ _ => .shlBody) h
  | shr => exact .issue (.both fun _ _ => .shrBody) h
  | sha => exact .issue (.both fun _ _ => .shaBody) h
  | rot => exact .issue (.both fun _ _ => .rotBody) h
  | cmp => exact .issue (.both fun _ _ => .cmpBody) h
  | tst => exact .issue (.both fun _ _ => .tstBody) h
  | br => exact .issue (.same fun _ => .brBody) h
  | brc => exact .issue (.same fun _ => .brcBody) h
  | call => exact .issue (.same fun _ => .callBody) h
  | ret => exact .issue (.same fun _ => .retBody) h
  | rep => exact .issue (.same fun _ => .repBody) h
  | addp => exact .issue (.both fun _ _ => .addpBody) h
  | subp => exact .issue (.both fun _ _ => .subpBody) h
  | zapp => exact .issue (.both fun _ _ => .zappBody) h
  | cmpp => exact .issue (.both fun _ _ => .cmppBody) h
  | mulp => exact .issue (.both fun _ _ => .mulpBody) h
  | divp => exact .issue (.both fun _ _ => .divpBody) h
  | srpp => exact .issue (.both fun _ _ => .srppBody) h
  | tstp => exact .issue (.both fun _ _ => .tstpBody) h
  | cvbp => exact .issue (.both fun _ _ => .cvbpBody) h
  | cvdp => exact .issue (.both fun _ _ => .cvdpBody) h
  | pack => exact .issue (.both fun _ _ => .packBody) h
  | unpk => exact .issue (.both fun _ _ => .unpkBody) h
  | lda => exact .issue (.both fun _ _ => .ldaBody) h
  | sta => exact .issue (.both fun _ _ => .staBody) h
  | movl => exact .issue (.both fun _ _ => .movlBody) h
  | cmpl => exact .issue (.same fun _ => .cmplBody) h
  | trl => exact .issue (.same fun _ => .trlBody) h
  | trtl => exact .issue (.same fun _ => .trtlBody) h
  | srch => exact .issue (.same fun _ => .srchBody) h
  | edit => exact .issue (.same fun _ => .editBody) h
  | edmk => exact .issue (.same fun _ => .edmkBody) h
  | post => exact .issue (.both fun _ _ => .postBody) h
  | japp => exact .issue (.same fun _ => .jappBody) h
  | durw => exact .issue (.same fun _ => .durwBody) h
  | fadd => exact .issue (.both fun _ _ => .faddBody) h
  | fsub => exact .issue (.both fun _ _ => .fsubBody) h
  | fmul => exact .issue (.both fun _ _ => .fmulBody) h
  | fma => exact .issue (.both fun _ _ => .fmaBody) h
  | fdiv => exact .issue (.both fun _ _ => .fdivBody) h
  | fsqrt => exact .issue (.same fun _ => .fsqrtBody) h
  | fcmp => exact .issue (.both fun _ _ => .fcmpBody) h
  | fcvt => exact .issue (.both fun _ _ => .fcvtBody) h
  | dot => exact .issue (.both fun _ _ => .dotBody) h
  | saveh => exact .issue (.same fun _ => .savehBody) h
  | resth => exact .issue (.same fun _ => .resthBody) h
  | sealf => exact .issue (.same fun _ => .sealfBody) h
  | retx => exact .issue (.same fun _ => .retxBody) h
  | svc => exact .issue (.same fun _ => .svcBody) h
  | wait => exact .issue (.same fun _ => .waitBody) h
  | signal => exact .issue (.same fun _ => .signalBody) h
  | send => exact .issue (.same fun _ => .sendBody) h
  | recv => exact .issue (.same fun _ => .recvBody) h
  | pin => exact .issue (.same fun _ => .pinBody) h
  | unpin => exact .issue (.same fun _ => .pinBody) h
  | sample => exact .issue (.same fun _ => .sampleBody) h
  | fence => exact .issue (.same fun _ => .fenceBody) h
  | setkey => exact .issue (.same fun _ => .setkeyBody) h
  | testkey => exact .issue (.same fun _ => .testkeyBody) h
  | microwordReissue => exact .outcome (.reissue h)
  | damperLeaveGrant => exact .done h.damperGrant
  | lineReservationGrant => exact .done h.grantLine
  | storeBufferDrain => exact .done h.drainOldest
  | lineWriteBack => exact .done h.writeBackLine
  | timerAlarm => exact .done h.timerAlarm
  | waitDeadline => exact .done h.waitDeadline
  | alarmTaken => exact .done h.takeAlarm
  | flueBind => exact .done h.bindFlue
  | timeSliceDue => exact .done h.sliceDue
  | preemption => exact .done h.preempt
  | spill => exact .done h.spillOne
  | refill => exact .done h.refill
  | ctxcmdStart => exact .outcome (.regWrite h)
  | ctxcmdStop => exact .outcome (.regWrite h)
  | ctxcmdEvict => exact .outcome (.regWrite h)
  | ctxcmdPreempt => exact .outcome (.regWrite h)
  | ctxcmdAlarm => exact .outcome (.regWrite h)
  | ctxcmdAttn => exact .outcome (.regWrite h)
  | ctxcmdReset => exact .outcome (.regWrite h)
  | wgcmdEnable => exact .outcome (.regWrite h)
  | wgcmdDisable => exact .outcome (.regWrite h)
  | wgcmdClearCounts => exact .outcome (.regWrite h)
  | manDumpcmd => exact .outcome (.regWrite h)
  | rfcmdQuar => exact .outcome (.regWrite h)
  | emberParityError => exact .done (.ite h.parityError h)
  | rekcmd => exact .outcome (.regWriteWith h)
  | quiesceRequest => exact .outcome (.regWrite h)
  | quiesceAck => exact .done h.quiesceAck
  | quiesceRelease => exact .outcome (.regWrite h)
  | quiesceTimeout => exact .done h.quiesceTimeout
  | registerWrite => exact .ite (.outcome (.regWrite h)) .fault
  | rcRead => exact .ite (.done h.contextLoad) .fault
  | cachectlWbinv => exact .outcome (.regWriteWith h)
  | fktenChange => exact .outcome (.regWrite h)
  | frameReceive => exact .done (h.unlessHeld h.receiveFrame)
  | sendDescriptor => exact .done (h.unlessHeld (.ite h.sendNext h))
  | doorbellSendProducer => exact .done h.ringDoorbell
  | doorbellReceiveTail => exact .done h.ringDoorbell
  | qcmdEnable => exact .outcome (.regWrite h)
  | qcmdDisable => exact .outcome (.regWrite h)
  | qcmdFlush => exact .outcome (.regWrite h)
  | qcmdRelease => exact .outcome (.regWrite h)
  | qcmdRestart => exact .outcome (.regWrite h)
  | rulecmdLoad => exact .outcome (.regWrite h)
  | rulecmdDump => exact .outcome (.regWrite h)
  | statselClr => exact .outcome (.regWrite h)
  | roceSendReceive => exact .done (h.unlessHeld h.roceArrive)
  | rdmaWriteReceive => exact .done (h.unlessHeld h.roceArrive)
  | rdmaReadReceive => exact .done (h.unlessHeld h.roceArrive)
  | roceAckReceive => exact .done (h.unlessHeld h.roceArrive)
  | rcAckTimeout => exact .done (h.unlessHeld h.rcTimeout)
  | mirrorSessionStart => exact .done h.mirrorStart
  | hello => exact .done (h.unlessHeld h.mirrorArrive)
  | helloReply => exact .done (h.unlessHeld h.mirrorArrive)
  | confirm => exact .done (h.unlessHeld h.mirrorArrive)
  | resume => exact .done (h.unlessHeld h.mirrorArrive)
  | records => exact .done (h.unlessHeld h.mirrorArrive)
  | ack => exact .done (h.unlessHeld h.mirrorArrive)
  | close => exact .done (h.unlessHeld h.mirrorArrive)
  | mirrorRecordsSend => exact .done (h.unlessHeld h.recordsSend)
  | mirrorLossTimeout => exact .done (h.unlessHeld h.mirrorTimeout)
  | ptpPpsIn => exact .done h.ppsIn
  | ptpPpsOut => exact .done h.ppsOut
  | belDoorbell => exact .outcome (.regWrite h)
  | chcmdEnable => exact .outcome (.regWrite h)
  | chcmdDisable => exact .outcome (.regWrite h)
  | copy => exact .done (h.unlessHeld h.belOperate)
  | fill => exact .done (h.unlessHeld h.belOperate)
  | gather => exact .done (h.unlessHeld h.belOperate)
  | scatter => exact .done (h.unlessHeld h.belOperate)
  | compare => exact .done (h.unlessHeld h.belOperate)
  | digest => exact .done (h.unlessHeld h.belOperate)
  | crc32c => exact .done (h.unlessHeld h.belOperate)
  | belDescriptorComplete => exact .done (h.unlessHeld h.belComplete)
  | secRandom => exact .done h.secStep
  | secVerify => exact .done h.secStep
  | secQuote => exact .done h.secStep
  | secEncrypt => exact .done h.secStep
  | secDecrypt => exact .done h.secStep
  | secReadcfg => exact .done h.secStep
  | secOpComplete => exact .done (h.unlessHeld h.secComplete)
  | stage => exact .outcome (.regWrite h)
  | sign => exact .outcome (.regWrite h)
  | commit => exact .outcome (.regWriteWith h)
  | clear => exact .outcome (.regWrite h)
  | tpcExpiry => exact .done h.tpcExpire
  | rngHealthFail => exact .done h.rngFail
  | dbgcmdHalt => exact .outcome (.regWrite h)
  | dbgcmdResume => exact .outcome (.regWrite h)
  | dbgcmdStep => exact .outcome (.regWrite h)
  | debugSessionOpen => exact .done h.debugOpen
  | debugAccess => exact .outcome (.debugAccess h)
  | scrubLine => exact .done h.scrub
  | pinctlClr => exact .outcome (.regWrite h)
  | pinctlErase => exact .outcome (.regWrite h)
  | pinctlUnerase => exact .outcome (.regWrite h)
  | failcmd => exact .outcome (.regWrite h)
  | memRetrain => exact .done (.ite h h.failChannel)
  | fxpLinkUp => exact .done h.linkComesUp
  | fxpLinkDown => exact .done h.linkGoesDown
  | cxlDeviceEvent => exact .done h.cxlEvent
  | inboundRead => exact .done h.inbound
  | inboundWrite => exact .done h.inbound
  | inboundConfigRequest => exact .done h.configRequest
  | completionTimeout => exact .outcome (.completionTimeout h)
  | msixcmd => exact .outcome (.regWrite h)
  | claimBeat => exact .outcome (.regWrite h)
  | claimClaim => exact .outcome (.regWrite h)
  | claimRelease => exact .outcome (.regWrite h)
  | todset => exact .outcome (.regWrite h)
  | todstep => exact .outcome (.regWrite h)
  | damperRefill => exact .done h.microsecond
  | thermalSample => exact .done h.thermal
  | overtempTimeout => exact .done h.overtemp
  | thermalTrip => exact .done h.thermalTrip
  | brownout => exact .done h.brownout
  | brownoutRecovery => exact .done h.brownRecovery
  | railfail => exact .done h.railFail
  | refloss => exact .done h.refLoss
  | pllRelock => exact .done h.relock
  | holdoverExpiry => exact .done h.holdoverExpiry
  | pwrcmdOff => exact .outcome (.regWrite h)
  | vsbRise => exact .done h.vsbRise
  | vsbFall => exact .done h.vsbFall
  | corePowerUp => exact .done h.powerUp
  | bootctlRelease => exact .outcome (.regWrite h)
  | porstN => exact .done h.coldReset
  | warmN => exact .done h.requestReset
  | rstcmdStove => exact .outcome (.regWrite h)
  | rstcmdHearth => exact .outcome (.regWrite h)
  | rstcmdWarm => exact .outcome (.regWrite h)
  | rstcmdCold => exact .outcome (.regWrite h)
  | ashcmdClear => exact .outcome (.regWrite h)
  | ident => exact .done h.mgmtIdent
  | ashread => exact .done h.mgmtAshread
  | lockread => exact .done h.mgmtLockread
  | thermread => exact .done h.mgmtThermread
  | masterread => exact .done h.mgmtMasterread
  | mgmtReset => exact .done h.mgmtReset
  | powerdown => exact .done h.mgmtPowerdown
  | mgmtQuote => exact .done h.mgmtQuote
  | cfgrecord => exact .done h.mgmtCfgrecord
  | recovery => exact .done h.mgmtRecovery
  | mgmtDump => exact .done h.mgmtDump
  | portLinkUp => exact .done h.portUpEvent
  | portLinkDown => exact .done h.portDownEvent
  | rngHealthPass => exact .done h.rngPass
  | debugSessionClose => exact .done h.debugClose
  | mantelCoreHalt => exact .done h.haltCore
  | perstNAssert => exact .done h.perstAssert
  | aerError => exact .done h.aerError
  | crcOrFramingError => exact .done h.mgmtBad
  | unknownOp => exact .done h.mgmtUnknown

/-- Every step keeps the canonical form. -/
theorem step_canon (h : s.Canon) : NextCanon (step s) := by
  cases hp : s.pending with
  | nil =>
    rw [step_of_nil hp]
    exact .next h.tick
  | cons i rest =>
    rw [step_of_cons hp]
    exact exec_canon i h.upd

/-- Settles O59: memory and the register pages change through the writes that keep them canonical alone, in every piece of work that a
command is made of. -/
theorem stepsKeepCanonicalForms : Obligations.StepsKeepCanonicalForms := by
  unfold Obligations.StepsKeepCanonicalForms
  intro s t hm hr he
  have ht : t.Canon := step_canon ⟨hm, hr⟩ t he
  exact ⟨ht.mem, ht.regs⟩

end Sys2Proof.Machine
end
